-- ==== Sys2Proof/Word.lean ====
section
/-! DEFINITION. The word types of the VL48 and nothing else (00 R5: bits from 0, little-endian).
Helpers over them stand in Machine/Bits.lean. -/
namespace Sys2Proof

/-- An 8-bit byte of memory. -/
abbrev Byte := BitVec 8
/-- A 16-bit halfword. -/
abbrev Half := BitVec 16
/-- A 32-bit register or memory word. -/
abbrev Word := BitVec 32
/-- A 64-bit value: an address, a lane mask, a cycle count. -/
abbrev Dword := BitVec 64
/-- One bit per lane of a wave, lane l at bit l (00 R7). -/
abbrev Lanes := BitVec 64
/-- One bit per quad of a wave (06 R105). -/
abbrev Quads := BitVec 16

end Sys2Proof
end

