-- ==== Sys2Proof/Machine/Bits.lean ====
section
/-! DEFINITION. Bit-field, byte-order, counting and lane-mask helpers (00 R5, R7). -/
namespace Sys2Proof.Machine

/-- Bits [lo + n - 1 : lo] of a value, as a number. -/
def bits {w : Nat} (x : BitVec w) (lo n : Nat) : Nat := (x.toNat / 2 ^ lo) % 2 ^ n

/-- Replace bits [lo + n - 1 : lo] of a value by the low n bits of another. -/
def putBits {w : Nat} (x : BitVec w) (lo n v : Nat) : BitVec w :=
  let keep := x &&& ~~~(BitVec.ofNat w ((2 ^ n - 1) * 2 ^ lo))
  keep ||| BitVec.ofNat w ((v % 2 ^ n) * 2 ^ lo)

/-- Bit i of a value, false beyond its width. -/
def tbit {w : Nat} (x : BitVec w) (i : Nat) : Bool := x.toNat.testBit i

/-- The mask with exactly the bits of a list set. -/
def maskOf {w : Nat} (l : List Nat) : BitVec w := l.foldl (fun m i => m ||| BitVec.ofNat w (2 ^ i)) 0

/-- The positions below n at which a mask has a one, ascending. -/
def onesBelow {w : Nat} (n : Nat) (m : BitVec w) : List Nat := (List.range n).filter (tbit m)

/-- The lanes of a lane mask, ascending. -/
def lanesOf (m : Lanes) : List Nat := onesBelow 64 m

/-- The lowest lane of a mask, 64 when it has none. -/
def lowestLane (m : Lanes) : Nat := (lanesOf m).headD 64

/-- Number of one bits below position n. -/
def popCount {w : Nat} (x : BitVec w) : Nat := (onesBelow w x).length

/-- Leading zero bits of a value of w bits. -/
def leadingZeros {w : Nat} (x : BitVec w) : Nat := if x = 0 then w else w - 1 - Nat.log2 x.toNat

/-- The lanes l with l/4 in a quad mask. -/
def quadLanes (q : Quads) : Lanes := maskOf ((List.range 64).filter (fun l => tbit q (l / 4)))

/-- The quads in which a lane mask has a lane (QMASK, 06 R105). -/
def quadsOf (m : Lanes) : Quads :=
  maskOf ((List.range 16).filter (fun q => (m.toNat / 2 ^ (4 * q)) % 16 != 0))

/-- The mask of lanes 0 to n - 1. -/
def lowLanes (n : Nat) : Lanes := BitVec.ofNat 64 (2 ^ n - 1)

/-- Little-endian bytes of a number, n of them. -/
def toBytes : Nat → Nat → List Byte
  | 0, _ => []
  | n + 1, v => BitVec.ofNat 8 v :: toBytes n (v / 256)

/-- The number that little-endian bytes stand for. -/
def ofBytes : List Byte → Nat
  | [] => 0
  | b :: bs => b.toNat + 256 * ofBytes bs

/-- The number that big-endian bytes stand for (01 R9: signatures). -/
def ofBytesBE (bs : List Byte) : Nat := ofBytes bs.reverse

/-- The bytes [hi:lo] of a record as a number, bytes beyond its end reading zero. -/
def field (bs : List Byte) (lo hi : Nat) : Nat := ofBytes ((bs.drop lo).take (hi + 1 - lo))

/-- Pad with zero bytes, or cut, to n bytes. -/
def fitBytes (n : Nat) (bs : List Byte) : List Byte := (bs ++ List.replicate (n - bs.length) 0).take n

/-- Sign extension of the low n bits of a number, as an integer. -/
def signed (n v : Nat) : Int :=
  let x := v % 2 ^ n
  if n = 0 then 0 else if x < 2 ^ (n - 1) then (x : Int) else (x : Int) - (2 ^ n : Int)

/-- The w-bit value of an integer, modulo 2^w (08 R137). -/
def wrap (w : Nat) (i : Int) : BitVec w := BitVec.ofInt w i

/-- Ceiling division. -/
def ceilDiv (a b : Nat) : Nat := if b = 0 then 0 else (a + b - 1) / b

/-- The least multiple of b at or above a. -/
def roundUp (a b : Nat) : Nat := ceilDiv a b * b

/-- Replace an element of a list; out of range leaves the list. -/
def setAt {α : Type} (l : List α) (i : Nat) (x : α) : List α := l.set i x

/-- Apply a change to the elements that a test selects. -/
def updateWhere {α : Type} (p : α → Bool) (g : α → α) (l : List α) : List α :=
  l.map (fun x => if p x then g x else x)

/-- Stable insertion of an element before the first that it precedes. -/
def insertBy {α : Type} (lt : α → α → Bool) (x : α) : List α → List α
  | [] => [x]
  | y :: ys => if lt x y then x :: y :: ys else y :: insertBy lt x ys

/-- Stable insertion sort. -/
def sortBy {α : Type} (lt : α → α → Bool) (l : List α) : List α :=
  l.reverse.foldl (fun acc x => (acc.takeWhile (fun y => lt y x)) ++ x :: acc.dropWhile (fun y => lt y x)) []

end Sys2Proof.Machine
end

