-- ==== Sys2Proof/Syntax.lean ====
section
/-! DEFINITION. The operations and events of the VL48: one constructor of Instr per row of
spec/opcode_table.json. An instruction's constructor carries the fields of its 96-bit word
(04 R68); a device event's constructor carries what identifies the event. -/
namespace Sys2Proof

/-- The fields of an instruction word other than OP (04 R68, R69). Operand numbers stay as encoded:
software sees them, and a number outside its class is an instruction that traps (R72). -/
structure Fields where
  /-- GN, [86]: guard negate. -/
  gn : Bool
  /-- GP, [85:83]: guard predicate. -/
  gp : BitVec 3
  /-- D.N, [82]: suppress register write-back. -/
  dn : Bool
  /-- D.REG, [81:71]. -/
  d : BitVec 11
  /-- A.L, [70]. -/
  al : Bool
  /-- A.REG, [69:59]. -/
  a : BitVec 11
  /-- B.L, [58]. -/
  bl : Bool
  /-- B.REG, [57:47]. -/
  b : BitVec 11
  /-- X, [46:15]: IMM, or C and MOD. -/
  x : Word
  /-- RT, [14:12]. -/
  rt : BitVec 3
  /-- RI, [11:9], ignored. -/
  ri : BitVec 3
  /-- WB, [8]: opens a latch window. -/
  wb : Bool
  /-- LW, [7]: the result also goes to latch LOUT. -/
  lw : Bool
  /-- LOUT, [6:4]. -/
  lout : BitVec 3
  /-- STALL, [3:0]. -/
  stall : BitVec 4
  deriving DecidableEq, Repr

/-- A part, named by its core (0-319), its wave slot (port x 16 + slot, 22 R394) and its lowest lane. -/
structure PartRef where
  core : Nat
  slot : Nat
  lane : Nat
  deriving DecidableEq, Repr

/-- A function with a readiness bit (01 R13). -/
inductive Func where
  | cluster (n : Nat)
  | slice (n : Nat)
  | hbm (n : Nat)
  | port (n : Nat)
  | ccore (n : Nat)
  deriving DecidableEq, Repr

/-- An IPv6 address and UDP port (01 R24). -/
structure Endpoint where
  ip : BitVec 128
  port : BitVec 16
  deriving DecidableEq, Repr, Inhabited

/-- A UDP datagram on port 0: its source and its payload, a 32-byte header and the rest (01 R18). -/
structure Datagram where
  src : Endpoint
  bytes : List Byte
  deriving DecidableEq, Repr

/-- A write by control firmware of a control-space register without a row of its own (11 R219), or of
one of the bindings that firmware keeps (11 R221, 21 R383). -/
inductive FwWrite where
  /-- Code-signing key slot (02 R31). -/
  | keySlot (k : Nat) (digest : BitVec 256)
  /-- Slice configuration register (11 R232). -/
  | sliceConfig (slice : Nat) (value : Word)
  /-- Zone permit register (16 R315); only GRANT is writable. -/
  | permits (zone : Nat) (value : Word)
  /-- Peer-window register (21 R383). -/
  | peerWindow (asn window : Nat) (value : Dword)
  /-- A new address space, whose translation record's page firmware maps (11 R221, R241). -/
  | addressSpace (asn : Nat)
  /-- The address space in which a host context's messages are translated. -/
  | hostSpace (ctx asn : Nat)
  /-- The address space and region that an inbound peer context is bound to (21 R383). -/
  | peerContext (pctx asn : Nat) (rcb : Dword)
  deriving DecidableEq, Repr

/-- What a peer request asks of the target (21 R383-R387). -/
inductive PeerOp where
  | load (size : Nat)
  /-- sumget (12 R260): a read of a record, which needs leaf bit A too. -/
  | sumget
  | store (data : List Byte)
  /-- An atomic of 12 R256, by its offset from 0x0E0, with U, operand and new value. -/
  | atomic (op : Nat) (unsigned : Bool) (operand new : Word)
  /-- A deterministic contribution (12 R259): format code and bits. -/
  | contribute (fmt : Nat) (value : Word)
  /-- suminit (12 R258). -/
  | initSum (e0 : Half)
  /-- WS128 records combined into slots that follow one another (13 R267, R387). -/
  | combine (records : List Byte)
  /-- A chunk that an engine job writes, or reads (13 R265, R267). -/
  | put (data : List Byte)
  | get (size : Nat)
  /-- A drain of tile rows (15 R307): DFMT, ADD, XSAT, row stride, the rows. -/
  | drain (dfmt : Nat) (add xsat : Bool) (stride : Nat) (rows : List (List Word))
  deriving DecidableEq, Repr

/-- A request arriving from a peer module on an inbound queue pair (21 R383, R384). -/
structure PeerRequest where
  /-- The port it arrives on. -/
  port : Nat
  pctx : Nat
  id : Nat
  /-- TOWNER of the window that sent it. -/
  owner : Nat
  offset : Nat
  op : PeerOp
  deriving DecidableEq, Repr

/-- What a peer answers: the bytes read or the old value, or a fault (21 R385). -/
inductive PeerResult where
  | ok (data : List Byte)
  | mismatch
  /-- It failed at a byte so far from the request's address; so many bytes of a chunk before it were done, with those that a job
  reads (13 R265). -/
  | fault (off done : Nat) (data : List Byte)
  deriving DecidableEq, Repr

/-- One row of spec/opcode_table.json. -/
inductive Instr where
  /-- R9. At power-on or module reset, each control core's boot ROM verifies its firmware image and records its result in CCAUSE. -/
  | powerOnBoot (images : List (List Byte))
  /-- R10. A function's self-test ends in a pass, and the function's readiness bit is set. -/
  | selftestPass (fs : List Func)
  /-- R10. A function's self-test ends in a failure, which is written to the bring-up fault record with cause SELFTEST_FAIL. -/
  | selftestFail (fs : List Func)
  /-- R11. A message that arrives on port 0 in recovery state is answered with the READY message and is not applied. -/
  | recoveryReply (d : Datagram)
  /-- R44. A host LAUNCH message is applied in SEQ order and its launch record is handed to the partition manager for validation. -/
  | launch (d : Datagram)
  /-- R20. A host PUT writes its payload at ADDR page by page under the alignment, length, range, translation and check-value checks. -/
  | put (d : Datagram)
  /-- R20. A host GET reads up to 8,192 bytes at ADDR under the same checks and returns them in a GET_REPLY. -/
  | get (d : Datagram)
  /-- R17. A host ATTEST carrying a nonce is answered with an ATTEST_REPLY signed by the identity key. -/
  | attest (d : Datagram)
  /-- R23. A CTX_RESET is applied on arrival; it discards the messages held for its context and sets LAST to its own SEQ. -/
  | ctxReset (d : Datagram)
  /-- R412. A launch record with OBJECT 0 and KEY 0xFFFF_FFFF tears down every earlier launch of a region subtree. -/
  | teardown (d : Datagram)
  /-- R62. The manager chooses a placeable queue and places its head workgroup on the first core that fits. -/
  | placeWorkgroup
  /-- R410. A workgroup whose waves, jobs and passes are done publishes: it performs its accesses at .sys, raises PUBLISHED and frees its footprint. -/
  | wgPublish (core bar : Nat)
  /-- R411. A launch whose workgroups have all published ends: STATE 1 is written, its future completes and COMPLETE is sent. -/
  | launchEnd (acc : Nat)
  /-- R118. A part that has been ready for 64 consecutive cycles without issuing ranks first at its port. -/
  | issueStarvation (p : PartRef)
  /-- R247. A global load's data returns and writes its lanes, clearing the scoreboard. -/
  | globalLoadReturn (core slot load : Nat) (quads : Quads)
  /-- R120. A part stalled on a partly returned global load splits into a ready part and a waiting part, and a MISS entry is pushed. -/
  | missSplit (p : PartRef)
  /-- R253. The head entry of a wave's store queue leaves once its ordering conditions hold, and is performed. -/
  | storeQueueLeave (core slot : Nat)
  /-- R124. A started rejoin entry's DEADLINE reaches zero, and its parked parts pass through unfused. -/
  | rejoinExpire (core slot entry : Nat)
  /-- R126. Parts of a wave stalled at the same PC with the same innermost entry fuse into one part. -/
  | forcedFuse (core slot : Nat)
  /-- R233. A read-combining entry closes after COMBINE_WIN slice cycles and sends one multicast reply. -/
  | combineWindowClose (entry : Nat)
  /-- R262. An engine command leaves the store queue, and the job is accepted and its parameters and ranges are checked. -/
  | engAccept (core slot : Nat)
  /-- R265. An engine job performs one chunk of its destination and makes its bobbin arrival. -/
  | engChunk (core job : Nat)
  /-- R272. An engine job ends: its last write is performed, its locks drop, its future completes and its final bobbin count is made. -/
  | engJobEnd (core job : Nat)
  /-- R279. The cluster's Carder takes its next accepted sort job and reads, sorts and writes it back. -/
  | carderJobStart (cluster : Nat)
  /-- R239. Control firmware changes a leaf through a broadcast invalidation and completes it by raising EPOCH. -/
  | translationChange (asn : Nat) (va leaf : Dword)
  /-- R219. Control firmware writes a control-space register that has no row of its own. -/
  | fwRegisterWrite (w : FwWrite)
  /-- R300. A queued mload.b reads its block, aligns the columns and forms the correction registers once the bank's earlier passes are done. -/
  | mloadExecute (core entry : Nat)
  /-- R291. An A row, or a ballast row, enters the array at a cadence slot. -/
  | arrayRowEntry (core : Nat)
  /-- R292. A tile row is written 138 cycles after its row entered, and the pass's future completes after its last row. -/
  | tileRowWrite (core : Nat)
  /-- R307. A drain reads its tile at its array-queue position and writes or adds it onto its destination as one update. -/
  | drainExecute (core entry : Nat)
  /-- R308. A drain's writes are performed, its future completes and it makes its bobbin arrival. -/
  | drainComplete (core entry : Nat)
  /-- R314. Every 1,024 cycles the reef controller sets INTERVAL from its power estimate. -/
  | cadenceEval (core : Nat)
  /-- R316. At a charging boundary a cluster claims a sprint permit, and the Spinnaker grants or refuses it. -/
  | sprintClaim (zone : Nat) (lower upper : Bool)
  /-- R317. After 2,048 cycles at 1.8 GHz, a falling cluster drops to 1.6 GHz and enters cool-down. -/
  | fallStepEnd (cluster : Nat)
  /-- R317. A cluster's cool-down of 262,144 cycles, lengthened by any debt, ends. -/
  | coolDownEnd (cluster : Nat)
  /-- R318. Each 16,384 cycles at or below nominal add one permit to the zone's POOL, up to GRANT. -/
  | permitCredit (cluster : Nat)
  /-- R319. Every 10,240 cycles of a ramp window, INTERVAL doubles, up to 64. -/
  | rampIntervalDouble (core : Nat)
  /-- R319. A ramp window ends after 64,000 cycles. -/
  | rampWindowEnd (core : Nat)
  /-- R320. Each 8,192 ramp cycles above the module cap draw a permit from POOL, or add debt. -/
  | rampCharge (core : Nat)
  /-- R335. A flush batch that touches a screen tile creates a fragment workgroup, which copies in the colour tile. -/
  | fragmentWgCreate (batch : Nat)
  /-- R335. After a fragment workgroup's last wave ends, its colour tile is written back to the target. -/
  | colourTileWriteback (core bar : Nat)
  /-- R376. A bin's timer expires, and a node wave is launched with the records the bin holds. -/
  | binTimerExpire (bin : Nat)
  /-- R380. A spawn leaves the store queue, and its records are appended to the bin or handed to the manager as device launches. -/
  | spawnAppend (core slot : Nat)
  /-- R382. A qclose leaves the store queue, so that the wave stops being an open producer of the bin. -/
  | qcloseLeave (core slot : Nat)
  /-- R380. A spawn stalled on bin room for 1,048,576 cycles raises QUEUE_STALL. -/
  | queueStall (p : PartRef)
  /-- R372. A workgroup's gbar arrival message reaches the Capstan counter, which releases the grid when ARRIVED equals EXPECT. -/
  | gbarArrival (core bar : Nat)
  /-- R372. The Capstan's release broadcast reaches a core and opens that workgroup's instance. -/
  | gbarRelease (core bar : Nat)
  /-- R383. A peer request arrives at the target, which translates it, checks it and applies it or faults it. -/
  | peerInboundRequest (r : PeerRequest)
  /-- R384. A peer reply or acknowledgement arrives and completes the initiating access or chunk. -/
  | peerReply (id : Nat) (r : PeerResult)
  /-- R385. PEER_TMO passes with no reply, and the access fails with PEER_TIMEOUT and a cancel is sent. -/
  | peerTimeout (id : Nat)
  /-- R385. A cancel reaches the target, which discards the request if it has not been applied. -/
  | peerCancel (pctx id : Nat)
  /-- R400. A resident context of higher priority with a ready part becomes active. -/
  | contextPrioritySwitch (core : Nat)
  /-- R400. After 512 cycles with no ready part, the core switches to another resident context. -/
  | contextIdleSwitch (core : Nat)
  /-- R400. A quantum of 65,536 cycles ends, and the core rotates among contexts of equal priority. -/
  | contextQuantum (core : Nat)
  /-- R401. The manager pre-empts a lower-priority context to fit a placeable queue. -/
  | preempt
  /-- R402. A streamed-out context returns to its core and reloads its B banks. -/
  | contextReturn (core region : Nat)
  /-- R404. DBGCMD OP 1 halts every part of a wave. -/
  | dbgHalt (core : Nat) (cmd : Dword)
  /-- R404. DBGCMD OP 2 resumes a halted wave. -/
  | dbgResume (core : Nat) (cmd : Dword)
  /-- R405. DBGCMD OP 3 issues one instruction, or one latch window, of a halted part and halts it again with SINGLE_STEP. -/
  | dbgStep (core : Nat) (cmd : Dword)
  /-- R404. DBGCMD OP 4 releases a frozen wave. -/
  | dbgReleaseWave (core : Nat) (cmd : Dword)
  /-- R404. DBGCMD OP 5 completes a frozen job with its PROT_ cause. -/
  | dbgReleaseJob (core : Nat) (cmd : Dword)
  /-- R404. DBGCMD with an undefined OP gives RESULT 2. -/
  | dbgInvalidOp (core : Nat) (cmd : Dword)
  /-- R404. A write of DBGCTL sets or clears CATCH. -/
  | dbgctlWrite (core : Nat) (value : Word)
  /-- R99. A fetched word with an unassigned opcode raises ILLEGAL_OPCODE. -/
  | unassignedOpcode (w : BitVec 96)
  /-- R183. Advances the PC, observing STALL. -/
  | nop (f : Fields)
  /-- R171. Per-lane relative branch. -/
  | bra (f : Fields)
  /-- R172. Pushes a rejoin entry, then splits, diverges or moves uniformly. -/
  | braS (f : Fields)
  /-- R174. Per-lane branch to an absolute index from an s register. -/
  | brx (f : Fields)
  /-- R173. Single-effect relative jump of the whole path. -/
  | jmp (f : Fields)
  /-- R175. Saves PC + 1 and branches to a relative target. -/
  | call (f : Fields)
  /-- R175. Saves PC + 1 and branches to the index in an s register. -/
  | callIndirect (f : Fields)
  /-- R176. Return, acting as brx. -/
  | ret (f : Fields)
  /-- R123. Arrives at the matching rejoin entry, parking, fusing or passing through. -/
  | rejoin (f : Fields)
  /-- R127. Stalls until every part of the wave stands at fuse, then fuses them all. -/
  | fuse (f : Fields)
  /-- R179. A switch point between paths. -/
  | yield (f : Fields)
  /-- R180. Ends the active guarded lanes of the running path. -/
  | exit (f : Fields)
  /-- R181. Ends every lane of the wave. -/
  | kill (f : Fields)
  /-- R184. Raises BREAKPOINT with IMM as detail. -/
  | bpt (f : Fields)
  /-- R184. Raises TRAP_INSTR with IMM as detail. -/
  | trap (f : Fields)
  /-- R396. Restores s0, s1 and $exec from the trap record and resumes at RESUME. -/
  | trapret (f : Fields)
  /-- R162. Per-lane predicate AND. -/
  | pand (f : Fields)
  /-- R162. Per-lane predicate OR. -/
  | por (f : Fields)
  /-- R162. Per-lane predicate XOR. -/
  | pxor (f : Fields)
  /-- R162. Per-lane predicate NOT. -/
  | pnot (f : Fields)
  /-- R163. Mask AND. -/
  | mand (f : Fields)
  /-- R163. Mask OR. -/
  | mor (f : Fields)
  /-- R163. Mask XOR. -/
  | mxor (f : Fields)
  /-- R165. Moves between masks, predicates, $exec and s2 groups. -/
  | mmov (f : Fields)
  /-- R163. Counts the one bits of a mask. -/
  | mpopc (f : Fields)
  /-- R163. Gives the index of a mask's lowest one bit. -/
  | mffs (f : Fields)
  /-- R166. Saves $exec into a mask and narrows $exec by another mask. -/
  | mexec (f : Fields)
  /-- R167. Reads a special register half into an s register. -/
  | srd (f : Fields)
  /-- R168. Writes a half of $exec under R164. -/
  | swrExec (f : Fields)
  /-- R168. Writes a half of $resid after earlier accesses have reported. -/
  | swrResid (f : Fields)
  /-- R168. Writes $pstat CODE after earlier peer accesses have reported. -/
  | swrPstat (f : Fields)
  /-- R169. Reads all 64 bits of $cyc indivisibly. -/
  | scyc (f : Fields)
  /-- R156. Scalar add. -/
  | sadd (f : Fields)
  /-- R156. Scalar subtract. -/
  | ssub (f : Fields)
  /-- R156. Scalar multiply, low word. -/
  | smul (f : Fields)
  /-- R157. Scalar multiply, high word, signed or unsigned. -/
  | smulh (f : Fields)
  /-- R157. Scalar multiply-add. -/
  | smad (f : Fields)
  /-- R156. Scalar AND. -/
  | sand (f : Fields)
  /-- R156. Scalar OR. -/
  | sor (f : Fields)
  /-- R156. Scalar XOR. -/
  | sxor (f : Fields)
  /-- R158. Scalar NOT. -/
  | snot (f : Fields)
  /-- R156. Scalar shift left. -/
  | sshl (f : Fields)
  /-- R156. Scalar logical shift right. -/
  | sshr (f : Fields)
  /-- R156. Scalar arithmetic shift right. -/
  | ssra (f : Fields)
  /-- R156. Scalar signed minimum. -/
  | smin (f : Fields)
  /-- R156. Scalar signed maximum. -/
  | smax (f : Fields)
  /-- R156. Scalar unsigned minimum. -/
  | sminu (f : Fields)
  /-- R156. Scalar unsigned maximum. -/
  | smaxu (f : Fields)
  /-- R158. Counts leading zeros. -/
  | sclz (f : Fields)
  /-- R158. Counts one bits. -/
  | spopc (f : Fields)
  /-- R159. Scalar bit-field extract. -/
  | sbfe (f : Fields)
  /-- R159. Scalar bit-field insert. -/
  | sbfi (f : Fields)
  /-- R158. Scalar move. -/
  | smov (f : Fields)
  /-- R158. Loads a 32-bit immediate into an s register. -/
  | sli (f : Fields)
  /-- R160. Selects A or B by a predicate bit of the lowest active lane. -/
  | ssel (f : Fields)
  /-- R161. Scalar compare into a predicate. -/
  | scmp (f : Fields)
  /-- R98. Immediate form of sadd. -/
  | saddImm (f : Fields)
  /-- R98. Immediate form of ssub. -/
  | ssubImm (f : Fields)
  /-- R98. Immediate form of smul. -/
  | smulImm (f : Fields)
  /-- R157. Immediate form of smulh, signed. -/
  | smulhImm (f : Fields)
  /-- R157. Immediate form of smad, with IMM as C. -/
  | smadImm (f : Fields)
  /-- R98. Immediate form of sand. -/
  | sandImm (f : Fields)
  /-- R98. Immediate form of sor. -/
  | sorImm (f : Fields)
  /-- R98. Immediate form of sxor. -/
  | sxorImm (f : Fields)
  /-- R98. Immediate form of sshl. -/
  | sshlImm (f : Fields)
  /-- R98. Immediate form of sshr. -/
  | sshrImm (f : Fields)
  /-- R98. Immediate form of ssra. -/
  | ssraImm (f : Fields)
  /-- R98. Immediate form of smin. -/
  | sminImm (f : Fields)
  /-- R98. Immediate form of smax. -/
  | smaxImm (f : Fields)
  /-- R98. Immediate form of sminu. -/
  | sminuImm (f : Fields)
  /-- R98. Immediate form of smaxu. -/
  | smaxuImm (f : Fields)
  /-- R159. Immediate form of sbfe, zero-extending. -/
  | sbfeImm (f : Fields)
  /-- R159. Immediate form of sbfi, with IMM as C. -/
  | sbfiImm (f : Fields)
  /-- R190. Vector integer add. -/
  | vadd (f : Fields)
  /-- R190. Vector integer subtract. -/
  | vsub (f : Fields)
  /-- R190. Vector multiply, low word. -/
  | vmul (f : Fields)
  /-- R190. Vector multiply, high word. -/
  | vmulh (f : Fields)
  /-- R192. Vector multiply-add. -/
  | vmad (f : Fields)
  /-- R190. Vector AND. -/
  | vand (f : Fields)
  /-- R190. Vector OR. -/
  | vor (f : Fields)
  /-- R190. Vector XOR. -/
  | vxor (f : Fields)
  /-- R191. Vector NOT. -/
  | vnot (f : Fields)
  /-- R190. Vector shift left. -/
  | vshl (f : Fields)
  /-- R190. Vector logical shift right. -/
  | vshr (f : Fields)
  /-- R190. Vector arithmetic shift right. -/
  | vsra (f : Fields)
  /-- R190. Vector integer minimum. -/
  | vmin (f : Fields)
  /-- R190. Vector integer maximum. -/
  | vmax (f : Fields)
  /-- R191. Vector absolute value. -/
  | vabs (f : Fields)
  /-- R191. Vector negation. -/
  | vneg (f : Fields)
  /-- R191. Vector count of leading zeros. -/
  | vclz (f : Fields)
  /-- R191. Vector population count. -/
  | vpopc (f : Fields)
  /-- R193. Vector bit-field extract. -/
  | vbfe (f : Fields)
  /-- R193. Vector bit-field insert. -/
  | vbfi (f : Fields)
  /-- R196. Per-lane select by predicate. -/
  | vsel (f : Fields)
  /-- R191. Vector move. -/
  | vmov (f : Fields)
  /-- R194. Byte permute. -/
  | vprmt (f : Fields)
  /-- R195. Four-byte dot product with accumulate. -/
  | vdot4 (f : Fields)
  /-- R195. Sum of absolute byte differences. -/
  | vsad (f : Fields)
  /-- R197. Vector integer compare into a predicate. -/
  | vcmp (f : Fields)
  /-- R204. Element format conversion. -/
  | vcvt (f : Fields)
  /-- R209. Quantises one MX block per lane. -/
  | vpackMx (f : Fields)
  /-- R209. Quantises one PX block per lane. -/
  | vpackPx (f : Fields)
  /-- R210. Expands one MX block per lane. -/
  | vunpackMx (f : Fields)
  /-- R210. Expands one PX block per lane. -/
  | vunpackPx (f : Fields)
  /-- R206. Copies bits and sets the named tag. -/
  | vretag (f : Fields)
  /-- R98. Immediate form of vadd. -/
  | vaddImm (f : Fields)
  /-- R98. Immediate form of vsub. -/
  | vsubImm (f : Fields)
  /-- R98. Immediate form of vmul. -/
  | vmulImm (f : Fields)
  /-- R98. Immediate form of vmulh, signed. -/
  | vmulhImm (f : Fields)
  /-- R192. Immediate form of vmad, with IMM as C. -/
  | vmadImm (f : Fields)
  /-- R98. Immediate form of vand. -/
  | vandImm (f : Fields)
  /-- R98. Immediate form of vor. -/
  | vorImm (f : Fields)
  /-- R98. Immediate form of vxor. -/
  | vxorImm (f : Fields)
  /-- R98. Immediate form of vshl. -/
  | vshlImm (f : Fields)
  /-- R98. Immediate form of vshr. -/
  | vshrImm (f : Fields)
  /-- R98. Immediate form of vsra. -/
  | vsraImm (f : Fields)
  /-- R98. Immediate form of vmin, signed. -/
  | vminImm (f : Fields)
  /-- R98. Immediate form of vmax, signed. -/
  | vmaxImm (f : Fields)
  /-- R193. Immediate form of vbfe. -/
  | vbfeImm (f : Fields)
  /-- R193. Immediate form of vbfi. -/
  | vbfiImm (f : Fields)
  /-- R191. Immediate form of vmov. -/
  | vmovImm (f : Fields)
  /-- R194. Immediate form of vprmt. -/
  | vprmtImm (f : Fields)
  /-- R195. Immediate form of vdot4, signed. -/
  | vdot4Imm (f : Fields)
  /-- R195. Immediate form of vsad. -/
  | vsadImm (f : Fields)
  /-- R212. Shuffle by lane index within a segment. -/
  | vshflIdx (f : Fields)
  /-- R212. Shuffle up within a segment. -/
  | vshflUp (f : Fields)
  /-- R212. Shuffle down within a segment. -/
  | vshflDown (f : Fields)
  /-- R212. Shuffle by XOR of the lane index. -/
  | vshflXor (f : Fields)
  /-- R212. Broadcasts one lane to the whole wave. -/
  | vshflIdxImm (f : Fields)
  /-- R213. Reads one lane into an s register. -/
  | vreadl (f : Fields)
  /-- R213. Immediate form of vreadl. -/
  | vreadlImm (f : Fields)
  /-- R213. Writes one lane from an s register. -/
  | vwritel (f : Fields)
  /-- R213. Immediate form of vwritel. -/
  | vwritelImm (f : Fields)
  /-- R214. OR vote over a segment. -/
  | vvoteAny (f : Fields)
  /-- R214. AND vote over a segment. -/
  | vvoteAll (f : Fields)
  /-- R214. Ballot of a predicate into a mask. -/
  | vvoteBallot (f : Fields)
  /-- R215. Segment sum. -/
  | vredadd (f : Fields)
  /-- R215. Segment maximum. -/
  | vredmax (f : Fields)
  /-- R215. Segment prefix sum. -/
  | vscan (f : Fields)
  /-- R216. Lowest lane holding an equal value. -/
  | vmatch (f : Fields)
  /-- R198. FP32 add. -/
  | vfadd (f : Fields)
  /-- R198. FP32 subtract. -/
  | vfsub (f : Fields)
  /-- R198. FP32 multiply. -/
  | vfmul (f : Fields)
  /-- R198. FP32 fused multiply-add. -/
  | vfma (f : Fields)
  /-- R199. FP32 minimum. -/
  | vfmin (f : Fields)
  /-- R199. FP32 maximum. -/
  | vfmax (f : Fields)
  /-- R200. FP32 compare into a predicate. -/
  | vfcmp (f : Fields)
  /-- R201. FP32 classification. -/
  | vfclass (f : Fields)
  /-- R198. Scales by a power of two. -/
  | vfscale (f : Fields)
  /-- R201. Extracts the exponent. -/
  | vfexp (f : Fields)
  /-- R201. Rounds to an integral value. -/
  | vfrnd (f : Fields)
  /-- R203. Reciprocal. -/
  | vrcp (f : Fields)
  /-- R203. Reciprocal square root. -/
  | vrsq (f : Fields)
  /-- R203. Square root. -/
  | vsqrt (f : Fields)
  /-- R203. Base-2 exponential. -/
  | vexp2 (f : Fields)
  /-- R203. Base-2 logarithm. -/
  | vlog2 (f : Fields)
  /-- R203. Sine in turns. -/
  | vsin (f : Fields)
  /-- R203. Cosine in turns. -/
  | vcos (f : Fields)
  /-- R98. Immediate form of vfadd. -/
  | vfaddImm (f : Fields)
  /-- R98. Immediate form of vfsub. -/
  | vfsubImm (f : Fields)
  /-- R98. Immediate form of vfmul. -/
  | vfmulImm (f : Fields)
  /-- R98. Immediate form of vfma, with IMM as C. -/
  | vfmaImm (f : Fields)
  /-- R98. Immediate form of vfmin. -/
  | vfminImm (f : Fields)
  /-- R98. Immediate form of vfmax. -/
  | vfmaxImm (f : Fields)
  /-- R98. Immediate form of vfscale. -/
  | vfscaleImm (f : Fields)
  /-- R202. Packed FP16 add. -/
  | vfaddH2 (f : Fields)
  /-- R202. Packed FP16 subtract. -/
  | vfsubH2 (f : Fields)
  /-- R202. Packed FP16 multiply. -/
  | vfmulH2 (f : Fields)
  /-- R202. Packed FP16 fused multiply-add. -/
  | vfmaH2 (f : Fields)
  /-- R202. Packed FP16 minimum. -/
  | vfminH2 (f : Fields)
  /-- R202. Packed FP16 maximum. -/
  | vfmaxH2 (f : Fields)
  /-- R202. Packed FP16 compare. -/
  | vfcmpH2 (f : Fields)
  /-- R202. Immediate form of vfadd.h2. -/
  | vfaddH2Imm (f : Fields)
  /-- R202. Immediate form of vfsub.h2. -/
  | vfsubH2Imm (f : Fields)
  /-- R202. Immediate form of vfmul.h2. -/
  | vfmulH2Imm (f : Fields)
  /-- R202. Immediate form of vfma.h2. -/
  | vfmaH2Imm (f : Fields)
  /-- R202. Immediate form of vfmin.h2. -/
  | vfminH2Imm (f : Fields)
  /-- R202. Immediate form of vfmax.h2. -/
  | vfmaxH2Imm (f : Fields)
  /-- R202. Packed BF16 add. -/
  | vfaddB2 (f : Fields)
  /-- R202. Packed BF16 subtract. -/
  | vfsubB2 (f : Fields)
  /-- R202. Packed BF16 multiply. -/
  | vfmulB2 (f : Fields)
  /-- R202. Packed BF16 fused multiply-add. -/
  | vfmaB2 (f : Fields)
  /-- R202. Packed BF16 minimum. -/
  | vfminB2 (f : Fields)
  /-- R202. Packed BF16 maximum. -/
  | vfmaxB2 (f : Fields)
  /-- R202. Packed BF16 compare. -/
  | vfcmpB2 (f : Fields)
  /-- R202. Immediate form of vfadd.b2. -/
  | vfaddB2Imm (f : Fields)
  /-- R202. Immediate form of vfsub.b2. -/
  | vfsubB2Imm (f : Fields)
  /-- R202. Immediate form of vfmul.b2. -/
  | vfmulB2Imm (f : Fields)
  /-- R202. Immediate form of vfma.b2. -/
  | vfmaB2Imm (f : Fields)
  /-- R202. Immediate form of vfmin.b2. -/
  | vfminB2Imm (f : Fields)
  /-- R202. Immediate form of vfmax.b2. -/
  | vfmaxB2Imm (f : Fields)
  /-- R368. Arrives at the workgroup barrier. -/
  | wbar (f : Fields)
  /-- R372. Arrives at the grid barrier. -/
  | gbar (f : Fields)
  /-- R276. Arms a bobbin with a target. -/
  | barm (f : Fields)
  /-- R276. Immediate form of barm. -/
  | barmImm (f : Fields)
  /-- R276. Makes a bobbin arrival as a release at .wg. -/
  | bsig (f : Fields)
  /-- R276. Immediate form of bsig. -/
  | bsigImm (f : Fields)
  /-- R276. Blocks until a bobbin's GEN differs from B. -/
  | bwait (f : Fields)
  /-- R276. Immediate form of bwait. -/
  | bwaitImm (f : Fields)
  /-- R270. Blocks until a future is COMPLETE. -/
  | fwait (f : Fields)
  /-- R270. Reads a future's status word. -/
  | ftest (f : Fields)
  /-- R271. Cancels a pending engine job and returns its bytes done. -/
  | fcancel (f : Fields)
  /-- R270. Moves a checked handle from an s register into an h register. -/
  | hmovToH (f : Fields)
  /-- R270. Moves a handle's 32 bits into an s register. -/
  | hmovToS (f : Fields)
  /-- R265. Issues a copy job from global memory into the scratchpad. -/
  | engCopyIn (f : Fields)
  /-- R265. Issues a copy job from the scratchpad to global memory. -/
  | engCopyOut (f : Fields)
  /-- R265. Issues a strided two-dimensional copy job. -/
  | engCopy2d (f : Fields)
  /-- R265. Issues a converting copy job. -/
  | engCopyCvt (f : Fields)
  /-- R265. Issues a fill job. -/
  | engFill (f : Fields)
  /-- R265. Issues an indexed row-gather job. -/
  | engGatherRows (f : Fields)
  /-- R279. Issues a Carder key sort. -/
  | engSortKeys (f : Fields)
  /-- R279. Issues a Carder key-value sort. -/
  | engSortKv (f : Fields)
  /-- R266. Asks for residency of a range of pages. -/
  | engPgreq (f : Fields)
  /-- R267. Issues a put to a peer device. -/
  | engPutPeer (f : Fields)
  /-- R267. Issues a get from a peer device. -/
  | engGetPeer (f : Fields)
  /-- R267. Combines local WS128 records into peer slots. -/
  | engReducePeer (f : Fields)
  /-- R267. Combines WS128 source slots into destination slots. -/
  | engSumFlush (f : Fields)
  /-- R263. An eng with an undefined FN completes at once with BAD_FUNCTION. -/
  | engBadFunction (f : Fields)
  /-- R380. Sends one record through a queue register. -/
  | spawn (f : Fields)
  /-- R380. Sends one record per participating lane. -/
  | spawnLanes (f : Fields)
  /-- R381. Reads the count of a queue register's pending records or launches. -/
  | qcount (f : Fields)
  /-- R382. Closes a queue register for the wave. -/
  | qclose (f : Fields)
  /-- R247. Contiguous global vector load. -/
  | vld (f : Fields)
  /-- R247. Lane-address global vector load. -/
  | vldLane (f : Fields)
  /-- R250. Contiguous global vector store. -/
  | vst (f : Fields)
  /-- R250. Lane-address global vector store. -/
  | vstLane (f : Fields)
  /-- R247. Contiguous tagged global load. -/
  | vldt (f : Fields)
  /-- R247. Lane-address tagged global load. -/
  | vldtLane (f : Fields)
  /-- R249. Block load from global memory. -/
  | vldBlk (f : Fields)
  /-- R249. Block store to global memory. -/
  | vstBlk (f : Fields)
  /-- R251. Contiguous prefetch of lines. -/
  | vprefetch (f : Fields)
  /-- R251. Lane-address prefetch of lines. -/
  | vprefetchLane (f : Fields)
  /-- R247. Contiguous scratchpad load. -/
  | vldSp (f : Fields)
  /-- R247. Lane-address scratchpad load. -/
  | vldSpLane (f : Fields)
  /-- R250. Contiguous scratchpad store. -/
  | vstSp (f : Fields)
  /-- R250. Lane-address scratchpad store. -/
  | vstSpLane (f : Fields)
  /-- R247. Contiguous tagged scratchpad load. -/
  | vldtSp (f : Fields)
  /-- R247. Lane-address tagged scratchpad load. -/
  | vldtSpLane (f : Fields)
  /-- R249. Block load from the scratchpad. -/
  | vldBlkSp (f : Fields)
  /-- R249. Block store to the scratchpad. -/
  | vstBlkSp (f : Fields)
  /-- R248. Scalar global load. -/
  | sld (f : Fields)
  /-- R250. Scalar global store. -/
  | sst (f : Fields)
  /-- R248. Scalar load through the constant cache. -/
  | sldc (f : Fields)
  /-- R248. Scalar scratchpad load. -/
  | sldSp (f : Fields)
  /-- R250. Scalar scratchpad store. -/
  | sstSp (f : Fields)
  /-- R252. Drops the core's L1 line holding an address. -/
  | cctlInv (f : Fields)
  /-- R252. Drops every L1 line of the region's ASN in the core. -/
  | cctlInvall (f : Fields)
  /-- R252. Drops the constant cache and the resource-record cache. -/
  | cctlInvc (f : Fields)
  /-- R252. Marks an L2 line as next to be replaced. -/
  | cctlDemote (f : Fields)
  /-- R255. Full fence at a scope. -/
  | fenceFull (f : Fields)
  /-- R255. Acquire fence at a scope. -/
  | fenceAcq (f : Fields)
  /-- R255. Release fence at a scope. -/
  | fenceRel (f : Fields)
  /-- R256. Global vector atomic add. -/
  | vatomAdd (f : Fields)
  /-- R256. Global vector atomic subtract. -/
  | vatomSub (f : Fields)
  /-- R256. Global vector atomic minimum. -/
  | vatomMin (f : Fields)
  /-- R256. Global vector atomic maximum. -/
  | vatomMax (f : Fields)
  /-- R256. Global vector atomic AND. -/
  | vatomAnd (f : Fields)
  /-- R256. Global vector atomic OR. -/
  | vatomOr (f : Fields)
  /-- R256. Global vector atomic XOR. -/
  | vatomXor (f : Fields)
  /-- R256. Global vector atomic exchange. -/
  | vatomXchg (f : Fields)
  /-- R256. Global vector atomic compare-and-swap. -/
  | vatomCas (f : Fields)
  /-- R256. Global vector atomic wrapping increment. -/
  | vatomInc (f : Fields)
  /-- R256. Global vector atomic FP32 add. -/
  | vatomFadd (f : Fields)
  /-- R256. Global vector atomic FP32 minimum. -/
  | vatomFmin (f : Fields)
  /-- R256. Global vector atomic FP32 maximum. -/
  | vatomFmax (f : Fields)
  /-- R259. Deterministic contribution to WS128 slots. -/
  | vatomFaddD (f : Fields)
  /-- R258. Initialises a WS128 slot. -/
  | suminit (f : Fields)
  /-- R260. Reads a WS128 slot with one rounding. -/
  | sumget (f : Fields)
  /-- R257. Scalar global atomic add. -/
  | satomAdd (f : Fields)
  /-- R257. Scalar global atomic subtract. -/
  | satomSub (f : Fields)
  /-- R257. Scalar global atomic minimum. -/
  | satomMin (f : Fields)
  /-- R257. Scalar global atomic maximum. -/
  | satomMax (f : Fields)
  /-- R257. Scalar global atomic AND. -/
  | satomAnd (f : Fields)
  /-- R257. Scalar global atomic OR. -/
  | satomOr (f : Fields)
  /-- R257. Scalar global atomic XOR. -/
  | satomXor (f : Fields)
  /-- R257. Scalar global atomic exchange. -/
  | satomXchg (f : Fields)
  /-- R257. Scalar global atomic compare-and-swap. -/
  | satomCas (f : Fields)
  /-- R257. Scalar global atomic wrapping increment. -/
  | satomInc (f : Fields)
  /-- R257. Scalar global atomic FP32 add. -/
  | satomFadd (f : Fields)
  /-- R257. Scalar global atomic FP32 minimum. -/
  | satomFmin (f : Fields)
  /-- R257. Scalar global atomic FP32 maximum. -/
  | satomFmax (f : Fields)
  /-- R256. Scratchpad vector atomic add. -/
  | vatomSpAdd (f : Fields)
  /-- R256. Scratchpad vector atomic subtract. -/
  | vatomSpSub (f : Fields)
  /-- R256. Scratchpad vector atomic minimum. -/
  | vatomSpMin (f : Fields)
  /-- R256. Scratchpad vector atomic maximum. -/
  | vatomSpMax (f : Fields)
  /-- R256. Scratchpad vector atomic AND. -/
  | vatomSpAnd (f : Fields)
  /-- R256. Scratchpad vector atomic OR. -/
  | vatomSpOr (f : Fields)
  /-- R256. Scratchpad vector atomic XOR. -/
  | vatomSpXor (f : Fields)
  /-- R256. Scratchpad vector atomic exchange. -/
  | vatomSpXchg (f : Fields)
  /-- R256. Scratchpad vector atomic compare-and-swap. -/
  | vatomSpCas (f : Fields)
  /-- R256. Scratchpad vector atomic increment. -/
  | vatomSpInc (f : Fields)
  /-- R256. Scratchpad vector atomic FP32 add. -/
  | vatomSpFadd (f : Fields)
  /-- R256. Scratchpad vector atomic FP32 minimum. -/
  | vatomSpFmin (f : Fields)
  /-- R256. Scratchpad vector atomic FP32 maximum. -/
  | vatomSpFmax (f : Fields)
  /-- R257. Scratchpad scalar atomic add. -/
  | satomSpAdd (f : Fields)
  /-- R257. Scratchpad scalar atomic subtract. -/
  | satomSpSub (f : Fields)
  /-- R257. Scratchpad scalar atomic minimum. -/
  | satomSpMin (f : Fields)
  /-- R257. Scratchpad scalar atomic maximum. -/
  | satomSpMax (f : Fields)
  /-- R257. Scratchpad scalar atomic AND. -/
  | satomSpAnd (f : Fields)
  /-- R257. Scratchpad scalar atomic OR. -/
  | satomSpOr (f : Fields)
  /-- R257. Scratchpad scalar atomic XOR. -/
  | satomSpXor (f : Fields)
  /-- R257. Scratchpad scalar atomic exchange. -/
  | satomSpXchg (f : Fields)
  /-- R257. Scratchpad scalar atomic compare-and-swap. -/
  | satomSpCas (f : Fields)
  /-- R257. Scratchpad scalar atomic increment. -/
  | satomSpInc (f : Fields)
  /-- R257. Scratchpad scalar atomic FP32 add. -/
  | satomSpFadd (f : Fields)
  /-- R257. Scratchpad scalar atomic FP32 minimum. -/
  | satomSpFmin (f : Fields)
  /-- R257. Scratchpad scalar atomic FP32 maximum. -/
  | satomSpFmax (f : Fields)
  /-- R300. Queues a B block load into a cell bank. -/
  | mloadB (f : Fields)
  /-- R301. Sets the segment's gather descriptor of A rows. -/
  | mgatherA (f : Fields)
  /-- R304. BF16 matrix pass into a tile. -/
  | mmaBf16 (f : Fields)
  /-- R304. FP16 matrix pass into a tile. -/
  | mmaFp16 (f : Fields)
  /-- R304. E4M3 matrix pass into a tile. -/
  | mmaE4m3 (f : Fields)
  /-- R304. E5M2 matrix pass into a tile. -/
  | mmaE5m2 (f : Fields)
  /-- R304. INT8 matrix pass into an I32 tile. -/
  | mmaInt8 (f : Fields)
  /-- R304. PX8 matrix pass into a tile. -/
  | mmaPx8 (f : Fields)
  /-- R304. PX5 matrix pass into a tile. -/
  | mmaPx5 (f : Fields)
  /-- R304. MXFP4 matrix pass into a tile. -/
  | mmaMxfp4 (f : Fields)
  /-- R304. PX3 matrix pass into a tile. -/
  | mmaPx3 (f : Fields)
  /-- R307. Queues a drain of a tile to global memory. -/
  | mdrain (f : Fields)
  /-- R307. Queues a drain of a tile to the scratchpad. -/
  | mdrainSp (f : Fields)
  /-- R309. Clears a tile and its status word. -/
  | mzero (f : Fields)
  /-- R310. Reads a tile's status word. -/
  | mstatTile (f : Fields)
  /-- R310. Reads bank 0's state word. -/
  | mstatBank0 (f : Fields)
  /-- R310. Reads bank 1's state word. -/
  | mstatBank1 (f : Fields)
  /-- R328. Samples a texture with quad-derived LOD. -/
  | texSmp (f : Fields)
  /-- R327. Samples a texture at an explicit LOD. -/
  | texSmpLod (f : Fields)
  /-- R327. Samples a texture with explicit gradients. -/
  | texSmpGrad (f : Fields)
  /-- R327. Loads one texel without filtering. -/
  | texLd (f : Fields)
  /-- R330. Stores one converted texel. -/
  | texSt (f : Fields)
  /-- R327. Gathers one component of the four footprint texels. -/
  | texG4 (f : Fields)
  /-- R327. Loads a component of a buffer element. -/
  | resLd (f : Fields)
  /-- R327. Queries a resource property. -/
  | resQ (f : Fields)
  /-- R340. Tests a ray against four boxes. -/
  | rtBox (f : Fields)
  /-- R341. Tests a ray against two triangles. -/
  | rtTri (f : Fields)
  /-- R343. Pushes per-lane traversal stack entries. -/
  | wstkPush (f : Fields)
  /-- R343. Pops per-lane traversal stack entries. -/
  | wstkPop (f : Fields)
  /-- R343. Reads the top stack entries without popping. -/
  | wstkPeek (f : Fields)
  /-- R343. Clears the stack header bytes. -/
  | wstkClr (f : Fields)
  /-- R350. Walks the mesh to the cell holding a point. -/
  | meshLoc (f : Fields)
  /-- R349. Marches a ray through one mesh cell. -/
  | meshStep (f : Fields)
  /-- R351. Interpolates the cell field at a point. -/
  | meshInterp (f : Fields)
  /-- R333. Emits triangles to the binner for a draw record. -/
  | emitp (f : Fields)
  /-- R336. Acquires the ordered-blend sections of the lanes' pixels. -/
  | blendAcq (f : Fields)
  /-- R336. Releases the ordered-blend sections. -/
  | blendRel (f : Fields)
  /-- R356. A global store or atomic that has left its wave's store queue arrives at its home slice bank, is applied there in the word's coherence order, and is acknowledged to the core. -/
  | homeSliceApply (core entry : Nat)
  /-- R20. A host datagram whose MAGIC or VER is wrong, or whose TYPE is not in R19 or is a device-to-host type, is rejected with BAD_MESSAGE in a FAULT message. -/
  | rejectedHostMessage (d : Datagram)
  deriving DecidableEq, Repr

/-- Who moves next, as plain data in the state: the model's own way to say in which order the device's
agents act. -/
inductive Turn where
  /-- A part issues its next instruction. -/
  | issue (p : PartRef)
  /-- A device event takes place. -/
  | event (e : Instr)
  /-- A datagram arrives on port 0. -/
  | arrive (d : Datagram)
  /-- One cycle of a cluster's clock passes (00 R6). -/
  | tick (cluster : Nat)
  /-- A line leaves a core's L1 (19 R431: the moments at which lines leave it are not specified). -/
  | evict (core : Nat) (asn : Nat) (line : Nat)
  /-- A line leaves its L2 slice (11 R430). -/
  | evictL2 (line : Nat)
  /-- Lanes of a load reach their owners and are translated there (11 R221). -/
  | reach (core slot load : Nat) (quads : Quads)
  deriving DecidableEq, Repr

end Sys2Proof
end

