-- ==== Sys2Proof/Config.lean ====
section
/-! DEFINITION. What an implementation fixes, and the free values: constants without a body, of which
nothing can be proved but what is said of every value. -/
namespace Sys2Proof.Config

/-- Values the spec leaves open: the n-th draw, with an index inside the draw (log 2). -/
opaque freeWord : Nat → Nat → Word
/-- Numbers the spec leaves open, by draw (log 2). -/
opaque freeNat : Nat → Nat

/-- Dravtin's firmware public key as the boot ROMs hold it, x then y (01 R9). -/
opaque firmwareKeyX : Nat
opaque firmwareKeyY : Nat
/-- The SHA-256 digest of that key held in fuses. -/
opaque fusedKeyDigest : List Byte
/-- The fused minimum security version number (01 R9). -/
opaque fusedMinSvn : Nat
/-- The fused boot endpoint (01 R24). -/
opaque bootEndpoint : Endpoint
/-- The HBM stack of a die that holds a frame (01 R14). -/
opaque frameStack : Nat → Nat → Nat

/-- What the fused secret makes of the firmware's digest, from which the identity private key comes (01 R16). -/
opaque identityScalar : List Byte → Nat
/-- Dravtin's private key that signs certificates (01 R16). -/
opaque dravtinKey : Nat
/-- The nonce of a signature of a digest, by attempt (01 R16, R17). -/
opaque signNonce : List Byte → Nat → Nat
/-- The module's fused serial number, and what else a certificate says of it: its own serial number and first day. -/
opaque fusedSerial : Nat
opaque certSerial : Nat
opaque certDay : Nat

end Sys2Proof.Config
end

