-- ==== Sys2Proof/Machine/KMap.lean ====
section
/-! DEFINITION. Sparse maps as sorted lists of pairs, in one canonical form: keys strictly rising and
no entry equal to the map's default. Registers, memory and tables are kept in it, so that equal
contents are equal data. -/
namespace Sys2Proof

/-- A sparse map from numbers to values; a key that is not listed reads as the map's default. -/
abbrev KMap (α : Type) := List (Nat × α)

namespace Machine

/-- The value at a key: the first entry of that key, else the default. -/
def kget {α : Type} (d : α) : KMap α → Nat → α
  | [], _ => d
  | (k', v) :: m, k => if k' = k then v else kget d m k

/-- Insert or replace an entry, keeping keys in rising order. -/
def kput {α : Type} : KMap α → Nat → α → KMap α
  | [], k, v => [(k, v)]
  | (k', v') :: m, k, v =>
    if k' = k then (k, v) :: m
    else if k < k' then (k, v) :: (k', v') :: m
    else (k', v') :: kput m k v

/-- Remove every entry of a key. -/
def kdel {α : Type} (m : KMap α) (k : Nat) : KMap α := m.filter (fun e => e.1 != k)

/-- Write a value; writing the default removes the entry. -/
def kset {α : Type} [DecidableEq α] (d : α) (m : KMap α) (k : Nat) (v : α) : KMap α :=
  if v = d then kdel m k else kput m k v

/-- Keys strictly rising from a lower bound, and no entry equal to the default. -/
def kwfFrom {α : Type} [DecidableEq α] (d : α) : Nat → KMap α → Bool
  | _, [] => true
  | lo, (k, v) :: m => decide (lo ≤ k) && decide (v ≠ d) && kwfFrom d (k + 1) m

/-- The canonical form. -/
def kwf {α : Type} [DecidableEq α] (d : α) (m : KMap α) : Bool := kwfFrom d 0 m

end Machine
end Sys2Proof
end

