-- ==== Sys2Proof/Machine/OpInfo.lean ====
section
/-! DEFINITION. The opcode map (05 R85-R100): for each opcode value the operand classes, the form of
the X field, the unit, the minimum width, and the modifier values it permits (R81 step 3). -/
namespace Sys2Proof.Machine

/-- A format tag (06 R108). -/
abbrev Tag := BitVec 5

def tagAny : Tag := 0x00
def tagF32 : Tag := 0x01
def tagF16x2 : Tag := 0x02
def tagB16x2 : Tag := 0x03
def tagE4m3x4 : Tag := 0x04
def tagE5m2x4 : Tag := 0x05
def tagE2m1x8 : Tag := 0x06
def tagI32 : Tag := 0x07
def tagU32 : Tag := 0x08
def tagI16x2 : Tag := 0x09
def tagU16x2 : Tag := 0x0A
def tagI8x4 : Tag := 0x0B
def tagU8x4 : Tag := 0x0C
def tagE8m0x4 : Tag := 0x0D
def tagPx3 : Tag := 0x0E
def tagPx5 : Tag := 0x0F
def tagPx8 : Tag := 0x10
def tagPxScale : Tag := 0x11

/-- The executing unit (05 R87). -/
inductive Unit' where
  | ialu | fma | sfu | xch | lsu | mtx | tex | ctl | syn | eng
  deriving DecidableEq, Repr

/-- An operand class (05 R85), with the memory bases of 12 R242 and the register runs of 10 R207. -/
inductive Cls where
  /-- The field is unused and must be zero. -/
  | none
  /-- A source: v, s, latch, inline constant. A destination: v register or `_`. -/
  | v
  /-- A run of n v registers from the named one, which must be a v register (R207, R249). -/
  | vRun (n : Nat)
  /-- An aligned group of n consecutive v registers. -/
  | vGrp (n : Nat)
  /-- Eight v registers from one whose number is a multiple of 4 (R337). -/
  | vRun8
  /-- A [v] scratchpad base: a v register or a latch (R242). -/
  | vBase
  /-- A source: s register or inline constant. A destination: s register. -/
  | s
  /-- An aligned group of n consecutive s registers; also the even base pair of R242. -/
  | sGrp (n : Nat)
  | p | m | h | q | t
  /-- A special register that may be read (R73). -/
  | special
  /-- A special register that may be written (R168). -/
  | specialW
  /-- `mmov`'s destination: m, p or $exec (R165). -/
  | mmovD
  /-- `mmov`'s source: m, p, $exec or an s2 group (R165). -/
  | mmovA
  deriving DecidableEq, Repr

/-- The form of the X field (05 R86). -/
inductive XForm where
  | none | m | c | imm | addr
  deriving DecidableEq, Repr

/-- The operand that an immediate stands for (05 R98). -/
inductive ImmFor where
  | none | a | b | c
  deriving DecidableEq, Repr

/-- The minimum width (05 R88). -/
inductive WidthReq where
  | none
  /-- One whole quad. -/
  | quad
  /-- The aligned 16-lane segment. -/
  | seg16
  /-- The wave's declared width. -/
  | wave
  /-- The segment of 4 x 2^SEG lanes, SEG in MOD[2:0]. -/
  | seg
  deriving DecidableEq, Repr

/-- What the opcode map fixes for one opcode value. -/
structure OpInfo where
  d : Cls := .none
  a : Cls := .none
  b : Cls := .none
  c : Cls := .none
  x : XForm := .none
  imm : ImmFor := .none
  unit : Unit' := .ialu
  width : WidthReq := .none
  /-- LW = 1 is permitted: a producer with a fixed travel time and one 32-bit lane value (R77, R155, R188). -/
  lw : Bool := false
  /-- A memory write, atomic, `eng`, queue, barrier, branch, `rejoin`, `fuse` or `yield` (R77, first row). -/
  noLatch : Bool := false
  deriving DecidableEq, Repr

/-- The same information for several opcode values. -/
def rowsOf (ops : List Nat) (i : OpInfo) : List (Nat × OpInfo) := ops.map (fun o => (o, i))

/-- Opcode values lo, lo + 1, …, hi. -/
def opRange (lo hi : Nat) : List Nat := (List.range (hi + 1 - lo)).map (lo + ·)

/-- R90: control, predicates, masks and special registers. -/
def rowsControl : List (Nat × OpInfo) :=
  rowsOf [0x000, 0x00B, 0x00C, 0x00F] { unit := .ctl } ++
  rowsOf [0x008, 0x009, 0x00A] { unit := .ctl, noLatch := true } ++
  rowsOf [0x001, 0x002, 0x004] { x := .imm, unit := .ctl, noLatch := true } ++
  rowsOf [0x003, 0x007] { a := .s, unit := .ctl, noLatch := true } ++
  [(0x005, { d := .s, x := .imm, unit := .ctl, noLatch := true }),
   (0x006, { d := .s, a := .s, unit := .ctl, noLatch := true })] ++
  rowsOf [0x00D, 0x00E] { x := .imm, unit := .ctl } ++
  rowsOf [0x010, 0x011, 0x012] { d := .p, a := .p, b := .p } ++
  [(0x013, { d := .p, a := .p })] ++
  rowsOf [0x014, 0x015, 0x016] { d := .m, a := .m, b := .m } ++
  [(0x017, { d := .mmovD, a := .mmovA })] ++
  rowsOf [0x018, 0x019] { d := .s, a := .m } ++
  [(0x01A, { d := .m, a := .m }),
   (0x01B, { d := .s, a := .special, x := .m }),
   (0x01C, { d := .specialW, a := .s, x := .m }),
   (0x01D, { d := .sGrp 2 })]

/-- R91: scalar arithmetic, and its immediate forms (R98). -/
def rowsScalar : List (Nat × OpInfo) :=
  rowsOf ([0x020, 0x021, 0x022] ++ opRange 0x025 0x027 ++ opRange 0x029 0x02F)
    { d := .s, a := .s, b := .s, lw := true } ++
  rowsOf [0x023, 0x032] { d := .s, a := .s, b := .s, x := .m, lw := true } ++
  rowsOf [0x024, 0x033] { d := .s, a := .s, b := .s, c := .s, x := .c, lw := true } ++
  rowsOf [0x028, 0x030, 0x031, 0x034] { d := .s, a := .s, lw := true } ++
  [(0x035, { d := .s, x := .imm, lw := true }),
   (0x036, { d := .s, a := .s, b := .s, c := .p, x := .c, lw := true }),
   (0x037, { d := .p, a := .s, b := .s, x := .m })] ++
  rowsOf (opRange 0x120 0x123 ++ opRange 0x125 0x127 ++ opRange 0x129 0x12F ++ [0x132])
    { d := .s, a := .s, x := .imm, imm := .b, lw := true } ++
  rowsOf [0x124, 0x133] { d := .s, a := .s, b := .s, x := .imm, imm := .c, lw := true }

/-- R92: vector integer and conversion instructions, and their immediate forms. -/
def rowsVector : List (Nat × OpInfo) :=
  rowsOf ([0x040, 0x041, 0x042] ++ opRange 0x045 0x047 ++ opRange 0x049 0x04B)
    { d := .v, a := .v, b := .v, lw := true } ++
  rowsOf [0x043, 0x04C, 0x04D, 0x052] { d := .v, a := .v, b := .v, x := .m, lw := true } ++
  rowsOf [0x044, 0x053, 0x056, 0x057, 0x058] { d := .v, a := .v, b := .v, c := .v, x := .c, lw := true } ++
  rowsOf [0x048, 0x04E, 0x04F, 0x050, 0x051, 0x055] { d := .v, a := .v, lw := true } ++
  [(0x054, { d := .v, a := .v, b := .v, c := .p, x := .c, lw := true }),
   (0x059, { d := .p, a := .v, b := .v, x := .m }),
   (0x05A, { d := .v, a := .v, x := .m, unit := .fma, lw := true })] ++
  rowsOf [0x05B, 0x05C, 0x05D, 0x05E] { d := .vRun 1, a := .vRun 1, x := .m, unit := .fma } ++
  [(0x05F, { d := .v, a := .v, x := .m, lw := true })] ++
  rowsOf (opRange 0x140 0x143 ++ opRange 0x145 0x147 ++ opRange 0x149 0x14D ++ [0x152])
    { d := .v, a := .v, x := .imm, imm := .b, lw := true } ++
  rowsOf [0x144, 0x153, 0x156, 0x157, 0x158] { d := .v, a := .v, b := .v, x := .imm, imm := .c, lw := true } ++
  [(0x155, { d := .v, x := .imm, imm := .a, lw := true })]

/-- R93: lane exchange, and its immediate forms. -/
def rowsExchange : List (Nat × OpInfo) :=
  rowsOf (opRange 0x060 0x063) { d := .v, a := .v, b := .v, x := .m, unit := .xch, width := .seg, lw := true } ++
  [(0x064, { d := .s, a := .v, b := .s, unit := .xch, width := .wave, lw := true }),
   (0x065, { d := .v, a := .s, b := .s, unit := .xch, width := .wave, lw := true })] ++
  rowsOf [0x066, 0x067] { d := .p, a := .p, x := .m, unit := .xch, width := .seg } ++
  [(0x068, { d := .m, a := .p, x := .m, unit := .xch, width := .seg })] ++
  rowsOf (opRange 0x069 0x06C) { d := .v, a := .v, x := .m, unit := .xch, width := .seg, lw := true } ++
  [(0x160, { d := .v, a := .v, x := .imm, imm := .b, unit := .xch, width := .wave, lw := true }),
   (0x164, { d := .s, a := .v, x := .imm, imm := .b, unit := .xch, width := .wave, lw := true }),
   (0x165, { d := .v, a := .s, x := .imm, imm := .b, unit := .xch, width := .wave, lw := true })]

/-- R94: floating point, its packed forms and its immediate forms. -/
def rowsFloat : List (Nat × OpInfo) :=
  rowsOf ([0x080, 0x081, 0x082, 0x088] ++ [0x098, 0x099, 0x09A] ++ [0x0A0, 0x0A1, 0x0A2])
    { d := .v, a := .v, b := .v, x := .m, unit := .fma, lw := true } ++
  rowsOf [0x083, 0x09B, 0x0A3] { d := .v, a := .v, b := .v, c := .v, x := .c, unit := .fma, lw := true } ++
  rowsOf [0x084, 0x085, 0x09C, 0x09D, 0x0A4, 0x0A5] { d := .v, a := .v, b := .v, unit := .fma, lw := true } ++
  rowsOf [0x086, 0x09E, 0x0A6] { d := .p, a := .v, b := .v, x := .m, unit := .fma } ++
  rowsOf [0x087, 0x089] { d := .v, a := .v, unit := .fma, lw := true } ++
  [(0x08A, { d := .v, a := .v, x := .m, unit := .fma, lw := true })] ++
  rowsOf (opRange 0x08B 0x091) { d := .v, a := .v, unit := .sfu, lw := true } ++
  rowsOf ([0x180, 0x181, 0x182, 0x184, 0x185, 0x188] ++ [0x198, 0x199, 0x19A, 0x19C, 0x19D] ++
      [0x1A0, 0x1A1, 0x1A2, 0x1A4, 0x1A5])
    { d := .v, a := .v, x := .imm, imm := .b, unit := .fma, lw := true } ++
  rowsOf [0x183, 0x19B, 0x1A3] { d := .v, a := .v, b := .v, x := .imm, imm := .c, unit := .fma, lw := true }

/-- R95: synchronisation, engines and queues. -/
def rowsSync : List (Nat × OpInfo) :=
  rowsOf [0x0A8, 0x0A9] { unit := .syn, noLatch := true } ++
  rowsOf [0x0AA, 0x0AC, 0x0AE] { a := .s, b := .s, unit := .syn, noLatch := true } ++
  rowsOf [0x0AB, 0x0AD, 0x0AF] { a := .s, x := .imm, imm := .b, unit := .syn, noLatch := true } ++
  [(0x0B0, { a := .h, unit := .syn })] ++
  rowsOf [0x0B1, 0x0B2, 0x0B4] { d := .s, a := .h, unit := .syn } ++
  [(0x0B3, { d := .h, a := .s, unit := .syn }),
   (0x0B5, { d := .h, a := .sGrp 4, b := .sGrp 4, x := .m, unit := .eng, noLatch := true }),
   (0x0B6, { d := .h, a := .q, b := .s, x := .m, unit := .syn, noLatch := true }),
   (0x0B7, { d := .s, a := .q, unit := .syn, noLatch := true }),
   (0x0B8, { a := .q, unit := .syn, noLatch := true })]

/-- R96: memory and atomics. A scratchpad load of several registers a lane takes no latch: LW = 1 on one is LATCH_WINDOW
whatever its banks (04 R77, log 2). -/
def rowsMemory : List (Nat × OpInfo) :=
  [(0x0C0, { d := .v, a := .sGrp 2, x := .addr, unit := .lsu }),
   (0x0C1, { a := .sGrp 2, b := .v, x := .addr, unit := .lsu, noLatch := true }),
   (0x0C2, { d := .v, a := .sGrp 2, x := .addr, unit := .lsu }),
   (0x0C3, { d := .vRun 1, a := .sGrp 2, x := .addr, unit := .lsu }),
   (0x0C4, { a := .sGrp 2, b := .vRun 1, x := .addr, unit := .lsu, noLatch := true }),
   (0x0C5, { a := .sGrp 2, x := .addr, unit := .lsu }),
   (0x0C6, { d := .v, a := .vGrp 2, x := .addr, unit := .lsu }),
   (0x0C7, { a := .vGrp 2, b := .v, x := .addr, unit := .lsu, noLatch := true }),
   (0x0C8, { d := .v, a := .vGrp 2, x := .addr, unit := .lsu }),
   (0x0C9, { a := .vGrp 2, x := .addr, unit := .lsu }),
   (0x0CA, { d := .v, a := .s, x := .addr, unit := .lsu, lw := true }),
   (0x0CB, { a := .s, b := .v, x := .addr, unit := .lsu, noLatch := true }),
   (0x0CC, { d := .v, a := .s, x := .addr, unit := .lsu, lw := true }),
   (0x0CD, { d := .vRun 1, a := .s, x := .addr, unit := .lsu }),
   (0x0CE, { a := .s, b := .vRun 1, x := .addr, unit := .lsu, noLatch := true }),
   (0x0CF, { d := .v, a := .vBase, x := .addr, unit := .lsu, lw := true }),
   (0x0D0, { a := .vBase, b := .v, x := .addr, unit := .lsu, noLatch := true }),
   (0x0D1, { d := .v, a := .vBase, x := .addr, unit := .lsu, lw := true }),
   (0x0D2, { d := .s, a := .sGrp 2, x := .addr, unit := .lsu }),
   (0x0D3, { a := .sGrp 2, b := .s, x := .addr, unit := .lsu, noLatch := true }),
   (0x0D4, { d := .s, a := .sGrp 2, x := .addr, unit := .lsu }),
   (0x0D5, { a := .sGrp 2, x := .addr, unit := .lsu }),
   (0x0D6, { x := .m, unit := .lsu }),
   (0x0D7, { d := .s, a := .s, x := .addr, unit := .lsu, lw := true }),
   (0x0D8, { a := .s, b := .s, x := .addr, unit := .lsu, noLatch := true })] ++
  rowsOf (opRange 0x0E0 0x0E7 ++ opRange 0x0E9 0x0EC)
    { d := .v, a := .vGrp 2, b := .v, x := .addr, unit := .lsu, noLatch := true } ++
  [(0x0E8, { d := .v, a := .vGrp 2, b := .vGrp 2, x := .addr, unit := .lsu, noLatch := true }),
   (0x0ED, { a := .vGrp 2, b := .v, x := .addr, unit := .lsu, noLatch := true }),
   (0x0EE, { a := .sGrp 2, b := .s, x := .addr, unit := .lsu, noLatch := true }),
   (0x0EF, { d := .s, a := .sGrp 2, x := .addr, unit := .lsu })] ++
  rowsOf (opRange 0x0F0 0x0F7 ++ opRange 0x0F9 0x0FC)
    { d := .s, a := .sGrp 2, b := .s, x := .addr, unit := .lsu, noLatch := true } ++
  [(0x0F8, { d := .s, a := .sGrp 2, b := .sGrp 2, x := .addr, unit := .lsu, noLatch := true })] ++
  rowsOf (opRange 0x100 0x107 ++ opRange 0x109 0x10C)
    { d := .v, a := .vBase, b := .v, x := .addr, unit := .lsu, noLatch := true } ++
  [(0x108, { d := .v, a := .vBase, b := .vGrp 2, x := .addr, unit := .lsu, noLatch := true })] ++
  rowsOf (opRange 0x110 0x117 ++ opRange 0x119 0x11C)
    { d := .s, a := .s, b := .s, x := .addr, unit := .lsu, noLatch := true } ++
  [(0x118, { d := .s, a := .s, b := .sGrp 2, x := .addr, unit := .lsu, noLatch := true })]

/-- R97: matrix, texture, ray, mesh and draw. -/
def rowsMatrix : List (Nat × OpInfo) :=
  [(0x1B0, { d := .h, a := .s, x := .addr, unit := .mtx }),
   (0x1B1, { a := .vGrp 4, b := .s, x := .m, unit := .mtx, width := .seg16 })] ++
  rowsOf (opRange 0x1B2 0x1BA) { d := .h, a := .t, x := .m, unit := .mtx, width := .seg16 } ++
  rowsOf [0x1BB, 0x1BC] { d := .h, a := .sGrp 4, b := .t, x := .addr, unit := .mtx, noLatch := true } ++
  [(0x1BD, { d := .t, unit := .mtx }),
   (0x1BE, { d := .v, a := .t, x := .m, unit := .mtx, lw := true }),
   (0x1C0, { d := .vGrp 4, a := .v, b := .vGrp 4, x := .m, unit := .tex, width := .quad })] ++
  rowsOf [0x1C1, 0x1C3, 0x1C5] { d := .vGrp 4, a := .v, b := .vGrp 4, x := .m, unit := .tex } ++
  [(0x1C2, { d := .vGrp 4, a := .v, b := .vGrp 4, c := .vGrp 4, x := .c, unit := .tex }),
   (0x1C4, { a := .v, b := .vGrp 4, c := .vGrp 4, x := .c, unit := .tex, noLatch := true }),
   (0x1C6, { d := .v, a := .v, b := .v, x := .m, unit := .tex }),
   (0x1C7, { d := .v, a := .v, x := .m, unit := .tex })] ++
  rowsOf [0x1C8, 0x1C9] { d := .vGrp 4, a := .vGrp 4, b := .s, x := .m, unit := .tex } ++
  [(0x1CA, { a := .v, b := .s, x := .m, unit := .tex, width := .wave, noLatch := true }),
   (0x1CB, { d := .v, b := .s, x := .m, unit := .tex, width := .wave, noLatch := true }),
   (0x1CC, { a := .s, unit := .tex, width := .wave, noLatch := true })] ++
  rowsOf [0x1CD, 0x1CE] { d := .vGrp 4, a := .vRun8, b := .sGrp 2, x := .m, unit := .tex } ++
  [(0x1CF, { d := .v, a := .vGrp 4, b := .sGrp 2, x := .m, unit := .tex }),
   (0x1D0, { a := .vGrp 4, b := .s, x := .m, unit := .tex, width := .wave })] ++
  rowsOf [0x1D1, 0x1D2] { unit := .syn, noLatch := true }

/-- The whole map of umari.3 (R90-R98). -/
def opRows : List (Nat × OpInfo) :=
  rowsControl ++ rowsScalar ++ rowsVector ++ rowsExchange ++ rowsFloat ++ rowsSync ++ rowsMemory ++ rowsMatrix

/-- The first row of an opcode value. -/
def findRow : List (Nat × OpInfo) → Nat → Option OpInfo
  | [], _ => none
  | (o, i) :: l, op => if o = op then some i else findRow l op

/-- What the map says of an opcode value; none for the unassigned ones (R99). -/
def opInfo? (op : Nat) : Option OpInfo := findRow opRows op

/-- The information of an assigned opcode value. -/
def opInfo (op : Nat) : OpInfo := (opInfo? op).getD {}

/-- The values of umari.3 that a umari.2 image does not have (R100). -/
def notInGang (op : Nat) : Bool :=
  [0x002, 0x008, 0x009, 0x05C, 0x05E, 0x0B6, 0x0B7, 0x0B8, 0x0ED, 0x0EE, 0x0EF,
   0x1CD, 0x1CE, 0x1CF, 0x1D1, 0x1D2].contains op || (decide (0x1B0 ≤ op) && decide (op ≤ 0x1BE))

/-- The values that a linran.1 image may not hold, among the assigned ones (R89, R90, R93, R97). -/
def notInLinran (op : Nat) : Bool :=
  [0x002, 0x008, 0x009, 0x00F, 0x018, 0x019, 0x01A, 0x01C, 0x014, 0x015, 0x016, 0x017,
   0x1C0, 0x1CA, 0x1CB, 0x1CC, 0x1D0, 0x1D1, 0x1D2, 0x160, 0x164, 0x165].contains op ||
  (decide (0x060 ≤ op) && decide (op ≤ 0x06C)) || (decide (0x1B0 ≤ op) && decide (op ≤ 0x1BE))

/-- The twelve element formats of `vcvt` (R204), with their element counts. -/
def cvtCount (tag : Nat) : Nat :=
  match tag with
  | 1 => 1 | 2 => 2 | 3 => 2 | 4 => 4 | 5 => 4 | 6 => 8
  | 7 => 1 | 8 => 1 | 9 => 2 | 10 => 2 | 11 => 4 | 12 => 4 | _ => 0

/-- The modifiers that `vcvt` permits (R204). -/
def cvtModOk (m : Nat) : Bool :=
  let dst := m % 32
  let frm := m / 32 % 32
  let rm := m / 1024 % 8
  let xsat := m / 8192 % 2
  let place := m / 16384 % 8
  let nt := cvtCount dst
  let nf := cvtCount frm
  nt != 0 && nf != 0 && frm != dst && decide (rm ≤ 4) &&
  (rm != 4 || (decide (2 ≤ dst) && decide (dst ≤ 6))) &&
  (xsat = 0 || decide (dst < 6)) &&
  decide (place < max nt nf / min nt nf) && decide (m < 131072)

/-- The modifiers of the block quantisation instructions (R208). -/
def blockModOk (unpack px : Bool) (m : Nat) : Bool :=
  let lo := m % 32
  let hi := m / 32 % 32
  let rm := m / 1024 % 8
  let plain := if unpack then hi else lo
  let blk := if unpack then lo else hi
  decide (1 ≤ plain ∧ plain ≤ 3) &&
  (if px then decide (14 ≤ blk ∧ blk ≤ 16) else decide (4 ≤ blk ∧ blk ≤ 6)) &&
  (if unpack then decide (rm ≤ 3) || (rm = 4 && plain != 1) else decide (rm ≤ 4)) &&
  decide (m < (if px then 16384 else 32768))

/-- The rules of R243 on SCOPE, ordering and FM; `ord` is the value of the ACQ, REL or ORD field. -/
def mmCommonOk (sp : Bool) (ord mm : Nat) : Bool :=
  let fm := mm / 512
  let scope := mm / 64 % 8
  decide (scope ≤ 5) && (scope = 0 || ord != 0) && (!sp || (fm = 0 && decide (scope ≤ 1)))

/-- The modifiers of a load (R243, R247): a size, or a tag for the tagged forms. -/
def loadModOk (sp tagged : Bool) (mm : Nat) : Bool :=
  mmCommonOk sp (mm / 32 % 2) mm && (if tagged then decide (mm % 32 ≤ 17) else decide (mm % 32 ≤ 4))

/-- The modifiers of a store (R250). -/
def storeModOk (sp : Bool) (mm : Nat) : Bool :=
  mmCommonOk sp (mm / 32 % 2) mm && [0, 1, 3].contains (mm % 32)

/-- The modifiers of a block load or store (R249). -/
def blkModOk (sp : Bool) (mm : Nat) : Bool :=
  mmCommonOk sp (mm / 32 % 2) mm && decide (mm % 8 ≤ 5) && decide (mm % 32 < 16) &&
  (mm / 8 % 2 = 0 || decide (3 ≤ mm % 8))

/-- The modifiers of an atomic (R256): U only on min and max. -/
def atomModOk (sp minmax : Bool) (mm : Nat) : Bool :=
  mmCommonOk sp (mm / 16 % 4) mm && (mm % 16 = 0 || (minmax && mm % 16 = 1))

/-- K blocks a format's mode permits, with the even count of MXFP4 (R281, R300). -/
def kblkOk (fmt kblk : Nat) : Bool :=
  decide (fmt ≤ 8) && decide (kblk ≤ (if fmt ≤ 1 then 7 else if fmt ≤ 6 then 15 else 63)) &&
  (fmt != 7 || kblk % 2 = 1)

/-- Numbers of the 32-bit special registers, which have no upper half (R167, R168). -/
def narrowSpecial (n : Nat) : Bool :=
  decide (456 ≤ n ∧ n ≤ 472) && !([466, 467, 468, 472].contains n)

/-- Step 3 of R81: whether a modifier field value is permitted. `m` is MOD in the operand form and
IMM[31:20] in the address form; `d` and `a` are the operand fields as encoded. -/
def modOk (op m d a : Nat) : Bool :=
  match op with
  | 0x01B => decide (m % 0x8000 < 2 ∧ m < 0x10000) && (m % 2 = 0 || !narrowSpecial a) &&
      (decide (m < 0x8000) || a = 463)
  | 0x01C => decide (m < 2) && (m = 0 || !narrowSpecial d)
  | 0x023 | 0x032 | 0x043 | 0x04C | 0x04D | 0x052 => decide (m < 2)
  | 0x037 | 0x059 => decide (m < 10)
  | 0x057 => decide (m < 4)
  | 0x05A => cvtModOk m
  | 0x05B => blockModOk false false m
  | 0x05C => blockModOk false true m
  | 0x05D => blockModOk true false m
  | 0x05E => blockModOk true true m
  | 0x05F => decide (m ≤ 17)
  | 0x060 | 0x061 | 0x062 | 0x063 | 0x066 | 0x067 | 0x068 | 0x06C => decide (m ≤ 4)
  | 0x069 | 0x06A => decide (m % 8 ≤ 4) && decide (m / 8 ≤ 2)
  | 0x06B => decide (m % 8 ≤ 4) && decide (m / 8 % 4 ≤ 2) && decide (m < 64)
  | 0x080 | 0x081 | 0x082 | 0x083 | 0x088 | 0x08A => decide (m ≤ 3)
  | 0x086 => decide (m ≤ 7)
  | 0x098 | 0x099 | 0x09A | 0x09B | 0x0A0 | 0x0A1 | 0x0A2 | 0x0A3 => decide (m ≤ 4)
  | 0x09E | 0x0A6 => decide (m % 16 ≤ 7) && decide (m < 64)
  | 0x0B5 => decide (m < 1024) && decide (m / 128 ≤ 5)
  | 0x0B6 => decide (m < 2)
  | 0x0C0 | 0x0C6 | 0x0D2 => loadModOk false false m
  | 0x0C2 | 0x0C8 => loadModOk false true m
  | 0x0CA | 0x0CF | 0x0D7 => loadModOk true false m
  | 0x0CC | 0x0D1 => loadModOk true true m
  | 0x0C1 | 0x0C7 | 0x0D3 => storeModOk false m
  | 0x0CB | 0x0D0 | 0x0D8 => storeModOk true m
  | 0x0C3 | 0x0C4 => blkModOk false m
  | 0x0CD | 0x0CE => blkModOk true m
  | 0x0C5 | 0x0C9 => decide (m < 2)
  | 0x0D5 => decide (m < 4)
  | 0x0D6 => decide (m < 24) && decide (m % 8 ≤ 5)
  | 0x0E2 | 0x0E3 | 0x0F2 | 0x0F3 => atomModOk false true m
  | 0x102 | 0x103 | 0x112 | 0x113 => atomModOk true true m
  | 0x0ED => mmCommonOk false (m / 16 % 4) m && decide (m % 16 ≤ 2)
  | 0x0EE => atomModOk false false m
  | 0x0EF => decide (m / 64 % 8 ≤ 5) && (m / 64 % 8 = 0 || m / 32 % 2 = 1) && decide (m % 8 ≤ 4)
  | 0x1B0 => decide (m < 2048) && kblkOk (m % 16) (m / 32 % 64)
  | 0x1B1 => decide (m < 131072) && kblkOk (m % 16) (m / 16 % 64)
  | 0x1BB => decide (m < 512) && decide (m % 8 ≤ 5) && (m / 16 % 2 = 0 || (m / 8 % 2 = 0 && m % 8 != 5)) &&
      decide (m / 64 ≤ 1)
  | 0x1BC => decide (m < 512) && decide (m % 8 ≤ 5) && (m / 16 % 2 = 0 || (m / 8 % 2 = 0 && m % 8 != 5)) &&
      decide (m / 64 ≤ 5)
  | 0x1BE => decide (m ≤ 2)
  | 0x1C3 | 0x1C4 => decide (m < 16)
  | 0x1C5 => decide (m < 64)
  | 0x1C6 => decide (m < 4)
  | 0x1C7 => decide (m % 8 ≤ 6) && decide (m < 128)
  | 0x1C9 | 0x1CB => decide (m < 2)
  | _ =>
    if 0x1B2 ≤ op ∧ op ≤ 0x1BA then decide (m < 2)
    else if (0x0E0 ≤ op ∧ op ≤ 0x0EC) ∨ (0x0F0 ≤ op ∧ op ≤ 0x0FC) then atomModOk false false m
    else if (0x100 ≤ op ∧ op ≤ 0x10C) ∨ (0x110 ≤ op ∧ op ≤ 0x11C) then atomModOk true false m
    else m = 0

/-- Registers of a value run and of an element run with its scale register (R207, R249), by format tag. -/
def valueRun (mx : Bool) (tag : Nat) : Nat :=
  if mx then (if tag = 1 then 32 else 16) else (if tag = 1 then 16 else 8)

def elemRun (tag : Nat) : Nat :=
  match tag with
  | 6 => 4 | 4 => 8 | 5 => 8 | 14 => 2 | 15 => 3 | 16 => 4 | _ => 0

/-- Registers a block memory access names (R249): the element run, and the scale register for PX. -/
def blkRun (bfmt : Nat) : Nat :=
  match bfmt with
  | 0 => 4 | 1 => 8 | 2 => 8 | 3 => 3 | 4 => 4 | 5 => 5 | _ => 0

/-- The classes of D, A, B and C, with the run lengths that the modifiers fix. -/
def operandCls (op m : Nat) : OpInfo :=
  let i := opInfo op
  match op with
  | 0x05B => { i with d := .vRun (elemRun (m / 32 % 32) + 1), a := .vRun (valueRun true (m % 32)) }
  | 0x05C => { i with d := .vRun (elemRun (m / 32 % 32) + 1), a := .vRun (valueRun false (m % 32)) }
  | 0x05D => { i with d := .vRun (valueRun true (m / 32 % 32)), a := .vRun (elemRun (m % 32) + 1) }
  | 0x05E => { i with d := .vRun (valueRun false (m / 32 % 32)), a := .vRun (elemRun (m % 32) + 1) }
  | 0x0C3 | 0x0CD => { i with d := .vRun (blkRun (m % 8)) }
  | 0x0C4 | 0x0CE => { i with b := .vRun (blkRun (m % 8)) }
  | _ => i

end Sys2Proof.Machine
end

