-- ==== Sys2Proof/Machine/Operands.lean ====
section
/-! DEFINITION. Operand forms: what the fields of a word name (04 R68-R74) and which numbers each
operand class accepts (05 R85). -/
namespace Sys2Proof.Machine

/-- The limits a kernel declares: VREGS, SREGS and TILES (02 R37). -/
structure Limits where
  vregs : Nat
  sregs : Nat
  tiles : Nat
  deriving DecidableEq, Repr

/-- The largest limits any kernel can declare. -/
def maxLimits : Limits := ⟨256, 128, 8⟩

/-- The C operand of the operand form: C.L and C.REG (R68). -/
def fieldCL (f : Fields) : Bool := tbit f.x 31
def fieldC (f : Fields) : Nat := bits f.x 20 11

/-- The modifier bits of a word: MOD in the operand form, IMM[31:20] in the address form, none beside an
immediate (R86). -/
def modField (xf : XForm) (x : Word) : Nat :=
  match xf with
  | .imm => 0
  | .addr => bits x 20 12
  | _ => bits x 0 20

/-- The signed byte offset of the address form (R86). -/
def offField (x : Word) : Int := signed 20 x.toNat

/-- An s register number below the declared count, with k registers from it. -/
def sOk (lim : Limits) (n k : Nat) : Bool := decide (256 ≤ n) && decide (n - 256 + k ≤ lim.sregs)

/-- An inline constant's number (R72). -/
def inlineOk (n : Nat) : Bool := decide (1536 ≤ n) && decide (n ≤ 2047)

/-- Whether a source field is one its class accepts (R71, R72, R85); `l` is the latch bit. -/
def sourceOk (lim : Limits) (c : Cls) (l : Bool) (n : Nat) : Bool :=
  match c with
  | .none => !l && n = 0
  | .v => if l then decide (n < 8) else decide (n < 256 ∧ n < lim.vregs) || sOk lim n 1 || inlineOk n
  | .vBase => if l then decide (n < 8) else decide (n < 256 ∧ n < lim.vregs)
  | .vRun k => !l && decide (n < 256 ∧ n + k ≤ lim.vregs)
  | .vGrp k => !l && decide (n < 256 ∧ n % k = 0 ∧ n + k ≤ lim.vregs)
  | .vRun8 => !l && decide (n < 256 ∧ n % 4 = 0 ∧ n + 8 ≤ lim.vregs)
  | .s => !l && (sOk lim n 1 || inlineOk n)
  | .sGrp k => !l && decide ((n - 256) % k = 0) && sOk lim n k
  | .p => !l && decide (392 ≤ n ∧ n ≤ 399)
  | .m => !l && decide (400 ≤ n ∧ n ≤ 407)
  | .h => !l && decide (408 ≤ n ∧ n ≤ 423)
  | .q => !l && decide (424 ≤ n ∧ n ≤ 455)
  | .t => !l && decide (384 ≤ n ∧ n ≤ 391 ∧ n - 384 < lim.tiles)
  | .special => !l && decide (456 ≤ n ∧ n ≤ 472)
  | .mmovA => !l && (decide (392 ≤ n ∧ n ≤ 407) || n = 466 || (decide (n % 2 = 0) && sOk lim n 2))
  | .specialW | .mmovD => false

/-- Whether a destination field is one its class accepts; `dn` is D.N (R71, R106). -/
def destOk (lim : Limits) (c : Cls) (dn : Bool) (n : Nat) : Bool :=
  match c with
  | .none => !dn && n = 0
  | .v => if dn then n = 0 else decide (n < 256 ∧ n < lim.vregs)
  | .vRun k => !dn && decide (n < 256 ∧ n + k ≤ lim.vregs)
  | .vGrp k => !dn && decide (n < 256 ∧ n % k = 0 ∧ n + k ≤ lim.vregs)
  | .s => !dn && sOk lim n 1
  | .sGrp k => !dn && decide ((n - 256) % k = 0) && sOk lim n k
  | .p => !dn && decide (392 ≤ n ∧ n ≤ 398)
  | .m => !dn && decide (400 ≤ n ∧ n ≤ 407)
  | .h => !dn && decide (408 ≤ n ∧ n ≤ 423)
  | .t => !dn && decide (384 ≤ n ∧ n ≤ 391 ∧ n - 384 < lim.tiles)
  | .specialW => !dn && [466, 467, 470].contains n
  | .mmovD => !dn && (decide (392 ≤ n ∧ n ≤ 398) || decide (400 ≤ n ∧ n ≤ 407) || n = 466)
  | .vBase | .vRun8 | .q | .special | .mmovA => false

/-- Step 4 of R81: every operand satisfies R71 to R73. -/
def operandsOk (lim : Limits) (op : Nat) (f : Fields) : Bool :=
  let i := operandCls op (modField (opInfo op).x f.x)
  destOk lim i.d f.dn f.d.toNat && sourceOk lim i.a f.al f.a.toNat && sourceOk lim i.b f.bl f.b.toNat &&
  (match i.x with
   | .none | .m => bits f.x 20 12 = 0
   | .c => sourceOk lim i.c (fieldCL f) (fieldC f)
   | .imm | .addr => true)

/-- Step 3 of R81. -/
def modifiersOk (op : Nat) (f : Fields) : Bool :=
  modOk op (modField (opInfo op).x f.x) f.d.toNat f.a.toNat

end Sys2Proof.Machine
end

