-- ==== Sys2Proof/Machine/Part.lean ====
section
/-! DEFINITION. The state of a wave and of its parts: registers, paths, latch windows, the rejoin stack,
the store queue and the loads in flight (06 R103-R107; 07; 04 R76; 12 R253). -/
namespace Sys2Proof.Machine

/-- A code segment from which a part fetches (04 R64, R66): address space, base address, bytes, and the
profile, umari.2 in gang mode or umari.3 (R100). -/
structure CodeSeg where
  asn : Nat := 0
  base : Dword := 0
  len : Nat := 0
  gang : Bool := false
  deriving DecidableEq, Repr

/-- A pending path of a part (07 R130). -/
structure Path where
  pc : Word
  /-- Every lane of the path, idle ones included. -/
  lanes : Lanes
  active : Lanes
  /-- Parked at a `rejoin` (1) or at a `fuse` (2); 0 not parked (R131). -/
  parkedAt : Nat := 0
  deriving DecidableEq, Repr

/-- A latch written in the open window (04 R76): the producer's unit and issue cycle, the value per written
lane, the tag per written quad. -/
structure Latch where
  idx : Nat
  unit : Unit'
  cycle : Nat
  vals : List (Nat × Word)
  tags : List (Nat × Tag)
  deriving DecidableEq, Repr

/-- An open latch window (04 R76, R77): its opener's PC, the instructions issued in it, the registers they
read and wrote, and the latches written. `fresh` numbers the free values that unwritten lanes read. -/
structure Window where
  start : Word
  count : Nat
  reads : List Nat
  writes : List Nat
  latches : List Latch
  fresh : Nat
  deriving DecidableEq, Repr

/-- Why a part does not issue (07 R117, 22 R406). -/
inductive Wait where
  | ready
  /-- Its next instruction's registers were pending on the scoreboard when it last tried. -/
  | score
  /-- Parked at a rejoin entry, named by its index on the stack. -/
  | parked (entry : Nat)
  /-- Stalled at a width requirement (R126). -/
  | width
  /-- Stalled at `fuse` (R127). -/
  | fuse
  /-- Blocked on a handle, bobbin, queue, engine resource or memory order; tried again at its next turn. -/
  | sync
  /-- Arrived at the workgroup barrier, which has not opened (20 R368). -/
  | barrier
  /-- Arrived at the grid barrier (20 R372). -/
  | gbar
  deriving DecidableEq, Repr

/-- A part frozen alone by a trap (22 R391): its cause and where RELEASE resumes it. -/
structure Frozen where
  cause : Byte
  resume : Word
  deriving DecidableEq, Repr

/-- Handler mode (22 R393): the paths set aside, and the segment that the handler is fetched from. -/
structure Handler where
  aside : List Path
  code : Option CodeSeg
  deriving DecidableEq, Repr

/-- What a trap reports beside its cause (22 R394). -/
structure TrapInfo where
  cause : Byte
  /-- Lanes that failed an address check; none for causes without an address. -/
  lanes : Option Lanes := none
  addr : Dword := 0
  /-- IMM of `bpt` and `trap`. -/
  detail : Word := 0
  /-- The resume PC is the next instruction's (`bpt`, `trap`). -/
  skip : Bool := false
  /-- ACCESS of the fault record (R397). -/
  access : Nat := 0
  deriving DecidableEq, Repr

/-- What a texel, element, record or node read has brought (17 R327; 18 R338). -/
inductive Fetch where
  | bytes (data : List Byte)
  /-- The page is not resident, or the peer did not answer: zeros, and the lane is flagged. -/
  | flagged
  /-- An access without permission, or a sector that fails its check, with the cause and the address. -/
  | failed (cause : Byte) (va : Dword)
  deriving DecidableEq, Repr

/-- A part of a wave (07 R116). -/
structure Part where
  /-- Every lane the part holds. -/
  lanes : Lanes := 0
  pc : Word := 0
  /-- Lanes of the running path, active or not (R130). -/
  run : Lanes := 0
  /-- $exec: the running path's active lanes (06 R104). -/
  exec : Lanes := 0
  paths : List Path := []
  /-- s0-s127, by number (06 R103, R107). -/
  s : KMap Word := []
  m : KMap Dword := []
  h : KMap Word := []
  /-- $pstat CODE (06 R105). -/
  pstat : Half := 0
  /-- The first cycle in which the part may issue (04 R75). -/
  nextIssue : Nat := 0
  /-- Consecutive cycles the part has been ready without issuing (07 R118). -/
  readyFor : Nat := 0
  /-- It ranks first at its port (R118). -/
  starved : Bool := false
  window : Option Window := none
  wait : Wait := .ready
  /-- A trap raised in this cycle beside co-issuing parts, or kept by a freeze until RELEASE (22 R392). -/
  raised : Option TrapInfo := none
  /-- A freeze of the same cycle came before the trap: its record is written, and RELEASE lets it be entered. -/
  marked : Bool := false
  /-- Bytes that the instruction at the PC has read so far while it waits for others (17 R327; log 13). -/
  buffer : List (Dword × Nat × Fetch) := []
  frozen : Option Frozen := none
  handler : Option Handler := none
  /-- The last trap or freeze cause (22 R406). -/
  cause : Byte := 0
  /-- A debugger's STEP is in progress (22 R405). -/
  stepping : Bool := false
  /-- Acquire accesses, by load number, that have not returned (12 R254). -/
  holds : List Nat := []
  /-- Release scope that later stores carry after a `fence.rel`. -/
  relScope : Option Nat := none
  /-- One more than the consecutive cycles that a spawn has been stalled on bin room, 0 while it is not (20 R380). -/
  stallFor : Nat := 0
  /-- The `emitp` at which it is stalled has made its flush (17 R334). -/
  flushed : Bool := false
  deriving DecidableEq, Repr

/-- A rejoin entry (07 R121). `idx` is its place among the sixteen; the most recent entry comes first in the
wave's list. -/
structure RejoinEntry where
  idx : Nat
  lanes : Lanes
  arrived : Lanes := 0
  rpc : Word := 0
  token : Half
  expect : Quads
  deadline : Half := 0
  expired : Bool := false
  started : Bool := false
  /-- KIND 1, from a miss split. -/
  miss : Bool
  deriving DecidableEq, Repr

/-- How the bytes of a load become a register value (12 R247-R249, R260). -/
inductive LoadDst where
  /-- A v register, or none for `_`; size code of TYPE; tag set. -/
  | vec (reg : Option Nat) (sz : Nat) (tag : Tag)
  /-- A block: first register, BFMT, SPOS. -/
  | block (reg bfmt spos : Nat)
  /-- An s register and size code. -/
  | scalar (reg sz : Nat)
  /-- `sumget`: s register, format, rounding, status mask register. -/
  | sum (reg fmt rm fm : Nat)
  /-- An atomic's old value, in a v register (none for `_`). -/
  | atomV (reg : Option Nat)
  /-- An atomic's old value, in an s register. -/
  | atomS (reg : Nat)
  /-- The end of a sum operation for which an acquire waits (R258, R259). -/
  | ack
  /-- Bytes for the part's buffer: a read of a texture, resource, ray or mesh instruction. -/
  | buffer
  deriving DecidableEq, Repr

/-- The bytes of a lane's access that lie in one line: address, how many, where they lie (none on a page that is not
resident, which reads zero), and their values once the access is performed there (11 R229, R233). -/
structure Piece where
  va : Nat
  n : Nat
  key : Option Nat := none
  data : Option (List Byte) := none
  /-- Its line was not present in its slice for the region as the load reached it (07 R120; 11 R430). -/
  missed : Bool := false
  deriving DecidableEq, Repr

/-- One lane of a load in flight: its address; whether it has reached its owner and been translated (11 R221);
its pieces from then on; whether one of them missed its L2 slice (07 R120); and its bytes where an answer brings them. -/
structure LoadLane where
  lane : Nat
  va : Dword
  arrived : Bool := false
  phys : List Piece := []
  missed : Bool := false
  fixed : Option (List Byte) := none
  /-- The peer request that answers it, for owners 3-6 (21 R384). -/
  peer : Option Nat := none
  deriving DecidableEq, Repr

/-- A load, or an atomic's return, in flight (07 R116). -/
structure Load where
  id : Nat
  seq : Nat
  dst : LoadDst
  /-- Lanes of the part that issued it; a scalar result goes to every part that holds some of them (R116). -/
  part : Lanes
  /-- Registers pending until the load returns, by number of 04 R72. -/
  regs : List Nat
  /-- Lanes whose data has not been written. -/
  lanes : List LoadLane
  /-- Lanes written or flagged so far. -/
  done : Lanes := 0
  acq : Option Nat
  /-- It may cause a miss split, and has not yet (07 R120). -/
  maySplit : Bool
  /-- Flag mask register not written yet, 0 for none (R246). -/
  fm : Nat := 0
  /-- `sldc`, through the constant cache on a page with W = 0 (R248). -/
  const : Bool := false
  /-- Bytes of a lane. -/
  size : Nat := 4
  /-- It may hit the L1 and fill it; deterministic sums do not (11 R229). -/
  l1 : Bool := true
  /-- Participating lanes; those flagged so far; those that failed, with cause and address (11 R224, R226, R238). -/
  mask : Lanes := 0
  flagged : Lanes := 0
  failed : List (Nat × Byte × Dword) := []
  /-- Every lane has been translated, and the failures have been dealt with. -/
  settled : Bool := false
  /-- A younger load of its part has been performed before it (19 R355). -/
  passed : Bool := false
  /-- The cycle of its issue, then of the last lane written (07 R120; 25 R419). -/
  cycle : Nat := 0
  /-- PC of the instruction, and its window's start, for fault records. -/
  pc : Word := 0
  restart : Option Word := none
  deriving DecidableEq, Repr

/-- One lane's bytes of a queued store. -/
structure LaneWrite where
  lane : Nat
  va : Dword
  bytes : List Byte
  deriving DecidableEq, Repr

/-- One lane of a queued atomic: operand, and the new value of `cas`. -/
structure LaneAtomic where
  lane : Nat
  va : Dword
  operand : Word
  new : Word
  deriving DecidableEq, Repr

/-- What an entry of the store queue does when it leaves (12 R253; 13 R262; 20 R380, R382). -/
inductive QKind where
  | store (writes : List LaneWrite)
  | atomic (op : Nat) (unsigned : Bool) (lanes : List LaneAtomic) (load : Nat)
  /-- Contributions to WS128 slots (12 R259), and `suminit` (R258), with the load that an acquire waits for. -/
  | contribute (fmt : Nat) (lanes : List LaneAtomic) (load : Option Nat)
  | sumInit (lane : Nat) (va : Dword) (e0 : Half) (load : Option Nat)
  | eng (job : Nat)
  /-- Queue register, records (lane, value), future entry. -/
  | spawn (q : Nat) (records : List (Nat × Word)) (fut : Nat)
  | qclose (q : Nat)
  /-- A drain's place in the order of releases, by its array-queue entry (15 R307). -/
  | drain (entry : Nat)
  deriving DecidableEq, Repr

/-- An entry of a wave's store queue (12 R253). -/
structure QEntry where
  seq : Nat
  /-- The lanes of the part that issued it. -/
  part : Lanes
  /-- $lane of that part. -/
  lane : Nat
  /-- Participating lanes (R245). -/
  mask : Lanes := 0
  kind : QKind
  /-- Release scope (R254), if it is a release. -/
  rel : Option Nat
  /-- Flag mask register, 0 for none (R246). -/
  fm : Nat := 0
  /-- PC of the instruction, for fault records. -/
  pc : Word := 0
  deriving DecidableEq, Repr

/-- A gather descriptor of a 16-lane segment (15 R303). -/
structure GatherDesc where
  fmt : Nat
  k : Nat
  rows : List Nat
  deriving DecidableEq, Repr

/-- The fragment a lane shades (17 R335): pixel, batch number of its triangle, and whether its ordered
section is entered (R336). -/
structure Fragment where
  lane : Nat
  x : Nat
  y : Nat
  /-- S and n of its key (R332). -/
  s : Nat
  n : Nat
  /-- 0 not entered, 1 section held, 2 released (R336). -/
  hold : Nat := 0
  deriving DecidableEq, Repr

/-- A wave (07 R115, R116). -/
structure Wave where
  /-- Placement number, unique over the module's life; ages compare by it (R118). -/
  serial : Nat
  /-- The barrier slot of its workgroup on the core. -/
  wg : Nat
  /-- Its index in the workgroup ($wave). -/
  index : Nat
  /-- Declared width in lanes; 32 in gang mode. -/
  width : Nat
  /-- Its first quad column c0 (R115). -/
  col : Nat := 0
  code : CodeSeg
  limits : Limits
  parts : List Part := []
  /-- v registers: register x 64 + lane (06 R103). -/
  v : KMap Word := []
  /-- Tags: register x 16 + quad (R108). -/
  tags : KMap Tag := []
  /-- p0-p6. -/
  p : KMap Lanes := []
  resid : Dword := 0
  rejoin : List RejoinEntry := []
  token : Half := 0
  queue : List QEntry := []
  loads : List Load := []
  /-- Sequence number of the next memory access. -/
  seq : Nat := 0
  gather : KMap (Option GatherDesc) := []
  /-- Queue registers closed by `qclose` (20 R382); 32 + q once its `qclose` has left the store queue. -/
  closed : List Nat := []
  fragments : List Fragment := []
  /-- The whole wave is frozen, with this cause (22 R391), and the cycle of its freeze. -/
  frozen : Option Byte := none
  frozenAt : Nat := 0
  /-- The cycle in which a `kill` of one of its parts has issued: the wave ends with that cycle (09 R182). -/
  killed : Option Nat := none
  /-- It has issued no instruction yet: the first is an acquire at .dev (19 R362). -/
  fresh : Bool := false
  /-- A debugger has halted the wave (22 R391). -/
  halted : Bool := false
  deriving DecidableEq, Repr

end Sys2Proof.Machine
end

