-- ==== Sys2Proof/Machine/CoreState.lean ====
section
/-! DEFINITION. The state of a core and of a cluster: workgroups, contexts, scratchpad, L1, outbound path,
futures, engine jobs, range locks, the squarer array, and the clock (06 R111; 11; 13; 14; 15; 16; 20; 22). -/
namespace Sys2Proof.Machine

/-- A region, named by its address space and the address of its RCB: ASN x 2^64 + address (02 R40, 11 R221). -/
abbrev Rgn := BitVec 76

def mkRgn (asn : Nat) (rcb : Dword) : Rgn := BitVec.ofNat 12 asn ++ rcb
/-- The address of its RCB. -/
def Rgn.addr (r : Rgn) : Dword := BitVec.ofNat 64 r.toNat

/-- A queue binding (20 R373). -/
structure QBind where
  q : Nat
  /-- KIND 1, a launch binding; otherwise a node binding. -/
  launch : Bool
  recBytes : Nat
  key : Nat
  timer : Nat
  cap : Nat
  deriving DecidableEq, Repr

/-- A kernel as selected and loaded: the fields of its descriptor (02 R37) and where its image lies. -/
structure Kernel where
  key : Nat := 0
  entry : Nat := 0
  width : Nat := 4
  tiles : Nat := 0
  vregs : Nat := 1
  sregs : Nat := 4
  heavy : Nat := 1
  /-- Translated from a portable kernel whose every region is serial (R36): its workgroups are one wave. -/
  serial : Bool := false
  splitBr : Bool := false
  splitMiss : Bool := false
  gridSync : Bool := false
  rejoin : Nat := 256
  scratch : Nat := 0
  handler : Option Nat := none
  /-- The region's handler that R38 installed: its segment and entry index. -/
  regionHandler : Option (CodeSeg × Nat) := none
  binds : List QBind := []
  code : CodeSeg := {}
  /-- $dseg (R33). -/
  dseg : Dword := 0
  deriving DecidableEq, Repr

/-- What a workgroup is, beyond an ordinary one (17 R335; 20 R376). -/
inductive WgKind where
  | plain
  /-- A node wave launched from a bin: root launch and node key. -/
  | node (root key : Nat)
  /-- A fragment workgroup: its batch, and the mesh launch. -/
  | fragment (batch : Nat)
  deriving DecidableEq, Repr

/-- A placed workgroup (03 R49, R62). -/
structure Workgroup where
  /-- Acceptance number of its launch. -/
  launch : Nat
  region : Rgn
  asn : Nat
  kind : WgKind := .plain
  /-- $wg_id, and the coordinates and grid of 06 R104. -/
  id : Nat := 0
  x : Nat := 0
  y : Nat := 0
  z : Nat := 0
  gx : Nat := 0
  gy : Nat := 0
  gz : Nat := 0
  kernel : Kernel
  /-- Window: absolute SRAM byte address and bytes (11 R228). -/
  base : Nat := 0
  scratch : Nat := 0
  /-- Physical tiles of t0, t1, … (06 R103). -/
  tiles : List Nat := []
  regBytes : Nat := 0
  /-- Wave slots, in wave order. -/
  slots : List Nat := []
  /-- Barrier slot fields (20 R367). -/
  gen : Word := 0
  arrived : Half := 0
  live : Half := 0
  /-- KIND: 0 none yet, 1 `wbar`, 2 `gbar`. -/
  barKind : Nat := 0
  /-- Its gbar arrival has been sent, has reached the counter, and a release awaits its core (R372). -/
  gbarSent : Bool := false
  gbarIn : Bool := false
  gbarDue : Bool := false
  /-- Fragment waves of its batch started so far (17 R335). -/
  started : Nat := 0
  /-- Where each wave stood when its barrier last opened: wave slot, placement number, next access (19 R362). -/
  fences : List (Nat × Nat × Nat) := []
  deriving DecidableEq, Repr

/-- A column of a loaded B bank (14 R283): scale exponent, integers, correction register, and its flags:
positions of NaN, of infinities with their sign, and of zeros (R288). -/
structure Line where
  f : Int := 0
  ints : List Int := []
  square : Int := 0
  nan : List Nat := []
  inf : List (Nat × Bool) := []
  zero : List Nat := []
  /-- Positions whose code has its sign set. -/
  neg : List Nat := []
  /-- Its alignment lost bits (R285). -/
  loss : Bool := false
  deriving DecidableEq, Repr

/-- A B bank (14 R282, R283; 15 R300). -/
structure Bank where
  state : Dword := 0
  k : Nat := 0
  cols : List Line := []
  /-- The block in the cells was read from a failing sector (R283). -/
  bad : Bool := false
  /-- Columns whose cells or sum fail parity (R294). -/
  parity : List Nat := []
  /-- Absolute SRAM address of the source, for the reload of 06 R114. -/
  src : Nat := 0
  deriving DecidableEq, Repr

/-- Where a context stands (06 R113, 22 R400). -/
inductive CtxPlace where
  | active
  /-- Resident in a plane of its own, of the fast-switch class, and not active. -/
  | shadow
  /-- Resident and not active, of the streaming class: it was placed or brought back beside an active context. -/
  | waiting
  | streamed
  deriving DecidableEq, Repr

/-- A context: one region's state on one core (06 R111). While it is streamed out, its waves and workgroups lie in
its save area; its windows and tiles then have addresses beyond those of the core (22 R402). -/
structure Context where
  region : Rgn
  asn : Nat
  /-- Placement order of its first workgroup. -/
  order : Nat
  fast : Bool
  place : CtxPlace := .active
  /-- 256-byte blocks of SRAM that hold nothing but zeros and what its workgroups wrote (11 R227). -/
  blocks : List Nat := []
  /-- Virtual address of its trap area (22 R394). -/
  trapBase : Dword := 0
  /-- Consecutive cycles without a ready part, and cycles of the current quantum (R400). -/
  idle : Nat := 0
  quantum : Nat := 0
  /-- The frame of device memory at which its save area begins (06 R113). -/
  saveArea : Option Nat := none
  savedWaves : List (Nat × Wave) := []
  savedWgs : List (Nat × Workgroup) := []
  /-- Its B banks while it is not active: state word, K and source (06 R114). -/
  savedBanks : KMap Bank := []
  /-- Another context of its priority has had a ready part in the current quantum (R400). -/
  wanted : Bool := false
  deriving DecidableEq, Repr

/-- A line of an L1 (11 R229): its tag, where it lies in memory, its bytes, the error of each sector's check value
(as `State.memErr`), and whether its page had W = 1 (19 R357). -/
structure L1Line where
  asn : Nat
  /-- Virtual address / 128. -/
  line : Nat
  /-- First physical byte. -/
  key : Nat := 0
  data : List Byte
  errs : List Half := []
  writable : Bool
  deriving DecidableEq, Repr

/-- A store or atomic in the core's outbound path, on its way to its home slice (19 R355). -/
structure Outbound where
  id : Nat
  slot : Nat
  serial : Nat
  entry : QEntry
  asn : Nat
  region : Rgn
  launch : Nat
  /-- $wg_id of its workgroup. -/
  wgId : Nat := 0
  /-- Peer requests sent for it and not yet answered (21 R384). -/
  peers : List Nat := []
  /-- Lanes flagged so far (11 R224, 21 R385). -/
  flagged : Lanes := 0
  /-- Lanes that failed, with cause and address (11 R226, R238). -/
  failed : List (Nat × Byte × Dword) := []
  deriving DecidableEq, Repr

/-- An entry of the future table (13 R268). `phase` 0 free, 1 pending, 2 complete. -/
structure Future where
  gen : Half := 0
  phase : Nat := 0
  status : Byte := 0
  bytes : Word := 0
  /-- Region of the owning context. -/
  owner : Rgn := 0
  /-- Wave placement number of its producer. -/
  serial : Nat := 0
  /-- The order in which entries completed. -/
  order : Nat := 0
  /-- The scope at which `fwait` acquires (13 R270). -/
  scope : Nat := 0
  /-- Device launches it waits for, in lane order, with the status of those ended (20 R380). -/
  launches : List (Nat × Option Byte) := []
  /-- The queue register of its `spawn` (20 R381). -/
  queue : Option Nat := none
  deriving DecidableEq, Repr

/-- A range-lock entry (13 R277). -/
structure RangeLock where
  base : Nat
  len : Nat
  asn : Nat
  scratch : Bool
  slot : Nat
  deriving DecidableEq, Repr

/-- Where an engine job stands (13 R262-R272). -/
inductive JobPhase where
  /-- In the store queue. -/
  | queued
  /-- Accepted; chunks remain. -/
  | running
  /-- Stopped: it ends with this status at its next turn. -/
  | ending (status : Byte)
  /-- Frozen under R226 with its PROT_ cause. -/
  | frozen (cause : Byte)
  deriving DecidableEq, Repr

/-- An engine job (13 R262). -/
structure Job where
  fn : Nat
  scope : Nat
  params : List Word
  phase : JobPhase := .queued
  serial : Nat
  slot : Nat
  region : Rgn
  asn : Nat
  launch : Nat
  wgId : Nat
  base : Nat
  scratch : Nat
  /-- The `eng` instruction's index, for RS rounding (R265). -/
  pc : Word
  /-- Bytes done, and bytes counted on the bobbin. -/
  done : Nat := 0
  counted : Nat := 0
  cancel : Bool := false
  /-- Some pair of records met unequal E0 (R267). -/
  mismatch : Bool := false
  /-- The sorted output of a Carder job (R279). -/
  sorted : Option (List Byte) := none
  /-- A peer chunk in flight: its request number. -/
  peer : Option Nat := none
  /-- The table row of the destination row under way, as its index was read (R265). -/
  row : Option Nat := none
  deriving DecidableEq, Repr

/-- A physical tile (06 R103, 14 R294): elements by row x 64 + column, tag, status word. -/
structure Tile where
  elems : KMap Word := []
  tag : Tag := 0
  status : Word := 0
  /-- Elements with an uncorrectable accumulator error (R294). -/
  ecc : List Nat := []
  deriving DecidableEq, Repr

/-- What an entry of the array queue does (14 R293; 15). -/
inductive ArrayOp where
  /-- Bank, format, K, absolute source address, source offset. -/
  | load (bank fmt k src : Nat)
  /-- Tile, bank, gather descriptor, window base; rows entered and rows written. -/
  | pass (tile bank : Nat) (desc : GatherDesc) (base : Nat) (entered written : Nat) (check : Bool)
  /-- A drain: tile; destination format, flags, scope; start, row stride, rows, bobbin; scratchpad form;
  the tile's rows and status once read. -/
  | drain (tile dfmt : Nat) (add xsat zero : Bool) (scope : Nat) (dest : Nat) (stride rows : Nat)
      (bob : Option Nat) (sp : Bool) (image : Option (List (List Word)))
  | zero (tile : Nat)
  deriving DecidableEq, Repr

/-- An entry of the array queue. -/
structure ArrayEntry where
  id : Nat
  op : ArrayOp
  fut : Nat
  serial : Nat
  slot : Nat
  lane : Nat
  seq : Nat
  asn : Nat
  region : Rgn
  launch : Nat
  wgId : Nat
  base : Nat
  scratch : Nat
  pc : Word
  /-- The drain has been applied: bytes written and status, awaiting its completion (R308). -/
  result : Option (Nat × Byte) := none
  /-- Drain bits of the arrival (R296). -/
  bits : Nat := 0
  /-- The cycle in which a pass whose rows are all written completes (R292). -/
  doneAt : Nat := 0
  /-- The first cycle in which the next row of a pass has been gathered (R291). -/
  ready : Nat := 0
  /-- A drain through a peer window: its request number (21 R383). -/
  peer : Option Nat := none
  deriving DecidableEq, Repr

/-- A row on its way through the array (14 R292): written at `due`. `line` is none for a row gathered
from a failing sector (R294). -/
structure ArrayRow where
  entry : Nat
  row : Nat
  due : Nat
  line : Option Line
  deriving DecidableEq, Repr

/-- A ramp window (16 R319). -/
structure Ramp where
  start : Nat
  interval : Nat
  doubled : Nat := 0
  deriving DecidableEq, Repr

/-- A core (00 R2). -/
structure Core where
  waves : KMap (Option Wave) := []
  wgs : KMap (Option Workgroup) := []
  ctxs : List Context := []
  /-- SRAM bytes by absolute address (11 R227). -/
  sram : KMap Byte := []
  /-- Errors of check values of SRAM sectors, as `State.memErr` (R235). -/
  sramErr : KMap Half := []
  l1 : List L1Line := []
  /-- Lines of the constant cache (12 R248) and records of the resource-record cache (17 R326). -/
  constCache : List L1Line := []
  records : List (Nat × Nat × List Byte) := []
  /-- Forwarding hints: address space, page, core (11 R234). -/
  hints : List (Nat × Nat × Nat) := []
  outbound : List Outbound := []
  nextOut : Nat := 0
  nextLoad : Nat := 0
  futs : KMap Future := []
  futOrder : Nat := 0
  locks : List RangeLock := []
  jobs : KMap (Option Job) := []
  banks : KMap Bank := []
  tiles : KMap Tile := []
  array : List ArrayEntry := []
  nextArray : Nat := 0
  rows : List ArrayRow := []
  /-- The first cycle at which the next row slot may fall (14 R291). -/
  nextSlot : Nat := 0
  /-- $cad fields (06 R105, 16 R313). -/
  floor : Nat := 64
  ballast : Bool := false
  interval : Nat := 64
  ramp : Option Ramp := none
  /-- The cycle of the latest evaluation of INTERVAL, and the quads that vector units have taken since
  (16 R314). -/
  lastEval : Nat := 0
  vecQuads : Nat := 0
  /-- Cycles of its ramp windows above the module cap without a grant, not charged yet (16 R320). -/
  overCap : Nat := 0
  /-- Instructions issued in the current cycle: cycle, port, columns (07 R118). -/
  issued : List (Nat × Nat × Quads) := []
  /-- DBGCTL CATCH, and DBGCMD as last written (22 R404). -/
  catchBpt : Bool := false
  dbgcmd : Dword := 0
  deriving DecidableEq, Repr

/-- A cluster's clock state (16 R315-R317). -/
inductive ClockState where
  | nominal | sprint | falling | coolDown
  deriving DecidableEq, Repr

/-- A cluster. -/
structure Cluster where
  /-- $cyc: cycles since module reset (06 R104). -/
  cyc : Nat := 0
  clock : ClockState := .nominal
  /-- The cycle at which the fall, or the cool-down, ends (R317). -/
  clockEnd : Nat := 0
  /-- Cycles spent at or below nominal, and those already credited (R318). -/
  lowCycles : Nat := 0
  credited : Nat := 0
  /-- Permits of debt (R320). -/
  debt : Nat := 0
  /-- The cycle of its next charging boundary (R316). -/
  nextClaim : Nat := 0
  /-- The fall in progress enters no cool-down (R316). -/
  noCool : Bool := false
  /-- Carder jobs accepted, in order: core and job slot (13 R279). -/
  carder : List (Nat × Nat) := []
  deriving DecidableEq, Repr

end Sys2Proof.Machine
end

