-- ==== Sys2Proof/Machine/State.lean ====
section
/-! DEFINITION. The state of the module: everything the spec gives the machine, as plain data; the reasons
a step can stop; the state after reset. -/
namespace Sys2Proof.Machine

/-- The effective fields of a region (02 R40, R41). -/
structure Budget where
  prio : Nat := 0
  preempt : Nat := 0
  rigShape : Nat := 0
  rigDim : Nat := 0
  clusters : Nat := 0
  cores : Nat := 0
  tiles : Nat := 0
  l2Ways : Nat := 0
  ethQp : Nat := 0
  ethShare : Nat := 0
  hbmShare : Nat := 0
  power : Nat := 0
  regs : Nat := 0
  scratch : Nat := 0
  permits : Nat := 0
  sign : Nat := 0
  peerTmo : Nat := 0
  faultDomain : Nat := 0
  handlerObj : Nat := 0
  handlerKey : Nat := 0
  deriving DecidableEq, Repr

/-- A region that a launch has named (03 R53, R60, R62). -/
structure Region where
  rcb : Rgn
  asn : Nat
  /-- RCB addresses from this node to the root. -/
  chain : List Rgn
  /-- Effective fields as last read (02 R43). -/
  budget : Budget
  /-- Groups 2, 3, 5, 6 and 7 in force while it is active. -/
  inForce : Option Budget := none
  /-- Those that were in force last; before the region was first active, those first read (02 R43). -/
  last : Budget := {}
  /-- Launches queued, by acceptance number. -/
  queue : List Nat := []
  /-- Rotation pointer: the cluster after the one used last (R62). -/
  pointer : Nat := 0
  /-- Units charged in the current round of weighted round robin (R54), by child of this node. -/
  charged : List (Rgn × Nat) := []
  /-- The context of its latest host launch (01 R24). -/
  hostCtx : Option Nat := none
  deriving DecidableEq, Repr

/-- A dependence bound at acceptance (03 R55): producer, map, and the producer's grid. -/
structure Dep where
  producer : Nat
  map : Nat
  gx : Nat
  gy : Nat
  gz : Nat
  deriving DecidableEq, Repr

/-- An accepted launch (03; 23). -/
structure Launch where
  acc : Nat
  region : Rgn
  asn : Nat
  /-- The host context of a host launch. -/
  host : Option Nat := none
  /-- The future of a device launch: core, entry, generation, index among the spawn's records. -/
  fut : Option (Nat × Nat × Half × Nat) := none
  kernel : Kernel
  gx : Nat
  gy : Nat
  gz : Nat
  lanes : Nat
  waves : Nat
  wgX : Nat := 1
  wgY : Nat := 1
  args : Dword := 0
  /-- DONE bits [56:0]. -/
  done : Dword := 0
  notifyWg : Bool := false
  notifyEnd : Bool := false
  deps : List Dep := []
  /-- The effective fields with which it was validated (02 R43). -/
  checked : Budget := {}
  /-- Linear index of the next workgroup to place. -/
  next : Nat := 0
  /-- Indices of published workgroups. -/
  published : List Nat := []
  /-- Its Capstan counter, for a launch of a grid-sync kernel (20 R371). -/
  capstan : Option Nat := none
  /-- Cause with which unplaced workgroups were dropped (R57, 23 R412). -/
  dropped : Option Byte := none
  /-- The contexts of this grid-sync launch leave their cores, or are out (22 R403). -/
  leaving : Bool := false
  ended : Bool := false
  deriving DecidableEq, Repr

/-- A teardown request whose launches have not all retired (23 R412): their acceptance numbers, the region, and where its own
end is reported. -/
structure Teardown where
  accs : List Nat
  top : Rgn
  asn : Nat
  host : Option Nat
  fut : Option (Nat × Nat × Half × Nat)
  done : Dword
  notify : Bool
  deriving DecidableEq, Repr

/-- A Creel bin (20 R375). -/
structure Bin where
  root : Nat
  key : Nat
  region : Rgn
  slice : Nat
  recBytes : Nat
  cap : Nat
  timer : Nat
  kernel : Kernel
  records : List (List Byte) := []
  reserved : Nat := 0
  serial : Word := 0
  /-- Cycle of the owner cluster at which the timer last restarted. -/
  restarted : Nat := 0
  deriving DecidableEq, Repr

/-- A node wave launched from a bin and not yet placed (20 R376). -/
structure NodeWave where
  root : Nat
  key : Nat
  serial : Word
  records : List (List Byte)
  kernel : Kernel
  deriving DecidableEq, Repr

/-- A binned triangle (17 R332-R334): its key (A, S, n), vertices (x, y, z bits), attribute word, and the
screen tiles that it touches. -/
structure Tri where
  a : Nat
  s : Nat
  n : Nat
  verts : List (Word × Word × Word)
  attr : Word
  tiles : List (Nat × Nat)
  deriving DecidableEq, Repr

/-- A draw record in use (17 R331-R334), of an address space: what its first use found, the mesh launches that
have named it and not ended, and its binned triangles. -/
structure Draw where
  asn : Nat
  d : Nat
  /-- The region whose ways hold the buffer, and the slices that share its lines (R334). -/
  region : Rgn
  slices : List Nat
  launches : List Nat
  kernel : Kernel
  /-- Base address, texel format and bytes, width and height of the target's level 0. -/
  target : Dword
  fmt : Nat
  texel : Nat
  width : Nat
  height : Nat
  cap : Nat
  tris : List Tri := []
  deriving DecidableEq, Repr

/-- A flush batch of one screen tile (17 R335). `running` while its workgroup is on a core. -/
structure Batch where
  id : Nat
  launch : Nat
  asn : Nat
  d : Nat
  target : Dword
  texel : Nat
  width : Nat
  height : Nat
  kernel : Kernel
  tx : Nat
  ty : Nat
  tris : List Tri
  running : Bool := false
  /-- Some of its waves have not started. -/
  waiting : Bool := true
  /-- Rows of the target in a peer window (21 R383): they have been asked for, or sent back; requests not answered yet; and the
  rows that have come. -/
  asked : Bool := false
  sent : Bool := false
  peers : List Nat := []
  image : List (Nat × List Byte) := []
  deriving DecidableEq, Repr

/-- A mesh group's primitive count (17 R332). -/
structure GroupCount where
  launch : Nat
  s : Nat
  n : Nat
  deriving DecidableEq, Repr

/-- A host context (01 R22-R24). -/
structure HostCtx where
  last : Word := 0xFFFFFFFF
  held : List Datagram := []
  count : Word := 0
  endpoint : Option Endpoint := none
  /-- Address space of its PUTs, GETs and launches. -/
  asn : Nat := 1
  deriving DecidableEq, Repr

/-- A message sent on port 0: destination, the UDP port it leaves from, and bytes (01 R18, R24). -/
structure Sent where
  dest : Endpoint
  port : Half := 0xD7A1
  bytes : List Byte
  deriving DecidableEq, Repr

/-- A loaded object (02 R30): its bytes, and the result of the signature check with the key's digest. -/
structure Loaded where
  asn : Nat
  addr : Dword
  digest : List Byte
  bytes : List Byte
  signed : Bool
  keyDigest : List Byte
  deriving DecidableEq, Repr

/-- A selected image mapped in an address space (02 R33, R36): its object, directory index, entry key and thread
count of a translated linran image (0 otherwise), and where its segments lie. -/
structure Mapped where
  asn : Nat
  addr : Dword
  digest : List Byte
  image : Nat
  key : Nat
  threads : Nat
  codeBase : Dword
  codeLen : Nat
  gang : Bool
  dseg : Dword
  dataLen : Nat := 0
  deriving DecidableEq, Repr

/-- A zone's permit register (16 R315); its cluster states are those of the clusters. -/
structure Zone where
  last : Bool := false
  grant : Nat := 64
  pool : Nat := 64
  deriving DecidableEq, Repr

/-- A Capstan counter (20 R371), with the launch that holds it. -/
structure Capstan where
  gen : Half := 0
  expect : Half := 0
  arrived : Half := 0
  launch : Option Nat := none
  deriving DecidableEq, Repr

/-- A read-combining entry (11 R233): physical line, region, the loads that joined, by core, wave slot, load and
lane, and the prefetches that bring the line into an L1, by core, address space and address. -/
structure Combine where
  id : Nat
  line : Nat
  region : Rgn
  joined : List (Nat × Nat × Nat × Nat)
  fills : List (Nat × Nat × Dword) := []
  deriving DecidableEq, Repr

/-- A line present in its L2 slice (11 R430): physical line, the region whose ways hold it, whether it is the next
to be replaced (12 R252), and the core that fetched it last (R234). Pinned lines hold no address of an access: they
are those of `bins` and `draws` (R231). -/
structure L2Line where
  line : Nat
  region : Rgn
  demoted : Bool := false
  fetcher : Option Nat := none
  deriving DecidableEq, Repr

/-- What a peer request of this module belongs to (21 R384). -/
inductive PeerUse where
  /-- A lane of a load: core, wave slot, load, lane. -/
  | load (core slot load lane : Nat)
  /-- A lane of a store, contribution or slot initialisation: core, outbound entry, lane. -/
  | store (core entry lane : Nat)
  /-- A lane of an atomic, with the load that returns it. -/
  | atomic (core entry lane load : Nat)
  /-- A chunk of an engine job: core, job slot, bytes. -/
  | job (core job bytes : Nat)
  /-- A drain: core, entry of its array queue. -/
  | drain (core entry : Nat)
  /-- A row of a colour tile, read or written back: batch, row (17 R335). -/
  | tile (batch row : Nat)
  deriving DecidableEq, Repr

/-- An outstanding request to a peer module (21 R383). -/
structure PeerOut where
  id : Nat
  port : Nat
  module : Nat
  pctx : Nat
  owner : Nat
  offset : Nat
  op : PeerOp
  use : PeerUse
  /-- The address that the initiator named. -/
  va : Dword := 0
  deriving DecidableEq, Repr

/-- Messages to peers, besides requests: a cancel (21 R385), and the answers to inbound requests. -/
inductive PeerMsg where
  | request (r : PeerOut)
  | cancel (port module id : Nat)
  | answer (pctx id : Nat) (r : PeerResult)
  deriving DecidableEq, Repr

/-- The state of the module. -/
structure State where
  /-- The part whose instruction `exec` runs. The model's own (log 1). -/
  cur : PartRef := ⟨0, 0, 0⟩
  /-- Who moves next, in order. The model's own (log 1). -/
  agenda : List Turn := []
  /-- Number of the next free value. The model's own (log 2). -/
  freeCount : Nat := 0
  /-- READY0, READY1, READY2 (01 R13). -/
  ready0 : Dword := 0
  ready1 : Dword := 0
  ready2 : Dword := 0
  /-- The bring-up fault record (01 R12). -/
  ccause : List Byte := List.replicate 8 0xFF
  fail0 : Dword := 0
  fail1 : Dword := 0
  fail2 : Dword := 0
  first : Word := 0
  firstCause : Byte := 0
  recovery : Bool := false
  /-- The boot ROMs have run; the bring-up core (01 R10, R11). -/
  booted : Bool := false
  bringUp : Option Nat := none
  /-- DIGEST fields of the verified firmware images, and the version number in force (01 R16, R17). -/
  digests : List (Option (List Byte)) := List.replicate 8 none
  svn : Word := 0
  /-- Home slice lists are fixed once every slice self-test of a die has ended (11 R230). -/
  homes : List (Option (List Nat)) := [none, none]
  /-- Host contexts by number (01 R22-R24). -/
  host : KMap HostCtx := []
  /-- Messages sent on port 0, oldest first. -/
  sent : List Sent := []
  /-- Code-signing key slots (02 R31). -/
  keySlots : KMap (BitVec 256) := []
  /-- COMBINE_WIN of each slice (11 R232). -/
  combineWin : KMap Byte := []
  zones : KMap Zone := []
  capstans : KMap Capstan := []
  /-- Peer-window registers, at 4 x ASN + window (21 R383). -/
  peerWindows : KMap Dword := []
  /-- Inbound peer contexts: ASN and region (21 R383). -/
  pctxs : List (Nat × Nat × Dword) := []
  /-- Leaves of the page tables (11 R222), by owner, ASN and page. -/
  leaves : KMap Dword := []
  /-- Device memory: die x 2^52 + physical address (11 R217). -/
  mem : KMap Byte := []
  /-- Check values of memory (11 R235-R237), by sector number, each held as its error: the value that travels with
  the sector, exclusive-ORed with the CRC-16 of the sector's bytes; 0 where the check passes. -/
  memErr : KMap Half := []
  /-- Frames that firmware has mapped since reset: die, first frame, count (R235). -/
  framesUsed : List (Nat × Nat × Nat) := []
  l2 : List L2Line := []
  combines : List Combine := []
  nextCombine : Nat := 0
  clusters : KMap Cluster := []
  cores : KMap Core := []
  /-- Placement number of the next wave, and of the next context (07 R118, 22 R400). -/
  serial : Nat := 0
  /-- Acceptance number of the next launch (03 R44). -/
  accepted : Nat := 0
  regions : List Region := []
  launches : List Launch := []
  teardowns : List Teardown := []
  /-- Units charged to the trees in the current round of weighted round robin (03 R54). -/
  treeCharged : List (Rgn × Nat) := []
  loaded : List Loaded := []
  mapped : List Mapped := []
  /-- The next frame, and the next virtual page, that control firmware gives out (log 6). -/
  nextFrame : Nat := 0
  nextPage : Nat := 0
  bins : List Bin := []
  nodes : List NodeWave := []
  draws : List Draw := []
  groups : List GroupCount := []
  batches : List Batch := []
  nextBatch : Nat := 0
  /-- Peer requests outstanding, messages sent to peers, inbound contexts frozen, requests applied (21). -/
  peers : List PeerOut := []
  nextPeer : Nat := 0
  peerSent : List PeerMsg := []
  frozenPairs : List Nat := []
  peerApplied : List (Nat × Nat) := []
  peerCancelled : List (Nat × Nat) := []
  deriving DecidableEq, Repr

/-- Why the machine stops. -/
inductive Fault where
  /-- Raised by `exec` when the focus names no part of a resident wave: there is nothing whose instruction
  could run. Safe: no state that a run reaches by `step` has such a focus at an instruction. -/
  | noPart
  deriving DecidableEq, Repr

/-- Why an instruction is refused. -/
inductive Refusal where
  /-- Raised by `exec`'s arms for instructions without a meaning yet. Safe. -/
  | notModelled (mnemonic : String)
  deriving DecidableEq, Repr

/-- The module right after a module reset: every field at the value the spec states, or at the one the
assumption log names. -/
def State.reset : State := {}

end Sys2Proof.Machine
end

