-- ==== Sys2Proof/Machine/Mem.lean ====
section
/-! DEFINITION. Addresses, translation, device memory with its check values, and what a core reads through
its store queues, outbound path and L1 (11; 19 R355-R357). -/
namespace Sys2Proof.Machine

/-! Cause codes used here (22 R390). -/
def cProtRead : Byte := 0x40
def cProtWrite : Byte := 0x41
def cProtExec : Byte := 0x42
def cProtAtomic : Byte := 0x43
def cProtPriv : Byte := 0x44
def cCheck : Byte := 0x45
def cNonCanonical : Byte := 0x0D
def cWrap : Byte := 0x0E
def cMisaligned : Byte := 0x0C
def cScratch : Byte := 0x0F
def cLocked : Byte := 0x10
def cNotResident : Byte := 0xC3

/-- A core by number. -/
def getCore (s : State) (c : Nat) : Core := kget {} s.cores c
def setCore (s : State) (c : Nat) (k : Core) : State := { s with cores := kset {} s.cores c k }
def getCluster (s : State) (n : Nat) : Cluster := kget {} s.clusters n
def setCluster (s : State) (n : Nat) (k : Cluster) : State := { s with clusters := kset {} s.clusters n k }
/-- $cyc of a core's cluster (06 R104). -/
def coreCyc (s : State) (c : Nat) : Nat := (getCluster s (c / 8)).cyc
def getWave (k : Core) (slot : Nat) : Option Wave := kget none k.waves slot
def setWave (k : Core) (slot : Nat) (w : Wave) : Core := { k with waves := kset none k.waves slot (some w) }
def getWg (k : Core) (b : Nat) : Option Workgroup := kget none k.wgs b
def setWg (k : Core) (b : Nat) (g : Workgroup) : Core := { k with wgs := kset none k.wgs b (some g) }

/-- OWNER and OFFSET of a virtual address (R217). -/
def vaOwner (va : Dword) : Nat := bits va 54 3
def vaOffset (va : Dword) : Nat := bits va 0 54

/-- Steps 1 to 3 of R220 for one access; step 3 is skipped when `align` is 0. The step and the cause. -/
def formCheck (va : Dword) (size align : Nat) : Option (Nat × Byte) :=
  if va.toNat ≥ 2 ^ 57 then some (1, cNonCanonical)
  else if va.toNat + size > 2 ^ 57 then some (2, cWrap)
  else if align != 0 && va.toNat % align != 0 then some (3, cMisaligned)
  else none

/-- Pages of 4 KiB in a page of each size (R222). -/
def pageSpan (size : Nat) : Nat := if size = 0 then 1 else if size = 1 then 16 else if size = 2 then 512 else 262144

/-- Where the page tables hold the leaf of a page (R222): one tree per address space and owner. -/
def leafKey (owner asn page : Nat) : Nat := (owner * 4096 + asn) * 2 ^ 42 + page

/-- The leaf that a walk from the top finds: the largest page whose SIZE names its level, else a leaf of zeros (R222). -/
def walk (s : State) (owner asn page : Nat) : Dword :=
  let at? (size : Nat) : Option Dword :=
    let l := kget (0 : Dword) s.leaves (leafKey owner asn (page - page % pageSpan size))
    if l != 0 && bits l 10 2 = size then some l else none
  ((at? 3) <|> (at? 2) <|> (at? 1) <|> (at? 0)).getD 0

/-- The leaf of a virtual address of an owner 0-2 (R221). -/
def leafOf (s : State) (asn : Nat) (va : Dword) : Dword := walk s (vaOwner va) asn (vaOffset va / 4096)

/-- The physical byte of an address under a leaf (R218, R222): die x 2^52 + physical address. -/
def physOf (leaf va : Dword) : Nat :=
  let die := if vaOwner va = 2 then bits va 12 1 else vaOwner va
  let page := pageSpan (bits leaf 10 2) * 4096
  die * 2 ^ 52 + (bits leaf 12 40 * 4096 + vaOffset va % page)

/-- What an access does at the page (R223). -/
inductive Access where
  | fetch | load | sumget | store | atomic
  deriving DecidableEq, Repr

/-- The first missing leaf bit gives the cause (R223). -/
def leafCheck (k : Access) (l : Dword) : Option Byte :=
  if tbit l 5 then some cProtPriv
  else match k with
    | .fetch => if tbit l 3 then none else some cProtExec
    | .load => if tbit l 1 then none else some cProtRead
    | .sumget => if !tbit l 1 then some cProtRead else if tbit l 4 then none else some cProtAtomic
    | .store => if tbit l 2 then none else some cProtWrite
    | .atomic =>
      if !tbit l 1 then some cProtRead else if !tbit l 2 then some cProtWrite
      else if tbit l 4 then none else some cProtAtomic

/-- Where an access of a wave or an engine goes (R218, R223, R224). -/
inductive Route where
  | phys (key : Nat) (leaf : Dword)
  | absent
  | denied (cause : Byte)
  | peer (window : Nat)
  deriving DecidableEq, Repr

/-- Translate one byte address for an access. -/
def route (s : State) (asn : Nat) (k : Access) (va : Dword) : Route :=
  let o := vaOwner va
  if o = 7 then .denied cProtPriv
  else if 3 ≤ o then .peer (o - 3)
  else
    let l := leafOf s asn va
    match leafCheck k l with
    | some c => .denied c
    | none => if tbit l 0 then .phys (physOf l va) l else .absent

/-- Split a range of virtual addresses at page boundaries: start and length of each piece. -/
def pagePieces : Nat → Nat → Nat → List (Nat × Nat)
  | 0, _, _ => []
  | fuel + 1, va, n =>
    if n = 0 then [] else
    let m := min n (4096 - va % 4096)
    (va, m) :: pagePieces fuel (va + m) (n - m)

/-- Split a range at the pages it touches. -/
def pieces (va n : Nat) : List (Nat × Nat) := pagePieces (n / 4096 + 2) va n

/-- Two ranges share a byte. -/
def meets (a b : Nat × Nat) : Bool := decide (a.1 < b.1 + b.2) && decide (b.1 < a.1 + a.2)

/-- Where an address of owners 0-2 lies, whatever its page permits; none where the page is not resident. -/
def placeOf (s : State) (asn : Nat) (va : Dword) : Option Nat :=
  let l := leafOf s asn va
  if vaOwner va < 3 && tbit l 0 then some (physOf l va) else none

/-- Two ranges of addresses share a byte: by their addresses, or by way of two pages of one frame (R222). -/
def rangesMeet (s : State) (asn1 : Nat) (a : Dword × Nat) (asn2 : Nat) (b : Dword × Nat) : Bool :=
  (asn1 = asn2 && meets (a.1.toNat, a.2) (b.1.toNat, b.2)) ||
  (pieces a.1.toNat a.2).any (fun p => (pieces b.1.toNat b.2).any (fun q =>
    meets (p.1 % 4096, p.2) (q.1 % 4096, q.2) &&
    (match placeOf s asn1 (BitVec.ofNat 64 p.1), placeOf s asn2 (BitVec.ofNat 64 q.1) with
      | some x, some y => meets (x, p.2) (y, q.2)
      | _, _ => false)))

/-- The sectors that n bytes from a physical byte touch. -/
def sectorsOf (key n : Nat) : List Nat :=
  if n = 0 then [] else (List.range ((key + n - 1) / 32 + 1 - key / 32)).map (key / 32 + ·)

/-- Bytes of a sparse byte memory, zero where nothing is listed (R235). -/
def readBytes (m : KMap Byte) (key n : Nat) : List Byte := (List.range n).map (fun i => kget 0 m (key + i))

/-- Write bytes into a sparse byte memory. -/
def writeBytes : KMap Byte → Nat → List Byte → KMap Byte
  | m, _, [] => m
  | m, key, b :: bs => writeBytes (kset 0 m key b) (key + 1) bs

/-! Check values (R235-R237). -/

/-- One bit of the CRC-16 of R235. -/
def crcBit (c : Half) : Half := if tbit c 15 then (c <<< 1) ^^^ 0x1021 else c <<< 1

/-- The CRC-16 of R235 over bytes in ascending address order. -/
def crc16 (bs : List Byte) : Half :=
  bs.foldl (fun c b => (List.range 8).foldl (fun c _ => crcBit c) (c ^^^ BitVec.ofNat 16 (b.toNat * 256))) 0xFFFF

/-- The check value that a sector of a byte memory carries, from the errors held beside it. -/
def checkValue (m : KMap Byte) (err : KMap Half) (sector : Nat) : Half :=
  crc16 (readBytes m (32 * sector) 32) ^^^ kget 0 err sector

/-- Sectors that a write covers whole get a valid check value. The others keep their error: the check value moves by
the CRC of the change of the data (R237). -/
def clearBad (err : KMap Half) (key n : Nat) : KMap Half :=
  err.filter (fun e => !(decide (key ≤ 32 * e.1) && decide (32 * e.1 + 32 ≤ key + n)))

/-- Some sector of the range fails its check value. -/
def anyBad (err : KMap Half) (key n : Nat) : Bool := (sectorsOf key n).any (fun x => kget 0 err x != 0)

def memRead (s : State) (key n : Nat) : List Byte := readBytes s.mem key n
def memBadAt (s : State) (key n : Nat) : Bool := anyBad s.memErr key n

/-! What a region may use (02 R43; 03 R60). -/

def getRegion (s : State) (rcb : Rgn) : Option Region := s.regions.find? (fun r => r.rcb = rcb)

/-- The values that hold for a region (02 R43): groups 2, 3, 5, 6 and 7 as in force while it is active. -/
def Region.now (g : Region) : Budget :=
  match g.inForce with
  | none => g.budget
  | some b => { g.budget with rigShape := b.rigShape, rigDim := b.rigDim, clusters := b.clusters, cores := b.cores,
                              l2Ways := b.l2Ways, ethQp := b.ethQp, ethShare := b.ethShare, hbmShare := b.hbmShare }

def regionGrant (s : State) (rcb : Rgn) : Budget := ((getRegion s rcb).map Region.now).getD {}

/-! Functions that are ready (01 R13, R14). -/

def clusterReady (s : State) (c : Nat) : Bool := tbit s.ready0 c
def sliceReady (s : State) (n : Nat) : Bool := if n < 64 then tbit s.ready1 n else tbit s.ready2 (n - 64)
def hbmReady (s : State) (n : Nat) : Bool := tbit s.ready2 (16 + n)
def portReady (s : State) (n : Nat) : Bool := tbit s.ready2 (24 + n)

/-! The L2 slices (R230, R430). -/

/-- The home slices of a die (R230). -/
def homesOf (s : State) (die : Nat) : List Nat := ((s.homes.getD die none).getD [])

/-- The home slice of a physical line (R230); on a die that has lost all its slices the rule names none, and the model takes
its first (log 6). -/
def homeSlice (s : State) (line : Nat) : Nat :=
  let die := line * 128 / 2 ^ 52
  let h := homesOf s die
  if h.isEmpty then 40 * die else h.getD ((line * 128 % 2 ^ 52 / 128) % h.length) 0

def combineWin (s : State) (slice : Nat) : Nat := (kget (32 : Byte) s.combineWin slice).toNat

/-- Lines of a region's ways in one slice (00 R3, R5: 2 MiB in 16 ways). -/
def wayLines (ways : Nat) : Nat := ways * 1024

/-- Lines of a draw's buffer in each of its slices (17 R334), and of a bin (20 R375). -/
def Draw.share (d : Draw) : Nat := ceilDiv (d.cap / 128) d.slices.length
def Bin.lines (b : Bin) : Nat := ceilDiv (b.cap * b.recBytes) 128

/-- Lines pinned in a region's ways of a slice (R231). -/
def pinnedLines (s : State) (rgn : Rgn) (slice : Nat) : Nat :=
  ((s.bins.filter (fun b => b.region = rgn && b.slice = slice)).map Bin.lines).foldl (· + ·) 0 +
  ((s.draws.filter (fun d => d.region = rgn && d.slices.contains slice)).map Draw.share).foldl (· + ·) 0

/-- A line is present for a region's access only in that region's ways (R430). -/
def l2Present (s : State) (line : Nat) (region : Rgn) : Bool :=
  s.l2.any (fun l => l.line = line && l.region = region)

/-- The ways that a region holds: those granted while it is active (03 R60). -/
def grantedWays (s : State) (rgn : Rgn) : Nat := (((getRegion s rgn).bind (·.inForce)).map (·.l2Ways)).getD 0

/-- Lines of a region's ways in a slice beside its pinned ones. -/
def freeLines (s : State) (slice : Nat) (rgn : Rgn) : Nat := wayLines (grantedWays s rgn) - pinnedLines s rgn slice

/-- A region keeps n lines in a slice: those marked to be replaced next go first, then those that have been there longest
(12 R252; which one is the model's choice, log 50). -/
def l2Keep (s : State) (slice : Nat) (rgn : Rgn) (n : Nat) : State :=
  let own := s.l2.filter (fun l => l.region = rgn && homeSlice s l.line = slice)
  let out := ((own.filter (·.demoted) ++ own.filter (fun l => !l.demoted)).take (own.length - n)).map (·.line)
  { s with l2 := s.l2.filter (fun l => !out.contains l.line) }

/-- A region's lines in some slices fit beside its pinned ones, which have just been taken (R231). -/
def l2Fit (s : State) (rgn : Rgn) (slices : List Nat) : State :=
  slices.foldl (fun s sl => l2Keep s sl rgn (freeLines s sl rgn)) s

/-- A region's access leaves the line in its own ways, taken from whichever ways held it; a region without ways
allocates nothing (R430, 03 R61). -/
def l2Touch (s : State) (line : Nat) (region : Rgn) : State :=
  if l2Present s line region then s
  else
    let was := (s.l2.find? (fun l => l.line = line)).bind (·.fetcher)
    let s1 := { s with l2 := s.l2.filter (fun l => l.line != line) }
    let room := freeLines s (homeSlice s line) region
    if room = 0 then s1
    else
      let s2 := l2Keep s1 (homeSlice s line) region (room - 1)
      { s2 with l2 := s2.l2 ++ [{ line := line, region := region, fetcher := was }] }

/-- A region's access to a range of physical bytes touches its lines. -/
def l2TouchRange (s : State) (key n : Nat) (region : Rgn) : State :=
  ((List.range ((key + n + 127) / 128 - key / 128)).map (key / 128 + ·)).foldl (fun s line => l2Touch s line region) s

/-! Entries of store queues and of the outbound path. -/

/-- The bytes that a queued or outbound entry stores, with their addresses, in lane order. -/
def entryBytes (e : QEntry) : List (Dword × Byte) :=
  match e.kind with
  | .store ws => ws.flatMap (fun w => (List.range w.bytes.length).map
      (fun i => (w.va + BitVec.ofNat 64 i, w.bytes.getD i 0)))
  | _ => []

/-- The ranges of a queued access: address and bytes. -/
def entryRanges (e : QEntry) : List (Dword × Nat) :=
  match e.kind with
  | .store ws => ws.map (fun w => (w.va, w.bytes.length))
  | .atomic _ _ ls _ => ls.map (fun l => (l.va, 4))
  | .contribute _ ls _ => ls.map (fun l => (l.va, 32))
  | .sumInit _ va _ _ => [(va, 32)]
  | _ => []

/-- An entry touches some byte of a range. -/
def entryOverlaps (e : QEntry) (va : Dword) (n : Nat) : Bool :=
  (entryRanges e).any (fun r => decide (r.1.toNat < va.toNat + n) && decide (va.toNat < r.1.toNat + r.2))

/-- An entry reads and writes at its bank: an atomic or a sum operation. -/
def QEntry.isStore (e : QEntry) : Bool := match e.kind with | .store _ => true | _ => false

/-- The physical byte of a store's address, when it would be applied. -/
def physByte (s : State) (asn : Nat) (va : Dword) : Option Nat :=
  match route s asn .store va with
  | .phys k _ => some k
  | _ => none

/-- An entry of an address space touches bytes of a range. -/
def entryMeets (s : State) (easn : Nat) (e : QEntry) (asn : Nat) (va : Dword) (n : Nat) : Bool :=
  (entryRanges e).any (fun r => rangesMeet s easn r asn (va, n))

/-- The youngest value that a list of entries, oldest first, stores to a physical byte. -/
def lastStored (s : State) (asn : Nat) (es : List QEntry) (key : Nat) : Option Byte :=
  ((es.flatMap entryBytes).reverse.find? (fun p => physByte s asn p.1 = some key)).map (·.2)

/-- What the core has on its way to a physical byte for an access with a sequence number: older entries of the
wave's own queue, then the outbound path of the whole core (R253, R355). -/
def pendingByte (s : State) (k : Core) (w : Wave) (seq asn key : Nat) : Option Byte :=
  (lastStored s asn (w.queue.filter (fun e => decide (e.seq < seq))) key) <|>
  ((k.outbound.reverse.findSome? (fun o => lastStored s o.asn [o.entry] key)))

/-! The L1 and the constant cache (R229; 12 R248). -/

def findLine (k : Core) (asn : Nat) (va : Dword) : Option L1Line :=
  k.l1.find? (fun l => l.asn = asn && l.line = va.toNat / 128)

/-- Bytes of a core's SRAM (00 R3), and of the largest part that shares may take (R227). -/
def sramBytes : Nat := 393216

/-- The end of the highest resident share (R227). -/
def shareEnd (k : Core) : Nat := k.wgs.foldl (fun m g => match g.2 with | some x => max m (x.base + x.scratch) | none => m) 0

/-- Lines that the L1 holds: the SRAM above the shares, rounded up to 16 KiB, and at least 64 KiB (R227). -/
def l1Lines (k : Core) : Nat := max 512 ((sramBytes - roundUp (shareEnd k) 16384) / 128)

/-- The last n elements of a list. -/
def lastN {α : Type} (n : Nat) (l : List α) : List α := l.drop (l.length - n)

/-- Words above the shares are the L1's: no context has what it wrote there any more (R227). -/
def l1Take (k : Core) : Core :=
  let top := roundUp (shareEnd k) 16384 / 256
  { k with ctxs := k.ctxs.map (fun c => { c with blocks := c.blocks.filter (fun b => decide (b < top)) }) }

/-- Drop the lines that the L1 has no words for: those that have been there longest (log 50). -/
def l1Fit (k : Core) : Core := { k with l1 := lastN (l1Lines k) k.l1 }

/-- The translation record's page (R241), whose lines enter no cache. -/
def recordVa : Nat := 0x0080000002030000

/-- Bytes of a physical line as the core's outbound path leaves them, and the errors of its sectors. -/
def lineNow (s : State) (k : Core) (key : Nat) : List Byte :=
  (List.range 128).map (fun i =>
    match k.outbound.reverse.findSome? (fun o => lastStored s o.asn [o.entry] (key + i)) with
    | some b => b
    | none => kget 0 s.mem (key + i))
def lineErrs (s : State) (key : Nat) : List Half := (List.range 4).map (fun i => kget 0 s.memErr (key / 32 + i))

/-- What a slice's reply does to the hint of a line's page (R234): with W = 0 it brings the core that fetched the line
before, with W = 1 it removes the hint. -/
def takeHint (s : State) (c asn page : Nat) (writable : Bool) (line : Nat) : State :=
  let k := getCore s c
  let rest := k.hints.filter (fun h => !(h.1 = asn && h.2.1 = page))
  let was := (s.l2.find? (fun l => l.line = line)).bind (·.fetcher)
  let hints := if writable then rest else match was with
    | some b => lastN 256 (rest ++ [(asn, page, b)])
    | none => k.hints
  let mark (l : L2Line) : L2Line := { l with fetcher := some c }
  setCore { s with l2 := updateWhere (fun l => l.line = line) mark s.l2 } c { k with hints := hints }

/-- The line that a core's forwarding hint finds in another core's L1 (R234). -/
def probe (s : State) (core asn : Nat) (region : Rgn) (va : Dword) : Option L1Line :=
  match (getCore s core).hints.find? (fun h => h.1 = asn && h.2.1 = va.toNat / 4096) with
  | some h => if (regionGrant s region).clusters.testBit (h.2.2 / 8) then findLine (getCore s h.2.2) asn va else none
  | none => none

/-- Bring the line of an address into the core's L1 (R229), with the core's own outbound stores in it.
Lines of the translation record do not enter. -/
def fillLine (s : State) (c asn : Nat) (va : Dword) : State :=
  let base : Dword := BitVec.ofNat 64 (va.toNat / 128 * 128)
  match route s asn .load base with
  | .phys key leaf =>
    if (findLine (getCore s c) asn va).isSome || va.toNat / 4096 = recordVa / 4096 then s
    else
      let s1 := takeHint s c asn (va.toNat / 4096) (tbit leaf 2) (key / 128)
      let k := getCore s1 c
      setCore s1 c (l1Fit { k with l1 := k.l1 ++ [⟨asn, va.toNat / 128, key, lineNow s1 k key, lineErrs s1 key, tbit leaf 2⟩] })
  | _ => s

/-- A line of a page with W = 0 enters the constant cache of 16 KiB (12 R248): from the core's L1 where it is there, else by a
slice's reply. -/
def fillConst (s : State) (core asn : Nat) (va : Dword) : State :=
  let base : Dword := BitVec.ofNat 64 (va.toNat / 128 * 128)
  match route s asn .load base with
  | .phys key leaf =>
    let k0 := getCore s core
    if tbit leaf 2 || va.toNat / 4096 = recordVa / 4096 || k0.constCache.any (fun x => x.asn = asn && x.line = va.toNat / 128)
    then s
    else
      let s1 := if (findLine k0 asn va).isSome then s else takeHint s core asn (va.toNat / 4096) false (key / 128)
      let k := getCore s1 core
      setCore s1 core { k with constCache := lastN 128 (k.constCache ++
        [⟨asn, va.toNat / 128, key, memRead s key 128, lineErrs s key, false⟩]) }
  | _ => s

/-- A store of the core updates the lines present in its L1 that hold its bytes (R229). -/
def l1Put (lines : List L1Line) (key : Nat) (bs : List Byte) : List L1Line :=
  let put (l : L1Line) : L1Line :=
    if l.key < key + bs.length && key < l.key + 128 then
      { l with data := (List.range 128).map (fun i =>
                  if key ≤ l.key + i && l.key + i < key + bs.length then bs.getD (l.key + i - key) 0 else l.data.getD i 0)
               errs := (List.range 4).map (fun i =>
                  if key ≤ l.key + 32 * i && l.key + 32 * i + 32 ≤ key + bs.length then 0 else l.errs.getD i 0) }
    else l
  lines.map put

/-- Drop the L1 lines that overlap a range of virtual addresses (19 R363). -/
def l1DropRange (k : Core) (asn lo n : Nat) : Core :=
  { k with l1 := k.l1.filter (fun l =>
      !(l.asn = asn && decide (lo < l.line * 128 + 128) && decide (l.line * 128 < lo + n))) }

/-- Drop the L1 lines that hold some of a range of physical bytes. -/
def l1DropKey (k : Core) (key n : Nat) : Core :=
  { k with l1 := k.l1.filter (fun l => !(decide (l.key < key + n) && decide (key < l.key + 128))) }

/-- An acquire at .cl or wider drops the lines filled from pages with W = 1 (R357). -/
def l1Acquire (k : Core) (asn scope : Nat) : Core :=
  if scope ≤ 1 then k else { k with l1 := k.l1.filter (fun l => !(l.asn = asn && l.writable)) }

/-- Some sector of bytes in one line fails its check value: in the L1 where the core holds the line, else in memory (R236). -/
def heldBad (s : State) (k : Core) (asn : Nat) (va : Dword) (key n : Nat) : Bool :=
  match findLine k asn va with
  | some l => (List.range 4).any (fun i => l.errs.getD i 0 != 0 && decide (va.toNat % 128 < 32 * i + 32) &&
      decide (32 * i < va.toNat % 128 + n))
  | none => memBadAt s key n

/-! Performing loads (R233; 12 R253; 19 R354-R356). -/

/-- The byte that a global load of a wave returns now (R253, R355, R357): queue, outbound path, L1, memory. -/
def coreByte (s : State) (k : Core) (w : Wave) (seq asn : Nat) (va : Dword) (key : Nat) : Byte :=
  match pendingByte s k w seq asn key with
  | some b => b
  | none =>
    match findLine k asn va with
    | some l => l.data.getD (va.toNat % 128) 0
    | none => kget 0 s.mem key

/-- A read of a deterministic sum's record. -/
def LoadDst.isSum : LoadDst → Bool
  | .sum _ _ _ _ => true
  | _ => false

/-- The answer of an operation at a bank, which the operation's own entry brings. -/
def LoadDst.isAnswer : LoadDst → Bool
  | .atomV _ | .atomS _ | .ack => true
  | _ => false

/-- A lane still has bytes to read. -/
def LoadLane.waits (l : LoadLane) : Bool :=
  l.fixed.isNone && l.peer.isNone && (!l.arrived || l.phys.any (fun p => p.key.isSome && p.data.isNone))

/-- A lane is not performed: it has bytes to read, or a peer has not answered it. -/
def LoadLane.out (l : LoadLane) : Bool := l.waits || l.peer.isSome

/-- An operation at a bank that comes before a load, and has not been applied, touches its bytes: an older one in the
wave's queue, or any that has left a queue of the core (R253, R355). For a read of a record, a store too. -/
def blocked (s : State) (k : Core) (w : Wave) (asn : Nat) (ld : Load) (va : Dword) (n : Nat) : Bool :=
  let counts (e : QEntry) : Bool := !e.isStore || ld.dst.isSum
  w.queue.any (fun e => decide (e.seq < ld.seq) && counts e && entryMeets s asn e asn va n) ||
  k.outbound.any (fun o => counts o.entry && !(o.serial = w.serial && decide (ld.seq < o.entry.seq)) &&
    entryMeets s o.asn o.entry asn va n)

/-- Another load's lane must be performed first: an older one of the part that reads some of the same bytes (R354), or
that waits for an operation at a bank (R355). -/
def behind (s : State) (k : Core) (w : Wave) (asn : Nat) (ld : Load) (va : Dword) (n : Nat) : Bool :=
  w.loads.any (fun x => decide (x.seq < ld.seq) && !x.dst.isAnswer && (x.part &&& ld.part) != 0 && x.lanes.any (fun l =>
    l.waits && (rangesMeet s asn (l.va, x.size) asn (va, n) || blocked s k w asn x l.va x.size)))

/-- A piece of a load may be performed now. -/
def mayPerform (s : State) (k : Core) (w : Wave) (asn : Nat) (ld : Load) (p : Piece) : Bool :=
  !blocked s k w asn ld (BitVec.ofNat 64 p.va) p.n && !behind s k w asn ld (BitVec.ofNat 64 p.va) p.n

/-- Its bytes, performed now; zeros where the page is not resident (R224). -/
def pieceBytes (s : State) (k : Core) (w : Wave) (asn : Nat) (ld : Load) (p : Piece) : List Byte :=
  match p.key with
  | none => List.replicate p.n 0
  | some key =>
    if ld.dst.isSum then memRead s key p.n
    else match (if ld.const then k.constCache.find? (fun x => x.asn = asn && x.line = p.va / 128) else none) with
      | some x => (x.data.drop (p.va % 128)).take p.n
      | none => (List.range p.n).map (fun i => coreByte s k w ld.seq asn (BitVec.ofNat 64 (p.va + i)) (key + i))

/-- Perform the pieces of a lane that may be. -/
def performPieces (s : State) (k : Core) (w : Wave) (asn : Nat) (ld : Load) (l : LoadLane) : LoadLane :=
  if !l.waits then l
  else
    let one (p : Piece) : Piece :=
      if p.key.isSome && p.data.isNone && mayPerform s k w asn ld p then { p with data := some (pieceBytes s k w asn ld p) } else p
    { l with phys := l.phys.map one }

/-- Bytes of a lane that is performed: those of an answer, else of its pieces. -/
def LoadLane.bytes (l : LoadLane) : List Byte :=
  l.fixed.getD (l.phys.flatMap (fun p => p.data.getD (List.replicate p.n 0)))

/-- Change one load of a wave. -/
def updLoad (w : Wave) (id : Nat) (g : Load → Load) : Wave :=
  { w with loads := updateWhere (fun l => l.id = id) g w.loads }

/-- A load fills the core's caches with a line that it has read (R229; 12 R248); a record read goes past the L1, which
keeps no older copy (R354). -/
def fillFor (core asn : Nat) (ld : Load) (s : State) (va : Nat) : State :=
  let a : Dword := BitVec.ofNat 64 va
  if ld.dst.isSum then setCore s core (l1DropRange (getCore s core) asn va 32)
  else if ld.const && !tbit (leafOf s asn a) 2 then fillConst s core asn a
  else if ld.l1 then fillLine s core asn a else s

/-- The older loads of a part that a performed load has passed (R355). -/
def markPassed (w : Wave) (ld : Load) : Wave :=
  let older (x : Load) : Bool := decide (x.seq < ld.seq) && (x.part &&& ld.part) != 0 && x.lanes.any LoadLane.waits
  { w with loads := updateWhere older (fun x => { x with passed := true }) w.loads }

/-- Perform those lanes of a load that a test selects and that may be; their lines fill the caches. -/
def performLoad (core slot id : Nat) (sel : LoadLane → Bool) (s : State) : State :=
  let k := getCore s core
  match getWave k slot with
  | none => s
  | some w =>
    match getWg k w.wg, w.loads.find? (fun ld => ld.id = id) with
    | some g, some ld =>
      let lanes := ld.lanes.map (fun l => if l.arrived && sel l then performPieces s k w g.asn ld l else l)
      let new := (ld.lanes.zip lanes).flatMap (fun x => (x.1.phys.zip x.2.phys).filterMap (fun p =>
        if p.1.data.isNone && p.2.data.isSome then some p.2.va else none))
      if new.isEmpty then s
      else
        let w1 := markPassed (updLoad w id (fun x => { x with lanes := lanes })) ld
        new.foldl (fillFor core g.asn ld) (setCore s core (setWave k slot w1))
    | _, _ => s

/-- Perform the waiting lanes of a wave's loads that a test selects, older loads first. -/
def fixLanes (s : State) (core slot : Nat) (sel : Load → LoadLane → Bool) : State :=
  match getWave (getCore s core) slot with
  | none => s
  | some w => w.loads.foldl (fun s ld => performLoad core slot ld.id (sel ld) s) s

/-- A joined lane is performed, if it still waits (R233). -/
def fixLane (s : State) (j : Nat × Nat × Nat × Nat) : State := performLoad j.1 j.2.1 j.2.2.1 (fun l => l.lane = j.2.2.2) s

/-- A combining entry closes: its line is read once for every joined load and prefetch (R233). -/
def closeEntry (s : State) (e : Combine) : State :=
  let s1 := { s with combines := s.combines.filter (fun x => x.id != e.id) }
  e.fills.foldl (fun s f => fillLine s f.1 f.2.1 f.2.2) (e.joined.foldl fixLane s1)

/-- Close the combining entries of a physical line (R233). -/
def closeLine (s : State) (line : Nat) : State := (s.combines.filter (fun e => e.line = line)).foldl closeEntry s

/-- A write arrives at its home slice: open combining entries of its lines close first, then the bytes and
check values change (R233, R236, R237). -/
def homeWrite (s : State) (key : Nat) (bs : List Byte) : State :=
  let lines := (List.range ((key + bs.length + 127) / 128 - key / 128)).map (key / 128 + ·)
  let s1 := lines.foldl closeLine s
  { s1 with mem := writeBytes s1.mem key bs, memErr := clearBad s1.memErr key bs.length }

/-- Join or open the combining entry of a line that misses the L1 (R233). -/
def joinLine (s : State) (line : Nat) (region : Rgn) (who : List (Nat × Nat × Nat × Nat)) (fills : List (Nat × Nat × Dword)) :
    State :=
  if s.combines.any (fun e => e.line = line && e.region = region) then
    let add (e : Combine) : Combine := { e with joined := e.joined ++ who, fills := e.fills ++ fills }
    { s with combines := updateWhere (fun e => e.line = line && e.region = region) add s.combines }
  else
    { s with combines := s.combines ++ [⟨s.nextCombine, line, region, who, fills⟩], nextCombine := s.nextCombine + 1 }

/-- Several bytes by virtual address on owners 0-2, byte by byte: none when some byte has no route. -/
def vmRead (s : State) (asn : Nat) (k : Access) (va : Dword) (n : Nat) : Option (List Byte) :=
  (List.range n).mapM (fun i =>
    match route s asn k (va + BitVec.ofNat 64 i) with
    | .phys key _ => some (kget 0 s.mem key)
    | _ => none)

/-- Write bytes by virtual address, page by page, on pages with a route for the access; the count of
pieces refused is ignored (used by firmware and the I/O die, whose pages were checked before). -/
def vmWrite (s : State) (asn : Nat) (k : Access) (va : Nat) (bs : List Byte) : State :=
  ((pieces va bs.length).foldl (fun (acc : State × List Byte) p =>
    ((match route acc.1 asn k (BitVec.ofNat 64 p.1) with
      | .phys key _ => homeWrite acc.1 key (acc.2.take p.2)
      | _ => acc.1), acc.2.drop p.2)) (s, bs)).1

end Sys2Proof.Machine
end

