-- ==== Sys2Proof/Machine/Report.lean ====
section
/-! DEFINITION. Messages to the host and fault records (01 R18, R24, R26; 22 R397-R399). -/
namespace Sys2Proof.Machine

def getHost (s : State) (ctx : Nat) : HostCtx := kget {} s.host ctx
def setHost (s : State) (ctx : Nat) (h : HostCtx) : State := { s with host := kset {} s.host ctx h }

/-- A message of the module: header of R18 (FLAGS 0), then the payload. -/
def message (type ctx : Nat) (seq : Word) (addr : Dword) (status : Word) (payload : List Byte) : List Byte :=
  toBytes 2 0xD7A1 ++ [1, BitVec.ofNat 8 type] ++ toBytes 2 0 ++ toBytes 2 ctx ++ toBytes 4 seq.toNat ++
  toBytes 4 payload.length ++ toBytes 8 addr.toNat ++ toBytes 4 status.toNat ++ toBytes 4 0 ++ payload

/-- Send a reply to a message (R24): to its source, with its CTX and SEQ. -/
def sendReply (s : State) (dest : Endpoint) (type ctx : Nat) (seq : Word) (addr : Dword) (status : Word)
    (payload : List Byte) : State :=
  { s with sent := s.sent ++ [{ dest := dest, bytes := message type ctx seq addr status payload }] }

/-- Send an unsolicited message under a context: its next outbound count, to its endpoint (R24). -/
def sendUnder (s : State) (ctx type : Nat) (addr : Dword) (status : Word) (payload : List Byte) : State :=
  let h := getHost s ctx
  let s1 := setHost s ctx { h with count := h.count + 1 }
  { s1 with sent := s1.sent ++
      [{ dest := h.endpoint.getD Config.bootEndpoint, bytes := message type ctx h.count addr status payload }] }

/-- A fault record (R397). -/
structure FaultRec where
  cause : Byte
  kind : Nat
  access : Nat := 0
  cluster : Nat := 0xFF
  core : Nat := 0
  wslot : Nat := 0xFF
  qmask : Quads := 0
  detail : Word := 0
  wgid : Word := 0xFFFFFFFF
  faddr : Dword := 0
  lanes : Lanes := 0
  fpc : Word := 0xFFFFFFFF
  restart : Word := 0xFFFFFFFF
  launch : Dword := 0
  /-- The region, of which the record holds the RCB's address. -/
  rcb : Rgn := 0
  cyc : Dword := 0
  deriving DecidableEq, Repr

/-- Its 64 bytes (R397). -/
def FaultRec.bytes (r : FaultRec) : List Byte :=
  [r.cause, BitVec.ofNat 8 r.kind, BitVec.ofNat 8 r.access, BitVec.ofNat 8 r.cluster, BitVec.ofNat 8 r.core,
   BitVec.ofNat 8 r.wslot] ++ toBytes 2 r.qmask.toNat ++ toBytes 4 r.detail.toNat ++ toBytes 4 r.wgid.toNat ++
  toBytes 8 r.faddr.toNat ++ toBytes 8 r.lanes.toNat ++ toBytes 4 r.fpc.toNat ++ toBytes 4 r.restart.toNat ++
  toBytes 8 r.launch.toNat ++ toBytes 8 r.rcb.toNat ++ toBytes 8 r.cyc.toNat

/-- A power of two from 16 to 65,536 (R399). -/
def ringCap (n : Nat) : Bool := decide (16 ≤ n ∧ n ≤ 65536) && 2 ^ Nat.log2 n = n

/-- Post a record into a ring (R399); none when the ring is unusable. -/
def ringPost (s : State) (asn ring : Nat) (rec : List Byte) : Option State :=
  let va : Dword := BitVec.ofNat 64 ring
  match route s asn .load va, route s asn .store va with
  | .phys key _, .phys _ _ =>
    let h := memRead s key 16
    let cap := field h 0 3
    let head := field h 4 7
    let tail := field h 8 11
    let lost := field h 12 15
    if ring % 64 != 0 || !ringCap cap || ring ≥ 2 ^ 64 then none
    else if (head + 2 ^ 32 - tail) % 2 ^ 32 < cap then
      let s1 := vmWrite s asn .store (ring + 64 + 64 * (head % cap)) rec
      some (homeWrite s1 (key + 4) (toBytes 4 ((head + 1) % 2 ^ 32)))
    else some (homeWrite s (key + 12) (toBytes 4 ((lost + 1) % 2 ^ 32)))
  | _, _ => none

def updRegion (s : State) (rcb : Rgn) (g : Region → Region) : State :=
  { s with regions := updateWhere (fun r => r.rcb = rcb) g s.regions }
def getLaunch (s : State) (acc : Nat) : Option Launch := s.launches.find? (fun l => l.acc = acc)
def updLaunch (s : State) (acc : Nat) (g : Launch → Launch) : State :=
  { s with launches := updateWhere (fun l => l.acc = acc) g s.launches }

/-- A FAULT message for a record that reached a fault domain (R26), or that reached none of its rings. -/
def faultMessage (s : State) (ctx : Option Nat) (r : FaultRec) : State :=
  match ctx with
  | none => s
  | some c => sendUnder s c 0x06 r.rcb.addr (BitVec.ofNat 32 r.cause.toNat) r.bytes

/-- The regions of a fault domain: from a region upwards, those that share its ring, which the last of them names. -/
def domainOf (s : State) (g : Region) : List Region :=
  (g.chain.filterMap (getRegion s)).takeWhile (fun r => r.budget.faultDomain = g.budget.faultDomain)

/-- The context under which a record of a region is told to the host: that of the launch it names where that came from the
host, else of the latest host launch of a region of the fault domain that the record reaches (01 R24, R26; log 38). -/
def faultContext (host : Option Nat) (domain : List Region) : Option Nat := host <|> domain.findSome? (·.hostCtx)

/-- A fault record goes to its region's ring, else to the ring of the tree's root, and to the host when the region of the
fault domain was launched from it (R399, R26). `host` is the context of the launch that the record names. -/
def postFault (s : State) (region : Rgn) (host : Option Nat) (r : FaultRec) : State :=
  match getRegion s region with
  | none => faultMessage s host r
  | some g =>
    let root := g.chain.getLastD region
    let rootRing := match vmRead s g.asn .load root.addr 256 with
      | some bs => field bs 44 51
      | none => 0
    match ringPost s g.asn g.budget.faultDomain r.bytes with
    | some t => faultMessage t (faultContext host (domainOf s g)) r
    | none =>
      faultMessage ((ringPost s g.asn rootRing r.bytes).getD s) (faultContext host (g.chain.filterMap (getRegion s))) r

end Sys2Proof.Machine
end

