-- ==== Sys2Proof/Machine/Ops.lean ====
section
/-! DEFINITION. The issuing part and its registers; paths; taking a trap and returning from one; freezing a
wave (06 R103-R107; 07 R130, R131; 09 R164; 22 R391-R397). -/
namespace Sys2Proof.Machine

/-- The issuing part, taken out of the state: its core, wave, workgroup and place. -/
structure Cx where
  s : State
  core : Nat
  slot : Nat
  /-- Position among the wave's parts. -/
  idx : Nat
  k : Core
  w : Wave
  p : Part
  g : Workgroup

/-- A part by name. -/
def partAt (s : State) (r : PartRef) : Option Cx :=
  let k := getCore s r.core
  match getWave k r.slot with
  | none => none
  | some w =>
    match w.parts.findIdx? (fun p => lowestLane p.lanes = r.lane), getWg k w.wg with
    | some i, some g => some ⟨s, r.core, r.slot, i, k, w, w.parts.getD i {}, g⟩
    | _, _ => none

/-- Put the part back into the state. -/
def Cx.commit (c : Cx) : State :=
  let w := { c.w with parts := c.w.parts.set c.idx c.p }
  setCore c.s c.core (setWave (setWg c.k c.w.wg c.g) c.slot w)

/-- Apply a change of the part's own fields. -/
def Cx.part (c : Cx) (h : Part → Part) : Cx := { c with p := h c.p }

/-- The current cycle of the part's cluster. -/
def Cx.cyc (c : Cx) : Nat := coreCyc c.s c.core

/-- $lane: the lowest lane the part holds. -/
def Cx.lane (c : Cx) : Nat := lowestLane c.p.lanes

/-- PC + 1 (04 R65). -/
def Cx.nextPc (c : Cx) : Cx := c.part (fun p => { p with pc := p.pc + 1 })

/-! Registers. -/

def Cx.readS (c : Cx) (n : Nat) : Word := kget 0 c.p.s n
def Cx.writeS (c : Cx) (n : Nat) (v : Word) : Cx := c.part (fun p => { p with s := kset 0 p.s n v })
/-- p0-p6; p7 reads as all ones (06 R103, R106). -/
def Cx.readP (c : Cx) (n : Nat) : Lanes := if n = 7 then BitVec.allOnes 64 else kget 0 c.w.p n
def Cx.writeP (c : Cx) (n : Nat) (v : Lanes) : Cx :=
  if n = 7 then c else { c with w := { c.w with p := kset 0 c.w.p n v } }
def Cx.readM (c : Cx) (n : Nat) : Dword := kget 0 c.p.m n
def Cx.writeM (c : Cx) (n : Nat) (v : Dword) : Cx := c.part (fun p => { p with m := kset 0 p.m n v })
def Cx.readH (c : Cx) (n : Nat) : Word := kget 0 c.p.h n
def Cx.writeH (c : Cx) (n : Nat) (v : Word) : Cx := c.part (fun p => { p with h := kset 0 p.h n v })
def vKey (n l : Nat) : Nat := n * 64 + l
def Cx.readV (c : Cx) (n l : Nat) : Word := kget 0 c.w.v (vKey n l)
def tagKey (n q : Nat) : Nat := n * 16 + q
def Cx.readTag (c : Cx) (n q : Nat) : Tag := kget 0 c.w.tags (tagKey n q)

/-- Write lanes of a v register, and the tag of every quad in which a lane is written (06 R109). -/
def waveWriteV (w : Wave) (n : Nat) (vals : List (Nat × Word)) (tag : Nat → Tag) : Wave :=
  let v := vals.foldl (fun m x => kset 0 m (vKey n x.1) x.2) w.v
  let tags := vals.foldl (fun m x => kset 0 m (tagKey n (x.1 / 4)) (tag (x.1 / 4))) w.tags
  { w with v := v, tags := tags }

def Cx.writeV (c : Cx) (n : Nat) (vals : List (Nat × Word)) (tag : Nat → Tag) : Cx :=
  { c with w := waveWriteV c.w n vals tag }

/-- The lanes on which a per-lane instruction takes effect (04 R70, 10 R187). -/
def Cx.guardMask (c : Cx) (f : Fields) : Lanes :=
  let g := c.readP f.gp.toNat
  if f.gn then ~~~g else g
def Cx.activeLanes (c : Cx) (f : Fields) : Lanes := c.p.exec &&& c.guardMask f

/-- The quads in which the part holds a lane (06 R105). -/
def Cx.qmask (c : Cx) : Quads := quadsOf c.p.lanes

/-! Paths (07 R130, R131). -/

/-- Write $exec: only lanes of the running path change (09 R164). -/
def Cx.setExec (c : Cx) (v : Lanes) : Cx := c.part (fun p => { p with exec := v &&& p.run })

/-- Merge into a path every pending, unparked path at its PC. -/
def mergePaths (pc : Word) (lanes active : Lanes) (l : List Path) : Lanes × Lanes × List Path :=
  let same := l.filter (fun x => x.pc = pc && x.parkedAt = 0)
  (same.foldl (fun m x => m ||| x.lanes) lanes, same.foldl (fun m x => m ||| x.active) active,
   l.filter (fun x => !(x.pc = pc && x.parkedAt = 0)))

/-- Run the first path of the list that is not parked (R131); none when every path is parked or none is
left. -/
def resumePath (p : Part) : Option Part :=
  match p.paths.find? (fun x => x.parkedAt = 0) with
  | none => none
  | some x =>
    let m := mergePaths x.pc 0 0 p.paths
    some { p with pc := x.pc, run := m.1, exec := m.2.1, paths := m.2.2 }

/-- A switch point at which the running path stays runnable (R131): it goes to the tail of the list, and
the first path that is not parked runs. The PC is the path's next one. -/
def switchPath (p : Part) : Part :=
  if p.paths.isEmpty then p
  else (resumePath { p with paths := p.paths ++ [⟨p.pc, p.run, p.exec, 0⟩] }).getD p

/-- Every path of the part is parked, and they merge at the parked PC of the lowest lane (R131). -/
def mergeParked (p : Part) : Part :=
  let all := p.paths.foldl (fun m x => m ||| x.lanes) (0 : Lanes)
  let act := p.paths.foldl (fun m x => m ||| x.active) (0 : Lanes)
  let low := lowestLane all
  match p.paths.find? (fun x => tbit x.lanes low) with
  | none => p
  | some x => { p with pc := x.pc, run := all, exec := act, paths := [] }

/-! Freezes, traps and returns (22). -/

/-- LAUNCH of a fault record and the host context of a launch (R397, 01 R24). -/
def launchDone (s : State) (acc : Nat) : Dword := ((getLaunch s acc).map (·.done)).getD 0
def launchHost (s : State) (acc : Nat) : Option Nat := (getLaunch s acc).bind (·.host)

/-- The window start, when a window is open (04 R78). -/
def Part.restart (p : Part) : Option Word := p.window.map (·.start)

/-- The resume PC of a trap (R394): PC + 1 for `bpt` and `trap`, the window start, else the faulting PC. -/
def resumePc (p : Part) (i : TrapInfo) : Word :=
  if i.skip then p.pc + 1 else (p.restart).getD p.pc

/-- The trap area record of a part: virtual address (R394). -/
def trapVa (trapBase : Dword) (slot lane : Nat) : Dword := trapBase + BitVec.ofNat 64 (64 * (64 * slot + lane))

def ctxOf (k : Core) (region : Rgn) : Option Context := k.ctxs.find? (fun x => x.region = region)

/-- The 48 bytes of a trap record that the hardware writes (R394). -/
def trapRecord (p : Part) (i : TrapInfo) (s0 s1 : Word) (hmode : Bool) : List Byte :=
  toBytes 4 s0.toNat ++ toBytes 4 s1.toNat ++ toBytes 8 p.exec.toNat ++ toBytes 4 p.pc.toNat ++
  toBytes 4 (resumePc p i).toNat ++ [i.cause, if hmode then 1 else 0] ++ toBytes 2 0 ++ toBytes 4 i.detail.toNat ++
  toBytes 8 i.addr.toNat ++ toBytes 8 (i.lanes.getD p.exec).toNat

/-- A fault record of a part (R397). -/
def partFault (c : Cx) (cause : Byte) (kind access : Nat) (lanes : Lanes) (addr : Dword) (detail : Word)
    (restart : Option Word) : FaultRec where
  cause := cause
  kind := kind
  access := access
  cluster := c.core / 8
  core := c.core % 8
  wslot := c.slot
  qmask := c.qmask
  detail := detail
  wgid := BitVec.ofNat 32 c.g.id
  faddr := addr
  lanes := lanes
  fpc := c.p.pc
  restart := restart.getD 0xFFFFFFFF
  launch := launchDone c.s c.g.launch
  rcb := c.g.region
  cyc := BitVec.ofNat 64 c.cyc

/-- Write the part's trap record (R394). The write is performed at .wave (R393): it takes its place in the
wave's store queue, from which the wave's own loads see it at once. -/
def Cx.pushRecord (c : Cx) (i : TrapInfo) (hmode : Bool) : Cx :=
  let base := ((ctxOf c.k c.g.region).map (·.trapBase)).getD 0
  let e : QEntry := { seq := c.w.seq, part := c.p.lanes, lane := c.lane, rel := none, pc := c.p.pc,
                      kind := .store [⟨c.lane, trapVa base c.slot c.lane, trapRecord c.p i (c.readS 0) (c.readS 1) hmode⟩] }
  { c with w := { c.w with queue := c.w.queue ++ [e], seq := c.w.seq + 1 } }

/-- Enter the declared handler (R393): the record is written; s0 and s1 receive its address; every lane of
the running path becomes active; the PC becomes the handler's index; pending paths stay aside; an open
window is abandoned. -/
def enterHandler (c : Cx) (i : TrapInfo) (code : Option CodeSeg) (index : Nat) : State :=
  let base := ((ctxOf c.k c.g.region).map (·.trapBase)).getD 0
  let va := trapVa base c.slot c.lane
  let c1 := c.pushRecord i true
  let c2 := (c1.writeS 0 (BitVec.ofNat 32 va.toNat)).writeS 1 (BitVec.ofNat 32 (va.toNat / 2 ^ 32))
  (c2.part (fun p => { p with
    pc := BitVec.ofNat 32 index, exec := p.run, paths := [], window := none, wait := .ready, cause := i.cause,
    handler := some ⟨p.paths, code⟩, nextIssue := c.cyc + 1 })).commit

/-- The kernel's declared handler (02 R38): its own index, else the region's. -/
def declaredHandler (g : Workgroup) : Option (Option CodeSeg × Nat) :=
  match g.kernel.handler, g.kernel.regionHandler with
  | some i, _ => some (none, i)
  | none, some (seg, i) => some (some seg, i)
  | none, none => none

/-- The part is frozen alone by a trap (R186, R391), with a fault record of KIND 0. A record in the trap
area is written unless the part is in handler mode. -/
def freezePart (c : Cx) (i : TrapInfo) : State :=
  let rec' := partFault c i.cause 0 i.access (i.lanes.getD c.p.exec) i.addr i.detail c.p.restart
  let c1 := if c.p.handler.isSome then c else c.pushRecord i false
  let c2 := c1.part (fun p => { p with
    frozen := some ⟨i.cause, resumePc c.p i⟩, cause := i.cause, wait := .ready, window := none,
    nextIssue := c.cyc + 1 })
  postFault c2.commit c.g.region (launchHost c.s c.g.launch) rec'

/-- A halt by CATCH (R391, R404): the wave is halted, and a record of KIND 4 names the running path (25 R418). -/
def catchHalt (c : Cx) (i : TrapInfo) : State :=
  let rec' := { partFault c i.cause 4 0 c.p.run 0 i.detail c.p.restart with qmask := quadsOf c.p.run }
  let p := { c.p with cause := i.cause, pc := resumePc c.p i, window := none, stepping := false,
                      nextIssue := c.cyc + 1 }
  postFault { c with w := { c.w with halted := true }, p := p }.commit c.g.region
    (launchHost c.s c.g.launch) rec'

/-- ENTERING A TRAP (R393, R186): BREAKPOINT under CATCH halts the wave; in handler mode, or with no declared
handler, the part is frozen; otherwise the handler is entered. A step ends with the trap (R405). -/
def enterTrap (c : Cx) (i : TrapInfo) : State :=
  if i.cause = 0x20 && c.k.catchBpt then catchHalt c i
  else
    let c1 := c.part (fun p => { p with stepping := false, buffer := [] })
    if c.p.handler.isSome then freezePart c1 i
    else match declaredHandler c.g with
      | some (code, idx) => enterHandler c1 i code idx
      | none => freezePart c1 i

/-- TAKING A TRAP (R392): where the wave has no other part, it is entered at once. Beside co-issuing parts, or in a wave that a
freeze of the cycle has stopped, it is raised, and resolved at the end of the cycle, after a `kill` or a freeze of that cycle
(log 21). -/
def takeTrap (c : Cx) (i : TrapInfo) : State :=
  if decide (c.w.parts.length ≤ 1) && c.w.frozen.isNone then enterTrap c i
  else (c.part (fun p => { p with raised := some i, nextIssue := c.cyc + 1 })).commit

/-- The end of the cycle for a part with a raised trap (R392): in a frozen wave its record is written and the part is marked;
otherwise the trap is entered. -/
def resolveTrap (s : State) (r : PartRef) : State :=
  match partAt s r with
  | none => s
  | some c =>
    match c.p.raised with
    | none => s
    | some i =>
      if c.w.frozen.isNone then enterTrap (c.part (fun p => { p with raised := none, marked := false })) i
      else if c.p.marked then s
      else ((if c.p.handler.isSome then c else c.pushRecord i false).part (fun p => { p with marked := true })).commit

/-- Change one wave of a core. -/
def updWave (s : State) (core slot : Nat) (g : Wave → Wave) : State :=
  let k := getCore s core
  match getWave k slot with
  | none => s
  | some w => setCore s core (setWave k slot (g w))

/-- Change the wave with a placement number, in its slot or in its context's save area (R402). -/
def updSerial (s : State) (core slot serial : Nat) (g : Wave → Wave) : State :=
  let k := getCore s core
  match getWave k slot with
  | some w =>
    if w.serial = serial then setCore s core (setWave k slot (g w))
    else setCore s core { k with ctxs := k.ctxs.map (fun c =>
      { c with savedWaves := c.savedWaves.map (fun x => if x.2.serial = serial then (x.1, g x.2) else x) }) }
  | none => setCore s core { k with ctxs := k.ctxs.map (fun c =>
      { c with savedWaves := c.savedWaves.map (fun x => if x.2.serial = serial then (x.1, g x.2) else x) }) }

/-- A wave that a freeze cause stops. -/
def Wave.freeze (w : Wave) (cause : Byte) (cyc : Nat) : Wave :=
  { w with frozen := some (w.frozen.getD cause), frozenAt := if w.frozen.isSome then w.frozenAt else cyc, parts := w.parts.map (fun p => { p with cause := cause, stepping := false }) }

/-- A freeze cause stops the whole wave with a placement number (R226, R391) and writes a record of KIND 1. -/
def freezeSerial (s : State) (core slot serial launch : Nat) (cause : Byte) (r : FaultRec) : State :=
  postFault (updSerial s core slot serial (·.freeze cause (coreCyc s core))) r.rcb (launchHost s launch) r

/-- The same for the wave in a slot. -/
def freezeWave (s : State) (core slot : Nat) (cause : Byte) (r : FaultRec) : State :=
  let k := getCore s core
  match getWave k slot with
  | none => s
  | some w => freezeSerial s core slot w.serial (((getWg k w.wg).map (·.launch)).getD 0) cause r

/-- RETURNING FROM A TRAP (R396): s0, s1, $exec and the PC from the record's bytes, and the paths set aside
return behind the running path. -/
def returnFromTrap (c : Cx) (h : Handler) (rec : List Byte) : Cx :=
  let c1 := (c.writeS 0 (BitVec.ofNat 32 (field rec 0 3))).writeS 1 (BitVec.ofNat 32 (field rec 4 7))
  let c2 := c1.setExec (BitVec.ofNat 64 (field rec 8 15))
  c2.part (fun p => { p with pc := BitVec.ofNat 32 (field rec 20 23), handler := none, paths := h.aside,
                             window := none })

end Sys2Proof.Machine
end

