-- ==== Sys2Proof/Machine/Flags.lean ====
section
/-! DEFINITION. Comparisons, latch windows and travel times (04 R76-R80), and format-tag checks (06 R109). -/
namespace Sys2Proof.Machine

/-- The ten integer condition codes (09 R161). -/
def cmpInt (cc : Nat) (a b : Word) : Bool :=
  match cc with
  | 0 => a = b
  | 1 => a ≠ b
  | 2 => a.slt b
  | 3 => a.sle b
  | 4 => b.slt a
  | 5 => b.sle a
  | 6 => a.ult b
  | 7 => a.ule b
  | 8 => b.ult a
  | _ => b.ule a

/-- Travel time from a producer unit to a consumer unit (04 R80). -/
def travel (producer consumer : Unit') : Nat :=
  match producer, consumer with
  | .ialu, .ialu => 2
  | .ialu, .mtx => 4
  | .ialu, .tex => 4
  | .ialu, _ => 3
  | .fma, .fma => 4
  | .fma, .mtx => 6
  | .fma, .tex => 6
  | .fma, _ => 5
  | .sfu, _ => 9
  | .xch, _ => 6
  | .lsu, .mtx => 13
  | .lsu, .tex => 13
  | .lsu, _ => 12
  | .mtx, _ => 8
  | _, _ => 0

/-- The register numbers that a class names from a field, besides latches and inline constants. -/
def clsRegs (c : Cls) (l : Bool) (n : Nat) : List Nat :=
  if l then [] else
  match c with
  | .none => []
  | .vRun k | .vGrp k | .sGrp k => (List.range k).map (n + ·)
  | .vRun8 => (List.range 8).map (n + ·)
  | .mmovA => if 256 ≤ n ∧ n < 384 then [n, n + 1] else [n]
  | _ => if inlineOk n then [] else [n]

/-- An instruction reads a latch. -/
def readsLatch (i : OpInfo) (f : Fields) : Bool :=
  (i.a != .none && f.al) || (i.b != .none && f.bl) || (i.x = .c && i.c != .none && fieldCL f)

/-- D is also a source: `vcvt` into narrower elements, the merged scale register of `vpack`, the kept halfword
of a block load (10 R205, R207; 12 R249). -/
def destIsRead (op m : Nat) : Bool :=
  match op with
  | 0x05A => decide (cvtCount (m / 32 % 32) < cvtCount (m % 32))
  | 0x05B | 0x05C | 0x0C3 | 0x0CD => true
  | _ => false

/-- Registers an instruction reads, by number of 04 R72: operands, guard predicate, $exec (R77). -/
def regsRead (op : Nat) (f : Fields) : List Nat :=
  let m := modField (opInfo op).x f.x
  let i := operandCls op m
  clsRegs i.a f.al f.a.toNat ++ clsRegs i.b f.bl f.b.toNat ++
  (if i.x = .c then clsRegs i.c (fieldCL f) (fieldC f) else []) ++
  (if destIsRead op m && !f.dn then clsRegs i.d false f.d.toNat else []) ++
  (if f.gp = 7 then [] else [392 + f.gp.toNat]) ++ [466] ++
  (if i.a = .vRun8 then [f.a.toNat + 3, f.a.toNat + 7] else [])

/-- Registers an instruction writes. -/
def regsWritten (op : Nat) (f : Fields) : List Nat :=
  let m := modField (opInfo op).x f.x
  let i := operandCls op m
  (if f.dn then [] else clsRegs i.d false f.d.toNat) ++
  (if op = 0x01A then [466] else []) ++
  (if i.a = .vRun8 then [f.a.toNat + 3, f.a.toNat + 7] else []) ++
  (if i.x = .addr && decide (0 < m / 512) && (opInfo op).unit = .lsu && op != 0x0D5 then [400 + m / 512] else [])

/-- The window an instruction issues in (R76): the one it opens, the open one when it is a member, or none. -/
def windowFor (p : Part) (i : OpInfo) (f : Fields) (fresh : Nat) : Option Window :=
  if f.wb then some ⟨p.pc, 0, [], [], [], fresh⟩
  else match p.window with
    | none => none
    | some w => if (readsLatch i f || f.lw) && decide (w.count < 16) then some w else none

/-- A latch read of a window, checked for LATCH_INVALID and LATCH_EARLY (R77). -/
def latchReadCheck (w : Option Window) (cyc : Nat) (u : Unit') (isLatch : Bool) (n : Nat) : Option Byte :=
  if !isLatch then none
  else match w.bind (fun w => w.latches.find? (fun x => x.idx = n)) with
    | none => some 0x06
    | some x => if cyc < x.cycle + travel x.unit u then some 0x07 else none

/-- Step 5 of R81: window rules first, then the latch reads. -/
def latchCheck (p : Part) (op : Nat) (f : Fields) (cyc fresh : Nat) : Option Byte :=
  let i := operandCls op (modField (opInfo op).x f.x)
  let w := windowFor p i f fresh
  let breach := (i.noLatch && (readsLatch i f || f.lw)) || (f.lw && !i.lw) || (f.lw && w.isNone) ||
    (match w with
     | none => false
     | some w =>
       let rs := regsRead op f ++ w.reads
       let ws := regsWritten op f ++ w.writes
       rs.any (fun r => ws.contains r))
  if breach then some 0x05
  else
    let a := latchReadCheck w cyc i.unit (i.a != .none && f.al) f.a.toNat
    let b := latchReadCheck w cyc i.unit (i.b != .none && f.bl) f.b.toNat
    let c := latchReadCheck w cyc i.unit (i.x = .c && i.c != .none && fieldCL f) (fieldC f)
    if a = some 0x06 || b = some 0x06 || c = some 0x06 then some 0x06 else a <|> b <|> c

/-- The tags an instruction accepts on its sources (06 R109, R110): operand (0 A, 1 B, 2 C), register offset
in a group or run, accepted tags besides ANY. -/
def tagSpec (op m : Nat) : List (Nat × Nat × List Tag) :=
  let one (o : Nat) (t : Tag) : Nat × Nat × List Tag := (o, 0, [t])
  let run (o lo n : Nat) (t : Tag) : List (Nat × Nat × List Tag) := (List.range n).map (fun i => (o, lo + i, [t]))
  let fp (t : Tag) (three : Bool) := [one 0 t, one 1 t] ++ (if three then [one 2 t] else [])
  match op with
  | 0x057 => [one 0 (if m % 2 = 1 then tagU8x4 else tagI8x4), one 1 (if m / 2 % 2 = 1 then tagU8x4 else tagI8x4)]
  | 0x157 => [one 0 tagI8x4, one 1 tagI8x4]
  | 0x05A => [one 0 (BitVec.ofNat 5 (m / 32))]
  | 0x05B => run 0 0 (valueRun true (m % 32)) (BitVec.ofNat 5 m)
  | 0x05C => run 0 0 (valueRun false (m % 32)) (BitVec.ofNat 5 m)
  | 0x05D => run 0 0 (elemRun (m % 32)) (BitVec.ofNat 5 m) ++ [(0, elemRun (m % 32), [tagE8m0x4])]
  | 0x05E => run 0 0 (elemRun (m % 32)) (BitVec.ofNat 5 m) ++ [(0, elemRun (m % 32), [tagPxScale])]
  | 0x080 | 0x081 | 0x082 | 0x084 | 0x085 | 0x086 => fp tagF32 false
  | 0x180 | 0x181 | 0x182 | 0x184 | 0x185 | 0x188 => [one 0 tagF32]
  | 0x083 => fp tagF32 true
  | 0x183 => fp tagF32 false
  | 0x087 | 0x088 | 0x089 | 0x08A | 0x08B | 0x08C | 0x08D | 0x08E | 0x08F | 0x090 | 0x091 => [one 0 tagF32]
  | 0x098 | 0x099 | 0x09A | 0x09C | 0x09D | 0x09E => fp tagF16x2 false
  | 0x198 | 0x199 | 0x19A | 0x19C | 0x19D => [one 0 tagF16x2]
  | 0x09B => fp tagF16x2 true
  | 0x19B => fp tagF16x2 false
  | 0x0A0 | 0x0A1 | 0x0A2 | 0x0A4 | 0x0A5 | 0x0A6 => fp tagB16x2 false
  | 0x1A0 | 0x1A1 | 0x1A2 | 0x1A4 | 0x1A5 => [one 0 tagB16x2]
  | 0x0A3 => fp tagB16x2 true
  | 0x1A3 => fp tagB16x2 false
  | 0x1C0 | 0x1C1 | 0x1C2 | 0x1C5 => run 1 0 3 tagF32
  | 0x1C3 | 0x1C4 => (List.range 3).map (fun i => (1, i, [tagI32, tagU32]))
  | 0x1D0 => run 0 0 3 tagF32
  | _ => []

/-- A source's tag in a quad passes (R109, R189). Latches carry their producer's tag; an unwritten quad of a
latch, an s register, an inline constant and an immediate pass. -/
def tagPasses (c : Cx) (isLatch : Bool) (n off q : Nat) (ok : List Tag) : Bool :=
  let t : Tag :=
    if isLatch then
      match c.p.window.bind (fun w => w.latches.find? (fun x => x.idx = n)) with
      | some x => ((x.tags.find? (fun y => y.1 = q)).map (·.2)).getD tagAny
      | none => tagAny
    else if n < 256 then c.readTag (n + off) q else tagAny
  t = tagAny || ok.contains t

/-- The tag of a physical tile named t0-t7. -/
def Cx.physTile (c : Cx) (n : Nat) : Nat := c.g.tiles.getD n 0
def Cx.tile (c : Cx) (n : Nat) : Tile := kget {} c.k.tiles (c.physTile n)

/-- The tags a matrix instruction accepts on its tile (15 R304, R305). -/
def tileSpec (op m : Nat) : Option (Nat × Tag) :=
  if op = 0x1B6 then some (0, tagI32)
  else if 0x1B2 ≤ op ∧ op ≤ 0x1BA then some (0, tagF32)
  else if op = 0x1BB ∨ op = 0x1BC then some (1, if m % 8 = 5 then tagI32 else tagF32)
  else none

/-- The tag check of R109, made in every quad of the part before the guard. -/
def tagsOk (c : Cx) (op : Nat) (f : Fields) : Bool :=
  let m := modField (opInfo op).x f.x
  let qs := onesBelow 16 c.qmask
  (tagSpec op m).all (fun x =>
    let src := if x.1 = 0 then (f.al, f.a.toNat) else if x.1 = 1 then (f.bl, f.b.toNat) else (fieldCL f, fieldC f)
    qs.all (fun q => tagPasses c src.1 src.2 x.2.1 q x.2.2)) &&
  (match tileSpec op m with
   | none => true
   | some (o, t) =>
     let tag := (c.tile ((if o = 0 then f.a.toNat else f.b.toNat) - 384)).tag
     tag = tagAny || tag = t)

end Sys2Proof.Machine
end

