-- ==== Sys2Proof/Machine/Issue.lean ====
section
/-! DEFINITION. Issuing one instruction of a part: the checks of 04 R81 in their order, the scoreboard, the
tag check, the width (07 R126, R128), then the instruction's own effect; operand values and result writes. -/
namespace Sys2Proof.Machine

/-- What an instruction's own effect answers, after the checks that all instructions share. -/
inductive Effect where
  /-- It takes effect; the PC advances. -/
  | next (c : Cx)
  /-- It takes effect and has set the PC itself. -/
  | at (c : Cx)
  /-- It takes effect, the PC advances, then a change beyond the core follows. -/
  | thenDo (c : Cx) (g : State → State)
  /-- It traps, precisely. -/
  | trap (i : TrapInfo)
  /-- It does not issue now; nothing takes effect. -/
  | stall (w : Wait)
  /-- It does not issue now, and a change beyond the part follows. -/
  | stallDo (w : Wait) (g : State → State)
  /-- It has made the whole next state. -/
  | whole (s : State)

/-! Operand values. -/

/-- How an operand reads an inline constant (04 R74). -/
inductive OpKind where
  | int | f32 | f16 | b16
  deriving DecidableEq, Repr

/-- The exact float pattern of an integer of magnitude at most 256. -/
def smallFloat (e m bias : Nat) (n : Int) : Nat :=
  let a := n.natAbs
  if a = 0 then 0
  else
    let k := Nat.log2 a
    let frac := if k ≤ m then a * 2 ^ (m - k) - 2 ^ m else a / 2 ^ (k - m) - 2 ^ m
    (if n < 0 then 2 ^ (e + m) else 0) + (k + bias) * 2 ^ m + frac

/-- The value of an inline constant's number (R72, R74); a packed 16-bit operand has it in both elements (log 53). -/
def inlineVal (k : OpKind) (n : Nat) : Word :=
  let i : Int := (n : Int) - 1792
  match k with
  | .int => BitVec.ofInt 32 i
  | .f32 => BitVec.ofNat 32 (smallFloat 8 23 127 i)
  | .f16 => BitVec.ofNat 32 (smallFloat 5 10 15 i * 65537)
  | .b16 => BitVec.ofNat 32 (smallFloat 8 7 127 i * 65537)

/-- A latch's value in a lane; a lane that no instruction of the window has written reads a free value. -/
def latchVal (c : Cx) (n l : Nat) : Word :=
  match c.p.window with
  | none => 0
  | some w =>
    match (w.latches.find? (fun x => x.idx = n)).bind (fun x => (x.vals.find? (fun y => y.1 = l)).map (·.2)) with
    | some v => v
    | none => Config.freeWord w.fresh (n * 64 + l)

/-- A source of class v, s, or a group's member `off`, in a lane (05 R85, 10 R187). -/
def Cx.src (c : Cx) (k : OpKind) (isLatch : Bool) (n off l : Nat) : Word :=
  if isLatch then latchVal c n l
  else if n < 256 then c.readV (n + off) l
  else if n < 384 then c.readS (n - 256 + off)
  else inlineVal k n

/-- Operand A, B or C (0, 1, 2) of an instruction in a lane; an immediate stands for the operand that the
opcode names (05 R98). -/
def Cx.opn (c : Cx) (op : Nat) (f : Fields) (which : Nat) (k : OpKind) (l : Nat) : Word :=
  match (opInfo op).imm, which with
  | .a, 0 => f.x
  | .b, 1 => f.x
  | .c, 2 => f.x
  | _, 0 => c.src k f.al f.a.toNat 0 l
  | _, 1 => c.src k f.bl f.b.toNat 0 l
  | _, _ => c.src k (fieldCL f) (fieldC f) 0 l

/-- The tag of a source in a quad, ANY for s registers, inline constants and immediates (10 R189). -/
def Cx.opnTag (c : Cx) (op : Nat) (f : Fields) (which q : Nat) : Tag :=
  let get (isLatch : Bool) (n : Nat) : Tag :=
    if isLatch then
      match c.p.window.bind (fun w => w.latches.find? (fun x => x.idx = n)) with
      | some x => ((x.tags.find? (fun y => y.1 = q)).map (·.2)).getD tagAny
      | none => tagAny
    else if n < 256 then c.readTag n q else tagAny
  match (opInfo op).imm, which with
  | .a, 0 => tagAny
  | .b, 1 => tagAny
  | .c, 2 => tagAny
  | _, 0 => get f.al f.a.toNat
  | _, 1 => get f.bl f.b.toNat
  | _, _ => get (fieldCL f) (fieldC f)

/-- MOD of the operand form. -/
def modOf (f : Fields) : Nat := bits f.x 0 20
/-- MM of the address form. -/
def mmOf (f : Fields) : Nat := bits f.x 20 12

/-! Results. -/

/-- Replace the first entry of a lane or quad in an association list. -/
def assocSet {α : Type} (l : List (Nat × α)) (k : Nat) (v : α) : List (Nat × α) :=
  (k, v) :: l.filter (fun e => e.1 != k)

/-- Write a latch of the open window: values of lanes, tags of their quads (04 R76). -/
def Window.write (w : Window) (idx : Nat) (u : Unit') (cyc : Nat) (vals : List (Nat × Word)) (tag : Nat → Tag) :
    Window :=
  let old : Latch := (w.latches.find? (fun x => x.idx = idx)).getD ⟨idx, u, cyc, [], []⟩
  let vals' := vals.foldl (fun m x => assocSet m x.1 x.2) old.vals
  let tags' := vals.foldl (fun m x => assocSet m (x.1 / 4) (tag (x.1 / 4))) old.tags
  { w with latches := ⟨idx, u, cyc, vals', tags'⟩ :: w.latches.filter (fun x => x.idx != idx) }

def Cx.writeLatch (c : Cx) (f : Fields) (u : Unit') (vals : List (Nat × Word)) (tag : Nat → Tag) : Cx :=
  if f.lw then
    c.part (fun p => { p with window := p.window.map (fun w => w.write f.lout.toNat u c.cyc vals tag) })
  else c

/-- A vector result: register D unless it is `_`, and latch LOUT under LW (R71, R188). -/
def Cx.putV (c : Cx) (op : Nat) (f : Fields) (vals : List (Nat × Word)) (tag : Nat → Tag) : Cx :=
  let c1 := c.writeLatch f (opInfo op).unit vals tag
  if f.dn then c1 else c1.writeV f.d.toNat vals tag

/-- A scalar result: sD, and under LW latch LOUT in every lane of the part's quads, with tag ANY (R155). -/
def Cx.putS (c : Cx) (op : Nat) (f : Fields) (v : Word) : Cx :=
  let c1 := c.writeLatch f (opInfo op).unit ((lanesOf (quadLanes c.qmask)).map (fun l => (l, v))) (fun _ => tagAny)
  c1.writeS (f.d.toNat - 256) v

/-- A predicate result: bits of the given lanes, other bits kept. -/
def Cx.putP (c : Cx) (f : Fields) (lanes val : Lanes) : Cx :=
  let n := f.d.toNat - 392
  c.writeP n ((c.readP n &&& ~~~lanes) ||| (val &&& lanes))

/-! The checks that every instruction shares. -/

/-- Steps 1 to 4 of R81. -/
def decodeCheck (c : Cx) (op : Nat) (f : Fields) : Option Byte :=
  if (opInfo? op).isNone || (c.w.code.gang && notInGang op) then some 0x01
  else if f.rt != 0 then some 0x02
  else if !modifiersOk op f then some 0x03
  else if !operandsOk c.w.limits op f then some 0x04
  else none

/-- A result that goes to a scalar set, whole for the part (R153). -/
def LoadDst.isScalar : LoadDst → Bool
  | .scalar _ _ | .sum _ _ _ _ | .atomS _ => true
  | _ => false

/-- A load's registers are pending for a part (R116): a vector result in the quads in which lanes still wait, a scalar
one for every part that holds lanes of the part it was issued by. -/
def loadPends (ld : Load) (p : Part) : Bool :=
  if ld.dst.isScalar then (ld.part &&& p.lanes) != 0 && !ld.lanes.isEmpty
  else (quadsOf (maskOf (ld.lanes.map (·.lane))) &&& quadsOf p.lanes) != 0

/-- Some register among those named is pending on the part's scoreboard (07 R116; 12 R246). -/
def busyRegs (c : Cx) (rs : List Nat) : Bool :=
  let owes (fm : Nat) (part : Lanes) : Bool := fm != 0 && rs.contains (400 + fm) && (part &&& c.p.lanes) != 0
  c.w.loads.any (fun ld => (ld.regs.any (fun r => rs.contains r) && loadPends ld c.p) || owes ld.fm ld.part) ||
  c.w.queue.any (fun e => owes e.fm e.part) ||
  c.k.outbound.any (fun o => o.serial = c.w.serial && owes o.entry.fm o.entry.part)

def busy (c : Cx) (op : Nat) (f : Fields) : Bool := busyRegs c (regsRead op f ++ regsWritten op f)

/-- The minimum width of an instruction in lanes, 0 for none (05 R88). -/
def widthOf (c : Cx) (op : Nat) (f : Fields) : Nat :=
  match (opInfo op).width with
  | .none => 0
  | .quad => 4
  | .seg16 => 16
  | .wave => c.w.width
  | .seg => 4 * 2 ^ bits f.x 0 3

/-- Every lane of the wave that some part holds. -/
def liveLanes (w : Wave) : Lanes := w.parts.foldl (fun m p => m ||| p.lanes) 0

/-- Lanes of the aligned segments of n lanes that hold a lane of a mask. -/
def segLanes (n : Nat) (m : Lanes) : Lanes :=
  maskOf ((List.range 64).filter (fun l => (lanesOf m).any (fun j => j / n = l / n)))

/-- A part meets a width when every lane of its segments is its own or has ended (R126). -/
def meetsWidth (w : Wave) (p : Part) (n : Nat) : Bool :=
  n = 0 || (segLanes n p.lanes &&& liveLanes w &&& ~~~p.lanes) = 0

/-- Bookkeeping of an issue that takes effect: spacing (R75), the window's members (R76), starvation (R118),
the end of a debugger's step (22 R405), and the columns used in this cycle (R118). -/
def Cx.issued (c : Cx) (op : Nat) (f : Fields) : Cx :=
  let i := operandCls op (modField (opInfo op).x f.x)
  let w := (windowFor c.p i f c.s.freeCount).map (fun w =>
    { w with count := w.count + 1, reads := regsRead op f ++ w.reads, writes := regsWritten op f ++ w.writes })
  let keep := c.p.stepping && w.isSome
  let p := { c.p with nextIssue := c.cyc + max 1 f.stall.toNat, window := w, wait := .ready, readyFor := 0,
                      starved := false, stepping := keep, stallFor := 0, flushed := false,
                      cause := if c.p.stepping && !keep then 0x21 else c.p.cause }
  let cols := BitVec.ofNat 16 (c.qmask.toNat * 2 ^ c.w.col)
  let u := (opInfo op).unit
  let vec := if u = .ialu || u = .fma || u = .sfu || u = .xch then popCount c.qmask else 0
  let k := { c.k with issued := (c.cyc, c.slot / 16, cols) :: c.k.issued.filter (fun x => x.1 = c.cyc)
                      vecQuads := c.k.vecQuads + vec }
  let s := if f.wb then { c.s with freeCount := c.s.freeCount + 1 } else c.s
  { c with s := s, k := k, p := p }

/-- An issue with LW = 1 restarts the open windows of other parts that share one of its quads (R78). -/
def restartShared (w : Wave) (idx : Nat) (q : Quads) : Wave :=
  let redo (p : Part) : Part :=
    match p.window with
    | some x => if (quadsOf p.lanes &&& q) != 0 && p.raised.isNone then { p with pc := x.start, window := none, wait := .ready } else p
    | none => p
  { w with parts := w.parts.mapIdx (fun i p => if i = idx then p else redo p) }

/-- A stall at an instruction: its reason is recorded. A window that the instruction does not belong to has closed before it
(04 R76). A step ends when the part stands at a width requirement or `fuse` (22 R405). -/
def stallAt (c : Cx) (f : Fields) (w : Wait) : State :=
  let ends := c.p.stepping && (w = .width || w = .fuse)
  (c.part (fun p => { p with wait := w, stepping := p.stepping && !ends, window := if f.wb then none else p.window
                             cause := if ends then 0x21 else p.cause })).commit

/-- The part has used what it read ahead of the instruction. -/
def Cx.emptied (c : Cx) : Cx := c.part (fun p => { p with buffer := [] })

/-- Carry out an effect; `c` is the part before the instruction, in the window the instruction issues in. -/
def applyEffect (c : Cx) (f : Fields) (e : Effect) : State :=
  match e with
  | .next d =>
    let d := if f.lw then { d with w := restartShared d.w d.idx d.qmask } else d
    d.emptied.nextPc.commit
  | .at d => d.emptied.commit
  | .thenDo d g => g d.emptied.nextPc.commit
  | .trap i => takeTrap c i
  | .stall w => stallAt c f w
  | .stallDo w g => g (stallAt c f w)
  | .whole s => s

/-- A part in handler mode does not wait for width: the instruction raises HANDLER_ILLEGAL (22 R395). -/
def widthStall (c : Cx) : Effect :=
  if c.p.handler.isSome then .trap { cause := 0x1A } else .stall .width

/-- ACCESS of a trap that an instruction's address check raises (22 R397), by opcode. -/
def accessOf (op : Nat) : Nat :=
  if [0x0C1, 0x0C4, 0x0C7, 0x0CB, 0x0CE, 0x0D0, 0x0D3, 0x0D8, 0x0AA, 0x0AB, 0x1C4, 0x1CA].contains op then 2
  else if [0x0AC, 0x0AD].contains op || (0x0E0 ≤ op && op ≤ 0x11C && op != 0x0EF) then 3
  else if [0x1BB, 0x1BC].contains op then 7
  else if 0x1CD ≤ op && op ≤ 0x1D0 then 9
  else 1

/-- A trap with failing lanes names the kind of its access: the one that the instruction says, else the opcode's. -/
def nameAccess (op : Nat) (e : Effect) : Effect :=
  match e with
  | .trap i => .trap { i with access := if i.access != 0 then i.access else if i.lanes.isSome then accessOf op else 0 }
  | e => e

/-- The effect of an instruction that has passed the checks of 04 R81: the tag check (06 R109), the width (07 R126, R128), then
its own. -/
def ownEffect (c cw : Cx) (op : Nat) (f : Fields) (body : Cx → Effect) : Effect :=
  if !tagsOk cw op f then .trap { cause := 0x08 }
  else if widthOf c op f > c.w.width then .trap { cause := 0x09 }
  else if !meetsWidth c.w c.p (widthOf c op f) then widthStall c
  else nameAccess op (body (c.issued op f))

/-- The instruction does not issue now. -/
def Effect.stalls (e : Effect) : Bool :=
  match e with
  | .stall _ | .stallDo _ _ => true
  | _ => false

/-- The shared path from a decoded instruction to its effect. A latch is read too early only by an instruction that issues
(04 R77; 07 R117). -/
def issue (op : Nat) (f : Fields) (c : Cx) (body : Cx → Effect) : State :=
  let i := operandCls op (modField (opInfo op).x f.x)
  if c.p.stepping && c.p.window.isSome && (f.wb || (windowFor c.p i f 0).isNone) then
    (c.part (fun p => { p with stepping := false, window := none, cause := 0x21 })).commit
  else
    let cw := c.part (fun p => { p with window := windowFor p i f c.s.freeCount })
    match decodeCheck c op f with
    | some cause => takeTrap cw { cause := cause }
    | none =>
      if busy c op f then stallAt cw f .score
      else match latchCheck c.p op f c.cyc c.s.freeCount with
      | some cause =>
        let e := ownEffect c cw op f body
        if cause = 0x07 && e.stalls then applyEffect cw f e else takeTrap cw { cause := cause }
      | none => applyEffect cw f (ownEffect c cw op f body)

/-- Run an instruction of the part in focus. -/
def runPart (op : Nat) (f : Fields) (s : State) (body : Cx → Effect) : Host.Outcome State Fault Refusal :=
  match partAt s s.cur with
  | none => .fault .noPart
  | some c => .next (issue op f c body)

/-- A single-effect instruction has its effect when the guard is true in an active lane (04 R70). -/
def single (f : Fields) (c : Cx) (e : Effect) : Effect := if c.activeLanes f = 0 then .next c else e

/-- A per-lane result: lanes of R187 and the value of each. -/
def perLane (f : Fields) (c : Cx) (h : Nat → Word) : List (Nat × Word) :=
  (lanesOf (c.activeLanes f)).map (fun l => (l, h l))

end Sys2Proof.Machine
end

