-- ==== Sys2Proof/Machine/PeerSend.lean ====
section
/-! DEFINITION. Sending a request to a peer module, and the initiator's fault record (21 R383-R385). -/
namespace Sys2Proof.Machine

def cPeerFault : Byte := 0x47
def cPeerTimeout : Byte := 0x48

/-- Bytes that a request changes at the peer. -/
def opWrites : PeerOp → Nat
  | .store d | .put d => d.length
  | .atomic _ _ _ _ => 4
  | .contribute _ _ | .initSum _ => 32
  | _ => 0

/-- A window register that maps a peer (R383): port, module, peer context, owner at the target. -/
def windowOf (r : Dword) : Option (Nat × Nat × Nat × Nat) :=
  let port := bits r 32 3
  let owner := bits r 36 2
  if tbit r 63 && decide (1 ≤ port ∧ port ≤ 5) && decide (owner ≤ 2) then some (port, bits r 0 12, bits r 38 6, owner)
  else none

/-- Send a request through the window of an address; none when it fails at once (R383, R384), which it also does where the
window's port is not ready (01 R14; log 40). -/
def peerSend (s : State) (asn : Nat) (region : Rgn) (va : Dword) (op : PeerOp) (use : PeerUse) : Option (State × Nat) :=
  match windowOf (kget 0 s.peerWindows (4 * asn + (vaOwner va - 3))) with
  | none => none
  | some (port, mod, pctx, owner) =>
    if (regionGrant s region).ethQp = 0 || !portReady s port then none
    else
      let r : PeerOut := ⟨s.nextPeer, port, mod, pctx, owner, vaOffset va, op, use, va⟩
      some ({ s with peers := s.peers ++ [r], nextPeer := s.nextPeer + 1, peerSent := s.peerSent ++ [.request r] }, r.id)

/-- The record of a failed peer access in the initiating region's fault domain (R385, 22 R397): KIND 3; CORE
holds the core and the port of the request, else of the window, QMASK is the reporting part's. -/
def peerRecord (s : State) (core slot : Nat) (cause : Byte) (access asn : Nat) (region : Rgn) (va : Dword)
    (launch wgId : Nat) (qmask : Quads) (lanes : Lanes) (detail : Word := 0) (sent : Option Nat := none) : State :=
  let port := sent.getD (((windowOf (kget 0 s.peerWindows (4 * asn + (vaOwner va - 3)))).map (·.1)).getD 0)
  postFault s region (launchHost s launch)
    { cause := cause, kind := 3, access := access, cluster := core / 8, core := core % 8 + 16 * port, wslot := slot,
      qmask := qmask, detail := detail, wgid := BitVec.ofNat 32 wgId, faddr := va, lanes := lanes,
      launch := launchDone s launch, rcb := region, cyc := BitVec.ofNat 64 (coreCyc s core) }

/-- The record of a colour-tile row that a peer did not serve (17 R335; log 33). -/
def tileRecord (s : State) (b : Batch) (cause : Byte) (access : Nat) (va : Dword) (port : Nat) : State :=
  let region := ((getLaunch s b.launch).map (·.region)).getD 0
  postFault s region (launchHost s b.launch)
    { cause := cause, kind := 3, access := access, core := 16 * port, faddr := va, launch := launchDone s b.launch, rcb := region }

end Sys2Proof.Machine
end

