-- ==== Sys2Proof/Machine/Float.lean ====
section
/-! DEFINITION. Numbers: formats, exact values, one rounding, and the conversions between formats
(08 R134-R142). A value is computed exactly as sign, magnitude and power of two, and rounded once. -/
namespace Sys2Proof.Machine

/-- A floating-point format (R134): width, trailing significand bits, bias, magnitude code of the largest
finite value, of infinity where there is one, and of the canonical NaN where there is one. -/
structure Fmt where
  w : Nat
  m : Nat
  bias : Int
  maxCode : Nat
  inf : Option Nat
  nan : Option Nat
  deriving DecidableEq, Repr

def fp32 : Fmt := ⟨32, 23, 127, 0x7F7FFFFF, some 0x7F800000, some 0x7FC00000⟩
def fp16 : Fmt := ⟨16, 10, 15, 0x7BFF, some 0x7C00, some 0x7E00⟩
def bf16 : Fmt := ⟨16, 7, 127, 0x7F7F, some 0x7F80, some 0x7FC0⟩
def e5m2 : Fmt := ⟨8, 2, 15, 0x7B, some 0x7C, some 0x7E⟩
def e4m3 : Fmt := ⟨8, 3, 7, 0x7E, none, some 0x7F⟩
def e2m1 : Fmt := ⟨4, 1, 1, 0x7, none, none⟩

/-- An exact value: a NaN, an infinity, or (-1)^neg x mag x 2^exp. -/
inductive FVal where
  | nan
  | inf (neg : Bool)
  | num (neg : Bool) (mag : Nat) (exp : Int)
  deriving DecidableEq, Repr

def FVal.zero (neg : Bool) : FVal := .num neg 0 0

/-- The value of a code (R134). -/
def Fmt.decode (f : Fmt) (code : Nat) : FVal :=
  let neg := code.testBit (f.w - 1)
  let body := code % 2 ^ (f.w - 1)
  let isNan := match f.inf, f.nan with
    | some i, _ => decide (i < body)
    | none, some n => body = n
    | none, none => false
  if isNan then .nan
  else if f.inf = some body then .inf neg
  else
    let e := body / 2 ^ f.m
    let t := body % 2 ^ f.m
    if e = 0 then .num neg t (1 - f.bias - f.m) else .num neg (2 ^ f.m + t) ((e : Int) - f.bias - f.m)

/-- One rounding of mag / 2^shift to an integer under a mode of R138; `sticky` marks a positive remainder
beyond the magnitude, `h` is the random number of RS (R142). -/
def roundMag (mode : Nat) (neg : Bool) (h : Word) (mag shift : Nat) (sticky : Bool) : Nat :=
  let n := mag >>> shift
  let rem := mag % 2 ^ shift
  let inexact := rem != 0 || sticky
  let up := match mode with
    | 0 => decide (2 * rem > 2 ^ shift) || (2 * rem = 2 ^ shift && (sticky || n % 2 = 1))
    | 1 => false
    | 2 => inexact && !neg
    | 3 => inexact && neg
    | _ => decide (2 ^ 32 ≤ (rem * 2 ^ 32) >>> shift + h.toNat)
  if up then n + 1 else n

/-- The magnitude mag x 2^exp rounded to an integer. -/
def roundInt (mode : Nat) (neg : Bool) (h : Word) (mag : Nat) (exp : Int) (sticky : Bool) : Nat :=
  if 0 ≤ exp then mag * 2 ^ exp.toNat else roundMag mode neg h mag (-exp).toNat sticky

/-- The canonical NaN of a format; E2M1 has none and takes +0 (R140). -/
def Fmt.canon (f : Fmt) : Nat := f.nan.getD 0

def Fmt.sign (f : Fmt) (neg : Bool) : Nat := if neg then 2 ^ (f.w - 1) else 0

/-- What stands for an infinity where results do not saturate: infinity, or the NaN with the sign (R140). -/
def Fmt.infCode (f : Fmt) (neg : Bool) : Nat :=
  f.sign neg + (match f.inf, f.nan with | some i, _ => i | none, some n => n | none, none => f.maxCode)

/-- An overflow (R140). -/
def Fmt.overflow (f : Fmt) (mode : Nat) (sat neg : Bool) : Nat :=
  let big := f.sign neg + f.maxCode
  if sat then big
  else match mode with
    | 1 => big
    | 2 => if neg then big else f.infCode neg
    | 3 => if neg then f.infCode neg else big
    | _ => f.infCode neg

/-- Round a value once into a format (R138, R140). -/
def Fmt.round (f : Fmt) (mode : Nat) (h : Word) (sat : Bool) (v : FVal) (sticky : Bool := false) : Nat :=
  match v with
  | .nan => f.canon
  | .inf neg => if sat then f.sign neg + f.maxCode else f.infCode neg
  | .num neg mag exp =>
    if mag = 0 then f.sign neg
    else
      let top : Int := Nat.log2 mag + exp
      let q : Int := max (top - f.m) (1 - f.bias - f.m)
      let n := if q ≤ exp then mag * 2 ^ (exp - q).toNat else roundMag mode neg h mag (q - exp).toNat sticky
      let code := if n < 2 ^ f.m then n else ((q + f.m + f.bias).toNat - 1) * 2 ^ f.m + n
      if f.maxCode < code then f.overflow mode sat neg else f.sign neg + code

/-- Exact sum; an exact zero of unlike terms is +0, or -0 toward minus infinity (R135). -/
def FVal.add (mode : Nat) (a b : FVal) : FVal :=
  match a, b with
  | .nan, _ => .nan
  | _, .nan => .nan
  | .inf s, .inf t => if s = t then .inf s else .nan
  | .inf s, _ => .inf s
  | _, .inf t => .inf t
  | .num s m e, .num t n d =>
    let lo := min e d
    let x : Int := (if s then -1 else 1) * (m * 2 ^ (e - lo).toNat : Nat)
    let y : Int := (if t then -1 else 1) * (n * 2 ^ (d - lo).toNat : Nat)
    let z := x + y
    if z = 0 then .num (if m = 0 && n = 0 && s = t then s else mode = 3) 0 0
    else .num (decide (z < 0)) z.natAbs lo

def FVal.neg : FVal → FVal
  | .nan => .nan
  | .inf s => .inf !s
  | .num s m e => .num (!s) m e

/-- Exact product. -/
def FVal.mul (a b : FVal) : FVal :=
  match a, b with
  | .nan, _ => .nan
  | _, .nan => .nan
  | .inf s, .inf t => .inf (s != t)
  | .inf s, .num t n _ => if n = 0 then .nan else .inf (s != t)
  | .num s m _, .inf t => if m = 0 then .nan else .inf (s != t)
  | .num s m e, .num t n d => .num (s != t) (m * n) (e + d)

/-- Scaling by a power of two; far exponents are clamped where every format's result is the same. -/
def FVal.scale (a : FVal) (k : Int) : FVal :=
  match a with
  | .num s m e => .num s m (e + max (-1024) (min 1024 k))
  | x => x

def FVal.isNan : FVal → Bool
  | .nan => true
  | _ => false

/-- Exact comparison of two ordered values: -1, 0 or 1; zeros are equal. -/
def FVal.cmp (a b : FVal) : Int :=
  match a, b with
  | .inf s, .inf t => if s = t then 0 else if s then -1 else 1
  | .inf s, _ => if s then -1 else 1
  | _, .inf t => if t then 1 else -1
  | .num s m e, .num t n d =>
    let lo := min e d
    let x : Int := (if s then -1 else 1) * (m * 2 ^ (e - lo).toNat : Nat)
    let y : Int := (if t then -1 else 1) * (n * 2 ^ (d - lo).toNat : Nat)
    if x < y then -1 else if x = y then 0 else 1
  | _, _ => 0

/-- The eight float condition codes (10 R200). -/
def cmpFloat (cc : Nat) (a b : FVal) : Bool :=
  let un := a.isNan || b.isNan
  let c := a.cmp b
  match cc with
  | 0 => !un && c = 0
  | 1 => un || c != 0
  | 2 => !un && decide (c < 0)
  | 3 => !un && decide (c ≤ 0)
  | 4 => !un && decide (0 < c)
  | 5 => !un && decide (0 ≤ c)
  | 6 => un
  | _ => !un

/-- The order of codes that R199 uses, -0 below +0. -/
def Fmt.orderKey (f : Fmt) (code : Nat) : Int :=
  let body : Int := (code % 2 ^ (f.w - 1) : Nat)
  if code.testBit (f.w - 1) then -body - 1 else body

/-- `vfmin` and `vfmax` (10 R199). -/
def Fmt.select (f : Fmt) (max : Bool) (a b : Nat) : Nat :=
  match (f.decode a).isNan, (f.decode b).isNan with
  | true, true => f.canon
  | true, false => b
  | false, true => a
  | false, false =>
    if max then (if f.orderKey a < f.orderKey b then b else a)
    else (if f.orderKey b < f.orderKey a then b else a)

/-! Stochastic rounding (R142). -/

/-- The random number h. -/
def rsHash (xbits tid pc e : Word) : Word :=
  let h0 := xbits ^^^ (tid * 0x9E3779B9) ^^^ (pc * 0x85EBCA6B) ^^^ (e * 0xC2B2AE35)
  let h1 := (h0 ^^^ (h0 >>> (16 : Nat))) * 0x7FEB352D
  let h2 := (h1 ^^^ (h1 >>> (15 : Nat))) * 0x846CA68B
  h2 ^^^ (h2 >>> (16 : Nat))

/-! Element formats and conversion (10 R204, R205). -/

/-- An element format: floating point, or an integer of a width, signed or not. -/
inductive Elem where
  | flt (f : Fmt)
  | int (w : Nat) (signed : Bool)
  deriving DecidableEq, Repr

/-- The element format of a tag (R204). -/
def elemOf (t : Nat) : Elem :=
  match t with
  | 0x01 => .flt fp32
  | 0x02 => .flt fp16
  | 0x03 => .flt bf16
  | 0x04 => .flt e4m3
  | 0x05 => .flt e5m2
  | 0x06 => .flt e2m1
  | 0x07 => .int 32 true
  | 0x08 => .int 32 false
  | 0x09 => .int 16 true
  | 0x0A => .int 16 false
  | 0x0B => .int 8 true
  | _ => .int 8 false

def Elem.width : Elem → Nat
  | .flt f => f.w
  | .int w _ => w

/-- An integer as an exact value. -/
def ofInt (i : Int) : FVal := .num (decide (i < 0)) i.natAbs 0

/-- Saturation to an integer type's range, as its bits. -/
def satInt (w : Nat) (sgn : Bool) (i : Int) : Nat :=
  let lo : Int := if sgn then -(2 ^ (w - 1) : Nat) else 0
  let hi : Int := if sgn then (2 ^ (w - 1) : Nat) - 1 else (2 ^ w : Nat) - 1
  (BitVec.ofInt w (max lo (min hi i))).toNat

/-- A float to an integer type (R141). -/
def floatToInt (mode : Nat) (h : Word) (w : Nat) (sgn : Bool) (v : FVal) : Nat :=
  match v with
  | .nan => 0
  | .inf neg => satInt w sgn (if neg then -(2 ^ 64 : Nat) else (2 ^ 64 : Nat))
  | .num neg m e =>
    let n : Int := if 64 ≤ e then (if m = 0 then 0 else (2 ^ 64 : Nat)) else roundInt mode neg h m e false
    satInt w sgn (if neg then -n else n)

/-- The default of R140: saturating into E4M3, E5M2 and E2M1 only. -/
def Fmt.satDefault (f : Fmt) : Bool := f.w < 16

/-- One element converted (R205); `h` is the random number of RS. -/
def convertElem (src dst : Elem) (mode : Nat) (xsat : Bool) (h : Word) (bits : Nat) : Nat :=
  match src, dst with
  | .flt a, .flt b => b.round mode h (b.satDefault != xsat) (a.decode bits)
  | .flt a, .int w s => floatToInt mode h w s (a.decode bits)
  | .int w s, .flt b =>
    b.round mode h (b.satDefault != xsat) (ofInt (if s then signed w bits else (bits % 2 ^ w : Nat)))
  | .int w s, .int w' s' => satInt w' s' (if s then signed w bits else (bits % 2 ^ w : Nat))

/-! Operations on FP32 words. -/

def f32 (x : Word) : FVal := fp32.decode x.toNat
/-- Round into FP32. -/
def toF32 (mode : Nat) (v : FVal) : Word := BitVec.ofNat 32 (fp32.round mode 0 false v)
def f32Add (a b : Word) : Word := toF32 0 ((f32 a).add 0 (f32 b))

/-- floor(log2) of a non-zero value. -/
def FVal.log2 : FVal → Int
  | .num _ m e => Nat.log2 m + e
  | _ => 0

/-- Magnitude as a value. -/
def FVal.abs : FVal → FVal
  | .num _ m e => .num false m e
  | .inf _ => .inf false
  | .nan => .nan

/-- The greater of two magnitudes. -/
def FVal.maxAbs (a b : FVal) : FVal := if a.abs.cmp b.abs < 0 then b.abs else a.abs

end Sys2Proof.Machine
end

