-- ==== Sys2Proof/Machine/Ws128.lean ====
section
/-! DEFINITION. WS128 records (08 R147-R150) and the reading of one (12 R260). -/
namespace Sys2Proof.Machine

/-- A record: the 192-bit integer, the slot exponent, the flags byte, and the five bytes above it. -/
structure Ws where
  a : BitVec 192
  e0 : Half
  flags : Byte
  spare : List Byte
  deriving DecidableEq, Repr

def Ws.ofBytes (bs : List Byte) : Ws :=
  ⟨BitVec.ofNat 192 (field bs 0 23), BitVec.ofNat 16 (field bs 24 25), BitVec.ofNat 8 (field bs 26 26),
   fitBytes 5 (bs.drop 27)⟩

def Ws.toBytes (r : Ws) : List Byte :=
  Machine.toBytes 24 r.a.toNat ++ Machine.toBytes 2 r.e0.toNat ++ [r.flags] ++ fitBytes 5 r.spare

def Ws.setFlag (r : Ws) (b : Nat) : Ws := { r with flags := r.flags ||| BitVec.ofNat 8 (2 ^ b) }

/-- A contribution (R148). -/
def Ws.contribute (r : Ws) (x : FVal) : Ws :=
  match x with
  | .nan => r.setFlag 0
  | .inf neg => if neg then r.setFlag 2 else r.setFlag 1
  | .num neg m e =>
    let d := e - r.e0.toInt
    if m = 0 then r
    else if 192 ≤ d then r.setFlag 4
    else
      let c := roundInt 0 neg 0 m d false
      let exact := 0 ≤ d || m % 2 ^ (-d).toNat = 0
      let r1 := if exact then r else r.setFlag 3
      if 2 ^ 127 ≤ c then r1.setFlag 4
      else { r1 with a := r1.a + BitVec.ofInt 192 (if neg then -(c : Int) else c) }

/-- What `suminit` writes (12 R258). -/
def Ws.init (e0 : Half) : Ws := ⟨0, e0, 0, List.replicate 5 0⟩

/-- Combination of two records (R150): none when their E0 differ. -/
def Ws.combine (dst src : Ws) : Option Ws :=
  if dst.e0 = src.e0 then some { dst with a := dst.a + src.a, flags := dst.flags ||| src.flags } else none

/-- The record after `sum.flush` with CLEAR (13 R267). -/
def Ws.clear (r : Ws) : Ws := { r with a := 0, flags := 0 }

/-- The value that `sumget` rounds (R149). -/
def Ws.value (r : Ws) : FVal :=
  if tbit r.flags 0 || (tbit r.flags 1 && tbit r.flags 2) then .nan
  else if tbit r.flags 1 then .inf false
  else if tbit r.flags 2 then .inf true
  else
    let i := r.a.toInt
    .num (decide (i < 0)) i.natAbs r.e0.toInt

/-- EXT is not the sign extension of V[127]. -/
def Ws.overflowed (r : Ws) : Bool :=
  let i := r.a.toInt
  decide (i < -(2 ^ 127 : Nat) ∨ (2 ^ 127 : Nat) ≤ i)

/-- The status word of `sumget` (12 R260). -/
def Ws.status (r : Ws) : Dword :=
  let b (c : Bool) (i : Nat) : Nat := if c then 2 ^ i else 0
  BitVec.ofNat 64 (b r.overflowed 0 + b (tbit r.flags 3) 1 + b (tbit r.flags 4) 2 + b (tbit r.flags 0) 3 +
    b (tbit r.flags 1) 4 + b (tbit r.flags 2) 5)

/-- The result of `sumget` by FMT and rounding mode (R149, 12 R260). -/
def Ws.get (r : Ws) (fmt rm : Nat) : Word :=
  let v := r.value
  BitVec.ofNat 32 (match fmt with
    | 0 => fp32.round rm 0 false v
    | 1 => fp16.round rm 0 false v
    | 2 => bf16.round rm 0 false v
    | 3 => floatToInt rm 0 32 true v
    | _ => floatToInt rm 0 32 false v)

end Sys2Proof.Machine
end

