-- ==== Sys2Proof/Machine/Access.lean ====
section
/-! DEFINITION. Memory accesses of a part: addresses, checks at the core, translation of loads, scratchpad
bytes, and the entries of the store queue (12 R242-R247, R253, R254; 11 R220-R228, R233). -/
namespace Sys2Proof.Machine

/-- The participating lanes and their global addresses. -/
abbrev Addrs := List (Nat × Dword)

/-! Addresses (R242). -/

def Cx.basePair (c : Cx) (f : Fields) : Dword := c.readS (f.a.toNat - 255) ++ c.readS (f.a.toNat - 256)
def offWord (f : Fields) : Dword := BitVec.ofInt 64 (offField f.x)

/-- Global contiguous form. -/
def Cx.contig (c : Cx) (f : Fields) (esize : Nat) : Addrs :=
  (lanesOf (c.activeLanes f)).map (fun l => (l, c.basePair f + offWord f + BitVec.ofNat 64 (l * esize)))

/-- Global lane-address form. -/
def Cx.laneAddrs (c : Cx) (f : Fields) : Addrs :=
  (lanesOf (c.activeLanes f)).map (fun l =>
    (l, (c.readV (f.a.toNat + 1) l ++ c.readV f.a.toNat l) + offWord f))

/-- Global scalar form: one access for $lane. -/
def Cx.scalarAddr (c : Cx) (f : Fields) : Addrs :=
  if c.activeLanes f = 0 then [] else [(c.lane, c.basePair f + offWord f)]

/-- Scratchpad offsets, computed exactly: contiguous, lane-address and scalar forms. -/
def Cx.spContig (c : Cx) (f : Fields) (esize : Nat) : List (Nat × Int) :=
  let b := (c.src .int false f.a.toNat 0 0).toInt + offField f.x
  (lanesOf (c.activeLanes f)).map (fun l => (l, b + (l * esize : Nat)))
def Cx.spLanes (c : Cx) (f : Fields) : List (Nat × Int) :=
  (lanesOf (c.activeLanes f)).map (fun l => (l, (c.src .int f.al f.a.toNat 0 l).toInt + offField f.x))
def Cx.spScalar (c : Cx) (f : Fields) : List (Nat × Int) :=
  if c.activeLanes f = 0 then [] else [(c.lane, (c.src .int false f.a.toNat 0 0).toInt + offField f.x)]

/-! Checks at the core (R245; 11 R220, R228). -/

/-- The trap of the earliest failing step over all lanes, with the address of the lowest lane failing it. -/
def earliest (l : List (Nat × Dword × Option (Nat × Byte))) : Option TrapInfo :=
  let bad := l.filterMap (fun x => x.2.2.map (fun y => (x.1, x.2.1, y.1, y.2)))
  match bad with
  | [] => none
  | b :: bs =>
    let step := bs.foldl (fun m x => min m x.2.2.1) b.2.2.1
    match bad.filter (fun x => x.2.2.1 = step) with
    | [] => none
    | x :: xs => some { cause := x.2.2.2, lanes := some (maskOf ((x :: xs).map (·.1))), addr := x.2.1 }

/-- A global range overlaps a range lock of the core (13 R278). -/
def lockedGlobal (k : Core) (asn : Nat) (va : Dword) (n : Nat) : Bool :=
  k.locks.any (fun x => !x.scratch && x.asn = asn && decide (x.base < va.toNat + n) && decide (va.toNat < x.base + x.len))

/-- An absolute SRAM range overlaps a range lock of the core. -/
def lockedSram (k : Core) (a n : Nat) : Bool :=
  k.locks.any (fun x => x.scratch && decide (x.base < a + n) && decide (a < x.base + x.len))

def Cx.globalTrap (c : Cx) (addrs : Addrs) (size align : Nat) : Option TrapInfo :=
  earliest (addrs.map (fun x => (x.1, x.2,
    (formCheck x.2 size align) <|> (if lockedGlobal c.k c.g.asn x.2 size then some (4, cLocked) else none))))

/-- The checks of R228 on one offset: step and cause. -/
def spCheck (k : Core) (g : Workgroup) (o : Int) (size align : Nat) : Option (Nat × Byte) :=
  if align != 0 && o % align != 0 then some (1, cMisaligned)
  else if o < 0 || (g.scratch : Int) < o + size then some (2, cScratch)
  else if lockedSram k (g.base + o.toNat) size then some (3, cLocked)
  else none

def Cx.spTrap (c : Cx) (offs : List (Nat × Int)) (size align : Nat) : Option TrapInfo :=
  earliest (offs.map (fun x => (x.1, BitVec.ofInt 64 x.2, spCheck c.k c.g x.2 size align)))

/-- Accesses of the workgroup from before its last barrier are not performed at .wg yet (19 R362): entries of its
waves' store queues, and loads that still wait for bytes or for a peer. -/
def Cx.fenced (c : Cx) : Bool :=
  c.g.fences.any (fun x =>
    match (if x.1 = c.slot then some c.w else getWave c.k x.1) with
    | some w => w.serial = x.2.1 && (w.queue.any (fun e => decide (e.seq < x.2.2)) ||
        w.loads.any (fun ld => decide (ld.seq < x.2.2) && ld.lanes.any LoadLane.out))
    | none => false)

/-- An acquire access of the part has not returned, or accesses from before a barrier are not performed: no later memory
instruction issues (R254; 19 R362). -/
def Cx.held (c : Cx) : Bool := c.p.holds.any (fun id => c.w.loads.any (fun ld => ld.id = id)) || c.fenced

/-! Ordering fields (R243). -/

def mmScope (f : Fields) : Nat := bits f.x 26 3
def mmFm (f : Fields) : Nat := bits f.x 29 3
/-- ACQ or REL of a load or store. -/
def mmOrd1 (f : Fields) : Bool := tbit f.x 25
/-- ORD of an atomic. -/
def mmOrd (f : Fields) : Nat := bits f.x 24 2
def mmType (f : Fields) : Nat := bits f.x 20 5

/-- The release scope of a store: its own, and that of an earlier `fence.rel` (R254, R255). -/
def Cx.release (c : Cx) (own : Option Nat) : Option Nat :=
  match own, c.p.relScope with
  | some a, some b => some (max a b)
  | some a, none => some a
  | none, b => b

/-! Flags (R246; 11 R224). -/

/-- Flag lanes: $resid, and m[FM] over the participating lanes. -/
def Cx.flag (c : Cx) (fm : Nat) (part flagged : Lanes) : Cx :=
  let c1 := { c with w := { c.w with resid := c.w.resid ||| flagged } }
  if fm = 0 then c1 else c1.writeM fm ((c1.readM fm &&& ~~~part) ||| flagged)

/-! Loads at issue. -/

/-- An address of a peer window (11 R218). -/
def isPeerVa (va : Dword) : Bool := decide (3 ≤ vaOwner va ∧ vaOwner va ≤ 6)

/-- The scope of an ordered access: .sys where it reaches a peer (R242; 19 R361). -/
def scopeFor (addrs : Addrs) (scope : Option Nat) : Option Nat :=
  if addrs.any (fun x => isPeerVa x.2) then scope.map (fun _ => 5) else scope

/-- What a load instruction asks. -/
structure LoadReq where
  dst : LoadDst
  regs : List Nat
  size : Nat
  acq : Option Nat := none
  fm : Nat := 0
  maySplit : Bool := false
  /-- It may hit the L1 and fill it; deterministic sums do not (11 R229). -/
  l1 : Bool := true
  const : Bool := false
  deriving DecidableEq, Repr

/-- What a load does at a page (11 R223). -/
def LoadDst.access (d : LoadDst) : Access := if d.isSum then .sumget else .load

/-- The value a lane receives for bytes that are not read: zeros, or nothing for a record. -/
def zeroBytes (dst : LoadDst) (size : Nat) : List Byte := if dst.isSum then [] else List.replicate size 0

/-- The freeze that failing lanes cause, after the instruction (11 R226, R238). -/
def freezeLanes (c : Cx) (access : Nat) (fails : List (Nat × Byte × Dword)) (s : State) : State :=
  match fails with
  | [] => s
  | x :: _ => freezeWave s c.core c.slot x.2.1
      (partFault c x.2.1 1 access (maskOf (fails.map (·.1))) x.2.2 0 (c.p.restart))

/-- A lane leaves the core. A peer load is sent (21 R384); a request that fails at once flags its lane. -/
def Cx.sendLane (c : Cx) (r : LoadReq) (id : Nat) (x : Nat × Dword) : Cx × LoadLane :=
  if !isPeerVa x.2 then (c, { lane := x.1, va := x.2 })
  else
    let base : LoadLane := { lane := x.1, va := x.2, arrived := true, missed := true }
    let op : PeerOp := if r.dst.isSum then .sumget else .load r.size
    match peerSend c.s c.g.asn c.g.region x.2 op (.load c.core c.slot id x.1) with
    | some (s, req) => ({ c with s := s }, { base with peer := some req })
    | none =>
      let c1 := c.part (fun q => { q with pstat := 0x47 })
      ({ c1 with s := peerRecord c1.s c.core c.slot cPeerFault 1 c.g.asn c.g.region x.2 c.g.launch c.g.id c.qmask (BitVec.ofNat 64 (2 ^ x.1)) },
       { base with fixed := some (zeroBytes r.dst r.size) })

/-- A request of an outbound entry that its peer has not answered yet changes bytes of a range (19 R356: until then it is
performed for no one). -/
def unanswered (s : State) (o : Outbound) (va : Dword) (n : Nat) : Bool :=
  s.peers.any (fun r => o.peers.contains r.id && meets (r.va.toNat, opWrites r.op) (va.toNat, n))

/-- A peer load of bytes that an older store or atomic of the core has on its way waits for it (R253; 19 R356). -/
def Cx.peerConflict (c : Cx) (addrs : Addrs) (n : Nat) : Bool :=
  addrs.any (fun x => isPeerVa x.2 && (c.w.queue.any (fun e => entryOverlaps e x.2 n) ||
    c.k.outbound.any (fun o => o.asn = c.g.asn && (entryOverlaps o.entry x.2 n || unanswered c.s o x.2 n))))

/-- The load that an instruction puts in flight, with its lanes as they left the core. -/
def Cx.loadOf (c : Cx) (r : LoadReq) (addrs : Addrs) (lanes : List LoadLane) : Load where
  id := c.k.nextLoad
  seq := c.w.seq
  dst := r.dst
  part := c.p.lanes
  regs := r.regs
  lanes := lanes
  acq := scopeFor addrs r.acq
  maySplit := r.maySplit
  fm := r.fm
  const := r.const
  size := r.size
  l1 := r.l1
  mask := maskOf (addrs.map (·.1))
  flagged := maskOf ((lanes.filter (fun l => l.fixed.isSome)).map (·.lane))
  cycle := c.cyc
  pc := c.p.pc
  restart := c.p.restart

/-- A load is in flight: its lanes leave the core. -/
def Cx.launchLoad (c : Cx) (r : LoadReq) (addrs : Addrs) : Cx :=
  let step (acc : Cx × List LoadLane) (x : Nat × Dword) : Cx × List LoadLane :=
    let y := acc.1.sendLane r c.k.nextLoad x
    (y.1, acc.2 ++ [y.2])
  let x := addrs.foldl step (c, [])
  { x.1 with k := { x.1.k with nextLoad := c.k.nextLoad + 1 }
             w := { x.1.w with seq := c.w.seq + 1, loads := x.1.w.loads ++ [c.loadOf r addrs x.2] } }

/-- A global load issues (R245, R247): the checks at the core, then it is in flight. -/
def Cx.issueLoad (c : Cx) (r : LoadReq) (addrs : Addrs) (align : Nat) : Effect :=
  if c.held || c.peerConflict addrs r.size then .stall .sync
  else match c.globalTrap addrs r.size align with
  | some t => .trap t
  | none =>
    if addrs.isEmpty then .next c
    else
      let d := c.launchLoad r addrs
      .next (if r.acq.isSome then d.part (fun p => { p with holds := c.k.nextLoad :: p.holds }) else d)

/-! The store queue (R253). -/

/-- Append an entry to the wave's store queue. -/
def Cx.push (c : Cx) (e : QEntry) : Cx :=
  { c with w := { c.w with queue := c.w.queue ++ [e], seq := c.w.seq + 1 } }

/-- An entry made by this part now. -/
def Cx.entry (c : Cx) (kind : QKind) (own : Option Nat) (fm : Nat) (addrs : Addrs) : QEntry where
  seq := c.w.seq
  part := c.p.lanes
  lane := c.lane
  mask := maskOf (addrs.map (·.1))
  kind := kind
  rel := scopeFor addrs (c.release own)
  fm := fm
  pc := c.p.pc

/-! Scratchpad bytes (11 R227, R228). -/

def Cx.spRead (c : Cx) (o : Int) (n : Nat) : List Byte := readBytes c.k.sram (c.g.base + o.toNat) n
def Cx.spBad (c : Cx) (o : Int) (n : Nat) : Bool := anyBad c.k.sramErr (c.g.base + o.toNat) n

/-- Write SRAM bytes; whole sectors get a valid check value (11 R237). -/
def sramWrite (k : Core) (a : Nat) (bs : List Byte) : Core :=
  { k with sram := writeBytes k.sram a bs, sramErr := clearBad k.sramErr a bs.length }

def Cx.spWrite (c : Cx) (o : Int) (bs : List Byte) : Cx := { c with k := sramWrite c.k (c.g.base + o.toNat) bs }

/-- The part's older loads have returned, and the wave's older queue entries have left (R254). -/
def Cx.releaseClear (c : Cx) : Bool := c.w.queue.isEmpty && !c.w.loads.any (fun ld => (ld.part &&& c.p.lanes) != 0)

/-- Older accesses of the part and older queue entries of the wave are performed at a scope (19 R356). -/
def Cx.performed (c : Cx) (scope : Nat) : Bool :=
  c.releaseClear && !c.fenced && (decide (scope ≤ 1) || !c.k.outbound.any (fun o => o.serial = c.w.serial))

/-- A scratchpad access that is a release of its own, or after a `fence.rel`, waits (R254, R255). -/
def Cx.releaseWaits (c : Cx) (own : Option Nat) : Bool :=
  match c.release own with
  | some scope => !c.performed scope
  | none => false

/-! Loaded values (R247, R249). -/

/-- Bytes of a TYPE's size code. -/
def szBytes (sz : Nat) : Nat := if sz = 0 then 4 else if sz ≤ 2 then 2 else 1

/-- The register value of loaded bytes. -/
def extend (sz : Nat) (bs : List Byte) : Word :=
  let v := ofBytes (bs.take (szBytes sz))
  if sz = 2 then BitVec.ofInt 32 (signed 16 v)
  else if sz = 4 then BitVec.ofInt 32 (signed 8 v)
  else BitVec.ofNat 32 v

/-- Registers of the element run alone. -/
def blkElems (bfmt : Nat) : Nat := [4, 8, 8, 2, 3, 4].getD bfmt 4
/-- Bytes per lane and alignment of a BFMT (R249; 11 R220). -/
def blkBytes (bfmt : Nat) : Nat := [16, 32, 32, 8, 12, 18].getD bfmt 16
def blkAlign (bfmt : Nat) : Nat := [16, 32, 32, 8, 4, 2].getD bfmt 16

/-- The registers that a block load writes in a lane, from its bytes; `old` is the scale register. -/
def blkRegs (bfmt spos : Nat) (bs : List Byte) (old : Word) : List Word :=
  let run := blkElems bfmt
  if bfmt < 3 then (List.range run).map (fun i => BitVec.ofNat 32 (field bs (4 * i) (4 * i + 3)))
  else
    let elems := ofBytes (bs.drop 2)
    (List.range run).map (fun i => BitVec.ofNat 32 (elems / 2 ^ (32 * i))) ++
      [putBits old (16 * spos) 16 (field bs 0 1)]

/-- The bytes that a block store writes from a lane's registers. -/
def blkStore (bfmt spos : Nat) (regs : List Word) : List Byte :=
  let run := blkElems bfmt
  let elems := regs.take run |>.foldr (fun w acc => w.toNat + 2 ^ 32 * acc) 0
  if bfmt < 3 then toBytes (blkBytes bfmt) elems
  else toBytes 2 (bits (regs.getD run 0) (16 * spos) 16) ++ toBytes (blkBytes bfmt - 2) elems

/-- Write one lane of a load into the wave (R247); a scalar result goes to every part that holds lanes of the one that
issued it (07 R116). The bytes of a texture or ray instruction go to its part's buffer. -/
def deliver (w : Wave) (ld : Load) (l : LoadLane) (bs : List Byte) : Wave :=
  let toParts (h : Part → Part) : Wave := { w with parts := updateWhere (fun p => (ld.part &&& p.lanes) != 0) h w.parts }
  let setS (r : Nat) (v : Word) (p : Part) : Part := { p with s := kset 0 p.s r v }
  match ld.dst with
  | .vec none _ _ => w
  | .vec (some r) sz tag => waveWriteV w r [(l.lane, extend sz bs)] (fun _ => tag)
  | .block r bfmt spos =>
    let old := kget 0 w.v (vKey (r + blkElems bfmt) l.lane)
    let vals := blkRegs bfmt spos bs old
    (List.range vals.length).foldl (fun w i =>
      waveWriteV w (r + i) [(l.lane, vals.getD i 0)] (fun _ => tagAny)) w
  | .scalar r sz => toParts (setS r (extend sz bs))
  | .sum r fmt rm fm =>
    let rec' := Ws.ofBytes bs
    let v := if bs.isEmpty then 0 else rec'.get fmt rm
    let st := if bs.isEmpty then 0x40 else rec'.status
    toParts (fun p =>
      let p1 := setS r v p
      if fm = 0 then p1 else { p1 with m := kset 0 p1.m fm st })
  | .atomV none => w
  | .atomV (some r) => waveWriteV w r [(l.lane, BitVec.ofNat 32 (ofBytes bs))] (fun _ => tagAny)
  | .atomS r => toParts (setS r (BitVec.ofNat 32 (ofBytes bs)))
  | .ack => w
  | .buffer =>
    let f : Fetch := if tbit ld.flagged l.lane then .flagged else .bytes bs
    toParts (fun p => { p with buffer := p.buffer ++ [(l.va, ld.size, f)] })

end Sys2Proof.Machine
end

