-- ==== Sys2Proof/Machine/Block.lean ====
section
/-! DEFINITION. MX and PX blocks (08 R143-R146). -/
namespace Sys2Proof.Machine

/-- Element codes as one bit stream, element j at bits [w j + w - 1 : w j]. -/
def joinBits (w : Nat) : List Nat → Nat
  | [] => 0
  | c :: cs => c % 2 ^ w + 2 ^ w * joinBits w cs

/-- n element codes of w bits from a bit stream. -/
def splitBits (w : Nat) : Nat → Nat → List Nat
  | 0, _ => []
  | n + 1, x => x % 2 ^ w :: splitBits w n (x / 2 ^ w)

/-- The MX element format of a tag (R143). -/
def mxFmt (t : Nat) : Fmt := if t = 0x06 then e2m1 else if t = 0x04 then e4m3 else e5m2

/-- emax (R144). -/
def mxEmax (t : Nat) : Int := if t = 0x06 then 2 else if t = 0x04 then 8 else 15

/-- Magnitude bits of a PX format (R145). -/
def pxM (t : Nat) : Nat := if t = 0x0E then 2 else if t = 0x0F then 4 else 7

def notFinite : FVal → Bool
  | .num _ _ _ => false
  | _ => true

def isZeroVal : FVal → Bool
  | .num _ m _ => m = 0
  | _ => false

/-- The greatest magnitude of a list. -/
def amaxOf (xs : List FVal) : FVal := xs.foldl FVal.maxAbs (.num false 0 0)

/-- Quantise 32 values to MX (R144): scale byte and element codes; `h j` is the random number of element j. -/
def mxQuant (t mode : Nat) (h : Nat → Word) (xs : List FVal) : Nat × List Nat :=
  if xs.any notFinite then (0xFF, xs.map (fun _ => 0))
  else
    let amax := amaxOf xs
    let se : Int := if isZeroVal amax then -127 else max (-127) (amax.log2 - mxEmax t)
    ((se + 127).toNat, xs.mapIdx (fun j x => (mxFmt t).round mode (h j) true (x.scale (-se))))

/-- An element's value (R143). -/
def mxValue (t s code : Nat) : FVal :=
  if s = 0xFF then .nan else ((mxFmt t).decode code).scale ((s : Int) - 127)

/-- The signed value rounded in the mode's direction, its magnitude (R146). -/
def pxRound (mode : Nat) (h : Word) (x : FVal) : Nat :=
  match x with
  | .num neg m e => roundInt mode neg h m e false
  | _ => 0

def FVal.isNeg : FVal → Bool
  | .num s _ _ => s
  | .inf s => s
  | .nan => false

/-- Quantise 16 values to PX (R146): the scale halfword and element codes. -/
def pxQuant (t mode : Nat) (h : Nat → Word) (xs : List FVal) : Nat × List Nat :=
  if xs.any notFinite then (0xFF, xs.map (fun _ => 0))
  else
    let m := pxM t
    let amax := amaxOf xs
    let e : Int := if isZeroVal amax then 0 else max 0 (amax.log2 - m + 128)
    let d (j : Nat) : Nat :=
      let p := (xs.getD (2 * j) (.zero false)).maxAbs (xs.getD (2 * j + 1) (.zero false))
      if pxRound 0 0 (p.scale (128 - e)) ≤ 2 ^ m - 1 then 1 else 0
    let code (i : Nat) (x : FVal) : Nat :=
      let mag := min (2 ^ m - 1) (pxRound mode (h i) (x.scale (127 + d (i / 2) - e)))
      if mag = 0 then 0 else (if x.isNeg then 2 ^ m else 0) + mag
    (e.toNat + joinBits 1 ((List.range 8).map d) * 256, xs.mapIdx code)

/-- An element's value (R145), from the scale halfword. -/
def pxValue (t scale i code : Nat) : FVal :=
  let m := pxM t
  let e := scale % 256
  let d := (scale / 256 / 2 ^ (i / 2)) % 2
  if e = 0xFF then .nan else .num (code.testBit m) (code % 2 ^ m) ((e : Int) - 127 - d)

end Sys2Proof.Machine
end

