-- ==== Sys2Proof/Machine/Sfu.lean ====
section
/-! DEFINITION. The transcendental functions, correctly rounded (10 R203). A function's value is computed as an
integer at a precision far beyond FP32, with a mark for the remainder, and rounded once. The irrational
functions carry an error below 2^-110 of the result; that no input lies nearer than that to a rounding
boundary is a property of the functions (log 9). -/
namespace Sys2Proof.Machine

/-- floor(sqrt x), by bits from 4^k down. -/
def sqrtBits : Nat → Nat → Nat → Nat
  | 0, _, r => r
  | k + 1, x, r =>
    let t := r + 2 ^ k
    sqrtBits k x (if t * t ≤ x then t else r)

/-- floor(sqrt x). -/
def natSqrt (x : Nat) : Nat := sqrtBits (Nat.log2 x / 2 + 1) x 0

/-- Round a positive inexact or exact value into FP32, nearest even. -/
def sfuOut (neg : Bool) (mag : Nat) (exp : Int) (sticky : Bool) : Word :=
  BitVec.ofNat 32 (fp32.round 0 0 false (.num neg mag exp) sticky)

def f32Nan : Word := 0x7FC00000
def f32Inf (neg : Bool) : Word := if neg then 0xFF800000 else 0x7F800000
def f32Zero (neg : Bool) : Word := if neg then 0x80000000 else 0
def f32One (neg : Bool) : Word := if neg then 0xBF800000 else 0x3F800000

/-- `vrcp`. -/
def sfuRcp (a : Word) : Word :=
  match f32 a with
  | .nan => f32Nan
  | .inf neg => f32Zero neg
  | .num neg m e =>
    if m = 0 then f32Inf neg
    else
      let k := Nat.log2 m + 40
      sfuOut neg (2 ^ k / m) (-e - k) (2 ^ k % m != 0)

/-- Mantissa and even exponent of a positive value, the mantissa scaled by 4^40. -/
def evenForm (m : Nat) (e : Int) : Nat × Int :=
  if e % 2 = 0 then (m * 4 ^ 40, e - 80) else (2 * m * 4 ^ 40, e - 81)

/-- `vsqrt`. -/
def sfuSqrt (a : Word) : Word :=
  match f32 a with
  | .nan => f32Nan
  | .inf neg => if neg then f32Nan else f32Inf false
  | .num neg m e =>
    if m = 0 then f32Zero neg
    else if neg then f32Nan
    else
      let x := evenForm m e
      let r := natSqrt x.1
      sfuOut false r (x.2 / 2) (r * r != x.1)

/-- `vrsq`: the root of 4^k / m, k so large that the root has more than 40 bits. -/
def sfuRsq (a : Word) : Word :=
  match f32 a with
  | .nan => f32Nan
  | .inf neg => if neg then f32Nan else f32Zero false
  | .num neg m e =>
    if m = 0 then f32Inf neg
    else if neg then f32Nan
    else
      let m' := if e % 2 = 0 then m else 2 * m
      let e' := if e % 2 = 0 then e else e - 1
      let k := Nat.log2 m' + 41
      let q := 4 ^ k / m'
      let r := natSqrt q
      sfuOut false r (-(e' / 2) - k) (r * r != q || 4 ^ k % m' != 0)

/-- floor(ln 2 x 2^256). -/
def ln2Fix : Nat := 0xb17217f7d1cf79abc9e3b39803f2f6af40f343267298b62d8a0d175b8baafa2b

/-- Taylor series of exp at a fixed-point argument of 256 bits: the terms from x^n / n! on. -/
def expSeries : Nat → Nat → Nat → Nat → Nat
  | 0, _, _, _ => 0
  | fuel + 1, n, term, x => term + expSeries fuel (n + 1) (term * x / 2 ^ 256 / (n + 1)) x

/-- 2^f for a fraction f of 256 bits, as a fixed-point number of 256 bits. -/
def exp2Frac (f : Nat) : Nat := expSeries 64 0 (2 ^ 256) (f * ln2Fix / 2 ^ 256)

/-- floor and 256-bit fraction of a value of magnitude below 2^9. -/
def splitFix (neg : Bool) (m : Nat) (e : Int) : Int × Nat :=
  let x : Int := (if neg then -1 else 1) * (m * 2 ^ (e + 256).toNat : Nat)
  (x / 2 ^ 256, (x % 2 ^ 256).toNat)

/-- `vexp2`. -/
def sfuExp2 (a : Word) : Word :=
  match f32 a with
  | .nan => f32Nan
  | .inf neg => if neg then 0 else f32Inf false
  | .num neg m e =>
    if m = 0 then f32One false
    else if 8 ≤ (Nat.log2 m : Int) + e then (if neg then 0 else f32Inf false)
    else
      let x := splitFix neg m e
      if x.2 = 0 then sfuOut false 1 x.1 false else sfuOut false (exp2Frac x.2) (x.1 - 256) true

/-- Bits of log2 x for x in [1, 2), x with 320 fraction bits: each squaring gives one bit. -/
def log2Bits : Nat → Nat → Nat → Nat
  | 0, _, acc => acc
  | n + 1, x, acc =>
    let y := x * x / 2 ^ 320
    if 2 ^ 321 ≤ y then log2Bits n (y / 2) (2 * acc + 1) else log2Bits n y (2 * acc)

/-- `vlog2`. -/
def sfuLog2 (a : Word) : Word :=
  match f32 a with
  | .nan => f32Nan
  | .inf neg => if neg then f32Nan else f32Inf false
  | .num neg m e =>
    if m = 0 then f32Inf true
    else if neg then f32Nan
    else
      let k := Nat.log2 m
      let top : Int := k + e
      if m = 2 ^ k then BitVec.ofNat 32 (fp32.round 0 0 false (ofInt top))
      else
        let frac := log2Bits 160 (m * 2 ^ (320 - k)) 0
        let z : Int := top * 2 ^ 160 + frac
        if 0 ≤ z then sfuOut false z.toNat (-160) true else sfuOut true (z.natAbs - 1) (-160) true

/-- floor(pi / 2 x 2^384). -/
def halfPiFix : Nat := 0x3243f6a8885a308d313198a2e03707344a4093822299f31d0082efa98ec4e6c89452821e638d01377be5466cf34e90c6c / 2

/-- The alternating Taylor series of sine: terms from x^n / n!, with x^2 given, at 384 bits. -/
def sinSeries : Nat → Nat → Int → Nat → Int
  | 0, _, _, _ => 0
  | fuel + 1, n, term, x2 =>
    term + sinSeries fuel (n + 2) (-(term * x2 / 2 ^ 384 / ((n + 1) * (n + 2) : Nat))) x2

/-- sin of a fraction g of a quarter turn, 0 < g < 1, g with 384 fraction bits. -/
def sinQuarter (g : Nat) : Nat :=
  let x : Nat := g * halfPiFix / 2 ^ 384
  let x2 : Nat := x * x / 2 ^ 384
  (sinSeries 60 1 (x : Int) x2).toNat

/-- sin(2 pi t) for a magnitude t in turns, given as quarters: number of whole quarters, and fraction. -/
def sinTurns (neg : Bool) (quarters g : Nat) : Word :=
  let s := neg != decide (2 ≤ quarters % 4)
  if g = 0 then (if quarters % 2 = 0 then f32Zero neg else f32One s)
  else
    let y := if quarters % 2 = 0 then sinQuarter g else sinQuarter (2 ^ 384 - g)
    sfuOut s y (-384) true

/-- Whole quarters, modulo 4, and fraction of |A| in turns, with 384 fraction bits. -/
def quartersOf (m : Nat) (e : Int) : Nat × Nat :=
  if 0 ≤ e then (if e = 0 then 4 * m % 4 else 0, 0)
  else
    let x := m * 2 ^ (e + 386).toNat
    (x / 2 ^ 384 % 4, x % 2 ^ 384)

/-- `vsin`. -/
def sfuSin (a : Word) : Word :=
  match f32 a with
  | .nan => f32Nan
  | .inf _ => f32Nan
  | .num neg m e => let x := quartersOf m e; sinTurns neg x.1 x.2

/-- `vcos`: the sine a quarter turn on; zeros are +0. -/
def sfuCos (a : Word) : Word :=
  match f32 a with
  | .nan => f32Nan
  | .inf _ => f32Nan
  | .num _ m e =>
    let x := quartersOf m e
    let q := (x.1 + 1) % 4
    if x.2 = 0 && q % 2 = 0 then 0 else sinTurns false q x.2

end Sys2Proof.Machine
end

