-- ==== Sys2Proof/Machine/Scalar.lean ====
section
/-! DEFINITION. Scalar arithmetic (09 R153-R161). -/
namespace Sys2Proof.Machine

/-- A scalar instruction of one result: single-effect, its value from the operands A, B and C (R153). -/
def scalarOp (op : Nat) (f : Fields) (s : State) (h : Word → Word → Word → Word) :
    Host.Outcome State Fault Refusal :=
  runPart op f s (fun c =>
    single f c (.next (c.putS op f (h (c.opn op f 0 .int 0) (c.opn op f 1 .int 0) (c.opn op f 2 .int 0)))))

/-- Bits [63:32] of the exact product (R157). -/
def mulHigh (unsigned : Bool) (a b : Word) : Word :=
  if unsigned then BitVec.ofNat 32 (a.toNat * b.toNat / 2 ^ 32)
  else BitVec.ofInt 32 (a.toInt * b.toInt / 2 ^ 32)

/-- Position and length of a field descriptor (R159). -/
def fieldPos (b : Word) : Nat := bits b 0 5
def fieldLen (b : Word) : Nat := min (bits b 8 6) (32 - fieldPos b)

/-- `sbfe` and `vbfe` (R159). -/
def bitExtract (sign : Bool) (a b : Word) : Word :=
  if fieldLen b = 0 then 0
  else
    let x := bits a (fieldPos b) (fieldLen b)
    if sign then BitVec.ofInt 32 (signed (fieldLen b) x) else BitVec.ofNat 32 x

/-- `sbfi` and `vbfi` (R159): C with the field replaced by the low bits of A. -/
def bitInsert (a b c : Word) : Word :=
  if fieldLen b = 0 then c else putBits c (fieldPos b) (fieldLen b) (bits a 0 (fieldLen b))

def minS (a b : Word) : Word := if b.slt a then b else a
def maxS (a b : Word) : Word := if a.slt b then b else a
def minU (a b : Word) : Word := if b.ult a then b else a
def maxU (a b : Word) : Word := if a.ult b then b else a

/-- `sadd` (R156). -/
def execSadd (f : Fields) (s : State) : Host.Outcome State Fault Refusal :=
  scalarOp 0x020 f s (fun a b _ => a + b)

/-- `sadd` with an immediate (R156, 05 R98). -/
def execSaddImm (f : Fields) (s : State) : Host.Outcome State Fault Refusal :=
  scalarOp 0x120 f s (fun a b _ => a + b)

/-- `ssub` (R156). -/
def execSsub (f : Fields) (s : State) : Host.Outcome State Fault Refusal :=
  scalarOp 0x021 f s (fun a b _ => a - b)

/-- `ssub` with an immediate (R156, 05 R98). -/
def execSsubImm (f : Fields) (s : State) : Host.Outcome State Fault Refusal :=
  scalarOp 0x121 f s (fun a b _ => a - b)

/-- `smul` (R156). -/
def execSmul (f : Fields) (s : State) : Host.Outcome State Fault Refusal :=
  scalarOp 0x022 f s (fun a b _ => a * b)

/-- `smul` with an immediate (R156, 05 R98). -/
def execSmulImm (f : Fields) (s : State) : Host.Outcome State Fault Refusal :=
  scalarOp 0x122 f s (fun a b _ => a * b)

/-- `sand` (R156). -/
def execSand (f : Fields) (s : State) : Host.Outcome State Fault Refusal :=
  scalarOp 0x025 f s (fun a b _ => a &&& b)

/-- `sand` with an immediate (R156, 05 R98). -/
def execSandImm (f : Fields) (s : State) : Host.Outcome State Fault Refusal :=
  scalarOp 0x125 f s (fun a b _ => a &&& b)

/-- `sor` (R156). -/
def execSor (f : Fields) (s : State) : Host.Outcome State Fault Refusal :=
  scalarOp 0x026 f s (fun a b _ => a ||| b)

/-- `sor` with an immediate (R156, 05 R98). -/
def execSorImm (f : Fields) (s : State) : Host.Outcome State Fault Refusal :=
  scalarOp 0x126 f s (fun a b _ => a ||| b)

/-- `sxor` (R156). -/
def execSxor (f : Fields) (s : State) : Host.Outcome State Fault Refusal :=
  scalarOp 0x027 f s (fun a b _ => a ^^^ b)

/-- `sxor` with an immediate (R156, 05 R98). -/
def execSxorImm (f : Fields) (s : State) : Host.Outcome State Fault Refusal :=
  scalarOp 0x127 f s (fun a b _ => a ^^^ b)

/-- `sshl` (R156). -/
def execSshl (f : Fields) (s : State) : Host.Outcome State Fault Refusal :=
  scalarOp 0x029 f s (fun a b _ => a <<< bits b 0 5)

/-- `sshl` with an immediate (R156, 05 R98). -/
def execSshlImm (f : Fields) (s : State) : Host.Outcome State Fault Refusal :=
  scalarOp 0x129 f s (fun a b _ => a <<< bits b 0 5)

/-- `sshr` (R156). -/
def execSshr (f : Fields) (s : State) : Host.Outcome State Fault Refusal :=
  scalarOp 0x02A f s (fun a b _ => a >>> bits b 0 5)

/-- `sshr` with an immediate (R156, 05 R98). -/
def execSshrImm (f : Fields) (s : State) : Host.Outcome State Fault Refusal :=
  scalarOp 0x12A f s (fun a b _ => a >>> bits b 0 5)

/-- `ssra` (R156). -/
def execSsra (f : Fields) (s : State) : Host.Outcome State Fault Refusal :=
  scalarOp 0x02B f s (fun a b _ => a.sshiftRight (bits b 0 5))

/-- `ssra` with an immediate (R156, 05 R98). -/
def execSsraImm (f : Fields) (s : State) : Host.Outcome State Fault Refusal :=
  scalarOp 0x12B f s (fun a b _ => a.sshiftRight (bits b 0 5))

/-- `smin` (R156). -/
def execSmin (f : Fields) (s : State) : Host.Outcome State Fault Refusal :=
  scalarOp 0x02C f s (fun a b _ => minS a b)

/-- `smin` with an immediate (R156, 05 R98). -/
def execSminImm (f : Fields) (s : State) : Host.Outcome State Fault Refusal :=
  scalarOp 0x12C f s (fun a b _ => minS a b)

/-- `smax` (R156). -/
def execSmax (f : Fields) (s : State) : Host.Outcome State Fault Refusal :=
  scalarOp 0x02D f s (fun a b _ => maxS a b)

/-- `smax` with an immediate (R156, 05 R98). -/
def execSmaxImm (f : Fields) (s : State) : Host.Outcome State Fault Refusal :=
  scalarOp 0x12D f s (fun a b _ => maxS a b)

/-- `sminu` (R156). -/
def execSminu (f : Fields) (s : State) : Host.Outcome State Fault Refusal :=
  scalarOp 0x02E f s (fun a b _ => minU a b)

/-- `sminu` with an immediate (R156, 05 R98). -/
def execSminuImm (f : Fields) (s : State) : Host.Outcome State Fault Refusal :=
  scalarOp 0x12E f s (fun a b _ => minU a b)

/-- `smaxu` (R156). -/
def execSmaxu (f : Fields) (s : State) : Host.Outcome State Fault Refusal :=
  scalarOp 0x02F f s (fun a b _ => maxU a b)

/-- `smaxu` with an immediate (R156, 05 R98). -/
def execSmaxuImm (f : Fields) (s : State) : Host.Outcome State Fault Refusal :=
  scalarOp 0x12F f s (fun a b _ => maxU a b)

/-- `smulh` (R157). -/
def execSmulh (f : Fields) (s : State) : Host.Outcome State Fault Refusal :=
  scalarOp 0x023 f s (fun a b _ => mulHigh (tbit f.x 0) a b)

/-- `smulh` with an immediate (R157, 05 R98). -/
def execSmulhImm (f : Fields) (s : State) : Host.Outcome State Fault Refusal :=
  scalarOp 0x123 f s (fun a b _ => mulHigh false a b)

/-- `smad` (R157). -/
def execSmad (f : Fields) (s : State) : Host.Outcome State Fault Refusal :=
  scalarOp 0x024 f s (fun a b c => a * b + c)

/-- `smad` with an immediate (R157, 05 R98). -/
def execSmadImm (f : Fields) (s : State) : Host.Outcome State Fault Refusal :=
  scalarOp 0x124 f s (fun a b c => a * b + c)

/-- `snot` (R158). -/
def execSnot (f : Fields) (s : State) : Host.Outcome State Fault Refusal :=
  scalarOp 0x028 f s (fun a _ _ => ~~~a)

/-- `sclz` (R158). -/
def execSclz (f : Fields) (s : State) : Host.Outcome State Fault Refusal :=
  scalarOp 0x030 f s (fun a _ _ => BitVec.ofNat 32 (leadingZeros a))

/-- `spopc` (R158). -/
def execSpopc (f : Fields) (s : State) : Host.Outcome State Fault Refusal :=
  scalarOp 0x031 f s (fun a _ _ => BitVec.ofNat 32 (popCount a))

/-- `smov` (R158). -/
def execSmov (f : Fields) (s : State) : Host.Outcome State Fault Refusal :=
  scalarOp 0x034 f s (fun a _ _ => a)

/-- `sli` (R158). -/
def execSli (f : Fields) (s : State) : Host.Outcome State Fault Refusal :=
  scalarOp 0x035 f s (fun _ _ _ => f.x)

/-- `sbfe` (R159). -/
def execSbfe (f : Fields) (s : State) : Host.Outcome State Fault Refusal :=
  scalarOp 0x032 f s (fun a b _ => bitExtract (tbit f.x 0) a b)

/-- `sbfe` with an immediate (R159, 05 R98). -/
def execSbfeImm (f : Fields) (s : State) : Host.Outcome State Fault Refusal :=
  scalarOp 0x132 f s (fun a b _ => bitExtract false a b)

/-- `sbfi` (R159). -/
def execSbfi (f : Fields) (s : State) : Host.Outcome State Fault Refusal :=
  scalarOp 0x033 f s (fun a b c => bitInsert a b c)

/-- `sbfi` with an immediate (R159, 05 R98). -/
def execSbfiImm (f : Fields) (s : State) : Host.Outcome State Fault Refusal :=
  scalarOp 0x133 f s (fun a b c => bitInsert a b c)

/-- `ssel` (R160): A or B by the predicate's bit in the lowest lane that takes effect. -/
def execSsel (f : Fields) (s : State) : Host.Outcome State Fault Refusal :=
  runPart 0x036 f s (fun c =>
    let l := lowestLane (c.activeLanes f)
    single f c (.next (c.putS 0x036 f
      (if tbit (c.readP (fieldC f - 392)) l then c.opn 0x036 f 0 .int 0 else c.opn 0x036 f 1 .int 0))))

/-- `scmp` (R161): one comparison, written to every lane that takes effect. -/
def execScmp (f : Fields) (s : State) : Host.Outcome State Fault Refusal :=
  runPart 0x037 f s (fun c =>
    let r := cmpInt (bits f.x 0 4) (c.opn 0x037 f 0 .int 0) (c.opn 0x037 f 1 .int 0)
    .next (c.putP f (c.activeLanes f) (if r then BitVec.allOnes 64 else 0)))

end Sys2Proof.Machine
end

