-- ==== Sys2Proof/Machine/Vector.lean ====
section
/-! DEFINITION. Vector integer arithmetic (10 R187-R197). -/
namespace Sys2Proof.Machine

/-- A per-lane instruction of one 32-bit result (R187). -/
def vecOp (op : Nat) (k : OpKind) (tag : Tag) (f : Fields) (s : State) (h : Word → Word → Word → Word) :
    Host.Outcome State Fault Refusal :=
  runPart op f s (fun c =>
    .next (c.putV op f (perLane f c (fun l => h (c.opn op f 0 k l) (c.opn op f 1 k l) (c.opn op f 2 k l))) (fun _ => tag)))

/-- The lanes of a mask in which a test holds. -/
def lanesWhere (m : Lanes) (t : Nat → Bool) : Lanes := maskOf ((lanesOf m).filter t)

/-- Byte i of a word. -/
def byteOf (x : Word) (i : Nat) : Nat := bits x (8 * i) 8

/-- `vprmt` (R194). -/
def permute (a b c : Word) : Word :=
  let one (i : Nat) : Nat :=
    let sel := bits c (4 * i) 4
    let v := byteOf (if sel % 8 < 4 then a else b) (sel % 4)
    if 8 ≤ sel then (if 128 ≤ v then 0xFF else 0) else v
  BitVec.ofNat 32 (one 0 + 2 ^ 8 * one 1 + 2 ^ 16 * one 2 + 2 ^ 24 * one 3)

/-- `vdot4` (R195). -/
def dot4 (ua ub : Bool) (a b c : Word) : Word :=
  let e (u : Bool) (x : Word) (i : Nat) : Int := if u then (byteOf x i : Int) else signed 8 (byteOf x i)
  c + BitVec.ofInt 32 ((List.range 4).foldl (fun t i => t + e ua a i * e ub b i) 0)

/-- `vsad` (R195). -/
def sad4 (a b c : Word) : Word :=
  c + BitVec.ofNat 32 ((List.range 4).foldl (fun t i => t + ((byteOf a i : Int) - byteOf b i).natAbs) 0)

/-- I32, or U32 under an unsigned modifier (06 R110). -/
def intTag (u : Bool) : Tag := if u then tagU32 else tagI32

/-- `vadd` (R190). -/
def execVadd (f : Fields) (s : State) : Host.Outcome State Fault Refusal :=
  vecOp 0x040 .int tagI32 f s (fun a b _ => a + b)

/-- `vadd` with an immediate (R190). -/
def execVaddImm (f : Fields) (s : State) : Host.Outcome State Fault Refusal :=
  vecOp 0x140 .int tagI32 f s (fun a b _ => a + b)

/-- `vsub` (R190). -/
def execVsub (f : Fields) (s : State) : Host.Outcome State Fault Refusal :=
  vecOp 0x041 .int tagI32 f s (fun a b _ => a - b)

/-- `vsub` with an immediate (R190). -/
def execVsubImm (f : Fields) (s : State) : Host.Outcome State Fault Refusal :=
  vecOp 0x141 .int tagI32 f s (fun a b _ => a - b)

/-- `vmul` (R190). -/
def execVmul (f : Fields) (s : State) : Host.Outcome State Fault Refusal :=
  vecOp 0x042 .int tagI32 f s (fun a b _ => a * b)

/-- `vmul` with an immediate (R190). -/
def execVmulImm (f : Fields) (s : State) : Host.Outcome State Fault Refusal :=
  vecOp 0x142 .int tagI32 f s (fun a b _ => a * b)

/-- `vmulh` (R190). -/
def execVmulh (f : Fields) (s : State) : Host.Outcome State Fault Refusal :=
  vecOp 0x043 .int (intTag (tbit f.x 0)) f s (fun a b _ => mulHigh (tbit f.x 0) a b)

/-- `vmulh` with an immediate (R190). -/
def execVmulhImm (f : Fields) (s : State) : Host.Outcome State Fault Refusal :=
  vecOp 0x143 .int tagI32 f s (fun a b _ => mulHigh false a b)

/-- `vmad` (R192). -/
def execVmad (f : Fields) (s : State) : Host.Outcome State Fault Refusal :=
  vecOp 0x044 .int tagI32 f s (fun a b c => a * b + c)

/-- `vmad` with an immediate (R192). -/
def execVmadImm (f : Fields) (s : State) : Host.Outcome State Fault Refusal :=
  vecOp 0x144 .int tagI32 f s (fun a b c => a * b + c)

/-- `vand` (R190). -/
def execVand (f : Fields) (s : State) : Host.Outcome State Fault Refusal :=
  vecOp 0x045 .int tagAny f s (fun a b _ => a &&& b)

/-- `vand` with an immediate (R190). -/
def execVandImm (f : Fields) (s : State) : Host.Outcome State Fault Refusal :=
  vecOp 0x145 .int tagAny f s (fun a b _ => a &&& b)

/-- `vor` (R190). -/
def execVor (f : Fields) (s : State) : Host.Outcome State Fault Refusal :=
  vecOp 0x046 .int tagAny f s (fun a b _ => a ||| b)

/-- `vor` with an immediate (R190). -/
def execVorImm (f : Fields) (s : State) : Host.Outcome State Fault Refusal :=
  vecOp 0x146 .int tagAny f s (fun a b _ => a ||| b)

/-- `vxor` (R190). -/
def execVxor (f : Fields) (s : State) : Host.Outcome State Fault Refusal :=
  vecOp 0x047 .int tagAny f s (fun a b _ => a ^^^ b)

/-- `vxor` with an immediate (R190). -/
def execVxorImm (f : Fields) (s : State) : Host.Outcome State Fault Refusal :=
  vecOp 0x147 .int tagAny f s (fun a b _ => a ^^^ b)

/-- `vnot` (R191). -/
def execVnot (f : Fields) (s : State) : Host.Outcome State Fault Refusal :=
  vecOp 0x048 .int tagAny f s (fun a _ _ => ~~~a)

/-- `vshl` (R190). -/
def execVshl (f : Fields) (s : State) : Host.Outcome State Fault Refusal :=
  vecOp 0x049 .int tagAny f s (fun a b _ => a <<< bits b 0 5)

/-- `vshl` with an immediate (R190). -/
def execVshlImm (f : Fields) (s : State) : Host.Outcome State Fault Refusal :=
  vecOp 0x149 .int tagAny f s (fun a b _ => a <<< bits b 0 5)

/-- `vshr` (R190). -/
def execVshr (f : Fields) (s : State) : Host.Outcome State Fault Refusal :=
  vecOp 0x04A .int tagAny f s (fun a b _ => a >>> bits b 0 5)

/-- `vshr` with an immediate (R190). -/
def execVshrImm (f : Fields) (s : State) : Host.Outcome State Fault Refusal :=
  vecOp 0x14A .int tagAny f s (fun a b _ => a >>> bits b 0 5)

/-- `vsra` (R190). -/
def execVsra (f : Fields) (s : State) : Host.Outcome State Fault Refusal :=
  vecOp 0x04B .int tagAny f s (fun a b _ => a.sshiftRight (bits b 0 5))

/-- `vsra` with an immediate (R190). -/
def execVsraImm (f : Fields) (s : State) : Host.Outcome State Fault Refusal :=
  vecOp 0x14B .int tagAny f s (fun a b _ => a.sshiftRight (bits b 0 5))

/-- `vmin` (R190). -/
def execVmin (f : Fields) (s : State) : Host.Outcome State Fault Refusal :=
  vecOp 0x04C .int (intTag (tbit f.x 0)) f s (fun a b _ => if (tbit f.x 0) then minU a b else minS a b)

/-- `vmin` with an immediate (R190). -/
def execVminImm (f : Fields) (s : State) : Host.Outcome State Fault Refusal :=
  vecOp 0x14C .int tagI32 f s (fun a b _ => minS a b)

/-- `vmax` (R190). -/
def execVmax (f : Fields) (s : State) : Host.Outcome State Fault Refusal :=
  vecOp 0x04D .int (intTag (tbit f.x 0)) f s (fun a b _ => if (tbit f.x 0) then maxU a b else maxS a b)

/-- `vmax` with an immediate (R190). -/
def execVmaxImm (f : Fields) (s : State) : Host.Outcome State Fault Refusal :=
  vecOp 0x14D .int tagI32 f s (fun a b _ => maxS a b)

/-- `vabs` (R191). -/
def execVabs (f : Fields) (s : State) : Host.Outcome State Fault Refusal :=
  vecOp 0x04E .int tagI32 f s (fun a _ _ => if a.msb then 0 - a else a)

/-- `vneg` (R191). -/
def execVneg (f : Fields) (s : State) : Host.Outcome State Fault Refusal :=
  vecOp 0x04F .int tagI32 f s (fun a _ _ => 0 - a)

/-- `vclz` (R191). -/
def execVclz (f : Fields) (s : State) : Host.Outcome State Fault Refusal :=
  vecOp 0x050 .int tagI32 f s (fun a _ _ => BitVec.ofNat 32 (leadingZeros a))

/-- `vpopc` (R191). -/
def execVpopc (f : Fields) (s : State) : Host.Outcome State Fault Refusal :=
  vecOp 0x051 .int tagI32 f s (fun a _ _ => BitVec.ofNat 32 (popCount a))

/-- `vbfe` (R193). -/
def execVbfe (f : Fields) (s : State) : Host.Outcome State Fault Refusal :=
  vecOp 0x052 .int tagAny f s (fun a b _ => bitExtract (tbit f.x 0) a b)

/-- `vbfe` with an immediate (R193). -/
def execVbfeImm (f : Fields) (s : State) : Host.Outcome State Fault Refusal :=
  vecOp 0x152 .int tagAny f s (fun a b _ => bitExtract false a b)

/-- `vbfi` (R193). -/
def execVbfi (f : Fields) (s : State) : Host.Outcome State Fault Refusal :=
  vecOp 0x053 .int tagAny f s (fun a b c => bitInsert a b c)

/-- `vbfi` with an immediate (R193). -/
def execVbfiImm (f : Fields) (s : State) : Host.Outcome State Fault Refusal :=
  vecOp 0x153 .int tagAny f s (fun a b c => bitInsert a b c)

/-- `vprmt` (R194). -/
def execVprmt (f : Fields) (s : State) : Host.Outcome State Fault Refusal :=
  vecOp 0x056 .int tagAny f s (fun a b c => permute a b c)

/-- `vprmt` with an immediate (R194). -/
def execVprmtImm (f : Fields) (s : State) : Host.Outcome State Fault Refusal :=
  vecOp 0x156 .int tagAny f s (fun a b c => permute a b c)

/-- `vdot4` (R195). -/
def execVdot4 (f : Fields) (s : State) : Host.Outcome State Fault Refusal :=
  vecOp 0x057 .int tagI32 f s (fun a b c => dot4 (tbit f.x 0) (tbit f.x 1) a b c)

/-- `vdot4` with an immediate (R195). -/
def execVdot4Imm (f : Fields) (s : State) : Host.Outcome State Fault Refusal :=
  vecOp 0x157 .int tagI32 f s (fun a b c => dot4 false false a b c)

/-- `vsad` (R195). -/
def execVsad (f : Fields) (s : State) : Host.Outcome State Fault Refusal :=
  vecOp 0x058 .int tagI32 f s (fun a b c => sad4 a b c)

/-- `vsad` with an immediate (R195). -/
def execVsadImm (f : Fields) (s : State) : Host.Outcome State Fault Refusal :=
  vecOp 0x158 .int tagI32 f s (fun a b c => sad4 a b c)

/-- `vmov` (R191): the source's tag. -/
def execVmov (f : Fields) (s : State) : Host.Outcome State Fault Refusal :=
  runPart 0x055 f s (fun c =>
    .next (c.putV 0x055 f (perLane f c (fun l => c.opn 0x055 f 0 .int l)) (fun q => c.opnTag 0x055 f 0 q)))

/-- `vmov` of an immediate (R191, R189): tag ANY. -/
def execVmovImm (f : Fields) (s : State) : Host.Outcome State Fault Refusal :=
  vecOp 0x155 .int tagAny f s (fun a _ _ => a)

/-- `vsel` (R196). -/
def execVsel (f : Fields) (s : State) : Host.Outcome State Fault Refusal :=
  runPart 0x054 f s (fun c =>
    let p := c.readP (fieldC f - 392)
    .next (c.putV 0x054 f
      (perLane f c (fun l => if tbit p l then c.opn 0x054 f 0 .int l else c.opn 0x054 f 1 .int l))
      (fun q => if c.opnTag 0x054 f 0 q = c.opnTag 0x054 f 1 q then c.opnTag 0x054 f 0 q else tagAny)))

/-- `vcmp` (R197). -/
def execVcmp (f : Fields) (s : State) : Host.Outcome State Fault Refusal :=
  runPart 0x059 f s (fun c =>
    let act := c.activeLanes f
    .next (c.putP f act (lanesWhere act (fun l =>
      cmpInt (bits f.x 0 4) (c.opn 0x059 f 0 .int l) (c.opn 0x059 f 1 .int l)))))

/-- `vretag` (R206): A's bits, the tag of MOD[4:0]. -/
def execVretag (f : Fields) (s : State) : Host.Outcome State Fault Refusal :=
  vecOp 0x05F .int (BitVec.ofNat 5 (bits f.x 0 5)) f s (fun a _ _ => a)

end Sys2Proof.Machine
end

