-- ==== Sys2Proof/Machine/VecFloat.lean ====
section
/-! DEFINITION. Vector floating point (10 R198-R203). -/
namespace Sys2Proof.Machine

/-- The rounding mode of an arithmetic instruction: MOD[2:0], RN in the immediate forms. -/
def fpMode (op : Nat) (f : Fields) : Nat := modField (opInfo op).x f.x % 8

/-- The linear thread index of a lane (08 R142). -/
def Cx.tid (c : Cx) (l : Nat) : Word := BitVec.ofNat 32 (c.w.index * c.w.width + l)

/-- The random number of RS for element e of a lane, from the source bits (08 R142). -/
def Cx.rs (c : Cx) (xbits : Word) (l e : Nat) : Word := rsHash xbits (c.tid l) c.p.pc (BitVec.ofNat 32 e)

/-- An FP32 instruction: one exact result, rounded once (R198). -/
def fpOp (op : Nat) (f : Fields) (s : State) (h : FVal → FVal → FVal → FVal) : Host.Outcome State Fault Refusal :=
  vecOp op .f32 tagF32 f s (fun a b c => toF32 (fpMode op f) (h (f32 a) (f32 b) (f32 c)))

/-- Element e of a packed register (08 R136). -/
def elem16 (x : Word) (e : Nat) : Nat := bits x (16 * e) 16
def pack16 (lo hi : Nat) : Word := BitVec.ofNat 32 (lo % 2 ^ 16 + hi * 2 ^ 16)

/-- A packed instruction on two 16-bit elements (R202). -/
def packOp (op : Nat) (fmt : Fmt) (f : Fields) (s : State) (h : FVal → FVal → FVal → FVal) :
    Host.Outcome State Fault Refusal :=
  let k := if fmt = fp16 then OpKind.f16 else OpKind.b16
  let tag := if fmt = fp16 then tagF16x2 else tagB16x2
  runPart op f s (fun c =>
    let one (l e : Nat) : Nat :=
      let a := elem16 (c.opn op f 0 k l) e
      let b := elem16 (c.opn op f 1 k l) e
      let d := elem16 (c.opn op f 2 k l) e
      fmt.round (fpMode op f) (c.rs (BitVec.ofNat 32 a) l e) false (h (fmt.decode a) (fmt.decode b) (fmt.decode d))
    .next (c.putV op f (perLane f c (fun l => pack16 (one l 0) (one l 1))) (fun _ => tag)))

/-- Packed `vfmin` and `vfmax` (R199, R202). -/
def packSelect (op : Nat) (fmt : Fmt) (isMax : Bool) (f : Fields) (s : State) : Host.Outcome State Fault Refusal :=
  let k := if fmt = fp16 then OpKind.f16 else OpKind.b16
  vecOp op k (if fmt = fp16 then tagF16x2 else tagB16x2) f s (fun a b _ =>
    pack16 (fmt.select isMax (elem16 a 0) (elem16 b 0)) (fmt.select isMax (elem16 a 1) (elem16 b 1)))

/-- Packed `vfcmp` (R200, R202): one bit per lane, chosen by MOD[5:4]. -/
def packCompare (op : Nat) (fmt : Fmt) (f : Fields) (s : State) : Host.Outcome State Fault Refusal :=
  let k := if fmt = fp16 then OpKind.f16 else OpKind.b16
  runPart op f s (fun c =>
    let act := c.activeLanes f
    let one (l e : Nat) : Bool :=
      cmpFloat (bits f.x 0 4) (fmt.decode (elem16 (c.opn op f 0 k l) e)) (fmt.decode (elem16 (c.opn op f 1 k l) e))
    .next (c.putP f act (lanesWhere act (fun l =>
      match bits f.x 4 2 with
      | 0 => one l 0
      | 1 => one l 1
      | 2 => one l 0 && one l 1
      | _ => one l 0 || one l 1))))

/-- A x 2^B, B a signed integer (R198). -/
def fpScale (mode : Nat) (a b : Word) : Word := toF32 mode ((f32 a).scale b.toInt)

/-- `vfclass` (R201). -/
def fpClass (a : Word) : Word :=
  let neg := a.msb
  let i := match f32 a with
    | .nan => if tbit a 22 then 9 else 8
    | .inf _ => if neg then 0 else 7
    | .num _ m _ =>
      if m = 0 then (if neg then 3 else 4)
      else if m < 2 ^ 23 then (if neg then 2 else 5)
      else (if neg then 1 else 6)
  BitVec.ofNat 32 (2 ^ i)

/-- `vfexp` (R201). -/
def fpExp (a : Word) : Word :=
  match f32 a with
  | .nan => 0x7FFFFFFE
  | .inf _ => 0x7FFFFFFF
  | .num _ m e => if m = 0 then 0x80000000 else BitVec.ofInt 32 (Nat.log2 m + e)

/-- `vfrnd` (R201): an integral value with A's sign. -/
def fpRound (mode : Nat) (a : Word) : Word :=
  match f32 a with
  | .nan => f32Nan
  | .inf neg => f32Inf neg
  | .num neg m e => if 0 ≤ e then a else toF32 0 (.num neg (roundInt mode neg 0 m e false) 0)

/-- `vfadd` (R198). -/
def execVfadd (f : Fields) (s : State) : Host.Outcome State Fault Refusal :=
  fpOp 0x080 f s (fun a b _ => a.add (fpMode 0x080 f) b)

/-- `vfadd` with an immediate (R198). -/
def execVfaddImm (f : Fields) (s : State) : Host.Outcome State Fault Refusal :=
  fpOp 0x180 f s (fun a b _ => a.add (fpMode 0x180 f) b)

/-- `vfsub` (R198). -/
def execVfsub (f : Fields) (s : State) : Host.Outcome State Fault Refusal :=
  fpOp 0x081 f s (fun a b _ => a.add (fpMode 0x081 f) b.neg)

/-- `vfsub` with an immediate (R198). -/
def execVfsubImm (f : Fields) (s : State) : Host.Outcome State Fault Refusal :=
  fpOp 0x181 f s (fun a b _ => a.add (fpMode 0x181 f) b.neg)

/-- `vfmul` (R198). -/
def execVfmul (f : Fields) (s : State) : Host.Outcome State Fault Refusal :=
  fpOp 0x082 f s (fun a b _ => a.mul b)

/-- `vfmul` with an immediate (R198). -/
def execVfmulImm (f : Fields) (s : State) : Host.Outcome State Fault Refusal :=
  fpOp 0x182 f s (fun a b _ => a.mul b)

/-- `vfma` (R198). -/
def execVfma (f : Fields) (s : State) : Host.Outcome State Fault Refusal :=
  fpOp 0x083 f s (fun a b c => (a.mul b).add (fpMode 0x083 f) c)

/-- `vfma` with an immediate (R198). -/
def execVfmaImm (f : Fields) (s : State) : Host.Outcome State Fault Refusal :=
  fpOp 0x183 f s (fun a b c => (a.mul b).add (fpMode 0x183 f) c)

/-- `vfmin` (R199). -/
def execVfmin (f : Fields) (s : State) : Host.Outcome State Fault Refusal :=
  vecOp 0x084 .f32 tagF32 f s (fun a b _ => BitVec.ofNat 32 (fp32.select false a.toNat b.toNat))

/-- `vfmin` with an immediate (R199). -/
def execVfminImm (f : Fields) (s : State) : Host.Outcome State Fault Refusal :=
  vecOp 0x184 .f32 tagF32 f s (fun a b _ => BitVec.ofNat 32 (fp32.select false a.toNat b.toNat))

/-- `vfmax` (R199). -/
def execVfmax (f : Fields) (s : State) : Host.Outcome State Fault Refusal :=
  vecOp 0x085 .f32 tagF32 f s (fun a b _ => BitVec.ofNat 32 (fp32.select true a.toNat b.toNat))

/-- `vfmax` with an immediate (R199). -/
def execVfmaxImm (f : Fields) (s : State) : Host.Outcome State Fault Refusal :=
  vecOp 0x185 .f32 tagF32 f s (fun a b _ => BitVec.ofNat 32 (fp32.select true a.toNat b.toNat))

/-- `vfscale` (R198): B is an integer. -/
def execVfscale (f : Fields) (s : State) : Host.Outcome State Fault Refusal :=
  runPart 0x088 f s (fun c =>
    .next (c.putV 0x088 f (perLane f c (fun l =>
      fpScale (fpMode 0x088 f) (c.opn 0x088 f 0 .f32 l) (c.opn 0x088 f 1 .int l))) (fun _ => tagF32)))

/-- `vfscale` with an immediate (R198): B is an integer. -/
def execVfscaleImm (f : Fields) (s : State) : Host.Outcome State Fault Refusal :=
  runPart 0x188 f s (fun c =>
    .next (c.putV 0x188 f (perLane f c (fun l =>
      fpScale (fpMode 0x188 f) (c.opn 0x188 f 0 .f32 l) (c.opn 0x188 f 1 .int l))) (fun _ => tagF32)))

/-- `vfcmp` (R200). -/
def execVfcmp (f : Fields) (s : State) : Host.Outcome State Fault Refusal :=
  runPart 0x086 f s (fun c =>
    let act := c.activeLanes f
    .next (c.putP f act (lanesWhere act (fun l =>
      cmpFloat (bits f.x 0 4) (f32 (c.opn 0x086 f 0 .f32 l)) (f32 (c.opn 0x086 f 1 .f32 l))))))

/-- `vfclass` (R201). -/
def execVfclass (f : Fields) (s : State) : Host.Outcome State Fault Refusal :=
  vecOp 0x087 .f32 tagI32 f s (fun a _ _ => fpClass a)

/-- `vfexp` (R201). -/
def execVfexp (f : Fields) (s : State) : Host.Outcome State Fault Refusal :=
  vecOp 0x089 .f32 tagI32 f s (fun a _ _ => fpExp a)

/-- `vfrnd` (R201). -/
def execVfrnd (f : Fields) (s : State) : Host.Outcome State Fault Refusal :=
  vecOp 0x08A .f32 tagF32 f s (fun a _ _ => fpRound (fpMode 0x08A f) a)

/-- `vrcp` (R203). -/
def execVrcp (f : Fields) (s : State) : Host.Outcome State Fault Refusal :=
  vecOp 0x08B .f32 tagF32 f s (fun a _ _ => sfuRcp a)

/-- `vrsq` (R203). -/
def execVrsq (f : Fields) (s : State) : Host.Outcome State Fault Refusal :=
  vecOp 0x08C .f32 tagF32 f s (fun a _ _ => sfuRsq a)

/-- `vsqrt` (R203). -/
def execVsqrt (f : Fields) (s : State) : Host.Outcome State Fault Refusal :=
  vecOp 0x08D .f32 tagF32 f s (fun a _ _ => sfuSqrt a)

/-- `vexp2` (R203). -/
def execVexp2 (f : Fields) (s : State) : Host.Outcome State Fault Refusal :=
  vecOp 0x08E .f32 tagF32 f s (fun a _ _ => sfuExp2 a)

/-- `vlog2` (R203). -/
def execVlog2 (f : Fields) (s : State) : Host.Outcome State Fault Refusal :=
  vecOp 0x08F .f32 tagF32 f s (fun a _ _ => sfuLog2 a)

/-- `vsin` (R203). -/
def execVsin (f : Fields) (s : State) : Host.Outcome State Fault Refusal :=
  vecOp 0x090 .f32 tagF32 f s (fun a _ _ => sfuSin a)

/-- `vcos` (R203). -/
def execVcos (f : Fields) (s : State) : Host.Outcome State Fault Refusal :=
  vecOp 0x091 .f32 tagF32 f s (fun a _ _ => sfuCos a)

/-- `vfadd.h2` (R202). -/
def execVfaddH2 (f : Fields) (s : State) : Host.Outcome State Fault Refusal :=
  packOp 0x098 fp16 f s (fun a b _ => a.add (fpMode 0x098 f) b)

/-- `vfadd.h2` with an immediate (R202). -/
def execVfaddH2Imm (f : Fields) (s : State) : Host.Outcome State Fault Refusal :=
  packOp 0x198 fp16 f s (fun a b _ => a.add (fpMode 0x198 f) b)

/-- `vfsub.h2` (R202). -/
def execVfsubH2 (f : Fields) (s : State) : Host.Outcome State Fault Refusal :=
  packOp 0x099 fp16 f s (fun a b _ => a.add (fpMode 0x099 f) b.neg)

/-- `vfsub.h2` with an immediate (R202). -/
def execVfsubH2Imm (f : Fields) (s : State) : Host.Outcome State Fault Refusal :=
  packOp 0x199 fp16 f s (fun a b _ => a.add (fpMode 0x199 f) b.neg)

/-- `vfmul.h2` (R202). -/
def execVfmulH2 (f : Fields) (s : State) : Host.Outcome State Fault Refusal :=
  packOp 0x09A fp16 f s (fun a b _ => a.mul b)

/-- `vfmul.h2` with an immediate (R202). -/
def execVfmulH2Imm (f : Fields) (s : State) : Host.Outcome State Fault Refusal :=
  packOp 0x19A fp16 f s (fun a b _ => a.mul b)

/-- `vfma.h2` (R202). -/
def execVfmaH2 (f : Fields) (s : State) : Host.Outcome State Fault Refusal :=
  packOp 0x09B fp16 f s (fun a b c => (a.mul b).add (fpMode 0x09B f) c)

/-- `vfma.h2` with an immediate (R202). -/
def execVfmaH2Imm (f : Fields) (s : State) : Host.Outcome State Fault Refusal :=
  packOp 0x19B fp16 f s (fun a b c => (a.mul b).add (fpMode 0x19B f) c)

/-- `vfmin.h2` (R199, R202). -/
def execVfminH2 (f : Fields) (s : State) : Host.Outcome State Fault Refusal :=
  packSelect 0x09C fp16 false f s

/-- `vfmin.h2` with an immediate (R199, R202). -/
def execVfminH2Imm (f : Fields) (s : State) : Host.Outcome State Fault Refusal :=
  packSelect 0x19C fp16 false f s

/-- `vfmax.h2` (R199, R202). -/
def execVfmaxH2 (f : Fields) (s : State) : Host.Outcome State Fault Refusal :=
  packSelect 0x09D fp16 true f s

/-- `vfmax.h2` with an immediate (R199, R202). -/
def execVfmaxH2Imm (f : Fields) (s : State) : Host.Outcome State Fault Refusal :=
  packSelect 0x19D fp16 true f s

/-- `vfcmp.h2` (R202). -/
def execVfcmpH2 (f : Fields) (s : State) : Host.Outcome State Fault Refusal :=
  packCompare 0x09E fp16 f s

/-- `vfadd.b2` (R202). -/
def execVfaddB2 (f : Fields) (s : State) : Host.Outcome State Fault Refusal :=
  packOp 0x0A0 bf16 f s (fun a b _ => a.add (fpMode 0x0A0 f) b)

/-- `vfadd.b2` with an immediate (R202). -/
def execVfaddB2Imm (f : Fields) (s : State) : Host.Outcome State Fault Refusal :=
  packOp 0x1A0 bf16 f s (fun a b _ => a.add (fpMode 0x1A0 f) b)

/-- `vfsub.b2` (R202). -/
def execVfsubB2 (f : Fields) (s : State) : Host.Outcome State Fault Refusal :=
  packOp 0x0A1 bf16 f s (fun a b _ => a.add (fpMode 0x0A1 f) b.neg)

/-- `vfsub.b2` with an immediate (R202). -/
def execVfsubB2Imm (f : Fields) (s : State) : Host.Outcome State Fault Refusal :=
  packOp 0x1A1 bf16 f s (fun a b _ => a.add (fpMode 0x1A1 f) b.neg)

/-- `vfmul.b2` (R202). -/
def execVfmulB2 (f : Fields) (s : State) : Host.Outcome State Fault Refusal :=
  packOp 0x0A2 bf16 f s (fun a b _ => a.mul b)

/-- `vfmul.b2` with an immediate (R202). -/
def execVfmulB2Imm (f : Fields) (s : State) : Host.Outcome State Fault Refusal :=
  packOp 0x1A2 bf16 f s (fun a b _ => a.mul b)

/-- `vfma.b2` (R202). -/
def execVfmaB2 (f : Fields) (s : State) : Host.Outcome State Fault Refusal :=
  packOp 0x0A3 bf16 f s (fun a b c => (a.mul b).add (fpMode 0x0A3 f) c)

/-- `vfma.b2` with an immediate (R202). -/
def execVfmaB2Imm (f : Fields) (s : State) : Host.Outcome State Fault Refusal :=
  packOp 0x1A3 bf16 f s (fun a b c => (a.mul b).add (fpMode 0x1A3 f) c)

/-- `vfmin.b2` (R199, R202). -/
def execVfminB2 (f : Fields) (s : State) : Host.Outcome State Fault Refusal :=
  packSelect 0x0A4 bf16 false f s

/-- `vfmin.b2` with an immediate (R199, R202). -/
def execVfminB2Imm (f : Fields) (s : State) : Host.Outcome State Fault Refusal :=
  packSelect 0x1A4 bf16 false f s

/-- `vfmax.b2` (R199, R202). -/
def execVfmaxB2 (f : Fields) (s : State) : Host.Outcome State Fault Refusal :=
  packSelect 0x0A5 bf16 true f s

/-- `vfmax.b2` with an immediate (R199, R202). -/
def execVfmaxB2Imm (f : Fields) (s : State) : Host.Outcome State Fault Refusal :=
  packSelect 0x1A5 bf16 true f s

/-- `vfcmp.b2` (R202). -/
def execVfcmpB2 (f : Fields) (s : State) : Host.Outcome State Fault Refusal :=
  packCompare 0x0A6 bf16 f s

end Sys2Proof.Machine
end

