-- ==== Sys2Proof/Machine/Convert.lean ====
section
/-! DEFINITION. Conversion and block quantisation (10 R204-R210). -/
namespace Sys2Proof.Machine

/-- `vcvt` of one lane (R205): the elements of A at PLACE, or into D at PLACE. -/
def convertLane (m : Nat) (h : Word → Nat → Word) (a d : Word) : Word :=
  let to_ := m % 32
  let from_ := m / 32 % 32
  let mode := m / 1024 % 8
  let xsat := (m / 8192) % 2 = 1
  let place := m / 16384 % 8
  let src := elemOf from_
  let dst := elemOf to_
  let nf := 32 / src.width
  let nt := 32 / dst.width
  let one (i j : Nat) : Nat :=
    let x := bits a (src.width * i) src.width
    convertElem src dst mode xsat (h (BitVec.ofNat 32 x) j) x
  if nf ≤ nt then
    (List.range nf).foldl (fun d i => putBits d (dst.width * (place * nf + i)) dst.width (one i (place * nf + i))) d
  else BitVec.ofNat 32 (joinBits dst.width ((List.range nt).map (fun i => one (place * nt + i) i)))

/-- An inline constant in every element of a floating-point format, rounded to nearest even and saturated (04 R74). -/
def constElems (b : Fmt) (n : Nat) : Word :=
  BitVec.ofNat 32 (joinBits b.w (List.replicate (32 / b.w) (b.round 0 0 true (ofInt ((n : Int) - 1792)))))

/-- Operand A of `vcvt` in a lane: an inline constant takes the FROM format. -/
def Cx.convertSource (c : Cx) (f : Fields) (l : Nat) : Word :=
  match elemOf (modOf f / 32 % 32) with
  | .flt b => if !f.al && 384 ≤ f.a.toNat then constElems b f.a.toNat else c.opn 0x05A f 0 .int l
  | .int _ _ => c.opn 0x05A f 0 .int l

/-- `vcvt` (R204, R205). When D has more elements than A, its others keep their bits; where D is `_` there are
none to keep, and those of the latch are a free value (log 2). -/
def execVcvt (f : Fields) (s : State) : Host.Outcome State Fault Refusal :=
  runPart 0x05A f s (fun c =>
    let m := modOf f
    let old (l : Nat) : Word := if f.dn then Config.freeWord c.s.freeCount l else c.readV f.d.toNat l
    let c1 := c.putV 0x05A f (perLane f c (fun l =>
      convertLane m (fun x e => c.rs x l e) (c.convertSource f l) (old l))) (fun _ => BitVec.ofNat 5 m)
    .next (if f.dn then { c1 with s := { c1.s with freeCount := c1.s.freeCount + 1 } } else c1))

/-- Registers from a first one, in a lane, as one bit stream. -/
def Cx.runBits (c : Cx) (first n l : Nat) : Nat := joinBits 32 ((List.range n).map (fun i => (c.readV (first + i) l).toNat))

/-- Write a bit stream into registers from a first one, lane by lane, with a tag. -/
def Cx.writeRun (c : Cx) (first n : Nat) (vals : List (Nat × Nat)) (tag : Tag) : Cx :=
  (List.range n).foldl (fun c i =>
    c.writeV (first + i) (vals.map (fun x => (x.1, BitVec.ofNat 32 (x.2 / 2 ^ (32 * i))))) (fun _ => tag)) c

/-- Element width of a value run and its format. -/
def runFmt (t : Nat) : Fmt := if t = 0x01 then fp32 else if t = 0x02 then fp16 else bf16

/-- The values of a block's value run: bit patterns (R207). -/
def runCodes (t count x : Nat) : List Nat := splitBits (runFmt t).w count x

/-- `vpack` (R208, R209): per lane, the element stream and the scale. `mx` selects MX. -/
def packBlock (mx : Bool) (op : Nat) (f : Fields) (s : State) : Host.Outcome State Fault Refusal :=
  runPart op f s (fun c =>
    let m := modOf f
    let from_ := m % 32
    let to_ := m / 32 % 32
    let mode := m / 1024 % 8
    let spos := m / 8192 % 4
    let n := if mx then 32 else 16
    let w := if mx then (mxFmt to_).w else pxM to_ + 1
    let lane (l : Nat) : Nat × Nat :=
      let codes := runCodes from_ n (c.runBits f.a.toNat (valueRun mx from_) l)
      let xs := codes.map (runFmt from_).decode
      let h (j : Nat) : Word := c.rs (BitVec.ofNat 32 (codes.getD j 0)) l j
      let r := if mx then mxQuant to_ mode h xs else pxQuant to_ mode h xs
      (r.1, joinBits w r.2)
    let rs := (lanesOf (c.activeLanes f)).map (fun l => (l, lane l))
    let run := elemRun to_
    let d := f.d.toNat
    let merge (l scale : Nat) : Word :=
      let old := c.readV (d + run) l
      if mx then putBits old (8 * spos) 8 scale else putBits old (16 * spos) 16 scale
    let c1 := c.writeRun d run (rs.map (fun x => (x.1, x.2.2))) (BitVec.ofNat 5 to_)
    .next (c1.writeV (d + run) (rs.map (fun x => (x.1, merge x.1 x.2.1)))
      (fun _ => if mx then tagE8m0x4 else tagPxScale)))

/-- `vunpack` (R208, R210): per lane, the values of the block in TO. -/
def unpackBlock (mx : Bool) (op : Nat) (f : Fields) (s : State) : Host.Outcome State Fault Refusal :=
  runPart op f s (fun c =>
    let m := modOf f
    let from_ := m % 32
    let to_ := m / 32 % 32
    let mode := m / 1024 % 8
    let spos := m / 8192 % 4
    let n := if mx then 32 else 16
    let w := if mx then (mxFmt from_).w else pxM from_ + 1
    let run := elemRun from_
    let fmt := runFmt to_
    let lane (l : Nat) : Nat :=
      let codes := splitBits w n (c.runBits f.a.toNat run l)
      let sreg := c.readV (f.a.toNat + run) l
      let scale := if mx then bits sreg (8 * spos) 8 else bits sreg (16 * spos) 16
      joinBits fmt.w (codes.mapIdx (fun j x =>
        fmt.round mode (c.rs (BitVec.ofNat 32 x) l j) false
          (if mx then mxValue from_ scale x else pxValue from_ scale j x)))
    let rs := (lanesOf (c.activeLanes f)).map (fun l => (l, lane l))
    .next (c.writeRun f.d.toNat (valueRun mx to_) rs (BitVec.ofNat 5 to_)))

/-- `vpack.mx` (R209). -/
def execVpackMx (f : Fields) (s : State) : Host.Outcome State Fault Refusal := packBlock true 0x05B f s

/-- `vpack.px` (R209). -/
def execVpackPx (f : Fields) (s : State) : Host.Outcome State Fault Refusal := packBlock false 0x05C f s

/-- `vunpack.mx` (R210). -/
def execVunpackMx (f : Fields) (s : State) : Host.Outcome State Fault Refusal := unpackBlock true 0x05D f s

/-- `vunpack.px` (R210). -/
def execVunpackPx (f : Fields) (s : State) : Host.Outcome State Fault Refusal := unpackBlock false 0x05E f s

end Sys2Proof.Machine
end

