-- ==== Sys2Proof/Machine/Engine.lean ====
section
/-! DEFINITION. Engine jobs, futures, bobbins and range locks as instructions see them (13 R261-R278). -/
namespace Sys2Proof.Machine

/-! Futures (R268). -/

def getFut (k : Core) (i : Nat) : Future := kget {} k.futs i
def setFut (k : Core) (i : Nat) (x : Future) : Core := { k with futs := kset {} k.futs i x }

/-- A free entry from `lo` below `hi`: the one that completed first, never-used entries before all others by
number (log 7). -/
def freeFut (k : Core) (lo hi : Nat) : Option Nat :=
  let free := ((List.range (hi - lo)).map (lo + ·)).filter (fun i => (getFut k i).phase != 1)
  (sortBy (fun a b => decide ((getFut k a).order < (getFut k b).order)) free).head?

/-- Allocate an entry: GEN + 1, pending. -/
def allocFut (k : Core) (i : Nat) (owner : Rgn) (serial scope : Nat) : Core :=
  setFut k i { gen := (getFut k i).gen + 1, phase := 1, owner := owner, serial := serial, scope := scope }

/-- The entries of waves that have ended with their workgroup return to the table. -/
def freeFuts (k : Core) (serials : List Nat) : Core :=
  k.futs.foldl (fun k e => if serials.contains e.2.serial && e.2.phase != 0 then setFut k e.1 { e.2 with phase := 0, launches := [] } else k) k

/-- An entry becomes COMPLETE. -/
def completeFut (k : Core) (i : Nat) (status : Byte) (bytes : Nat) : Core :=
  let f := { getFut k i with phase := 2, status := status, bytes := BitVec.ofNat 32 bytes, order := k.futOrder + 1 }
  setFut { k with futOrder := k.futOrder + 1 } i f

/-- A handle (06 R105). -/
def handle (state slot : Nat) (gen : Half) : Word := BitVec.ofNat 32 (state * 2 ^ 30 + slot * 2 ^ 16 + gen.toNat)

/-- What a handle reads: STATE, CODE and the bytes done; a stale handle reads COMPLETE (R268). -/
def readHandle (k : Core) (h : Word) : Nat × Byte × Word :=
  if bits h 30 2 = 0 then (0, 0, 0)
  else
    let f := getFut k (bits h 16 8)
    if f.gen.toNat != bits h 0 16 then (2, 0xC4, 0)
    else if f.phase = 1 then (1, 0, f.bytes) else (2, f.status, f.bytes)

/-- Scope at which a wait on a handle acquires; the result of a stale handle is gone, and the widest stands. -/
def handleScope (k : Core) (h : Word) : Nat :=
  let f := getFut k (bits h 16 8)
  if f.gen.toNat = bits h 0 16 then f.scope else 5

/-! Bobbins (R274, R275). -/

/-- One arrival on the sixteen bytes of a bobbin. -/
def bobbinArrive (bs : List Byte) (n : Nat) (status : Byte) (flags : Nat) : List Byte :=
  let target := field bs 0 3
  let arrived := (field bs 4 7 + n) % 2 ^ 32
  let gen := field bs 8 11
  let w3 : Word := BitVec.ofNat 32 (field bs 12 15)
  let w3a := if status != 0 && !tbit w3 4 then putBits (putBits w3 24 8 status.toNat) 4 1 1 else w3
  let w3b := w3a ||| BitVec.ofNat 32 (flags % 16)
  let turns := if target = 0 then 0 else arrived / target
  toBytes 4 target ++ toBytes 4 (arrived - turns * target) ++ toBytes 4 ((gen + turns) % 2 ^ 32) ++ toBytes 4 w3b.toNat

/-- An arrival at an absolute SRAM address, indivisible at the bank (R275). -/
def arriveAt (k : Core) (a n : Nat) (status : Byte) (flags : Nat) : Core :=
  sramWrite k a (bobbinArrive (readBytes k.sram a 16) n status flags)

/-! Jobs: parameters and ranges (R263, R264, R278). -/

def Job.par (j : Job) (i : Nat) : Nat := (j.params.getD i 0).toNat
def Job.pair (j : Job) (i : Nat) : Dword := j.params.getD (i + 1) 0 ++ j.params.getD i 0

/-- Lock entries that a function needs; none for a code without a function. -/
def fnLocks (fn : Nat) : Option Nat :=
  match fn with
  | 0x00 | 0x01 | 0x02 | 0x03 | 0x11 | 0x28 => some 2
  | 0x04 | 0x10 | 0x20 | 0x21 | 0x22 => some 1
  | 0x05 => some 3
  | 0x18 => some 0
  | _ => none

/-- The parameter word that holds BOB. -/
def bobWord (fn : Nat) : Option Nat :=
  match fn with
  | 0x00 | 0x01 | 0x03 | 0x04 => some 4
  | 0x02 | 0x05 => some 7
  | 0x20 | 0x21 | 0x22 | 0x28 => some 5
  | _ => none

/-- The bobbin's scratchpad offset. -/
def Job.bob (j : Job) : Option Nat :=
  (bobWord j.fn).bind (fun i => let b := j.par i / 65536; if b = 0xFFFF then none else some (16 * b))

/-- The bobbin lies inside the window. -/
def Job.bobOk (j : Job) : Bool := (j.bob.map (fun b => decide (b + 16 ≤ j.scratch))).getD true

/-- One range that a job reads or writes: a scratchpad offset or a virtual address, its bytes and alignment. -/
structure Span where
  sp : Bool
  base : Int
  len : Nat
  align : Nat := 4
  deriving DecidableEq, Repr

def Job.memSpan (j : Job) (i len align : Nat) : Span := ⟨false, ((j.pair i).toNat : Int), len, align⟩
def Job.spSpan (j : Job) (i len : Nat) : Span := ⟨true, (j.par i : Int), len, 4⟩

/-- Element widths of FROM and TO of a converting copy. -/
def Job.fromBits (j : Job) : Nat := (elemOf (j.par 4 % 32)).width
def Job.toBits (j : Job) : Nat := (elemOf (j.par 4 / 32 % 32)).width
def Job.keySize (j : Job) : Nat := if j.par 5 % 2 = 1 then 8 else 4
/-- DIR of the two-dimensional and the converting copy: out of the scratchpad. -/
def Job.dirOut (j : Job) : Bool := if j.fn = 0x02 then j.par 7 % 2 = 1 else (j.par 4).testBit 14

/-- The smallest range that covers every row of a strided side. -/
def rowsSpan (sp : Bool) (base : Int) (rows len : Nat) (stride : Int) : Span :=
  if rows = 0 || len = 0 then ⟨sp, base, 0, 4⟩
  else
    let last := ((rows : Int) - 1) * stride
    ⟨sp, base + min 0 last, last.natAbs + len, 4⟩

/-- The ranges on this device, sources first (R278). -/
def Job.spans (j : Job) : List Span :=
  match j.fn with
  | 0x00 => [j.memSpan 0 (j.par 3) 4, j.spSpan 2 (j.par 3)]
  | 0x01 => [j.spSpan 2 (j.par 3), j.memSpan 0 (j.par 3) 4]
  | 0x02 =>
    let g := rowsSpan false ((j.pair 0).toNat : Int) (j.par 4) (j.par 3) (signed 32 (j.par 5))
    let p := rowsSpan true (j.par 2 : Int) (j.par 4) (j.par 3) (j.par 6 : Int)
    if j.dirOut then [p, g] else [g, p]
  | 0x03 =>
    let inB := j.par 3 * j.fromBits / 8
    let outB := j.par 3 * j.toBits / 8
    if j.dirOut then [j.spSpan 2 inB, j.memSpan 0 outB 4] else [j.memSpan 0 inB 4, j.spSpan 2 outB]
  | 0x04 => [if j.par 4 % 2 = 1 then j.spSpan 0 (j.par 2) else j.memSpan 0 (j.par 2) 4]
  | 0x05 => [j.memSpan 0 (j.par 3 * j.par 2) 4, j.spSpan 4 (4 * j.par 5), j.spSpan 6 (j.par 5 * j.par 2)]
  | 0x10 => [j.memSpan 0 (j.par 4 * j.keySize) j.keySize]
  | 0x11 => [j.memSpan 0 (j.par 4 * j.keySize) j.keySize, j.memSpan 2 (j.par 4 * 4) j.keySize]
  | 0x20 => [j.memSpan 2 (j.par 4) 4]
  | 0x21 => [if j.par 5 % 2 = 1 then j.spSpan 2 (j.par 4) else j.memSpan 2 (j.par 4) 4]
  | 0x22 => [j.memSpan 2 (32 * j.par 4) 32]
  | 0x28 => [j.memSpan 2 (32 * j.par 4) 32, j.memSpan 0 (32 * j.par 4) 32]
  | _ => []

/-- The range on the peer device. -/
def Job.peerSpans (j : Job) : List Span :=
  match j.fn with
  | 0x20 | 0x21 => [j.memSpan 0 (j.par 4) 4]
  | 0x22 => [j.memSpan 0 (32 * j.par 4) 32]
  | _ => []

/-- The global ranges that a job writes; `sum.flush` with CLEAR resets its source slots too. -/
def Job.dests (j : Job) : List Span :=
  match j.fn with
  | 0x28 => if j.par 5 % 2 = 1 then j.spans else j.spans.drop 1
  | 0x00 | 0x01 | 0x02 | 0x03 | 0x04 => (j.spans.drop (j.spans.length - 1)).filter (fun x => !x.sp)
  | 0x10 | 0x11 | 0x21 => j.spans.filter (fun x => !x.sp)
  | _ => []

/-- Total bytes of the destination range. -/
def Job.total (j : Job) : Nat :=
  match j.fn with
  | 0x00 | 0x01 => j.par 3
  | 0x02 => j.par 4 * j.par 3
  | 0x03 => j.par 3 * j.toBits / 8
  | 0x04 => j.par 2
  | 0x05 => j.par 5 * j.par 2
  | 0x10 => j.par 4 * j.keySize
  | 0x11 => j.par 4 * (j.keySize + 4)
  | 0x20 | 0x21 => j.par 4
  | 0x22 | 0x28 => 32 * j.par 4
  | _ => 0

/-- The entries that a job registers (R278); a range of length 0 takes none. -/
def Job.locks (j : Job) (slot : Nat) : List RangeLock :=
  (j.spans.filter (fun x => x.len != 0)).map (fun x =>
    if x.sp then ⟨(j.base + x.base).toNat, x.len, 0, true, slot⟩
    else ⟨(x.base % (2 ^ 64 : Nat)).toNat, x.len, j.asn, false, slot⟩)

/-! Issue (R261, R262). -/

/-- The parameter words of an `eng`, in register order. -/
def Cx.engParams (c : Cx) (f : Fields) : List Word :=
  (List.range 4).map (fun i => c.readS (f.a.toNat - 256 + i)) ++ (List.range 4).map (fun i => c.readS (f.b.toNat - 256 + i))

def engScope (f : Fields) : Nat := modOf f / 128 % 8

/-- The scope of a function's job: the port engines work at .sys, whatever SCOPE says (R267). -/
def jobScope (fn : Nat) (f : Fields) : Nat := if 0x20 ≤ fn && fn ≤ 0x22 then 5 else engScope f

/-- Issue of an engine job. -/
def engIssue (fn : Nat) (f : Fields) (s : State) : Host.Outcome State Fault Refusal :=
  runPart 0x0B5 f s (fun c =>
    single f c (
      match freeFut c.k 0 64 with
      | none => .stall .sync
      | some slot =>
        if c.held || decide (32 < c.k.locks.length + (fnLocks fn).getD 0) then .stall .sync
        else
          let j : Job := { fn := fn, scope := jobScope fn f, params := c.engParams f, serial := c.w.serial, slot := c.slot,
                           region := c.g.region, asn := c.g.asn, launch := c.g.launch, wgId := c.g.id,
                           base := c.g.base, scratch := c.g.scratch, pc := c.p.pc }
          let k := allocFut c.k slot c.g.region c.w.serial (jobScope fn f)
          let k1 := { k with jobs := kset none k.jobs slot (some j), locks := k.locks ++ j.locks slot }
          let c1 := { c with k := k1 }
          let c2 := c1.writeH (f.d.toNat - 408) (handle 1 slot (getFut k slot).gen)
          .next (c2.push (c2.entry (.eng slot) (some (jobScope fn f)) 0 []))))

/-- `eng.copy.in` (R265). -/
def execEngCopyIn (f : Fields) (s : State) : Host.Outcome State Fault Refusal := engIssue 0x00 f s

/-- `eng.copy.out` (R265). -/
def execEngCopyOut (f : Fields) (s : State) : Host.Outcome State Fault Refusal := engIssue 0x01 f s

/-- `eng.copy.2d` (R265). -/
def execEngCopy2d (f : Fields) (s : State) : Host.Outcome State Fault Refusal := engIssue 0x02 f s

/-- `eng.copy.cvt` (R265). -/
def execEngCopyCvt (f : Fields) (s : State) : Host.Outcome State Fault Refusal := engIssue 0x03 f s

/-- `eng.fill` (R265). -/
def execEngFill (f : Fields) (s : State) : Host.Outcome State Fault Refusal := engIssue 0x04 f s

/-- `eng.gather.rows` (R265). -/
def execEngGatherRows (f : Fields) (s : State) : Host.Outcome State Fault Refusal := engIssue 0x05 f s

/-- `eng.sort.keys` (R279). -/
def execEngSortKeys (f : Fields) (s : State) : Host.Outcome State Fault Refusal := engIssue 0x10 f s

/-- `eng.sort.kv` (R279). -/
def execEngSortKv (f : Fields) (s : State) : Host.Outcome State Fault Refusal := engIssue 0x11 f s

/-- `eng.pgreq` (R266). -/
def execEngPgreq (f : Fields) (s : State) : Host.Outcome State Fault Refusal := engIssue 0x18 f s

/-- `eng.put.peer` (R267). -/
def execEngPutPeer (f : Fields) (s : State) : Host.Outcome State Fault Refusal := engIssue 0x20 f s

/-- `eng.get.peer` (R267). -/
def execEngGetPeer (f : Fields) (s : State) : Host.Outcome State Fault Refusal := engIssue 0x21 f s

/-- `eng.reduce.peer` (R267). -/
def execEngReducePeer (f : Fields) (s : State) : Host.Outcome State Fault Refusal := engIssue 0x22 f s

/-- `eng.sum.flush` (R267). -/
def execEngSumFlush (f : Fields) (s : State) : Host.Outcome State Fault Refusal := engIssue 0x28 f s

/-- `eng` with a code that has no function (R261, R263): it takes a slot, and its future is complete at once
with BAD_FUNCTION. -/
def execEngBadFunction (f : Fields) (s : State) : Host.Outcome State Fault Refusal :=
  runPart 0x0B5 f s (fun c =>
    single f c (
      match freeFut c.k 0 64 with
      | none => .stall .sync
      | some slot =>
        if c.held then .stall .sync
        else
          let k := completeFut (allocFut c.k slot c.g.region c.w.serial (engScope f)) slot 0xC0 0
          let c1 := { c with k := k }
          .next (c1.writeH (f.d.toNat - 408) (handle 1 slot (getFut k slot).gen))))

/-! Handle instructions (R270, R271). -/

/-- HANDLE_INVALID on an empty handle. -/
def Cx.withHandle (c : Cx) (f : Fields) (g : Word → Effect) : Effect :=
  let h := c.readH (f.a.toNat - 408)
  if bits h 30 2 = 0 then .trap { cause := 0x11 } else g h

/-- `fwait` (R270). -/
def execFwait (f : Fields) (s : State) : Host.Outcome State Fault Refusal :=
  runPart 0x0B0 f s (fun c =>
    single f c (c.withHandle f (fun h =>
      if (readHandle c.k h).1 = 1 then .stall .sync
      else .next { c with k := l1Acquire c.k c.g.asn (handleScope c.k h) })))

/-- `ftest` (R270). -/
def execFtest (f : Fields) (s : State) : Host.Outcome State Fault Refusal :=
  runPart 0x0B1 f s (fun c =>
    single f c (c.withHandle f (fun h =>
      let x := readHandle c.k h
      .next (c.putS 0x0B1 f (BitVec.ofNat 32 (x.1 * 2 ^ 30 + x.2.1.toNat))))))

/-- The job behind a pending handle. -/
def handleJob (k : Core) (h : Word) : Option Job := kget none k.jobs (bits h 16 8)

/-- `fcancel` (R271). -/
def execFcancel (f : Fields) (s : State) : Host.Outcome State Fault Refusal :=
  runPart 0x0B2 f s (fun c =>
    single f c (c.withHandle f (fun h =>
      let x := readHandle c.k h
      if x.1 != 1 then .next (c.putS 0x0B2 f x.2.2)
      else if 64 ≤ bits h 16 8 then .next (c.putS 0x0B2 f 0)
      else match handleJob c.k h with
        | none => .stall .sync
        | some j =>
          match j.phase with
          | .frozen _ => .next (c.putS 0x0B2 f (BitVec.ofNat 32 j.done))
          | _ =>
            if j.fn = 0x18 then .stall .sync
            else .stallDo .sync (fun s =>
              let k := getCore s c.core
              setCore s c.core { k with jobs := kset none k.jobs (bits h 16 8) (some { j with cancel := true }) }))))

/-- `hmov hD, sA` (R270). -/
def execHmovToH (f : Fields) (s : State) : Host.Outcome State Fault Refusal :=
  runPart 0x0B3 f s (fun c =>
    single f c (
      let a := c.opn 0x0B3 f 0 .int 0
      let st := bits a 30 2
      if bits a 24 6 != 0 || st = 3 ||
          (st != 0 && (decide (128 ≤ bits a 16 8) || (getFut c.k (bits a 16 8)).owner != c.g.region)) then
        .trap { cause := 0x11 }
      else .next (c.writeH (f.d.toNat - 408) a)))

/-- `hmov sD, hA` (R270): STATE as it reads now. -/
def execHmovToS (f : Fields) (s : State) : Host.Outcome State Fault Refusal :=
  runPart 0x0B4 f s (fun c =>
    single f c (
      let h := c.readH (f.a.toNat - 408)
      .next (c.putS 0x0B4 f (putBits h 30 2 (readHandle c.k h).1))))

/-! Bobbin instructions (R276). -/

/-- A bobbin instruction: a scratchpad access of sixteen bytes, for $lane. -/
def bobbinOp (op : Nat) (f : Fields) (s : State) (body : Cx → Nat → Effect) : Host.Outcome State Fault Refusal :=
  runPart op f s (fun c =>
    single f c (
      let o := (c.opn op f 0 .int 0).toNat
      if c.held then .stall .sync
      else match c.spTrap [(c.lane, (o : Int))] 16 16 with
        | some t => .trap t
        | none => body c (c.g.base + o)))

/-- A bobbin whose sector fails its check value freezes the wave (11 R238). -/
def bobbinBad (c : Cx) (a access : Nat) : Effect :=
  .thenDo c (freezeLanes c access [(c.lane, cCheck, BitVec.ofNat 64 (a - c.g.base))])

/-- TARGET := B; ARRIVED := 0; word 3 := 0. After a `fence.rel` it is a release (12 R255). -/
def barm (op : Nat) (f : Fields) (s : State) : Host.Outcome State Fault Refusal :=
  bobbinOp op f s (fun c a =>
    if c.releaseWaits none then .stall .sync
    else
      let k1 := sramWrite c.k a (toBytes 4 (c.opn op f 1 .int 0).toNat ++ toBytes 4 0)
      .next { c with k := sramWrite k1 (a + 12) (toBytes 4 0) })

/-- An arrival of B bytes, as a release at .wg. -/
def bsig (op : Nat) (f : Fields) (s : State) : Host.Outcome State Fault Refusal :=
  bobbinOp op f s (fun c a =>
    if c.releaseWaits (some 1) then .stall .sync
    else if anyBad c.k.sramErr a 16 then bobbinBad c a 3
    else .next { c with k := arriveAt c.k a (c.opn op f 1 .int 0).toNat 0 0 })

/-- Block until GEN differs from B, then acquire at .dev. -/
def bwait (op : Nat) (f : Fields) (s : State) : Host.Outcome State Fault Refusal :=
  bobbinOp op f s (fun c a =>
    if anyBad c.k.sramErr a 16 then bobbinBad c a 1
    else if ofBytes (readBytes c.k.sram (a + 8) 4) = (c.opn op f 1 .int 0).toNat then .stall .sync
    else .next { c with k := l1Acquire c.k c.g.asn 4 })

/-- `barm` (R276). -/
def execBarm (f : Fields) (s : State) : Host.Outcome State Fault Refusal := barm 0x0AA f s

/-- `barm`, immediate form (R276). -/
def execBarmImm (f : Fields) (s : State) : Host.Outcome State Fault Refusal := barm 0x0AB f s

/-- `bsig` (R276). -/
def execBsig (f : Fields) (s : State) : Host.Outcome State Fault Refusal := bsig 0x0AC f s

/-- `bsig`, immediate form (R276). -/
def execBsigImm (f : Fields) (s : State) : Host.Outcome State Fault Refusal := bsig 0x0AD f s

/-- `bwait` (R276). -/
def execBwait (f : Fields) (s : State) : Host.Outcome State Fault Refusal := bwait 0x0AE f s

/-- `bwait`, immediate form (R276). -/
def execBwaitImm (f : Fields) (s : State) : Host.Outcome State Fault Refusal := bwait 0x0AF f s

end Sys2Proof.Machine
end

