-- ==== Sys2Proof/Decode.lean ====
section
/-! DEFINITION. Decoding and encoding of instruction words (04 R67-R69; 05 R90-R99). Decoding is total:
a word with an unassigned opcode is the row UNASSIGNED_OPCODE, fewer than twelve bytes are refused.
The compiler cannot build a constructor beyond the 244th of a type, so what builds an Instr is marked
noncomputable; the kernel evaluates it, and Machine/Run.lean proves it equal to a compiled form. -/
namespace Sys2Proof
open Machine

/-- Why bytes give no instruction. -/
inductive DecodeReject where
  /-- Fewer than the twelve bytes of a word are left (04 R64). -/
  | truncated
  deriving DecidableEq, Repr

/-- OP, bits [95:87] (R68). -/
def wordOp (w : BitVec 96) : Nat := bits w 87 9

/-- The fields of a word other than OP (R68, R69). -/
def wordFields (w : BitVec 96) : Fields where
  gn := tbit w 86
  gp := BitVec.ofNat 3 (bits w 83 3)
  dn := tbit w 82
  d := BitVec.ofNat 11 (bits w 71 11)
  al := tbit w 70
  a := BitVec.ofNat 11 (bits w 59 11)
  bl := tbit w 58
  b := BitVec.ofNat 11 (bits w 47 11)
  x := BitVec.ofNat 32 (bits w 15 32)
  rt := BitVec.ofNat 3 (bits w 12 3)
  ri := BitVec.ofNat 3 (bits w 9 3)
  wb := tbit w 8
  lw := tbit w 7
  lout := BitVec.ofNat 3 (bits w 4 3)
  stall := BitVec.ofNat 4 (bits w 0 4)

/-- The word with an opcode and fields (R68, R69). -/
def fieldsWord (op : Nat) (f : Fields) : BitVec 96 :=
  BitVec.ofNat 9 op ++ BitVec.ofBool f.gn ++ f.gp ++ BitVec.ofBool f.dn ++ f.d ++ BitVec.ofBool f.al ++ f.a ++
  BitVec.ofBool f.bl ++ f.b ++ f.x ++ f.rt ++ f.ri ++ BitVec.ofBool f.wb ++ BitVec.ofBool f.lw ++ f.lout ++ f.stall

/-- The engine function codes of R263. -/
def engFns : List Nat := [0x00, 0x01, 0x02, 0x03, 0x04, 0x05, 0x10, 0x11, 0x18, 0x20, 0x21, 0x22, 0x28]

/-- Which row of the opcode table a word of one opcode belongs to, where several share it: `swr` by its
destination, `eng` by FN, `spawn` and `wstk.pop` by MOD[0], `cctl` by OP, `fence` by KIND, `mstat` by SEL.
A field value that no row names belongs to the first row, whose own checks refuse it. -/
def subKey (op : Nat) (f : Fields) : Nat :=
  match op with
  | 0x01C => if f.d.toNat = 467 then 1 else if f.d.toNat = 470 then 2 else 0
  | 0x0B5 => if engFns.contains (bits f.x 0 7) then bits f.x 0 7 else 127
  | 0x0B6 | 0x1CB => bits f.x 0 1
  | 0x0D5 => if bits f.x 20 3 ≤ 3 then bits f.x 20 3 else 0
  | 0x0D6 => if bits f.x 3 2 ≤ 2 then bits f.x 3 2 else 0
  | 0x1BE => if bits f.x 0 2 ≤ 2 then bits f.x 0 2 else 0
  | _ => 0

/-- Rows by 128 x opcode + sub-row, part 1 of 8. -/
noncomputable def decodeRows1 : List (Nat × (Fields → Instr)) :=
  [(0, .nop), (128, .bra), (256, .braS), (384, .brx), (512, .jmp), (640, .call), (768, .callIndirect),
   (896, .ret), (1024, .rejoin), (1152, .fuse), (1280, .yield), (1408, .exit), (1536, .kill),
   (1664, .bpt), (1792, .trap), (1920, .trapret), (2048, .pand), (2176, .por), (2304, .pxor),
   (2432, .pnot), (2560, .mand), (2688, .mor), (2816, .mxor), (2944, .mmov), (3072, .mpopc),
   (3200, .mffs), (3328, .mexec), (3456, .srd), (3584, .swrExec), (3585, .swrResid), (3586, .swrPstat),
   (3712, .scyc), (4096, .sadd), (4224, .ssub), (4352, .smul), (4480, .smulh), (4608, .smad),
   (4736, .sand), (4864, .sor), (4992, .sxor), (5120, .snot), (5248, .sshl), (5376, .sshr),
   (5504, .ssra)]

/-- Rows by 128 x opcode + sub-row, part 2 of 8. -/
noncomputable def decodeRows2 : List (Nat × (Fields → Instr)) :=
  [(5632, .smin), (5760, .smax), (5888, .sminu), (6016, .smaxu), (6144, .sclz), (6272, .spopc),
   (6400, .sbfe), (6528, .sbfi), (6656, .smov), (6784, .sli), (6912, .ssel), (7040, .scmp),
   (8192, .vadd), (8320, .vsub), (8448, .vmul), (8576, .vmulh), (8704, .vmad), (8832, .vand),
   (8960, .vor), (9088, .vxor), (9216, .vnot), (9344, .vshl), (9472, .vshr), (9600, .vsra),
   (9728, .vmin), (9856, .vmax), (9984, .vabs), (10112, .vneg), (10240, .vclz), (10368, .vpopc),
   (10496, .vbfe), (10624, .vbfi), (10752, .vsel), (10880, .vmov), (11008, .vprmt), (11136, .vdot4),
   (11264, .vsad), (11392, .vcmp), (11520, .vcvt), (11648, .vpackMx), (11776, .vpackPx),
   (11904, .vunpackMx), (12032, .vunpackPx), (12160, .vretag)]

/-- Rows by 128 x opcode + sub-row, part 3 of 8. -/
noncomputable def decodeRows3 : List (Nat × (Fields → Instr)) :=
  [(12288, .vshflIdx), (12416, .vshflUp), (12544, .vshflDown), (12672, .vshflXor), (12800, .vreadl),
   (12928, .vwritel), (13056, .vvoteAny), (13184, .vvoteAll), (13312, .vvoteBallot), (13440, .vredadd),
   (13568, .vredmax), (13696, .vscan), (13824, .vmatch), (16384, .vfadd), (16512, .vfsub),
   (16640, .vfmul), (16768, .vfma), (16896, .vfmin), (17024, .vfmax), (17152, .vfcmp), (17280, .vfclass),
   (17408, .vfscale), (17536, .vfexp), (17664, .vfrnd), (17792, .vrcp), (17920, .vrsq), (18048, .vsqrt),
   (18176, .vexp2), (18304, .vlog2), (18432, .vsin), (18560, .vcos), (19456, .vfaddH2),
   (19584, .vfsubH2), (19712, .vfmulH2), (19840, .vfmaH2), (19968, .vfminH2), (20096, .vfmaxH2),
   (20224, .vfcmpH2), (20480, .vfaddB2), (20608, .vfsubB2), (20736, .vfmulB2), (20864, .vfmaB2),
   (20992, .vfminB2), (21120, .vfmaxB2)]

/-- Rows by 128 x opcode + sub-row, part 4 of 8. -/
noncomputable def decodeRows4 : List (Nat × (Fields → Instr)) :=
  [(21248, .vfcmpB2), (21504, .wbar), (21632, .gbar), (21760, .barm), (21888, .barmImm), (22016, .bsig),
   (22144, .bsigImm), (22272, .bwait), (22400, .bwaitImm), (22528, .fwait), (22656, .ftest),
   (22784, .fcancel), (22912, .hmovToH), (23040, .hmovToS), (23168, .engCopyIn), (23169, .engCopyOut),
   (23170, .engCopy2d), (23171, .engCopyCvt), (23172, .engFill), (23173, .engGatherRows),
   (23184, .engSortKeys), (23185, .engSortKv), (23192, .engPgreq), (23200, .engPutPeer),
   (23201, .engGetPeer), (23202, .engReducePeer), (23208, .engSumFlush), (23295, .engBadFunction),
   (23296, .spawn), (23297, .spawnLanes), (23424, .qcount), (23552, .qclose), (24576, .vld),
   (24704, .vst), (24832, .vldt), (24960, .vldBlk), (25088, .vstBlk), (25216, .vprefetch),
   (25344, .vldLane), (25472, .vstLane), (25600, .vldtLane), (25728, .vprefetchLane), (25856, .vldSp),
   (25984, .vstSp)]

/-- Rows by 128 x opcode + sub-row, part 5 of 8. -/
noncomputable def decodeRows5 : List (Nat × (Fields → Instr)) :=
  [(26112, .vldtSp), (26240, .vldBlkSp), (26368, .vstBlkSp), (26496, .vldSpLane), (26624, .vstSpLane),
   (26752, .vldtSpLane), (26880, .sld), (27008, .sst), (27136, .sldc), (27264, .cctlInv),
   (27265, .cctlInvall), (27266, .cctlInvc), (27267, .cctlDemote), (27392, .fenceFull),
   (27393, .fenceAcq), (27394, .fenceRel), (27520, .sldSp), (27648, .sstSp), (28672, .vatomAdd),
   (28800, .vatomSub), (28928, .vatomMin), (29056, .vatomMax), (29184, .vatomAnd), (29312, .vatomOr),
   (29440, .vatomXor), (29568, .vatomXchg), (29696, .vatomCas), (29824, .vatomInc), (29952, .vatomFadd),
   (30080, .vatomFmin), (30208, .vatomFmax), (30336, .vatomFaddD), (30464, .suminit), (30592, .sumget),
   (30720, .satomAdd), (30848, .satomSub), (30976, .satomMin), (31104, .satomMax), (31232, .satomAnd),
   (31360, .satomOr), (31488, .satomXor), (31616, .satomXchg), (31744, .satomCas), (31872, .satomInc)]

/-- Rows by 128 x opcode + sub-row, part 6 of 8. -/
noncomputable def decodeRows6 : List (Nat × (Fields → Instr)) :=
  [(32000, .satomFadd), (32128, .satomFmin), (32256, .satomFmax), (32768, .vatomSpAdd),
   (32896, .vatomSpSub), (33024, .vatomSpMin), (33152, .vatomSpMax), (33280, .vatomSpAnd),
   (33408, .vatomSpOr), (33536, .vatomSpXor), (33664, .vatomSpXchg), (33792, .vatomSpCas),
   (33920, .vatomSpInc), (34048, .vatomSpFadd), (34176, .vatomSpFmin), (34304, .vatomSpFmax),
   (34816, .satomSpAdd), (34944, .satomSpSub), (35072, .satomSpMin), (35200, .satomSpMax),
   (35328, .satomSpAnd), (35456, .satomSpOr), (35584, .satomSpXor), (35712, .satomSpXchg),
   (35840, .satomSpCas), (35968, .satomSpInc), (36096, .satomSpFadd), (36224, .satomSpFmin),
   (36352, .satomSpFmax), (36864, .saddImm), (36992, .ssubImm), (37120, .smulImm), (37248, .smulhImm),
   (37376, .smadImm), (37504, .sandImm), (37632, .sorImm), (37760, .sxorImm), (38016, .sshlImm),
   (38144, .sshrImm), (38272, .ssraImm), (38400, .sminImm), (38528, .smaxImm), (38656, .sminuImm),
   (38784, .smaxuImm)]

/-- Rows by 128 x opcode + sub-row, part 7 of 8. -/
noncomputable def decodeRows7 : List (Nat × (Fields → Instr)) :=
  [(39168, .sbfeImm), (39296, .sbfiImm), (40960, .vaddImm), (41088, .vsubImm), (41216, .vmulImm),
   (41344, .vmulhImm), (41472, .vmadImm), (41600, .vandImm), (41728, .vorImm), (41856, .vxorImm),
   (42112, .vshlImm), (42240, .vshrImm), (42368, .vsraImm), (42496, .vminImm), (42624, .vmaxImm),
   (43264, .vbfeImm), (43392, .vbfiImm), (43648, .vmovImm), (43776, .vprmtImm), (43904, .vdot4Imm),
   (44032, .vsadImm), (45056, .vshflIdxImm), (45568, .vreadlImm), (45696, .vwritelImm),
   (49152, .vfaddImm), (49280, .vfsubImm), (49408, .vfmulImm), (49536, .vfmaImm), (49664, .vfminImm),
   (49792, .vfmaxImm), (50176, .vfscaleImm), (52224, .vfaddH2Imm), (52352, .vfsubH2Imm),
   (52480, .vfmulH2Imm), (52608, .vfmaH2Imm), (52736, .vfminH2Imm), (52864, .vfmaxH2Imm),
   (53248, .vfaddB2Imm), (53376, .vfsubB2Imm), (53504, .vfmulB2Imm), (53632, .vfmaB2Imm),
   (53760, .vfminB2Imm), (53888, .vfmaxB2Imm), (55296, .mloadB)]

/-- Rows by 128 x opcode + sub-row, part 8 of 8. -/
noncomputable def decodeRows8 : List (Nat × (Fields → Instr)) :=
  [(55424, .mgatherA), (55552, .mmaBf16), (55680, .mmaFp16), (55808, .mmaE4m3), (55936, .mmaE5m2),
   (56064, .mmaInt8), (56192, .mmaPx8), (56320, .mmaPx5), (56448, .mmaMxfp4), (56576, .mmaPx3),
   (56704, .mdrainSp), (56832, .mdrain), (56960, .mzero), (57088, .mstatTile), (57089, .mstatBank0),
   (57090, .mstatBank1), (57344, .texSmp), (57472, .texSmpLod), (57600, .texSmpGrad), (57728, .texLd),
   (57856, .texSt), (57984, .texG4), (58112, .resLd), (58240, .resQ), (58368, .rtBox), (58496, .rtTri),
   (58624, .wstkPush), (58752, .wstkPop), (58753, .wstkPeek), (58880, .wstkClr), (59008, .meshLoc),
   (59136, .meshStep), (59264, .meshInterp), (59392, .emitp), (59520, .blendAcq), (59648, .blendRel)]

/-- Every row of the opcode map. -/
noncomputable def decodeRows : List (Nat × (Fields → Instr)) :=
  decodeRows1 ++ decodeRows2 ++ decodeRows3 ++ decodeRows4 ++ decodeRows5 ++ decodeRows6 ++ decodeRows7 ++ decodeRows8

/-- The first row of a key. -/
def findCtor : List (Nat × (Fields → Instr)) → Nat → Option (Fields → Instr)
  | [], _ => none
  | (k, c) :: l, key => if k = key then some c else findCtor l key

/-- The instruction that a 96-bit word is. -/
noncomputable def decodeWord (w : BitVec 96) : Instr :=
  match findCtor decodeRows (wordOp w * 128 + subKey (wordOp w) (wordFields w)) with
  | some c => c (wordFields w)
  | none => .unassignedOpcode w

/-- Decode the first twelve bytes (R67), with the bytes that are left. -/
noncomputable def decode (bs : List Byte) : Except DecodeReject (Instr × List Byte) :=
  if bs.length < 12 then .error .truncated
  else .ok (decodeWord (BitVec.ofNat 96 (ofBytes (bs.take 12))), bs.drop 12)

/-- An instruction's opcode, sub-row (`subKey`) and fields; a device event has none, and an unassigned word is kept whole. -/
def Instr.word? : Instr → Option (Nat × Nat × Fields)
  | .nop f => some (0x000, 0, f)
  | .bra f => some (0x001, 0, f)
  | .braS f => some (0x002, 0, f)
  | .brx f => some (0x003, 0, f)
  | .jmp f => some (0x004, 0, f)
  | .call f => some (0x005, 0, f)
  | .callIndirect f => some (0x006, 0, f)
  | .ret f => some (0x007, 0, f)
  | .rejoin f => some (0x008, 0, f)
  | .fuse f => some (0x009, 0, f)
  | .yield f => some (0x00A, 0, f)
  | .exit f => some (0x00B, 0, f)
  | .kill f => some (0x00C, 0, f)
  | .bpt f => some (0x00D, 0, f)
  | .trap f => some (0x00E, 0, f)
  | .trapret f => some (0x00F, 0, f)
  | .pand f => some (0x010, 0, f)
  | .por f => some (0x011, 0, f)
  | .pxor f => some (0x012, 0, f)
  | .pnot f => some (0x013, 0, f)
  | .mand f => some (0x014, 0, f)
  | .mor f => some (0x015, 0, f)
  | .mxor f => some (0x016, 0, f)
  | .mmov f => some (0x017, 0, f)
  | .mpopc f => some (0x018, 0, f)
  | .mffs f => some (0x019, 0, f)
  | .mexec f => some (0x01A, 0, f)
  | .srd f => some (0x01B, 0, f)
  | .swrExec f => some (0x01C, 0, f)
  | .swrResid f => some (0x01C, 1, f)
  | .swrPstat f => some (0x01C, 2, f)
  | .scyc f => some (0x01D, 0, f)
  | .sadd f => some (0x020, 0, f)
  | .ssub f => some (0x021, 0, f)
  | .smul f => some (0x022, 0, f)
  | .smulh f => some (0x023, 0, f)
  | .smad f => some (0x024, 0, f)
  | .sand f => some (0x025, 0, f)
  | .sor f => some (0x026, 0, f)
  | .sxor f => some (0x027, 0, f)
  | .snot f => some (0x028, 0, f)
  | .sshl f => some (0x029, 0, f)
  | .sshr f => some (0x02A, 0, f)
  | .ssra f => some (0x02B, 0, f)
  | .smin f => some (0x02C, 0, f)
  | .smax f => some (0x02D, 0, f)
  | .sminu f => some (0x02E, 0, f)
  | .smaxu f => some (0x02F, 0, f)
  | .sclz f => some (0x030, 0, f)
  | .spopc f => some (0x031, 0, f)
  | .sbfe f => some (0x032, 0, f)
  | .sbfi f => some (0x033, 0, f)
  | .smov f => some (0x034, 0, f)
  | .sli f => some (0x035, 0, f)
  | .ssel f => some (0x036, 0, f)
  | .scmp f => some (0x037, 0, f)
  | .saddImm f => some (0x120, 0, f)
  | .ssubImm f => some (0x121, 0, f)
  | .smulImm f => some (0x122, 0, f)
  | .smulhImm f => some (0x123, 0, f)
  | .smadImm f => some (0x124, 0, f)
  | .sandImm f => some (0x125, 0, f)
  | .sorImm f => some (0x126, 0, f)
  | .sxorImm f => some (0x127, 0, f)
  | .sshlImm f => some (0x129, 0, f)
  | .sshrImm f => some (0x12A, 0, f)
  | .ssraImm f => some (0x12B, 0, f)
  | .sminImm f => some (0x12C, 0, f)
  | .smaxImm f => some (0x12D, 0, f)
  | .sminuImm f => some (0x12E, 0, f)
  | .smaxuImm f => some (0x12F, 0, f)
  | .sbfeImm f => some (0x132, 0, f)
  | .sbfiImm f => some (0x133, 0, f)
  | .vadd f => some (0x040, 0, f)
  | .vsub f => some (0x041, 0, f)
  | .vmul f => some (0x042, 0, f)
  | .vmulh f => some (0x043, 0, f)
  | .vmad f => some (0x044, 0, f)
  | .vand f => some (0x045, 0, f)
  | .vor f => some (0x046, 0, f)
  | .vxor f => some (0x047, 0, f)
  | .vnot f => some (0x048, 0, f)
  | .vshl f => some (0x049, 0, f)
  | .vshr f => some (0x04A, 0, f)
  | .vsra f => some (0x04B, 0, f)
  | .vmin f => some (0x04C, 0, f)
  | .vmax f => some (0x04D, 0, f)
  | .vabs f => some (0x04E, 0, f)
  | .vneg f => some (0x04F, 0, f)
  | .vclz f => some (0x050, 0, f)
  | .vpopc f => some (0x051, 0, f)
  | .vbfe f => some (0x052, 0, f)
  | .vbfi f => some (0x053, 0, f)
  | .vsel f => some (0x054, 0, f)
  | .vmov f => some (0x055, 0, f)
  | .vprmt f => some (0x056, 0, f)
  | .vdot4 f => some (0x057, 0, f)
  | .vsad f => some (0x058, 0, f)
  | .vcmp f => some (0x059, 0, f)
  | .vcvt f => some (0x05A, 0, f)
  | .vpackMx f => some (0x05B, 0, f)
  | .vpackPx f => some (0x05C, 0, f)
  | .vunpackMx f => some (0x05D, 0, f)
  | .vunpackPx f => some (0x05E, 0, f)
  | .vretag f => some (0x05F, 0, f)
  | .vaddImm f => some (0x140, 0, f)
  | .vsubImm f => some (0x141, 0, f)
  | .vmulImm f => some (0x142, 0, f)
  | .vmulhImm f => some (0x143, 0, f)
  | .vmadImm f => some (0x144, 0, f)
  | .vandImm f => some (0x145, 0, f)
  | .vorImm f => some (0x146, 0, f)
  | .vxorImm f => some (0x147, 0, f)
  | .vshlImm f => some (0x149, 0, f)
  | .vshrImm f => some (0x14A, 0, f)
  | .vsraImm f => some (0x14B, 0, f)
  | .vminImm f => some (0x14C, 0, f)
  | .vmaxImm f => some (0x14D, 0, f)
  | .vbfeImm f => some (0x152, 0, f)
  | .vbfiImm f => some (0x153, 0, f)
  | .vmovImm f => some (0x155, 0, f)
  | .vprmtImm f => some (0x156, 0, f)
  | .vdot4Imm f => some (0x157, 0, f)
  | .vsadImm f => some (0x158, 0, f)
  | .vshflIdx f => some (0x060, 0, f)
  | .vshflUp f => some (0x061, 0, f)
  | .vshflDown f => some (0x062, 0, f)
  | .vshflXor f => some (0x063, 0, f)
  | .vshflIdxImm f => some (0x160, 0, f)
  | .vreadl f => some (0x064, 0, f)
  | .vreadlImm f => some (0x164, 0, f)
  | .vwritel f => some (0x065, 0, f)
  | .vwritelImm f => some (0x165, 0, f)
  | .vvoteAny f => some (0x066, 0, f)
  | .vvoteAll f => some (0x067, 0, f)
  | .vvoteBallot f => some (0x068, 0, f)
  | .vredadd f => some (0x069, 0, f)
  | .vredmax f => some (0x06A, 0, f)
  | .vscan f => some (0x06B, 0, f)
  | .vmatch f => some (0x06C, 0, f)
  | .vfadd f => some (0x080, 0, f)
  | .vfsub f => some (0x081, 0, f)
  | .vfmul f => some (0x082, 0, f)
  | .vfma f => some (0x083, 0, f)
  | .vfmin f => some (0x084, 0, f)
  | .vfmax f => some (0x085, 0, f)
  | .vfcmp f => some (0x086, 0, f)
  | .vfclass f => some (0x087, 0, f)
  | .vfscale f => some (0x088, 0, f)
  | .vfexp f => some (0x089, 0, f)
  | .vfrnd f => some (0x08A, 0, f)
  | .vrcp f => some (0x08B, 0, f)
  | .vrsq f => some (0x08C, 0, f)
  | .vsqrt f => some (0x08D, 0, f)
  | .vexp2 f => some (0x08E, 0, f)
  | .vlog2 f => some (0x08F, 0, f)
  | .vsin f => some (0x090, 0, f)
  | .vcos f => some (0x091, 0, f)
  | .vfaddImm f => some (0x180, 0, f)
  | .vfsubImm f => some (0x181, 0, f)
  | .vfmulImm f => some (0x182, 0, f)
  | .vfmaImm f => some (0x183, 0, f)
  | .vfminImm f => some (0x184, 0, f)
  | .vfmaxImm f => some (0x185, 0, f)
  | .vfscaleImm f => some (0x188, 0, f)
  | .vfaddH2 f => some (0x098, 0, f)
  | .vfsubH2 f => some (0x099, 0, f)
  | .vfmulH2 f => some (0x09A, 0, f)
  | .vfmaH2 f => some (0x09B, 0, f)
  | .vfminH2 f => some (0x09C, 0, f)
  | .vfmaxH2 f => some (0x09D, 0, f)
  | .vfcmpH2 f => some (0x09E, 0, f)
  | .vfaddH2Imm f => some (0x198, 0, f)
  | .vfsubH2Imm f => some (0x199, 0, f)
  | .vfmulH2Imm f => some (0x19A, 0, f)
  | .vfmaH2Imm f => some (0x19B, 0, f)
  | .vfminH2Imm f => some (0x19C, 0, f)
  | .vfmaxH2Imm f => some (0x19D, 0, f)
  | .vfaddB2 f => some (0x0A0, 0, f)
  | .vfsubB2 f => some (0x0A1, 0, f)
  | .vfmulB2 f => some (0x0A2, 0, f)
  | .vfmaB2 f => some (0x0A3, 0, f)
  | .vfminB2 f => some (0x0A4, 0, f)
  | .vfmaxB2 f => some (0x0A5, 0, f)
  | .vfcmpB2 f => some (0x0A6, 0, f)
  | .vfaddB2Imm f => some (0x1A0, 0, f)
  | .vfsubB2Imm f => some (0x1A1, 0, f)
  | .vfmulB2Imm f => some (0x1A2, 0, f)
  | .vfmaB2Imm f => some (0x1A3, 0, f)
  | .vfminB2Imm f => some (0x1A4, 0, f)
  | .vfmaxB2Imm f => some (0x1A5, 0, f)
  | .wbar f => some (0x0A8, 0, f)
  | .gbar f => some (0x0A9, 0, f)
  | .barm f => some (0x0AA, 0, f)
  | .barmImm f => some (0x0AB, 0, f)
  | .bsig f => some (0x0AC, 0, f)
  | .bsigImm f => some (0x0AD, 0, f)
  | .bwait f => some (0x0AE, 0, f)
  | .bwaitImm f => some (0x0AF, 0, f)
  | .fwait f => some (0x0B0, 0, f)
  | .ftest f => some (0x0B1, 0, f)
  | .fcancel f => some (0x0B2, 0, f)
  | .hmovToH f => some (0x0B3, 0, f)
  | .hmovToS f => some (0x0B4, 0, f)
  | .engCopyIn f => some (0x0B5, 0, f)
  | .engCopyOut f => some (0x0B5, 1, f)
  | .engCopy2d f => some (0x0B5, 2, f)
  | .engCopyCvt f => some (0x0B5, 3, f)
  | .engFill f => some (0x0B5, 4, f)
  | .engGatherRows f => some (0x0B5, 5, f)
  | .engSortKeys f => some (0x0B5, 16, f)
  | .engSortKv f => some (0x0B5, 17, f)
  | .engPgreq f => some (0x0B5, 24, f)
  | .engPutPeer f => some (0x0B5, 32, f)
  | .engGetPeer f => some (0x0B5, 33, f)
  | .engReducePeer f => some (0x0B5, 34, f)
  | .engSumFlush f => some (0x0B5, 40, f)
  | .engBadFunction f => some (0x0B5, 127, f)
  | .spawn f => some (0x0B6, 0, f)
  | .spawnLanes f => some (0x0B6, 1, f)
  | .qcount f => some (0x0B7, 0, f)
  | .qclose f => some (0x0B8, 0, f)
  | .vld f => some (0x0C0, 0, f)
  | .vldLane f => some (0x0C6, 0, f)
  | .vst f => some (0x0C1, 0, f)
  | .vstLane f => some (0x0C7, 0, f)
  | .vldt f => some (0x0C2, 0, f)
  | .vldtLane f => some (0x0C8, 0, f)
  | .vldBlk f => some (0x0C3, 0, f)
  | .vstBlk f => some (0x0C4, 0, f)
  | .vprefetch f => some (0x0C5, 0, f)
  | .vprefetchLane f => some (0x0C9, 0, f)
  | .vldSp f => some (0x0CA, 0, f)
  | .vldSpLane f => some (0x0CF, 0, f)
  | .vstSp f => some (0x0CB, 0, f)
  | .vstSpLane f => some (0x0D0, 0, f)
  | .vldtSp f => some (0x0CC, 0, f)
  | .vldtSpLane f => some (0x0D1, 0, f)
  | .vldBlkSp f => some (0x0CD, 0, f)
  | .vstBlkSp f => some (0x0CE, 0, f)
  | .sld f => some (0x0D2, 0, f)
  | .sst f => some (0x0D3, 0, f)
  | .sldc f => some (0x0D4, 0, f)
  | .sldSp f => some (0x0D7, 0, f)
  | .sstSp f => some (0x0D8, 0, f)
  | .cctlInv f => some (0x0D5, 0, f)
  | .cctlInvall f => some (0x0D5, 1, f)
  | .cctlInvc f => some (0x0D5, 2, f)
  | .cctlDemote f => some (0x0D5, 3, f)
  | .fenceFull f => some (0x0D6, 0, f)
  | .fenceAcq f => some (0x0D6, 1, f)
  | .fenceRel f => some (0x0D6, 2, f)
  | .vatomAdd f => some (0x0E0, 0, f)
  | .vatomSub f => some (0x0E1, 0, f)
  | .vatomMin f => some (0x0E2, 0, f)
  | .vatomMax f => some (0x0E3, 0, f)
  | .vatomAnd f => some (0x0E4, 0, f)
  | .vatomOr f => some (0x0E5, 0, f)
  | .vatomXor f => some (0x0E6, 0, f)
  | .vatomXchg f => some (0x0E7, 0, f)
  | .vatomCas f => some (0x0E8, 0, f)
  | .vatomInc f => some (0x0E9, 0, f)
  | .vatomFadd f => some (0x0EA, 0, f)
  | .vatomFmin f => some (0x0EB, 0, f)
  | .vatomFmax f => some (0x0EC, 0, f)
  | .vatomFaddD f => some (0x0ED, 0, f)
  | .suminit f => some (0x0EE, 0, f)
  | .sumget f => some (0x0EF, 0, f)
  | .satomAdd f => some (0x0F0, 0, f)
  | .satomSub f => some (0x0F1, 0, f)
  | .satomMin f => some (0x0F2, 0, f)
  | .satomMax f => some (0x0F3, 0, f)
  | .satomAnd f => some (0x0F4, 0, f)
  | .satomOr f => some (0x0F5, 0, f)
  | .satomXor f => some (0x0F6, 0, f)
  | .satomXchg f => some (0x0F7, 0, f)
  | .satomCas f => some (0x0F8, 0, f)
  | .satomInc f => some (0x0F9, 0, f)
  | .satomFadd f => some (0x0FA, 0, f)
  | .satomFmin f => some (0x0FB, 0, f)
  | .satomFmax f => some (0x0FC, 0, f)
  | .vatomSpAdd f => some (0x100, 0, f)
  | .vatomSpSub f => some (0x101, 0, f)
  | .vatomSpMin f => some (0x102, 0, f)
  | .vatomSpMax f => some (0x103, 0, f)
  | .vatomSpAnd f => some (0x104, 0, f)
  | .vatomSpOr f => some (0x105, 0, f)
  | .vatomSpXor f => some (0x106, 0, f)
  | .vatomSpXchg f => some (0x107, 0, f)
  | .vatomSpCas f => some (0x108, 0, f)
  | .vatomSpInc f => some (0x109, 0, f)
  | .vatomSpFadd f => some (0x10A, 0, f)
  | .vatomSpFmin f => some (0x10B, 0, f)
  | .vatomSpFmax f => some (0x10C, 0, f)
  | .satomSpAdd f => some (0x110, 0, f)
  | .satomSpSub f => some (0x111, 0, f)
  | .satomSpMin f => some (0x112, 0, f)
  | .satomSpMax f => some (0x113, 0, f)
  | .satomSpAnd f => some (0x114, 0, f)
  | .satomSpOr f => some (0x115, 0, f)
  | .satomSpXor f => some (0x116, 0, f)
  | .satomSpXchg f => some (0x117, 0, f)
  | .satomSpCas f => some (0x118, 0, f)
  | .satomSpInc f => some (0x119, 0, f)
  | .satomSpFadd f => some (0x11A, 0, f)
  | .satomSpFmin f => some (0x11B, 0, f)
  | .satomSpFmax f => some (0x11C, 0, f)
  | .mloadB f => some (0x1B0, 0, f)
  | .mgatherA f => some (0x1B1, 0, f)
  | .mmaBf16 f => some (0x1B2, 0, f)
  | .mmaFp16 f => some (0x1B3, 0, f)
  | .mmaE4m3 f => some (0x1B4, 0, f)
  | .mmaE5m2 f => some (0x1B5, 0, f)
  | .mmaInt8 f => some (0x1B6, 0, f)
  | .mmaPx8 f => some (0x1B7, 0, f)
  | .mmaPx5 f => some (0x1B8, 0, f)
  | .mmaMxfp4 f => some (0x1B9, 0, f)
  | .mmaPx3 f => some (0x1BA, 0, f)
  | .mdrain f => some (0x1BC, 0, f)
  | .mdrainSp f => some (0x1BB, 0, f)
  | .mzero f => some (0x1BD, 0, f)
  | .mstatTile f => some (0x1BE, 0, f)
  | .mstatBank0 f => some (0x1BE, 1, f)
  | .mstatBank1 f => some (0x1BE, 2, f)
  | .texSmp f => some (0x1C0, 0, f)
  | .texSmpLod f => some (0x1C1, 0, f)
  | .texSmpGrad f => some (0x1C2, 0, f)
  | .texLd f => some (0x1C3, 0, f)
  | .texSt f => some (0x1C4, 0, f)
  | .texG4 f => some (0x1C5, 0, f)
  | .resLd f => some (0x1C6, 0, f)
  | .resQ f => some (0x1C7, 0, f)
  | .rtBox f => some (0x1C8, 0, f)
  | .rtTri f => some (0x1C9, 0, f)
  | .wstkPush f => some (0x1CA, 0, f)
  | .wstkPop f => some (0x1CB, 0, f)
  | .wstkPeek f => some (0x1CB, 1, f)
  | .wstkClr f => some (0x1CC, 0, f)
  | .meshLoc f => some (0x1CD, 0, f)
  | .meshStep f => some (0x1CE, 0, f)
  | .meshInterp f => some (0x1CF, 0, f)
  | .emitp f => some (0x1D0, 0, f)
  | .blendAcq f => some (0x1D1, 0, f)
  | .blendRel f => some (0x1D2, 0, f)
  | .powerOnBoot _ => none
  | .selftestPass _ => none
  | .selftestFail _ => none
  | .recoveryReply _ => none
  | .launch _ => none
  | .put _ => none
  | .get _ => none
  | .attest _ => none
  | .ctxReset _ => none
  | .teardown _ => none
  | .placeWorkgroup => none
  | .wgPublish _ _ => none
  | .launchEnd _ => none
  | .issueStarvation _ => none
  | .globalLoadReturn _ _ _ _ => none
  | .missSplit _ => none
  | .storeQueueLeave _ _ => none
  | .rejoinExpire _ _ _ => none
  | .forcedFuse _ _ => none
  | .combineWindowClose _ => none
  | .engAccept _ _ => none
  | .engChunk _ _ => none
  | .engJobEnd _ _ => none
  | .carderJobStart _ => none
  | .translationChange _ _ _ => none
  | .fwRegisterWrite _ => none
  | .mloadExecute _ _ => none
  | .arrayRowEntry _ => none
  | .tileRowWrite _ => none
  | .drainExecute _ _ => none
  | .drainComplete _ _ => none
  | .cadenceEval _ => none
  | .sprintClaim _ _ _ => none
  | .fallStepEnd _ => none
  | .coolDownEnd _ => none
  | .permitCredit _ => none
  | .rampIntervalDouble _ => none
  | .rampWindowEnd _ => none
  | .rampCharge _ => none
  | .fragmentWgCreate _ => none
  | .colourTileWriteback _ _ => none
  | .binTimerExpire _ => none
  | .spawnAppend _ _ => none
  | .qcloseLeave _ _ => none
  | .queueStall _ => none
  | .gbarArrival _ _ => none
  | .gbarRelease _ _ => none
  | .peerInboundRequest _ => none
  | .peerReply _ _ => none
  | .peerTimeout _ => none
  | .peerCancel _ _ => none
  | .contextPrioritySwitch _ => none
  | .contextIdleSwitch _ => none
  | .contextQuantum _ => none
  | .preempt => none
  | .contextReturn _ _ => none
  | .dbgHalt _ _ => none
  | .dbgResume _ _ => none
  | .dbgStep _ _ => none
  | .dbgReleaseWave _ _ => none
  | .dbgReleaseJob _ _ => none
  | .dbgInvalidOp _ _ => none
  | .dbgctlWrite _ _ => none
  | .unassignedOpcode _ => none
  | .homeSliceApply _ _ => none
  | .rejectedHostMessage _ => none

/-- The word of an instruction; none for a device event. -/
def encodeWord : Instr → Option (BitVec 96)
  | .unassignedOpcode w => some w
  | i => (i.word?).map (fun p => fieldsWord p.1 p.2.2)

/-- The twelve bytes of an instruction (R67). -/
def encode (i : Instr) : Option (List Byte) := (encodeWord i).map (fun w => toBytes 12 w.toNat)

/-- The instruction that the decoder reads from a word of spec/opcode_table.json: bit 0 is the least
significant bit of the first byte, and bits above `nbits` are zero. -/
noncomputable def decodeTableWord (nbits w : Nat) : Option Instr :=
  match decode (toBytes 12 (w % 2 ^ nbits)) with
  | .ok (i, _) => some i
  | .error _ => none

end Sys2Proof
end

