-- ==== Sys2Proof/Machine/Load.lean ====
section
/-! DEFINITION. Loads (12 R247-R249, R260). -/
namespace Sys2Proof.Machine

/-- ACQ of a load, with its scope (R243, R254). -/
def loadAcq (f : Fields) : Option Nat := if mmOrd1 f then some (mmScope f) else none

/-- Register D of a load, none for `_`. -/
def loadReg (f : Fields) : Option Nat := if f.dn then none else some f.d.toNat

/-- A vector load of a size code and tag (R247). -/
def vecLoad (op : Nat) (f : Fields) (s : State) (sz : Nat) (tag : Tag) (addrs : Cx → Addrs) :
    Host.Outcome State Fault Refusal :=
  runPart op f s (fun c =>
    c.issueLoad { dst := .vec (loadReg f) sz tag, regs := (loadReg f).toList, size := szBytes sz, acq := loadAcq f,
                  fm := mmFm f, maySplit := true } (addrs c) (szBytes sz))

/-- `vld` (R247). -/
def execVld (f : Fields) (s : State) : Host.Outcome State Fault Refusal :=
  let sz := mmType f % 8
  vecLoad 0x0C0 f s sz tagAny (fun c => c.contig f (szBytes sz))

/-- `vld`, lane-address form (R247). -/
def execVldLane (f : Fields) (s : State) : Host.Outcome State Fault Refusal :=
  vecLoad 0x0C6 f s (mmType f % 8) tagAny (fun c => c.laneAddrs f)

/-- `vldt` (R247): the tag of TYPE. -/
def execVldt (f : Fields) (s : State) : Host.Outcome State Fault Refusal :=
  vecLoad 0x0C2 f s 0 (BitVec.ofNat 5 (mmType f)) (fun c => c.contig f 4)

/-- `vldt`, lane-address form (R247). -/
def execVldtLane (f : Fields) (s : State) : Host.Outcome State Fault Refusal :=
  vecLoad 0x0C8 f s 0 (BitVec.ofNat 5 (mmType f)) (fun c => c.laneAddrs f)

/-- Registers that a block load writes (R249). -/
def blkLoadRegs (f : Fields) (bfmt : Nat) : List Nat :=
  (List.range (if bfmt < 3 then blkElems bfmt else blkElems bfmt + 1)).map (f.d.toNat + ·)

/-- `vld.blk` (R249). -/
def execVldBlk (f : Fields) (s : State) : Host.Outcome State Fault Refusal :=
  let b := mmType f % 8
  runPart 0x0C3 f s (fun c =>
    c.issueLoad { dst := .block f.d.toNat b (mmType f / 8 % 2), regs := blkLoadRegs f b, size := blkBytes b,
                  acq := loadAcq f, fm := mmFm f, maySplit := true } (c.contig f (blkBytes b)) (blkAlign b))

/-- `sld` (R248). -/
def execSld (f : Fields) (s : State) : Host.Outcome State Fault Refusal :=
  let sz := mmType f % 8
  runPart 0x0D2 f s (fun c =>
    c.issueLoad { dst := .scalar (f.d.toNat - 256) sz, regs := [f.d.toNat], size := szBytes sz, acq := loadAcq f,
                  fm := mmFm f } (c.scalarAddr f) (szBytes sz))

/-- `sldc` (R248): through the constant cache on a page with W = 0. -/
def execSldc (f : Fields) (s : State) : Host.Outcome State Fault Refusal :=
  runPart 0x0D4 f s (fun c =>
    c.issueLoad { dst := .scalar (f.d.toNat - 256) 0, regs := [f.d.toNat], size := 4, const := true } (c.scalarAddr f) 4)

/-- `sumget` (R260): one indivisible read of the record at its home slice. -/
def execSumget (f : Fields) (s : State) : Host.Outcome State Fault Refusal :=
  let fm := mmFm f
  runPart 0x0EF f s (fun c =>
    c.issueLoad { dst := .sum (f.d.toNat - 256) (mmType f % 8) (mmType f / 8) fm,
                  regs := f.d.toNat :: (if fm = 0 then [] else [400 + fm]), size := 32, acq := loadAcq f,
                  l1 := false } (c.scalarAddr f) 32)

/-! Scratchpad loads. -/

/-- The SRAM bank of a word (11 R227). -/
def bankOf (w : Nat) : Nat := w % 64 + 64 * (w / 32768)

/-- Cycles that an access to some words takes: the most distinct words that it asks of one bank (11 R228). -/
def bankCycles (words : List Nat) : Nat :=
  words.foldl (fun m w => max m (words.filter (fun v => bankOf v = bankOf w)).length) 1

/-- Some lanes name two words of one bank (04 R77; 11 R227, R228). -/
def bankConflict (c : Cx) (offs : List (Nat × Int)) : Bool :=
  decide (1 < bankCycles (offs.map (fun x => (c.g.base + x.2.toNat) / 4)).eraseDups)

/-- A scratchpad load (R245, R253): checks, then its value at once. What a latch receives of a block load the rules do not say:
`rowsMemory` has it take none (log 2). -/
def Cx.spLoad (c : Cx) (f : Fields) (offs : List (Nat × Int)) (size align : Nat)
    (put : Cx → List (Nat × List Byte) → Cx) : Effect :=
  if c.held then .stall .sync
  else match c.spTrap offs size align with
  | some t => .trap t
  | none =>
    let bad := offs.filter (fun x => c.spBad x.2 size)
    if f.lw && (decide (4 < size) || bankConflict c offs) then .trap { cause := 0x05 }
    else if !bad.isEmpty then
      .thenDo c (freezeLanes c 1 (bad.map (fun x => (x.1, cCheck, BitVec.ofInt 64 x.2))))
    else .next (put c (offs.map (fun x => (x.1, c.spRead x.2 size))))

/-- A vector scratchpad load of a size code and tag (R247). -/
def spVecLoad (op : Nat) (f : Fields) (s : State) (sz : Nat) (tag : Tag) (offs : Cx → List (Nat × Int)) :
    Host.Outcome State Fault Refusal :=
  runPart op f s (fun c =>
    c.spLoad f (offs c) (szBytes sz) (szBytes sz) (fun c l =>
      c.putV op f (l.map (fun x => (x.1, extend sz x.2))) (fun _ => tag)))

/-- `vld.sp` (R247). -/
def execVldSp (f : Fields) (s : State) : Host.Outcome State Fault Refusal :=
  let sz := mmType f % 8
  spVecLoad 0x0CA f s sz tagAny (fun c => c.spContig f (szBytes sz))

/-- `vld.sp`, lane-address form (R247). -/
def execVldSpLane (f : Fields) (s : State) : Host.Outcome State Fault Refusal :=
  spVecLoad 0x0CF f s (mmType f % 8) tagAny (fun c => c.spLanes f)

/-- `vldt.sp` (R247). -/
def execVldtSp (f : Fields) (s : State) : Host.Outcome State Fault Refusal :=
  spVecLoad 0x0CC f s 0 (BitVec.ofNat 5 (mmType f)) (fun c => c.spContig f 4)

/-- `vldt.sp`, lane-address form (R247). -/
def execVldtSpLane (f : Fields) (s : State) : Host.Outcome State Fault Refusal :=
  spVecLoad 0x0D1 f s 0 (BitVec.ofNat 5 (mmType f)) (fun c => c.spLanes f)

/-- `vld.blk.sp` (R249). -/
def execVldBlkSp (f : Fields) (s : State) : Host.Outcome State Fault Refusal :=
  let b := mmType f % 8
  let d := f.d.toNat
  runPart 0x0CD f s (fun c =>
    c.spLoad f (c.spContig f (blkBytes b)) (blkBytes b) (blkAlign b) (fun c l =>
      l.foldl (fun c x =>
        let vals := blkRegs b (mmType f / 8 % 2) x.2 (c.readV (d + blkElems b) x.1)
        (List.range vals.length).foldl (fun c i => c.writeV (d + i) [(x.1, vals.getD i 0)] (fun _ => tagAny)) c) c))

/-- `sld.sp` (R248); under LW its latch is written as a scalar result's is (09 R155). -/
def execSldSp (f : Fields) (s : State) : Host.Outcome State Fault Refusal :=
  let sz := mmType f % 8
  runPart 0x0D7 f s (fun c =>
    c.spLoad f (c.spScalar f) (szBytes sz) (szBytes sz) (fun c l =>
      match l with
      | x :: _ => c.putS 0x0D7 f (extend sz x.2)
      | [] => c))

end Sys2Proof.Machine
end

