-- ==== Sys2Proof/Machine/Store.lean ====
section
/-! DEFINITION. Stores, prefetch, cache control and fences (12 R249-R255). -/
namespace Sys2Proof.Machine

/-- REL of a store, with its scope. -/
def storeRel (f : Fields) : Option Nat := if mmOrd1 f then some (mmScope f) else none

/-- A global store: checks, then an entry of the store queue (R245, R250, R253). -/
def globalStore (op : Nat) (f : Fields) (s : State) (size align : Nat) (addrs : Cx → Addrs)
    (data : Cx → Nat → List Byte) : Host.Outcome State Fault Refusal :=
  runPart op f s (fun c =>
    let l := addrs c
    if c.held then .stall .sync
    else match c.globalTrap l size align with
    | some t => .trap t
    | none =>
      if l.isEmpty then .next c
      else .next (c.push (c.entry (.store (l.map (fun x => ⟨x.1, x.2, data c x.1⟩))) (storeRel f) (mmFm f) l)))

/-- The low bytes of operand B in a lane. -/
def storeData (op : Nat) (f : Fields) (n : Nat) (c : Cx) (l : Nat) : List Byte := toBytes n (c.opn op f 1 .int l).toNat

/-- `vst` (R250). -/
def execVst (f : Fields) (s : State) : Host.Outcome State Fault Refusal :=
  let n := szBytes (mmType f % 8)
  globalStore 0x0C1 f s n n (fun c => c.contig f n) (storeData 0x0C1 f n)

/-- `vst`, lane-address form (R250). -/
def execVstLane (f : Fields) (s : State) : Host.Outcome State Fault Refusal :=
  let n := szBytes (mmType f % 8)
  globalStore 0x0C7 f s n n (fun c => c.laneAddrs f) (storeData 0x0C7 f n)

/-- `sst` (R250). -/
def execSst (f : Fields) (s : State) : Host.Outcome State Fault Refusal :=
  let n := szBytes (mmType f % 8)
  globalStore 0x0D3 f s n n (fun c => c.scalarAddr f) (storeData 0x0D3 f n)

/-- The bytes of a lane's block from the registers of B (R249). -/
def blkData (f : Fields) (b : Nat) (c : Cx) (l : Nat) : List Byte :=
  blkStore b (mmType f / 8 % 2) ((List.range (if b < 3 then blkElems b else blkElems b + 1)).map
    (fun i => c.readV (f.b.toNat + i) l))

/-- `vst.blk` (R249). -/
def execVstBlk (f : Fields) (s : State) : Host.Outcome State Fault Refusal :=
  let b := mmType f % 8
  globalStore 0x0C4 f s (blkBytes b) (blkAlign b) (fun c => c.contig f (blkBytes b)) (blkData f b)

/-- A scratchpad store: checks, then the bytes at once, lanes ascending (R245, R250, R253). -/
def spStore (op : Nat) (f : Fields) (s : State) (size align : Nat) (offs : Cx → List (Nat × Int))
    (data : Cx → Nat → List Byte) : Host.Outcome State Fault Refusal :=
  runPart op f s (fun c =>
    let l := offs c
    if c.held || (!l.isEmpty && c.releaseWaits (storeRel f)) then .stall .sync
    else match c.spTrap l size align with
    | some t => .trap t
    | none => .next (l.foldl (fun c' x => c'.spWrite x.2 (data c x.1)) c))

/-- `vst.sp` (R250). -/
def execVstSp (f : Fields) (s : State) : Host.Outcome State Fault Refusal :=
  let n := szBytes (mmType f % 8)
  spStore 0x0CB f s n n (fun c => c.spContig f n) (storeData 0x0CB f n)

/-- `vst.sp`, lane-address form (R250). -/
def execVstSpLane (f : Fields) (s : State) : Host.Outcome State Fault Refusal :=
  let n := szBytes (mmType f % 8)
  spStore 0x0D0 f s n n (fun c => c.spLanes f) (storeData 0x0D0 f n)

/-- `vst.blk.sp` (R249). -/
def execVstBlkSp (f : Fields) (s : State) : Host.Outcome State Fault Refusal :=
  let b := mmType f % 8
  spStore 0x0CE f s (blkBytes b) (blkAlign b) (fun c => c.spContig f (blkBytes b)) (blkData f b)

/-- `sst.sp` (R250). -/
def execSstSp (f : Fields) (s : State) : Host.Outcome State Fault Refusal :=
  let n := szBytes (mmType f % 8)
  spStore 0x0D8 f s n n (fun c => c.spScalar f) (storeData 0x0D8 f n)

/-! Prefetch and cache control. -/

/-- The 128-byte line of an address, which a prefetch fetches (R242, R251). -/
def lineOf (va : Dword) : Dword := BitVec.ofNat 64 (va.toNat / 128 * 128)

/-- An address whose line a prefetch leaves alone: it would fail a check, its line overlaps a range lock, or a peer
holds it (R251). -/
def prefetchDrops (k : Core) (asn : Nat) (va : Dword) : Bool :=
  (formCheck va 1 0).isSome || lockedGlobal k asn (lineOf va) 128 || isPeerVa va

/-- A line is brought towards the core (R251): from the core that its page's hint names (11 R234), else through its slice, where
as an L1 fill it joins a combining entry (11 R233). -/
def prefetchLine (l1 : Bool) (core asn : Nat) (region : Rgn) (s : State) (va : Dword) : State :=
  if prefetchDrops (getCore s core) asn va then s
  else match route s asn .load va with
  | .phys key _ =>
    let k := getCore s core
    let held := (findLine k asn va).isSome
    match if l1 && !held then probe s core asn region va else none with
    | some l => setCore s core (l1Fit { k with l1 := k.l1 ++ [l] })
    | none =>
      let s1 := l2Touch s (key / 128) region
      if !l1 || held then s1
      else if combineWin s1 (homeSlice s1 (key / 128)) = 0 then fillLine s1 core asn va
      else joinLine s1 (key / 128) region [] [(core, asn, lineOf va)]
  | _ => s

/-- `vprefetch` (R251): no value changes. -/
def prefetch (op : Nat) (f : Fields) (s : State) (addrs : Cx → Addrs) : Host.Outcome State Fault Refusal :=
  runPart op f s (fun c =>
    let l := addrs c
    if c.held then .stall .sync
    else .thenDo c (fun s => l.foldl (fun s x => prefetchLine (!tbit f.x 20) c.core c.g.asn c.g.region s x.2) s))

/-- `vprefetch` (R251). -/
def execVprefetch (f : Fields) (s : State) : Host.Outcome State Fault Refusal :=
  prefetch 0x0C5 f s (fun c => c.contig f 128)

/-- `vprefetch`, lane-address form (R251). -/
def execVprefetchLane (f : Fields) (s : State) : Host.Outcome State Fault Refusal :=
  prefetch 0x0C9 f s (fun c => c.laneAddrs f)

/-- `cctl.inv` (R252): the address is checked under R220 and not translated, nor against range locks (log 16). -/
def execCctlInv (f : Fields) (s : State) : Host.Outcome State Fault Refusal :=
  runPart 0x0D5 f s (fun c =>
    let va := c.basePair f + offWord f
    single f c (
      if c.held then .stall .sync
      else match earliest [(c.lane, va, formCheck va 1 0)] with
      | some t => .trap t
      | none =>
        .next { c with k := { c.k with l1 := c.k.l1.filter (fun l => !(l.asn = c.g.asn && l.line = va.toNat / 128)) } }))

/-- `cctl.invall` (R252). -/
def execCctlInvall (f : Fields) (s : State) : Host.Outcome State Fault Refusal :=
  runPart 0x0D5 f s (fun c =>
    single f c (if c.held then .stall .sync
      else .next { c with k := { c.k with l1 := c.k.l1.filter (fun l => l.asn != c.g.asn) } }))

/-- `cctl.invc` (R252): the constant cache and the resource-record cache. -/
def execCctlInvc (f : Fields) (s : State) : Host.Outcome State Fault Refusal :=
  runPart 0x0D5 f s (fun c => single f c (if c.held then .stall .sync
    else .next { c with k := { c.k with constCache := [], records := [] } }))

/-- `cctl.demote` (R252). -/
def execCctlDemote (f : Fields) (s : State) : Host.Outcome State Fault Refusal :=
  runPart 0x0D5 f s (fun c =>
    let va := c.basePair f + offWord f
    single f c (
      if c.held then .stall .sync
      else match earliest [(c.lane, va, formCheck va 1 0)] with
      | some t => .trap t
      | none =>
        if prefetchDrops c.k c.g.asn va then .next c
        else match route c.s c.g.asn .load va with
        | .phys key _ =>
          let mark (l : L2Line) : L2Line := { l with demoted := true }
          .next { c with s := { c.s with l2 := updateWhere (fun l => l.line = key / 128) mark c.s.l2 } }
        | _ => .next c))

/-! Fences (R255). -/

def fenceScope (f : Fields) : Nat := bits f.x 0 3

/-- `fence` of KIND full: `fence.wave` orders nothing beyond R253 and R254. -/
def execFenceFull (f : Fields) (s : State) : Host.Outcome State Fault Refusal :=
  runPart 0x0D6 f s (fun c =>
    single f c (if !c.held && (fenceScope f = 0 || c.performed (fenceScope f)) then .next c else .stall .sync))

/-- `fence.acq`: the part's older loads have returned, then the caches are treated as the scope requires (19
R357). -/
def execFenceAcq (f : Fields) (s : State) : Host.Outcome State Fault Refusal :=
  runPart 0x0D6 f s (fun c =>
    single f c (
      if c.fenced || c.w.loads.any (fun ld => (ld.part &&& c.p.lanes) != 0) then .stall .sync
      else .next { c with k := l1Acquire c.k c.g.asn (fenceScope f) }))

/-- `fence.rel`: later stores of the part are releases at SCOPE. -/
def execFenceRel (f : Fields) (s : State) : Host.Outcome State Fault Refusal :=
  runPart 0x0D6 f s (fun c =>
    single f c (if c.held then .stall .sync
      else .next (c.part (fun p => { p with relScope := c.release (some (fenceScope f)) }))))

end Sys2Proof.Machine
end

