-- ==== Sys2Proof/Machine/Atomic.lean ====
section
/-! DEFINITION. Atomics and deterministic sums (12 R256-R259). -/
namespace Sys2Proof.Machine

/-- The new word of an atomic, by operation number: 0 add to 12 fmax (R256). -/
def atomicNew (op : Nat) (unsigned : Bool) (old b new : Word) : Word :=
  match op with
  | 0 => old + b
  | 1 => old - b
  | 2 => if unsigned then minU old b else minS old b
  | 3 => if unsigned then maxU old b else maxS old b
  | 4 => old &&& b
  | 5 => old ||| b
  | 6 => old ^^^ b
  | 7 => b
  | 8 => if old = b then new else old
  | 9 => if b.ule old then 0 else old + 1
  | 10 => f32Add old b
  | 11 => BitVec.ofNat 32 (fp32.select false old.toNat b.toNat)
  | _ => BitVec.ofNat 32 (fp32.select true old.toNat b.toNat)

/-- How operation op reads an inline constant. -/
def atomicKind (op : Nat) : OpKind := if 10 ≤ op then .f32 else .int

/-- Operand and new value of a lane: `cas` takes a register pair as B. -/
def Cx.atomicOperand (c : Cx) (f : Fields) (op l : Nat) : Word × Word :=
  let n := f.b.toNat
  if op = 8 then (c.src .int false n 0 l, c.src .int false n 1 l)
  else (c.src (atomicKind op) f.bl n 0 l, 0)

/-- ORD as acquire and release scopes (R243). -/
def ordAcq (f : Fields) : Option Nat := if mmOrd f % 2 = 1 then some (mmScope f) else none
def ordRel (f : Fields) : Option Nat := if 2 ≤ mmOrd f then some (mmScope f) else none

/-- The load in flight that an atomic returns through: its lanes wait for their bank operation. -/
def Cx.returnLoad (c : Cx) (f : Fields) (dst : LoadDst) (regs : List Nat) (addrs : Addrs) : Cx × Nat :=
  let id := c.k.nextLoad
  let ld : Load := { id := id, seq := c.w.seq, dst := dst, part := c.p.lanes, regs := regs, acq := scopeFor addrs (ordAcq f)
                     lanes := addrs.map (fun x => { lane := x.1, va := x.2, arrived := true }), maySplit := false
                     mask := maskOf (addrs.map (·.1)), settled := true, cycle := c.cyc, pc := c.p.pc }
  let c1 := { c with k := { c.k with nextLoad := id + 1 }, w := { c.w with loads := c.w.loads ++ [ld] } }
  (if (ordAcq f).isSome then c1.part (fun p => { p with holds := id :: p.holds }) else c1, id)

/-- An atomic is a switch point (07 R131). -/
def Cx.afterAtomic (c : Cx) : Effect := .at (c.nextPc.part switchPath)

/-- A global atomic: checks, then an entry of the store queue with its load (R256, R257). -/
def globalAtomic (opcode op : Nat) (f : Fields) (s : State) (dst : LoadDst) (regs : List Nat) (addrs : Cx → Addrs) :
    Host.Outcome State Fault Refusal :=
  runPart opcode f s (fun c =>
    let l := addrs c
    if c.held then .stall .sync
    else match c.globalTrap l 4 4 with
    | some t => .trap t
    | none =>
      if l.isEmpty then c.afterAtomic
      else
        let x := c.returnLoad f dst regs l
        let lanes := l.map (fun a => (⟨a.1, a.2, (c.atomicOperand f op a.1).1, (c.atomicOperand f op a.1).2⟩ : LaneAtomic))
        (x.1.push (c.entry (.atomic op (tbit f.x 20) lanes x.2) (ordRel f) (mmFm f) l)).afterAtomic)

/-- A vector atomic in memory (R256). -/
def vatom (opcode op : Nat) (f : Fields) (s : State) : Host.Outcome State Fault Refusal :=
  globalAtomic opcode op f s (.atomV (loadReg f)) (loadReg f).toList (fun c => c.laneAddrs f)

/-- A scalar atomic in memory (R257). -/
def satom (opcode op : Nat) (f : Fields) (s : State) : Host.Outcome State Fault Refusal :=
  globalAtomic opcode op f s (.atomS (f.d.toNat - 256)) [f.d.toNat] (fun c => c.scalarAddr f)

/-- A scratchpad atomic: lanes ascending, each at its bank; lanes in failing sectors are not applied, and the
wave freezes (R256; 11 R238). -/
def spAtomic (opcode op : Nat) (f : Fields) (s : State) (offs : Cx → List (Nat × Int))
    (put : Cx → Nat → Word → Cx) : Host.Outcome State Fault Refusal :=
  runPart opcode f s (fun c =>
    let l := offs c
    if c.held || (!l.isEmpty && c.releaseWaits (ordRel f)) then .stall .sync
    else match c.spTrap l 4 4 with
    | some t => .trap t
    | none =>
      let bad := l.filter (fun x => c.spBad x.2 4)
      let one (c' : Cx) (x : Nat × Int) : Cx :=
        let old : Word := BitVec.ofNat 32 (ofBytes (c'.spRead x.2 4))
        let b := c.atomicOperand f op x.1
        put (c'.spWrite x.2 (toBytes 4 (atomicNew op (tbit f.x 20) old b.1 b.2).toNat)) x.1 old
      let c1 := (l.filter (fun x => !c.spBad x.2 4)).foldl one c
      if bad.isEmpty then c1.afterAtomic
      else .whole (freezeLanes c 3 (bad.map (fun x => (x.1, cCheck, BitVec.ofInt 64 x.2))) (c1.nextPc.part switchPath).commit))

/-- A vector atomic in the scratchpad (R256). -/
def vatomSp (opcode op : Nat) (f : Fields) (s : State) : Host.Outcome State Fault Refusal :=
  spAtomic opcode op f s (fun c => c.spLanes f) (fun c l old =>
    if f.dn then c else c.writeV f.d.toNat [(l, old)] (fun _ => tagAny))

/-- A scalar atomic in the scratchpad (R257). -/
def satomSp (opcode op : Nat) (f : Fields) (s : State) : Host.Outcome State Fault Refusal :=
  spAtomic opcode op f s (fun c => c.spScalar f) (fun c _ old => c.writeS (f.d.toNat - 256) old)

/-- `vatom.add` (R256). -/
def execVatomAdd (f : Fields) (s : State) : Host.Outcome State Fault Refusal := vatom 0x0E0 0 f s

/-- `vatom.sub` (R256). -/
def execVatomSub (f : Fields) (s : State) : Host.Outcome State Fault Refusal := vatom 0x0E1 1 f s

/-- `vatom.min` (R256). -/
def execVatomMin (f : Fields) (s : State) : Host.Outcome State Fault Refusal := vatom 0x0E2 2 f s

/-- `vatom.max` (R256). -/
def execVatomMax (f : Fields) (s : State) : Host.Outcome State Fault Refusal := vatom 0x0E3 3 f s

/-- `vatom.and` (R256). -/
def execVatomAnd (f : Fields) (s : State) : Host.Outcome State Fault Refusal := vatom 0x0E4 4 f s

/-- `vatom.or` (R256). -/
def execVatomOr (f : Fields) (s : State) : Host.Outcome State Fault Refusal := vatom 0x0E5 5 f s

/-- `vatom.xor` (R256). -/
def execVatomXor (f : Fields) (s : State) : Host.Outcome State Fault Refusal := vatom 0x0E6 6 f s

/-- `vatom.xchg` (R256). -/
def execVatomXchg (f : Fields) (s : State) : Host.Outcome State Fault Refusal := vatom 0x0E7 7 f s

/-- `vatom.cas` (R256). -/
def execVatomCas (f : Fields) (s : State) : Host.Outcome State Fault Refusal := vatom 0x0E8 8 f s

/-- `vatom.inc` (R256). -/
def execVatomInc (f : Fields) (s : State) : Host.Outcome State Fault Refusal := vatom 0x0E9 9 f s

/-- `vatom.fadd` (R256). -/
def execVatomFadd (f : Fields) (s : State) : Host.Outcome State Fault Refusal := vatom 0x0EA 10 f s

/-- `vatom.fmin` (R256). -/
def execVatomFmin (f : Fields) (s : State) : Host.Outcome State Fault Refusal := vatom 0x0EB 11 f s

/-- `vatom.fmax` (R256). -/
def execVatomFmax (f : Fields) (s : State) : Host.Outcome State Fault Refusal := vatom 0x0EC 12 f s

/-- `satom.add` (R257). -/
def execSatomAdd (f : Fields) (s : State) : Host.Outcome State Fault Refusal := satom 0x0F0 0 f s

/-- `satom.sub` (R257). -/
def execSatomSub (f : Fields) (s : State) : Host.Outcome State Fault Refusal := satom 0x0F1 1 f s

/-- `satom.min` (R257). -/
def execSatomMin (f : Fields) (s : State) : Host.Outcome State Fault Refusal := satom 0x0F2 2 f s

/-- `satom.max` (R257). -/
def execSatomMax (f : Fields) (s : State) : Host.Outcome State Fault Refusal := satom 0x0F3 3 f s

/-- `satom.and` (R257). -/
def execSatomAnd (f : Fields) (s : State) : Host.Outcome State Fault Refusal := satom 0x0F4 4 f s

/-- `satom.or` (R257). -/
def execSatomOr (f : Fields) (s : State) : Host.Outcome State Fault Refusal := satom 0x0F5 5 f s

/-- `satom.xor` (R257). -/
def execSatomXor (f : Fields) (s : State) : Host.Outcome State Fault Refusal := satom 0x0F6 6 f s

/-- `satom.xchg` (R257). -/
def execSatomXchg (f : Fields) (s : State) : Host.Outcome State Fault Refusal := satom 0x0F7 7 f s

/-- `satom.cas` (R257). -/
def execSatomCas (f : Fields) (s : State) : Host.Outcome State Fault Refusal := satom 0x0F8 8 f s

/-- `satom.inc` (R257). -/
def execSatomInc (f : Fields) (s : State) : Host.Outcome State Fault Refusal := satom 0x0F9 9 f s

/-- `satom.fadd` (R257). -/
def execSatomFadd (f : Fields) (s : State) : Host.Outcome State Fault Refusal := satom 0x0FA 10 f s

/-- `satom.fmin` (R257). -/
def execSatomFmin (f : Fields) (s : State) : Host.Outcome State Fault Refusal := satom 0x0FB 11 f s

/-- `satom.fmax` (R257). -/
def execSatomFmax (f : Fields) (s : State) : Host.Outcome State Fault Refusal := satom 0x0FC 12 f s

/-- `vatom.sp.add` (R256). -/
def execVatomSpAdd (f : Fields) (s : State) : Host.Outcome State Fault Refusal := vatomSp 0x100 0 f s

/-- `vatom.sp.sub` (R256). -/
def execVatomSpSub (f : Fields) (s : State) : Host.Outcome State Fault Refusal := vatomSp 0x101 1 f s

/-- `vatom.sp.min` (R256). -/
def execVatomSpMin (f : Fields) (s : State) : Host.Outcome State Fault Refusal := vatomSp 0x102 2 f s

/-- `vatom.sp.max` (R256). -/
def execVatomSpMax (f : Fields) (s : State) : Host.Outcome State Fault Refusal := vatomSp 0x103 3 f s

/-- `vatom.sp.and` (R256). -/
def execVatomSpAnd (f : Fields) (s : State) : Host.Outcome State Fault Refusal := vatomSp 0x104 4 f s

/-- `vatom.sp.or` (R256). -/
def execVatomSpOr (f : Fields) (s : State) : Host.Outcome State Fault Refusal := vatomSp 0x105 5 f s

/-- `vatom.sp.xor` (R256). -/
def execVatomSpXor (f : Fields) (s : State) : Host.Outcome State Fault Refusal := vatomSp 0x106 6 f s

/-- `vatom.sp.xchg` (R256). -/
def execVatomSpXchg (f : Fields) (s : State) : Host.Outcome State Fault Refusal := vatomSp 0x107 7 f s

/-- `vatom.sp.cas` (R256). -/
def execVatomSpCas (f : Fields) (s : State) : Host.Outcome State Fault Refusal := vatomSp 0x108 8 f s

/-- `vatom.sp.inc` (R256). -/
def execVatomSpInc (f : Fields) (s : State) : Host.Outcome State Fault Refusal := vatomSp 0x109 9 f s

/-- `vatom.sp.fadd` (R256). -/
def execVatomSpFadd (f : Fields) (s : State) : Host.Outcome State Fault Refusal := vatomSp 0x10A 10 f s

/-- `vatom.sp.fmin` (R256). -/
def execVatomSpFmin (f : Fields) (s : State) : Host.Outcome State Fault Refusal := vatomSp 0x10B 11 f s

/-- `vatom.sp.fmax` (R256). -/
def execVatomSpFmax (f : Fields) (s : State) : Host.Outcome State Fault Refusal := vatomSp 0x10C 12 f s

/-- `satom.sp.add` (R257). -/
def execSatomSpAdd (f : Fields) (s : State) : Host.Outcome State Fault Refusal := satomSp 0x110 0 f s

/-- `satom.sp.sub` (R257). -/
def execSatomSpSub (f : Fields) (s : State) : Host.Outcome State Fault Refusal := satomSp 0x111 1 f s

/-- `satom.sp.min` (R257). -/
def execSatomSpMin (f : Fields) (s : State) : Host.Outcome State Fault Refusal := satomSp 0x112 2 f s

/-- `satom.sp.max` (R257). -/
def execSatomSpMax (f : Fields) (s : State) : Host.Outcome State Fault Refusal := satomSp 0x113 3 f s

/-- `satom.sp.and` (R257). -/
def execSatomSpAnd (f : Fields) (s : State) : Host.Outcome State Fault Refusal := satomSp 0x114 4 f s

/-- `satom.sp.or` (R257). -/
def execSatomSpOr (f : Fields) (s : State) : Host.Outcome State Fault Refusal := satomSp 0x115 5 f s

/-- `satom.sp.xor` (R257). -/
def execSatomSpXor (f : Fields) (s : State) : Host.Outcome State Fault Refusal := satomSp 0x116 6 f s

/-- `satom.sp.xchg` (R257). -/
def execSatomSpXchg (f : Fields) (s : State) : Host.Outcome State Fault Refusal := satomSp 0x117 7 f s

/-- `satom.sp.cas` (R257). -/
def execSatomSpCas (f : Fields) (s : State) : Host.Outcome State Fault Refusal := satomSp 0x118 8 f s

/-- `satom.sp.inc` (R257). -/
def execSatomSpInc (f : Fields) (s : State) : Host.Outcome State Fault Refusal := satomSp 0x119 9 f s

/-- `satom.sp.fadd` (R257). -/
def execSatomSpFadd (f : Fields) (s : State) : Host.Outcome State Fault Refusal := satomSp 0x11A 10 f s

/-- `satom.sp.fmin` (R257). -/
def execSatomSpFmin (f : Fields) (s : State) : Host.Outcome State Fault Refusal := satomSp 0x11B 11 f s

/-- `satom.sp.fmax` (R257). -/
def execSatomSpFmax (f : Fields) (s : State) : Host.Outcome State Fault Refusal := satomSp 0x11C 12 f s

/-! Deterministic sums. -/

/-- A sum operation of the store queue: checks at 32 bytes, then the entry; an acquire waits through a load. -/
def sumEntry (op : Nat) (f : Fields) (s : State) (addrs : Cx → Addrs) (kind : Cx → Addrs → Option Nat → QKind)
    (done : Cx → Effect) : Host.Outcome State Fault Refusal :=
  runPart op f s (fun c =>
    let l := addrs c
    if c.held then .stall .sync
    else match c.globalTrap l 32 32 with
    | some t => .trap t
    | none =>
      if l.isEmpty then done c
      else
        let x : Cx × Option Nat :=
          if (ordAcq f).isSome then
            let y := c.returnLoad f .ack [] l
            (y.1, some y.2)
          else (c, none)
        done (x.1.push (c.entry (kind c l x.2) (ordRel f) (mmFm f) l)))

/-- The format in which a contribution's operand is read (R259). -/
def sumKind (fmt : Nat) : OpKind := if fmt = 0 then .f32 else if fmt = 1 then .f16 else .b16

/-- `vatom.fadd.d` (R259). -/
def execVatomFaddD (f : Fields) (s : State) : Host.Outcome State Fault Refusal :=
  let fmt := mmType f % 4
  sumEntry 0x0ED f s (fun c => c.laneAddrs f)
    (fun c l ld => .contribute fmt (l.map (fun a => ⟨a.1, a.2, c.opn 0x0ED f 1 (sumKind fmt) a.1, 0⟩)) ld)
    (fun c => c.afterAtomic)

/-- `suminit` (R258). -/
def execSuminit (f : Fields) (s : State) : Host.Outcome State Fault Refusal :=
  sumEntry 0x0EE f s (fun c => c.scalarAddr f)
    (fun c l ld => match l with
      | a :: _ => .sumInit a.1 a.2 (BitVec.ofNat 16 (c.opn 0x0EE f 1 .int 0).toNat) ld
      | [] => .sumInit 0 0 0 ld)
    (fun c => .next c)

end Sys2Proof.Machine
end

