-- ==== Sys2Proof/Machine/Fetch.lean ====
section
/-! DEFINITION. Fetching an instruction word (04 R64-R67). -/
namespace Sys2Proof.Machine

/-- The segment that a part fetches from (22 R393). -/
def fetchSeg (w : Wave) (p : Part) : CodeSeg := ((p.handler.bind (·.code))).getD w.code

/-- What a fetch gives (R64-R66). -/
inductive Fetched where
  | word (w : BitVec 96)
  /-- FETCH_BOUNDS (R65). -/
  | outside
  /-- A freeze cause, with the address (R66, 11 R223). -/
  | freeze (cause : Byte) (va : Dword)
  deriving DecidableEq, Repr

/-- The instruction word at a part's PC. -/
def fetchWord (s : State) (w : Wave) (p : Part) : Fetched :=
  let seg := fetchSeg w p
  if seg.len / 12 ≤ p.pc.toNat then .outside
  else
    let va := seg.base + BitVec.ofNat 64 (12 * p.pc.toNat)
    let one (i : Nat) : Option Nat :=
      match route s seg.asn .fetch (va + BitVec.ofNat 64 i) with
      | .phys key _ => some key
      | _ => none
    match route s seg.asn .fetch va, route s seg.asn .fetch (va + 11) with
    | .denied c, _ => .freeze c va
    | _, .denied c => .freeze c (va + 11)
    | _, _ =>
      let keys := (List.range 12).map one
      if keys.any (fun k => (k.map (fun x => memBadAt s x 1)).getD false) then .freeze cCheck va
      else .word (BitVec.ofNat 96 (ofBytes (keys.map (fun k => (k.map (fun x => kget 0 s.mem x)).getD 0))))

end Sys2Proof.Machine
end

