-- ==== Sys2Proof/Machine/Shape.lean ====
section
/-! DEFINITION. The shape of a wave: splitting, the rejoin stack, fusion, ended lanes, and the workgroup
barrier (07 R119-R131; 20 R367-R372). -/
namespace Sys2Proof.Machine

/-- A part of a wave by its lowest lane. -/
def findPart (w : Wave) (lane : Nat) : Option Part := w.parts.find? (fun p => lowestLane p.lanes = lane)

def updPart (w : Wave) (lane : Nat) (g : Part → Part) : Wave :=
  { w with parts := updateWhere (fun p => lowestLane p.lanes = lane) g w.parts }

/-- Parts in order of their lowest lane. -/
def sortParts (ps : List Part) : List Part := sortBy (fun a b => decide (lowestLane a.lanes < lowestLane b.lanes)) ps

/-- Latches of one number in two parts that fuse: the lanes and quads of both. -/
def joinLatches (l : List Latch) (x : Latch) : List Latch :=
  match l.find? (fun y => y.idx = x.idx) with
  | none => l ++ [x]
  | some y => { y with cycle := max y.cycle x.cycle, vals := y.vals ++ x.vals, tags := y.tags ++ x.tags } ::
      l.filter (fun z => z.idx != x.idx)

/-- The window of parts that fuse inside one (04 R76): a forced fusion closes no window. -/
def joinWindows (a b : Option Window) : Option Window :=
  match a, b with
  | some x, some y => some { x with count := max x.count y.count, reads := x.reads ++ y.reads
                                    writes := x.writes ++ y.writes, latches := y.latches.foldl joinLatches x.latches }
  | some x, none => some x
  | none, y => y

/-- The wider of two release scopes. -/
def widest : Option Nat → Option Nat → Option Nat
  | some a, some b => some (max a b)
  | some a, none => some a
  | none, b => b

/-- Parts that fuse (R107, R123): the scalar state, the PC and the first paths are those of the part with the
lowest lane; active and idle lanes unite. It may issue from the next cycle (R125). -/
def fuseParts (cyc : Nat) (ps : List Part) : Option Part :=
  match sortParts ps with
  | [] => none
  | b :: rest =>
    some { b with
      lanes := rest.foldl (fun m p => m ||| p.lanes) b.lanes
      run := rest.foldl (fun m p => m ||| p.run) b.run
      exec := rest.foldl (fun m p => m ||| p.exec) b.exec
      paths := b.paths ++ rest.flatMap (·.paths)
      holds := b.holds ++ rest.flatMap (·.holds)
      relScope := rest.foldl (fun m p => widest m p.relScope) b.relScope
      stepping := (b :: rest).any (·.stepping)
      nextIssue := rest.foldl (fun m p => max m p.nextIssue) (max b.nextIssue (cyc + 1))
      window := rest.foldl (fun w p => joinWindows w p.window) b.window
      wait := .ready, readyFor := 0, starved := false, stallFor := 0, flushed := false }

/-- A stalled part tests its width again when the wave's shape changes (R126). -/
def retest (w : Wave) : Wave :=
  { w with parts := updateWhere (fun p => p.wait = .width) (fun p => { p with wait := .ready }) w.parts }

/-- Replace some parts of a wave by their fusion. -/
def fuseWhere (w : Wave) (cyc : Nat) (sel : Part → Bool) : Wave :=
  match fuseParts cyc (w.parts.filter sel) with
  | none => w
  | some q => retest { w with parts := sortParts (q :: w.parts.filter (fun p => !sel p)) }

/-! The rejoin stack (R121-R124). The most recent entry comes first. -/

/-- The entry that a part holding these lanes matches (R123). -/
def matchEntry (w : Wave) (held : Lanes) : Option RejoinEntry :=
  w.rejoin.find? (fun e => (held &&& ~~~e.lanes) = 0 && (e.arrived &&& held) = 0)

def putEntry (w : Wave) (e : RejoinEntry) : Wave :=
  { w with rejoin := updateWhere (fun x => x.idx = e.idx) (fun _ => e) w.rejoin }

def freeEntry (w : Wave) (idx : Nat) : Wave := { w with rejoin := w.rejoin.filter (fun x => x.idx != idx) }

/-- complete(e) (R123): every lane, held by any part, of every expected quad has arrived. -/
def entryComplete (w : Wave) (e : RejoinEntry) : Bool :=
  (liveLanes w &&& quadLanes e.expect &&& ~~~e.arrived) = 0

/-- A part leaves a `rejoin` for the next instruction. -/
def stepPast (cyc : Nat) (p : Part) : Part :=
  { p with pc := p.pc + 1, wait := .ready, nextIssue := max p.nextIssue (cyc + 1) }

/-- A part arrives at the entry that it matches (R123): it is marked there and stands parked until the end of the cycle,
where the completion test and the deadline test are made (R125). Without a match it goes on. -/
def arrive (w : Wave) (lane rejoin cyc : Nat) : Wave :=
  match findPart w lane with
  | none => w
  | some p =>
    match matchEntry w p.lanes with
    | none => updPart w lane (stepPast cyc)
    | some e =>
      let e0 := { e with arrived := e.arrived ||| p.lanes }
      let e1 := if e.started then e0
        else { e0 with started := true, rpc := p.pc, deadline := BitVec.ofNat 16 rejoin }
      updPart (putEntry w e1) lane (fun q => { q with wait := .parked e.idx })

/-- A part leaves an entry: to the next instruction, or to the next entry when the entry is of kind MISS. -/
def leaveEntry (w : Wave) (e : RejoinEntry) (lane rejoin cyc : Nat) : Wave :=
  if e.miss then arrive (updPart w lane (fun q => { q with wait := .ready, nextIssue := max q.nextIssue (cyc + 1) })) lane rejoin cyc
  else updPart w lane (stepPast cyc)

/-- Every part parked at an entry passes through unfused (R122, R124). -/
def passThrough (w : Wave) (e : RejoinEntry) (rejoin cyc : Nat) : Wave :=
  (w.parts.filter (fun p => p.wait = .parked e.idx)).foldl (fun w p => leaveEntry w e (lowestLane p.lanes) rejoin cyc) w

/-- The lowest index of the sixteen that no entry has. -/
def freeIdx (w : Wave) : Nat := ((List.range 16).find? (fun i => w.rejoin.all (fun e => e.idx != i))).getD 15

/-- A push (R122); a seventeenth entry first frees the oldest. -/
def pushEntry (w : Wave) (lanes : Lanes) (miss : Bool) (rejoin cyc : Nat) : Wave :=
  let w1 := if w.rejoin.length < 16 then w
    else match w.rejoin.getLast? with
      | none => w
      | some e => passThrough (freeEntry w e.idx) e rejoin cyc
  let e : RejoinEntry := { idx := freeIdx w1, lanes := lanes, token := w1.token, expect := quadsOf lanes, miss := miss }
  { w1 with rejoin := e :: w1.rejoin, token := w1.token + 1 }

/-- The end of a cycle at one entry (R125): quads whose lanes have ended are no longer expected, and an entry that expects
nothing is freed (R129); a complete entry fuses its parked parts; then the parts at an expired entry, at any entry under
REJOIN 0, or at one whose deadline has passed while deadlines run, pass through. -/
def settleEntry (rejoin cyc : Nat) (runs : Bool) (w : Wave) (idx : Nat) : Wave :=
  match w.rejoin.find? (fun e => e.idx = idx) with
  | none => w
  | some x =>
    let e := { x with expect := x.expect &&& quadsOf (liveLanes w) }
    let w1 := putEntry w e
    let there := w1.parts.filter (fun p => p.wait = .parked idx)
    if e.expect = 0 then freeEntry w1 idx
    else if entryComplete w1 e then
      let w2 := fuseWhere (freeEntry w1 idx) cyc (fun q => q.wait = .parked idx)
      if there.isEmpty then w2
      else leaveEntry w2 e (lowestLane (there.foldl (fun m q => m ||| q.lanes) 0)) rejoin cyc
    else if e.started && (e.expired || rejoin = 0 || (runs && e.deadline = 0)) then
      passThrough (putEntry w1 { e with expired := true }) e rejoin cyc
    else w1

/-- The end of a cycle at every entry, the most recent first: a part that goes on from an entry of kind MISS arrives at an
older one. -/
def settleEntries (rejoin cyc : Nat) (runs : Bool) (w : Wave) : Wave :=
  (w.rejoin.map (·.idx)).foldl (settleEntry rejoin cyc runs) w

/-- Every part stands at `fuse` (R127): all fuse, the stack is freed, and the fused part goes on. -/
def fuseAll (w : Wave) (cyc : Nat) : Wave :=
  if !w.parts.isEmpty && w.parts.all (fun p => p.wait = .fuse && p.frozen.isNone) then
    let low := lowestLane (liveLanes w)
    updPart (fuseWhere { w with rejoin := [] } cyc (fun _ => true)) low (stepPast cyc)
  else w

/-- Lanes of a path that are left. -/
def pathWithout (dead : Lanes) (x : Path) : Path := { x with lanes := x.lanes &&& ~~~dead, active := x.active &&& ~~~dead }

def pathsWithout (dead : Lanes) (l : List Path) : List Path := (l.map (pathWithout dead)).filter (fun x => x.lanes != 0)

def partWithout (dead : Lanes) (p : Part) : Part :=
  { p with lanes := p.lanes &&& ~~~dead, run := p.run &&& ~~~dead, exec := p.exec &&& ~~~dead
           paths := pathsWithout dead p.paths
           handler := p.handler.map (fun h => { h with aside := pathsWithout dead h.aside }) }

/-- Lanes end (R129): parts without lanes end, and register writes still due to ended lanes are discarded (R182). The rejoin
entries are tested at the end of the cycle. -/
def endLanes (w : Wave) (dead : Lanes) (cyc : Nat) : Wave :=
  let ps := (w.parts.map (partWithout dead)).filter (fun p => p.lanes != 0)
  let cut (ld : Load) : Load :=
    if ld.dst.isScalar then { ld with part := ld.part &&& ~~~dead }
    else { ld with lanes := ld.lanes.filter (fun l => !tbit dead l.lane) }
  let ls := (w.loads.map cut).filter (fun ld => !ld.lanes.isEmpty && ld.part != 0)
  fuseAll (retest { w with parts := ps, loads := ls }) cyc

/-! Forced fusion and its deadlock (R126, R128; 20 R369). -/

/-- A group of parts that R126 fuses: stalled at one PC with the same innermost entry. -/
def fuseGroup (w : Wave) : Option (Word × Option Nat) :=
  let key (p : Part) : Word × Option Nat := (p.pc, (matchEntry w p.lanes).map (·.idx))
  let st := w.parts.filter (fun p => p.wait = .width && p.frozen.isNone)
  (st.find? (fun p => decide (1 < (st.filter (fun q => decide (key q = key p))).length))).map key

/-- Every part is stalled at a width requirement or a `fuse`, or parked at a barrier beside such a part. -/
def allStalled (w : Wave) : Bool :=
  w.parts.all (fun p => p.frozen.isNone && (p.wait = .width || p.wait = .fuse || p.wait = .barrier || p.wait = .gbar)) &&
  w.parts.any (fun p => p.wait = .width || p.wait = .fuse)

/-- Raise one trap in several parts, each at its own instruction. -/
def raiseAll (s : State) (core slot : Nat) (lanes : List Nat) (cause : Byte) : State :=
  lanes.foldl (fun s l =>
    match partAt s ⟨core, slot, l⟩ with
    | some c => takeTrap (c.part (fun p => { p with wait := .ready })) { cause := cause }
    | none => s) s

/-- The kernel of a wave. -/
def waveKernel (k : Core) (w : Wave) : Kernel := ((getWg k w.wg).map (·.kernel)).getD {}

/-- Forced fusion of a wave's stalled parts (R126), or FUSE_DEADLOCK when nothing can fuse (R128, R369). -/
def forceFuse (s : State) (core slot : Nat) : State :=
  match getWave (getCore s core) slot with
  | none => s
  | some w =>
    if w.frozen.isSome || w.halted then s
    else match fuseGroup w with
      | some key =>
        updWave s core slot (fun w => fuseWhere w (coreCyc s core) (fun p =>
          p.wait = .width && p.frozen.isNone && decide ((p.pc, (matchEntry w p.lanes).map (·.idx)) = key)))
      | none =>
        if allStalled w then raiseAll s core slot (w.parts.map (fun p => lowestLane p.lanes)) 0x0A else s

/-! The workgroup barrier (20 R367-R369, R372). -/

/-- Some part of the wave is left, and each is parked at a barrier; a frozen wave has not arrived (R368). -/
def waveArrived (w : Wave) : Bool :=
  w.frozen.isNone && !w.parts.isEmpty && w.parts.all (fun p => (p.wait = .barrier || p.wait = .gbar) && p.frozen.isNone)

def updWg (s : State) (core bar : Nat) (g : Workgroup → Workgroup) : State :=
  let k := getCore s core
  match getWg k bar with
  | none => s
  | some x => setCore s core (setWg k bar (g x))

/-- Where the waves of a workgroup stand: wave slot, placement number, next access. -/
def waveMarks (k : Core) (g : Workgroup) : List (Nat × Nat × Nat) :=
  g.slots.filterMap (fun sl => (getWave k sl).map (fun w => (sl, w.serial, w.seq)))

/-- A barrier instance opens: GEN rises, and every parked part becomes ready after its instruction. Later accesses of the
workgroup come after those that its waves have made so far (19 R362). -/
def openBarrier (s : State) (core bar : Nat) : State :=
  match getWg (getCore s core) bar with
  | none => s
  | some g =>
    let cyc := coreCyc s core
    let marks := waveMarks (getCore s core) g
    let wake (p : Part) : Part := if p.wait = .barrier || p.wait = .gbar then stepPast cyc p else p
    let s1 := g.slots.foldl (fun s sl => updWave s core sl (fun w => { w with parts := w.parts.map wake })) s
    updWg s1 core bar (fun g => { g with gen := g.gen + 1, arrived := 0, barKind := 0, gbarSent := false, gbarIn := false,
                                         gbarDue := false, fences := marks })

/-- The opening test of a workgroup's barrier, with the mixed-kind test. -/
def barrierTest (s : State) (core bar : Nat) : State :=
  let k := getCore s core
  match getWg k bar with
  | none => s
  | some g =>
    let ws := g.slots.filterMap (getWave k)
    let bit (sel : Wave → Bool) : Half := maskOf ((ws.filter sel).map (·.index))
    let live := bit (fun w => !w.parts.isEmpty)
    let arr := bit waveArrived
    let waits := ws.flatMap (fun w => w.parts.map (·.wait))
    let kind := if waits.contains .gbar then 2 else if waits.contains .barrier then 1 else 0
    let s1 := updWg s core bar (fun g => { g with live := live, arrived := arr, barKind := kind })
    if live = 0 || arr != live then s1
    else if waits.all (· = .barrier) then openBarrier s1 core bar
    else if waits.all (· = .gbar) then updWg s1 core bar (fun g => { g with gbarSent := true })
    else
      let s2 := updWg s1 core bar (fun g => { g with arrived := 0, barKind := 0 })
      g.slots.foldl (fun s sl =>
        match getWave (getCore s core) sl with
        | none => s
        | some w => raiseAll s core sl (w.parts.map (fun p => lowestLane p.lanes)) 0x15) s2

/-! The Capstan counter of a grid-sync launch (20 R371, R372). -/

def getCapstan (s : State) (i : Nat) : Capstan := kget {} s.capstans i
def setCapstan (s : State) (i : Nat) (x : Capstan) : State := { s with capstans := kset {} s.capstans i x }

/-- The workgroups of a launch on all cores: core and barrier slot. -/
def wgsOf (s : State) (acc : Nat) : List (Nat × Nat) :=
  s.cores.flatMap (fun kc => (kc.2.wgs.filter (fun g => (g.2.map (·.launch)) = some acc)).map (fun g => (kc.1, g.1)))

/-- Release when ARRIVED equals EXPECT (R372); no release of an empty grid. -/
def capstanTest (s : State) (i : Nat) : State :=
  let c := getCapstan s i
  if c.arrived = c.expect && c.arrived != 0 then
    let s1 := setCapstan s i { c with arrived := 0, gen := c.gen + 1 }
    match c.launch with
    | none => s1
    | some acc => (wgsOf s1 acc).foldl (fun s x => updWg s x.1 x.2 (fun g =>
        if g.barKind = 2 then { g with gbarDue := true } else g)) s1
  else s

/-- A workgroup of a grid-sync launch has ended: EXPECT falls (R372). -/
def gridWgEnded (s : State) (acc : Nat) : State :=
  match (getLaunch s acc).bind (·.capstan) with
  | none => s
  | some i => capstanTest (setCapstan s i { getCapstan s i with expect := (getCapstan s i).expect - 1 }) i

/-- What follows when lanes of a wave have ended: a wave without lanes leaves the barrier's LIVE set, and the
opening test is made again (R368). -/
def afterEnd (s : State) (core slot : Nat) : State :=
  let k := getCore s core
  match getWave k slot with
  | none => s
  | some w =>
    let s1 := if w.parts.isEmpty then updWave s core slot (fun w => { w with rejoin := [], loads := [], frozen := none, halted := false })
      else s
    match getWg (getCore s1 core) w.wg with
    | none => s1
    | some g =>
      let s2 := barrierTest s1 core w.wg
      let allGone := g.slots.all (fun sl => ((getWave (getCore s1 core) sl).map (·.parts.isEmpty)).getD true)
      if w.parts.isEmpty && allGone && g.kernel.gridSync && g.live != 0 then gridWgEnded s2 g.launch else s2

end Sys2Proof.Machine
end

