-- ==== Sys2Proof/Machine/Rank.lean ====
section
/-! DEFINITION. Which part of a core issues next in a cycle (07 R115, R117, R118). -/
namespace Sys2Proof.Machine

/-- The context of a wave is the active one of its core (22 R400). -/
def waveActive (k : Core) (w : Wave) : Bool :=
  match getWg k w.wg with
  | none => false
  | some g => ((ctxOf k g.region).map (fun c => decide (c.place = .active))).getD false

/-- A part by itself is in no stopped state, and its spacing has elapsed (R117; 22 R391). -/
def partOpen (w : Wave) (p : Part) (cyc : Nat) : Bool :=
  (!w.halted || p.stepping) && p.frozen.isNone && p.raised.isNone && decide (p.nextIssue ≤ cyc)

/-- A part is in no stopped state, and its spacing has elapsed (R117; 22 R391). -/
def partFree (w : Wave) (p : Part) (cyc : Nat) : Bool := w.frozen.isNone && w.killed.isNone && partOpen w p cyc

/-- No freeze and no `kill` of an earlier cycle stops a wave: the parts that issue beside the one that froze or killed it still
issue in that cycle (09 R182; 22 R392). -/
def waveRuns (w : Wave) (cyc : Nat) : Bool :=
  (w.frozen.isNone || decide (w.frozenAt = cyc)) && w.killed.all (fun t => decide (t = cyc))

/-- A part may issue at a cycle, as far as the part itself goes (R117). -/
def partReady (k : Core) (w : Wave) (p : Part) (cyc : Nat) : Bool :=
  waveActive k w && waveRuns w cyc && partOpen w p cyc && decide (p.wait = .ready)

/-- Columns of a part's quads on its port (R115). -/
def partColumns (w : Wave) (p : Part) : Quads := BitVec.ofNat 16 ((quadsOf p.lanes).toNat * 2 ^ w.col)

/-- The port still accepts a part in this cycle: fewer than four issued, columns disjoint (R118). -/
def portFree (k : Core) (slot : Nat) (w : Wave) (p : Part) (cyc : Nat) : Bool :=
  let now := k.issued.filter (fun x => x.1 = cyc && x.2.1 = slot / 16)
  decide (now.length < 4) && now.all (fun x => (x.2.2 &&& partColumns w p) = 0)

/-- Its place in the order of a core's issues: port, then parts that have been ready for 64 cycles, then age, then lowest
lane (R118). -/
def partRank (x : Nat × Wave × Part) : List Nat :=
  [x.1 / 16, if x.2.2.starved || decide (64 ≤ x.2.2.readyFor) then 0 else 1, x.2.1.serial, lowestLane x.2.2.lanes]

/-- The lexicographic order of ranks. -/
def rankLess : List Nat → List Nat → Bool
  | a :: as, b :: bs => decide (a < b) || (decide (a = b) && rankLess as bs)
  | _, _ => false

/-- The parts that a core's ports may still take in a cycle: wave slot, wave, part. -/
def picks (k : Core) (cyc : Nat) : List (Nat × Wave × Part) :=
  k.waves.flatMap (fun sw =>
    match sw.2 with
    | none => []
    | some w => (w.parts.filter (fun p => partReady k w p cyc && portFree k sw.1 w p cyc)).map (fun p => (sw.1, w, p)))

/-- The first of the picks by rank. -/
def firstPick : List (Nat × Wave × Part) → Option (Nat × Wave × Part)
  | [] => none
  | x :: l =>
    match firstPick l with
    | none => some x
    | some y => if rankLess (partRank y) (partRank x) then some y else some x

/-- The part that issues next on a core in the current cycle. -/
def chooseOn (core : Nat) (k : Core) (cyc : Nat) : Option PartRef :=
  (firstPick (picks k cyc)).map (fun x => ⟨core, x.1, lowestLane x.2.2.lanes⟩)

/-- No port of a core takes another part in the current cycle. -/
def issuesDone (s : State) (core : Nat) : Bool := (picks (getCore s core) (coreCyc s core)).isEmpty

end Sys2Proof.Machine
end

