-- ==== Sys2Proof/Machine/Fabric.lean ====
section
/-! DEFINITION. What the memory system and the sequencer do of their own accord: loads return, stores leave
their queue and reach their home slices, combining entries close, translations change, parts split on a miss
(07 R118, R120, R124, R126; 11 R219, R233, R239; 12 R247, R253, R256; 19 R355, R356). -/
namespace Sys2Proof.Machine

/-! Loads arrive. -/

/-- Split a range of addresses at the 128-byte lines it touches: start and length of each piece. -/
def linePieces : Nat → Nat → Nat → List (Nat × Nat)
  | 0, _, _ => []
  | fuel + 1, va, n =>
    if n = 0 then [] else
    let m := min n (128 - va % 128)
    (va, m) :: linePieces fuel (va + m) (n - m)

/-- A lane on its way through its lines: the state, its pieces so far, whether it is flagged, and its first failure. -/
structure Arrival where
  s : State
  phys : List Piece := []
  flagged : Bool := false
  failed : Option (Byte × Dword) := none

/-- A line that the core holds for a load: in its constant cache or in its L1. -/
def heldLine (k : Core) (asn : Nat) (ld : Load) (va : Dword) : Option L1Line :=
  (if ld.const then k.constCache.find? (fun x => x.asn = asn && x.line = va.toNat / 128) else none) <|>
  (if ld.l1 then findLine k asn va else none)

/-- A load whose lines are combined at their slices (11 R233). -/
def Load.plain (ld : Load) : Bool := ld.acq.isNone && ld.l1

/-- A physical line has been fetched beyond its slice for a load: it was not present when the first of the load's bytes that lie
in it arrived there. -/
def lineMissed (ld : Load) (a : Arrival) (region : Rgn) (line : Nat) : Bool :=
  let here (p : Piece) : Bool := p.missed && p.key.any (fun k => k / 128 = line)
  !l2Present a.s line region || a.phys.any here || ld.lanes.any (fun l => l.phys.any here)

/-- The bytes of a lane in one line: found in the core, or forwarded from another core's L1, else translated at the owner
and asked of the home slice (11 R221, R229, R233, R234). -/
def arrivePiece (core slot lane asn : Nat) (region : Rgn) (ld : Load) (a : Arrival) (p : Nat × Nat) : Arrival :=
  let va : Dword := BitVec.ofNat 64 p.1
  let piece (key : Option Nat) (missed : Bool := false) : List Piece := a.phys ++ [{ va := p.1, n := p.2, key := key, missed := missed }]
  match heldLine (getCore a.s core) asn ld va with
  | some l => { a with phys := piece (some (l.key + p.1 % 128)) }
  | none =>
    match (if ld.l1 then probe a.s core asn region va else none) with
    | some l =>
      let k := getCore a.s core
      { a with s := setCore a.s core (l1Fit { k with l1 := k.l1 ++ [l] }), phys := piece (some (l.key + p.1 % 128)) }
    | none =>
      match route a.s asn ld.dst.access va with
      | .phys key _ =>
        let s1 := l2Touch a.s (key / 128) region
        let s2 := if ld.plain && combineWin s1 (homeSlice s1 (key / 128)) != 0
          then joinLine s1 (key / 128) region [(core, slot, ld.id, lane)] [] else s1
        { a with s := s2, phys := piece (some key) (lineMissed ld a region (key / 128)) }
      | .absent => { a with phys := piece none, flagged := true }
      | .denied c => { a with failed := a.failed <|> some (c, va) }
      | .peer _ => a

/-- A lane of a load arrives, once (11 R221). -/
def arriveLane (core slot id : Nat) (s : State) (lane : Nat) : State :=
  let k := getCore s core
  match getWave k slot with
  | none => s
  | some w =>
    match getWg k w.wg, w.loads.find? (fun ld => ld.id = id) with
    | some g, some ld =>
      match ld.lanes.find? (fun l => l.lane = lane) with
      | none => s
      | some l =>
        if l.arrived then s
        else
          let a := (linePieces (ld.size / 128 + 2) l.va.toNat ld.size).foldl (arrivePiece core slot lane g.asn g.region ld) { s := s }
          let put (x : LoadLane) : LoadLane :=
            if x.lane = lane then { x with arrived := true, phys := a.phys, missed := a.phys.any (·.missed) } else x
          updWave a.s core slot (fun w => updLoad w id (fun x =>
            { x with lanes := x.lanes.map put
                     flagged := if a.flagged && a.failed.isNone then x.flagged ||| BitVec.ofNat 64 (2 ^ lane) else x.flagged
                     failed := x.failed ++ (a.failed.map (fun f => (lane, f.1, f.2))).toList }))
    | _, _ => s

/-- Some sector that a piece reads fails its check value (11 R236), where the core's own stores do not supply its bytes. -/
def pieceBad (s : State) (k : Core) (w : Wave) (asn : Nat) (ld : Load) (p : Piece) : Bool :=
  match p.key with
  | none => false
  | some key =>
    !(!ld.dst.isSum && (List.range p.n).all (fun i => (pendingByte s k w ld.seq asn (key + i)).isSome)) &&
    (match heldLine k asn ld (BitVec.ofNat 64 p.va) with
      | some l => (List.range 4).any (fun i => l.errs.getD i 0 != 0 && decide (p.va % 128 < 32 * i + 32) &&
          decide (32 * i < p.va % 128 + p.n))
      | none => memBadAt s key p.n)

/-- A fault record for lanes of a wave's access (22 R397). -/
def accessFault (s : State) (core slot : Nat) (region : Rgn) (launch : Nat) (wgId : Nat) (part : Lanes) (pc : Word)
    (restart : Option Word) (access : Nat) (fails : List (Nat × Byte × Dword)) : FaultRec :=
  let x := fails.headD (0, 0, 0)
  { cause := x.2.1, kind := 1, access := access, cluster := core / 8, core := core % 8, wslot := slot,
    qmask := quadsOf part, wgid := BitVec.ofNat 32 wgId, faddr := x.2.2, lanes := maskOf (fails.map (·.1)), fpc := pc,
    restart := restart.getD 0xFFFFFFFF, launch := launchDone s launch, rcb := region, cyc := BitVec.ofNat 64 (coreCyc s core) }

/-- The flag mask register of a load whose lanes are all translated (12 R246), in every part that holds some of them. -/
def payFm (w : Wave) (id : Nat) : Wave :=
  match w.loads.find? (fun ld => ld.id = id) with
  | none => w
  | some ld =>
    if ld.fm = 0 || !ld.settled || ld.lanes.any (fun l => l.peer.isSome) then w
    else
      let put (p : Part) : Part := { p with m := kset 0 p.m ld.fm ((kget 0 p.m ld.fm &&& ~~~ld.mask) ||| ld.flagged) }
      updLoad { w with parts := updateWhere (fun p => (ld.part &&& p.lanes) != 0) put w.parts } id (fun x => { x with fm := 0 })

/-- Every lane of a load has arrived (12 R245 step 2): flags are written, failing lanes keep their destination and freeze
the wave, and after a failed check value no lane is written (11 R224, R226, R238). The failures of the buffered reads of
a texture or ray instruction go to that instruction. -/
def settleLoad (core slot id : Nat) (s : State) : State :=
  let k := getCore s core
  match getWave k slot with
  | none => s
  | some w =>
    match getWg k w.wg, w.loads.find? (fun ld => ld.id = id) with
    | some g, some ld =>
      if ld.settled || ld.lanes.any (fun l => !l.arrived) then s
      else
        let bad := (ld.lanes.filter (fun l => l.phys.any (pieceBad s k w g.asn ld))).map (fun l => (l.lane, cCheck, l.va))
        if ld.dst = .buffer then
          let fails := ld.failed ++ bad
          let notes := fails.map (fun x => ((((ld.lanes.find? (fun l => l.lane = x.1)).map (·.va)).getD 0), ld.size, Fetch.failed x.2.1 x.2.2))
          let put (p : Part) : Part := { p with buffer := p.buffer ++ notes }
          let w1 := { w with parts := updateWhere (fun p => (ld.part &&& p.lanes) != 0) put w.parts }
          let w2 := updLoad w1 id (fun x => { x with settled := true, lanes := x.lanes.filter (fun l => fails.all (fun y => y.1 != l.lane)) })
          setCore s core (setWave k slot { w2 with loads := w2.loads.filter (fun x => !x.lanes.isEmpty) })
        else
          let keep := if bad.isEmpty then ld.lanes.filter (fun l => ld.failed.all (fun y => y.1 != l.lane)) else []
          let w1 := updLoad { w with resid := w.resid ||| ld.flagged } id (fun x => { x with settled := true, lanes := keep })
          let w2 := payFm w1 id
          let s1 := setCore s core (setWave k slot { w2 with loads := w2.loads.filter (fun x => !x.lanes.isEmpty) })
          match ld.failed ++ bad with
          | [] => s1
          | x :: l => freezeWave s1 core slot x.2.1
              (accessFault s core slot g.region g.launch g.id ld.part ld.pc ld.restart 1 (x :: l))
    | _, _ => s

/-- Lanes of a load reach their owners. -/
def reachLanes (core slot id : Nat) (s : State) (lanes : List Nat) : State :=
  settleLoad core slot id (lanes.foldl (arriveLane core slot id) s)

def reachAll (core slot id : Nat) (s : State) : State := reachLanes core slot id s (List.range 64)

/-! Loads return. -/

/-- A lane waits at an open combining entry. -/
def joined (s : State) (core slot id lane : Nat) : Bool := s.combines.any (fun e => e.joined.contains (core, slot, id, lane))

/-- Lanes of a load that share a line come back together: those selected, and those that lie in their lines. -/
def withLines (ld : Load) : Nat → List Nat → List Nat
  | 0, sel => sel
  | fuel + 1, sel =>
    let lines (l : LoadLane) : List Nat := l.phys.map (fun p => p.va / 128)
    let got := (ld.lanes.filter (fun l => sel.contains l.lane)).flatMap lines
    let more := (ld.lanes.filter (fun l => !sel.contains l.lane && (lines l).any (fun x => got.contains x))).map (·.lane)
    if more.isEmpty then sel else withLines ld fuel (sel ++ more)

/-- A lane's data can be written now: its bytes are there. The answers of one atomic come together (12 R256). A lane that was
fetched beyond its slice comes after the lanes that were not, and at least two cycles after them (25 R419; log 52). -/
def laneReady (ld : Load) (cyc : Nat) (l : LoadLane) : Bool :=
  ld.settled && !l.waits && l.peer.isNone &&
  (!ld.dst.isAnswer || ld.lanes.all (fun x => x.fixed.isSome)) &&
  (!l.missed || l.fixed.isSome || (decide (ld.cycle + 2 ≤ cyc) && ld.lanes.all (·.missed)))

/-- The value that a lane is written with; a record on a page that is not resident gives none (12 R260). -/
def laneValue (ld : Load) (l : LoadLane) : List Byte :=
  if ld.dst.isSum && tbit ld.flagged l.lane then [] else l.bytes

/-- Lanes of a load return: those whose bytes are there are written, and the load ends with its last lane. -/
def returnLanes (core slot id : Nat) (s : State) (sel : List Nat) : State :=
  let s1 := performLoad core slot id (fun l => sel.contains l.lane && !joined s core slot id l.lane) s
  let k := getCore s1 core
  match getWave k slot with
  | none => s1
  | some w =>
    match w.loads.find? (fun ld => ld.id = id), getWg k w.wg with
    | some ld, some g =>
      let cyc := coreCyc s1 core
      let go := ld.lanes.filter (fun l => sel.contains l.lane && laneReady ld cyc l)
      if go.isEmpty then s1
      else
        let w1 := go.foldl (fun w l => deliver w ld l (laneValue ld l)) w
        let rest := ld.lanes.filter (fun l => go.all (fun x => x.lane != l.lane))
        let put (x : Load) : Load := { x with lanes := rest, done := x.done ||| maskOf (go.map (·.lane)), cycle := cyc }
        let w2 := if rest.isEmpty then { w1 with loads := w1.loads.filter (fun x => x.id != id) } else updLoad w1 id put
        let k1 := setWave k slot w2
        setCore s1 core (match rest.isEmpty, ld.acq with
          | true, some scope => l1Acquire k1 g.asn scope
          | _, _ => k1)
    | _, _ => s1

/-- A load of a wave by its number. -/
def loadAt (s : State) (core slot id : Nat) : Option Load :=
  (getWave (getCore s core) slot).bind (fun w => w.loads.find? (fun ld => ld.id = id))

/-- GLOBAL_LOAD_RETURN (R247): data for lanes of some quads. Every lane has reached its owner before the first returns. -/
def execGlobalLoadReturn (core slot load : Nat) (quads : Quads) (s : State) : Host.Outcome State Fault Refusal :=
  let s1 := reachAll core slot load s
  match loadAt s1 core slot load with
  | none => .next s1
  | some ld => .next (returnLanes core slot load s1 (withLines ld 64 (lanesOf (quadLanes quads))))

/-! The store queue and the home slices. -/

/-- The release condition of the head entry (R254, 19 R356): the part's older loads have returned and, at .cl or
wider, the wave's older entries have been applied. -/
def releaseReady (k : Core) (w : Wave) (e : QEntry) : Bool :=
  match e.rel with
  | none => true
  | some scope =>
    !w.loads.any (fun ld => decide (ld.seq < e.seq) && (ld.part &&& e.part) != 0) &&
    (decide (scope ≤ 1) || !k.outbound.any (fun o => o.serial = w.serial))

/-- The head of a wave's store queue, when it may leave. -/
def queueHead (s : State) (core slot : Nat) : Option (Core × Wave × Workgroup × QEntry) :=
  let k := getCore s core
  match getWave k slot with
  | none => none
  | some w =>
    match w.queue, getWg k w.wg with
    | e :: _, some g => if releaseReady k w e then some (k, w, g, e) else none
    | _, _ => none

/-- Remove the head of a wave's store queue. -/
def popQueue (s : State) (core slot : Nat) : State := updWave s core slot (fun w => { w with queue := w.queue.drop 1 })

/-- A load still waits for bytes that an entry touches. -/
def waitsFor (s : State) (asn : Nat) (e : QEntry) (ld : Load) : Bool :=
  !ld.dst.isAnswer && ld.lanes.any (fun l => l.waits && entryMeets s asn e asn l.va ld.size)

/-- Loads that must not see an entry that leaves a queue: older ones of its own wave, and those that a younger load of
their part has passed (R253; 19 R354, R355). -/
def mustPrecede (slot : Nat) (e : QEntry) (other : Nat) (ld : Load) : Bool :=
  ld.passed || (other = slot && decide (ld.seq < e.seq))

/-- Those loads are performed before the entry leaves. -/
def fixBefore (s : State) (core slot asn : Nat) (e : QEntry) : State :=
  (getCore s core).waves.foldl (fun s sw =>
    match sw.2 with
    | none => s
    | some v =>
      let must := v.loads.filter (mustPrecede slot e sw.1)
      if must.any (waitsFor s asn e) then
        fixLanes (must.foldl (fun s ld => reachAll core sw.1 ld.id s) s) core sw.1 (fun ld _ => mustPrecede slot e sw.1 ld)
      else s) s

/-- An older load of the wave still waits for bytes that an entry touches: it waits for an operation at a bank. -/
def mustWait (s : State) (core slot asn : Nat) (e : QEntry) : Bool :=
  match getWave (getCore s core) slot with
  | none => false
  | some w => w.loads.any (fun ld => decide (ld.seq < e.seq) && waitsFor s asn e ld)

/-- Lanes of an entry that are not applied yet. -/
def entryLanes (e : QEntry) : List (Nat × Dword) :=
  match e.kind with
  | .store ws => ws.map (fun w => (w.lane, w.va))
  | .atomic _ _ ls _ => ls.map (fun l => (l.lane, l.va))
  | .contribute _ ls _ => ls.map (fun l => (l.lane, l.va))
  | .sumInit l va _ _ => [(l, va)]
  | _ => []

/-- A drain through a peer window whose place in its wave's store queue comes before an entry with a peer's bytes has not been
sent: the peer applies both in the queue's order (21 R384). -/
def drainAhead (k : Core) (serial : Nat) (e : QEntry) : Bool :=
  let peer (a : ArrayEntry) : Bool := match a.op with
    | .drain _ _ _ _ _ _ dest _ _ _ sp _ => !sp && isPeerVa (BitVec.ofNat 64 dest)
    | _ => false
  (entryLanes e).any (fun x => isPeerVa x.2) &&
  k.array.any (fun a => peer a && a.serial = serial && decide (a.seq ≤ e.seq) && a.result.isNone && a.peer.isNone)

/-- A store updates the lines present in the core's L1 where its page takes the store (11 R229). -/
def storeL1 (s : State) (core asn : Nat) (e : QEntry) : State :=
  match e.kind with
  | .store ws =>
    let parts := ws.flatMap (fun w => ((pieces w.va.toNat w.bytes.length).foldl (fun (acc : List (Nat × List Byte) × List Byte) p =>
      ((acc.1 ++ [(p.1, acc.2.take p.2)]), acc.2.drop p.2)) ([], w.bytes)).1)
    let put (l : List L1Line) (p : Nat × List Byte) : List L1Line :=
      match physByte s asn (BitVec.ofNat 64 p.1) with
      | some key => l1Put l key p.2
      | none => l
    let k := getCore s core
    setCore s core { k with l1 := parts.foldl put k.l1 }
  | _ => s

/-- An entry of a wave goes onto its core's outbound path (19 R355). -/
def pushOutbound (s : State) (core slot serial : Nat) (g : Workgroup) (e : QEntry) : State :=
  let k := getCore s core
  let o : Outbound := { id := k.nextOut, slot := slot, serial := serial, entry := e, asn := g.asn, region := g.region
                        launch := g.launch, wgId := g.id }
  setCore s core { k with outbound := k.outbound ++ [o], nextOut := k.nextOut + 1 }

/-- STORE_QUEUE_LEAVE (R253): the head goes onto the core's outbound path. A drain's entry only marks its place
in the order of releases. -/
def execStoreQueueLeave (core slot : Nat) (s : State) : Host.Outcome State Fault Refusal :=
  match queueHead s core slot with
  | none => .next s
  | some (k, w, g, e) =>
    match e.kind with
    | .drain _ => .next (popQueue s core slot)
    | .eng _ | .spawn _ _ _ | .qclose _ => .next s
    | _ =>
      let s1 := fixBefore s core slot g.asn e
      if mustWait s1 core slot g.asn e || drainAhead k w.serial e then .next s1
      else .next (pushOutbound (storeL1 (popQueue s1 core slot) core g.asn e) core slot w.serial g e)

/-- Change one outbound entry of a core. -/
def updOut (s : State) (core id : Nat) (h : Outbound → Outbound) : State :=
  let k := getCore s core
  setCore s core { k with outbound := updateWhere (fun o => o.id = id) h k.outbound }

/-- The entry without its first lane. -/
def dropLane (e : QEntry) : QEntry :=
  { e with kind := match e.kind with
    | .store ws => .store (ws.drop 1)
    | .atomic op u ls ld => .atomic op u (ls.drop 1) ld
    | .contribute f ls ld => .contribute f (ls.drop 1) ld
    | _ => .store [] }

/-- The load that returns for an entry. -/
def entryLoad (e : QEntry) : Option Nat :=
  match e.kind with
  | .atomic _ _ _ ld => some ld
  | .contribute _ _ ld => ld
  | .sumInit _ _ _ ld => ld
  | _ => none

/-- A lane's returned bytes: it waits in the load until the load returns. -/
def answerLane (s : State) (core slot serial : Nat) (load : Option Nat) (lane : Nat) (bs : List Byte) : State :=
  match load with
  | none => s
  | some id =>
    let fix (l : LoadLane) : LoadLane := if l.lane = lane then { l with fixed := some bs } else l
    updSerial s core slot serial (fun w => updLoad w id (fun ld => { ld with lanes := ld.lanes.map fix }))

/-- A failing lane's returned value is never written. -/
def dropAnswer (s : State) (core slot serial : Nat) (load : Option Nat) (lane : Nat) : State :=
  match load with
  | none => s
  | some id =>
    updSerial s core slot serial (fun w =>
      let w1 := updLoad w id (fun ld => { ld with lanes := ld.lanes.filter (fun l => l.lane != lane) })
      { w1 with loads := w1.loads.filter (fun ld => !ld.lanes.isEmpty) })

/-- What a lane does at its bank: access kind, bytes it covers, and the new bytes and the answer from the old
bytes (R250, R256, R258, R259). -/
def bankOp (e : QEntry) : Access × Nat × (List Byte → List Byte × List Byte) :=
  match e.kind with
  | .store (w :: _) => (.store, w.bytes.length, fun _ => (w.bytes, []))
  | .atomic op u (l :: _) _ => (.atomic, 4, fun old =>
      (toBytes 4 (atomicNew op u (BitVec.ofNat 32 (ofBytes old)) l.operand l.new).toNat, old))
  | .contribute fmt (l :: _) _ => (.atomic, 32, fun old =>
      let x := if fmt = 0 then fp32.decode l.operand.toNat
        else if fmt = 1 then fp16.decode (bits l.operand 0 16) else bf16.decode (bits l.operand 0 16)
      (((Ws.ofBytes old).contribute x).toBytes, []))
  | .sumInit _ _ e0 _ => (.atomic, 32, fun _ => ((Ws.init e0).toBytes, []))
  | _ => (.store, 0, fun _ => ([], []))

/-- The operation that a peer module is asked to make for a lane. -/
def peerOpOf (e : QEntry) : PeerOp :=
  match e.kind with
  | .store (w :: _) => .store w.bytes
  | .atomic op u (l :: _) _ => .atomic op u l.operand l.new
  | .contribute fmt (l :: _) _ => .contribute fmt l.operand
  | .sumInit _ _ e0 _ => .initSum e0
  | _ => .store []

/-- Reads old bytes before it writes (11 R236). -/
def bankReads (e : QEntry) : Bool :=
  match e.kind with
  | .atomic _ _ _ _ | .contribute _ _ _ => true
  | _ => false

/-- A lane is flagged in its entry; a returned value is 0 (11 R224). -/
def flagOut (s : State) (core : Nat) (o : Outbound) (lane : Nat) : State :=
  let s1 := answerLane s core o.slot o.serial (entryLoad o.entry) lane [0, 0, 0, 0]
  updOut s1 core o.id (fun x => { x with flagged := x.flagged ||| BitVec.ofNat 64 (2 ^ lane) })

def failOut (s : State) (core : Nat) (o : Outbound) (lane : Nat) (cause : Byte) (va : Dword) : State :=
  let s1 := dropAnswer s core o.slot o.serial (entryLoad o.entry) lane
  updOut s1 core o.id (fun x => { x with failed := x.failed ++ [(lane, cause, va)] })

/-- One piece of a lane, within a page that permits the access, at its home slice. -/
def applyPiece (core : Nat) (o : Outbound) (lane : Nat) (acc : Access) (new : List Byte → List Byte × List Byte)
    (s : State) (p : Nat × Nat) (off : Nat) : State :=
  let va : Dword := BitVec.ofNat 64 p.1
  match route s o.asn acc va with
  | .absent => flagOut s core o lane
  | .denied _ | .peer _ => s
  | .phys key _ =>
    if bankReads o.entry && memBadAt s key p.2 then failOut s core o lane cCheck va
    else
      let s0 := if o.entry.isStore then s else (List.range ((key + p.2 + 127) / 128 - key / 128)).foldl
        (fun s i => closeLine s (key / 128 + i)) s
      let r := new (memRead s0 key p.2)
      let s1 := l2TouchRange (homeWrite s0 key ((r.1.drop off).take p.2)) key p.2 o.region
      if o.entry.isStore then s1
      else
        let s2 := setCore s1 core (l1DropKey (getCore s1 core) key p.2)
        answerLane s2 core o.slot o.serial (entryLoad o.entry) lane r.2

/-- A lane reaches its home slices, page by page, where every page permits it (11 R226); or its peer (21 R383). -/
def applyLane (s : State) (core : Nat) (o : Outbound) (lane : Nat) (va : Dword) : State :=
  let op := bankOp o.entry
  if isPeerVa va then
    let use : PeerUse := match entryLoad o.entry with
      | some ld => .atomic core o.id lane ld
      | none => .store core o.id lane
    match peerSend s o.asn o.region va (peerOpOf o.entry) use with
    | some (s1, req) => updOut s1 core o.id (fun x => { x with peers := x.peers ++ [req] })
    | none =>
      let s1 := flagOut s core o lane
      let s2 := updSerial s1 core o.slot o.serial (fun w =>
        { w with parts := updateWhere (fun p => (o.entry.part &&& p.lanes) != 0) (fun p => { p with pstat := 0x47 }) w.parts })
      peerRecord s2 core o.slot cPeerFault (if op.1 = .store then 2 else 3) o.asn o.region va o.launch o.wgId
        (quadsOf o.entry.part) (BitVec.ofNat 64 (2 ^ lane))
  else
    let ps := pieces va.toNat op.2.1
    let denied := ps.findSome? (fun p => match route s o.asn op.1 (BitVec.ofNat 64 p.1) with
      | .denied cause => some (cause, (BitVec.ofNat 64 p.1 : Dword))
      | _ => none)
    match denied with
    | some (cause, a) => failOut s core o lane cause a
    | none => (ps.foldl (fun (acc : State × Nat) p =>
        (applyPiece core o lane op.1 op.2.2 acc.1 p acc.2, acc.2 + p.2)) (s, 0)).1

/-- Every lane of an entry is applied, flagged, failed or answered: flags are written (R246), the entry is
acknowledged, and failing lanes freeze the wave (11 R226). -/
def finishOut (s : State) (core id : Nat) : State :=
  let k := getCore s core
  match k.outbound.find? (fun o => o.id = id) with
  | none => s
  | some o =>
    if !(entryLanes o.entry).isEmpty || !o.peers.isEmpty then s
    else
      let s1 := setCore s core { k with outbound := k.outbound.filter (fun x => x.id != id) }
      let e := o.entry
      let setM (p : Part) : Part :=
        if e.fm != 0 && (e.part &&& p.lanes) != 0 then
          { p with m := kset 0 p.m e.fm ((kget 0 p.m e.fm &&& ~~~e.mask) ||| o.flagged) }
        else p
      let s2 := updSerial s1 core o.slot o.serial (fun w => { w with resid := w.resid ||| o.flagged, parts := w.parts.map setM })
      match o.failed with
      | [] => s2
      | x :: l => freezeSerial s2 core o.slot o.serial o.launch x.2.1
          (accessFault s core o.slot o.region o.launch o.wgId e.part e.pc none (if e.isStore then 2 else 3) (x :: l))

/-- An entry may reach its home slice: no older entry of the core still has bytes that it touches (R354, R355),
and for a peer lane no older entry of the wave still has a peer lane to send (21 R384). -/
def outReady (s : State) (k : Core) (o : Outbound) (va : Dword) (n : Nat) : Bool :=
  !k.outbound.any (fun x => decide (x.id < o.id) && (entryMeets s x.asn x.entry o.asn va n ||
    (isPeerVa va && x.serial = o.serial && (entryLanes x.entry).any (fun l => isPeerVa l.2))))

/-- HOME_SLICE_APPLY (19 R356): the next lane of an outbound entry is applied; the lanes of one instruction
go in ascending order, and others' operations may fall between them (R256). -/
def execHomeSliceApply (core entry : Nat) (s : State) : Host.Outcome State Fault Refusal :=
  let k := getCore s core
  match k.outbound.find? (fun o => o.id = entry) with
  | none => .next s
  | some o =>
    match entryLanes o.entry with
    | [] => .next (finishOut s core entry)
    | (lane, va) :: _ =>
      if outReady s k o va (bankOp o.entry).2.1 then
        let s1 := applyLane s core o lane va
        .next (finishOut (updOut s1 core entry (fun x => { x with entry := dropLane x.entry })) core entry)
      else .next s

/-- COMBINE_WINDOW_CLOSE (11 R233): the line is read once for every joined load. -/
def execCombineWindowClose (entry : Nat) (s : State) : Host.Outcome State Fault Refusal :=
  match s.combines.find? (fun e => e.id = entry) with
  | none => .next s
  | some e => .next (closeEntry s e)

/-! Translation changes (11 R239-R241). -/

/-- Control firmware's own write at a virtual address: no permission is checked. -/
def fwWrite (s : State) (asn : Nat) (va : Dword) (bs : List Byte) : State :=
  let l := leafOf s asn va
  if tbit l 0 then homeWrite s (physOf l va) bs else s

/-- EPOCH and LASTVA after a change (R241). -/
def raiseEpoch (s : State) (asn : Nat) (va : Dword) : State :=
  let rv : Dword := BitVec.ofNat 64 recordVa
  let l := leafOf s asn rv
  let old := ofBytes (memRead s (physOf l rv) 8)
  let s1 := fwWrite s asn (rv + 8) (toBytes 8 va.toNat)
  fwWrite s1 asn rv (toBytes 8 ((old + 1) % 2 ^ 64))

/-- Bytes of the page that a leaf maps. -/
def leafSpan (l : Dword) : Nat := pageSpan (bits l 10 2) * 4096

/-- A leaf as control firmware writes it: bits without a field are zero, and FRAME's bits below the page size too (R222). -/
def cleanLeaf (l : Dword) : Dword :=
  let span := pageSpan (bits l 10 2)
  BitVec.ofNat 64 (bits l 12 40 / span * span * 4096 + bits l 10 2 * 1024 + bits l 0 6)

/-- The frames that a leaf maps (R218, R222): first physical byte and length; on both dies for a page of owner 2 larger than
a granule. -/
def framesOf (owner page : Nat) (l : Dword) : List (Nat × Nat) :=
  let base := bits l 12 40 * 4096
  if owner != 2 then [(owner * 2 ^ 52 + base, leafSpan l)]
  else if bits l 10 2 = 0 then [(page % 2 * 2 ^ 52 + base, 4096)]
  else [(base, leafSpan l), (2 ^ 52 + base, leafSpan l)]

/-- The leaves, by key, that stand where a new one is written: those inside its page, and a larger one around it. -/
def leavesAt (s : State) (owner asn page : Nat) (l : Dword) : List (Nat × Dword) :=
  let lo := leafKey owner asn (page / pageSpan (bits l 10 2) * pageSpan (bits l 10 2))
  s.leaves.filter (fun e => meets (e.1, pageSpan (bits e.2 10 2)) (lo, pageSpan (bits l 10 2)))

/-- A lane in flight reads one of some frames. -/
def laneIn (frames : List (Nat × Nat)) (l : LoadLane) : Bool :=
  l.waits && l.phys.any (fun p => match p.key with
    | some key => p.data.isNone && frames.any (meets (key, p.n))
    | none => false)

/-- Every access translated with old leaves is performed, as far as it may be (R239). -/
def performFrames (s : State) (frames : List (Nat × Nat)) : State :=
  let s1 := (s.combines.filter (fun e => frames.any (meets (e.line * 128, 128)))).foldl closeEntry s
  s1.cores.foldl (fun s ck => ck.2.waves.foldl (fun s sw => fixLanes s ck.1 sw.1 (fun _ l => laneIn frames l)) s) s1

/-- An access translated with an old leaf is outstanding. -/
def framesBusy (s : State) (frames : List (Nat × Nat)) : Bool :=
  s.cores.any (fun ck => ck.2.waves.any (fun sw => match sw.2 with
    | some w => w.loads.any (fun ld => ld.lanes.any (laneIn frames))
    | none => false))

/-- Every core drops its lines, hints, constants and records of a range of pages (R239; 17 R326). -/
def dropPages (s : State) (asn lo n : Nat) : State :=
  let drop (k : Core) : Core :=
    let out (l : L1Line) : Bool := !(l.asn = asn && meets (l.line * 128, 128) (lo, n))
    let hint (h : Nat × Nat × Nat) : Bool := !(h.1 = asn && meets (h.2.1 * 4096, 4096) (lo, n))
    let rec' (r : Nat × Nat × List Byte) : Bool := !(r.1 = asn && meets (r.2.1, 1) (lo, n))
    { k with l1 := k.l1.filter out, constCache := k.constCache.filter out, hints := k.hints.filter hint,
             records := k.records.filter rec' }
  s.cores.foldl (fun s ck => setCore s ck.1 (drop (getCore s ck.1))) s

/-- The virtual address of a leaf's page. -/
def leafVa (owner : Nat) (key : Nat) : Nat := owner * 2 ^ 54 + key % 2 ^ 42 * 4096

/-- A frame of a die lies on ready stacks: all four of the die are ready, or the one that holds it (01 R14). Which stack
holds a frame is the implementation's. -/
def frameReady (s : State) (die frame : Nat) : Bool :=
  (s.homes.getD die none).isSome &&
  ((List.range 4).all (fun i => hbmReady s (4 * die + i)) || hbmReady s (4 * die + Config.frameStack die frame % 4))

/-- A leaf that makes a page resident names frames that firmware may map: of a die's 192 GiB, on ready stacks, after the
home slices are fixed (00 R3; 01 R14; R230). -/
def framesUsable (s : State) (frames : List (Nat × Nat)) : Bool :=
  frames.all (fun f => decide (f.1 % 2 ^ 52 + f.2 ≤ 50331648 * 4096) &&
    (List.range (f.2 / 4096)).all (fun i => frameReady s (f.1 / 2 ^ 52) (f.1 % 2 ^ 52 / 4096 + i)))

/-- No frame is mapped with W = 0 and W = 1 at once (R222). -/
def frameRuleOk (s : State) (frames : List (Nat × Nat)) (writable : Bool) (skip : List Nat) : Bool :=
  s.leaves.all (fun e => skip.contains e.1 || !tbit e.2 0 || tbit e.2 2 = writable ||
    (framesOf (e.1 / 2 ^ 54) (e.1 % 2 ^ 42) e.2).all (fun f => frames.all (fun x => !meets f x)))

/-- Frames that are mapped for the first time since reset are zeroed, with valid check values (R235). -/
def zeroFrames (s : State) (frames : List (Nat × Nat)) : State :=
  let was (key : Nat) : Bool := s.framesUsed.any (fun u => meets (u.1 * 2 ^ 52 + u.2.1 * 4096, u.2.2 * 4096) (key, 1))
  let fresh (key : Nat) : Bool := frames.any (meets (key, 1)) && !was key
  { s with mem := s.mem.filter (fun e => !fresh e.1), memErr := s.memErr.filter (fun e => !fresh (32 * e.1))
           framesUsed := s.framesUsed ++ frames.map (fun f => (f.1 / 2 ^ 52, f.1 % 2 ^ 52 / 4096, f.2 / 4096)) }

/-- Kernels that some launch may still run. -/
def kernelsInUse (s : State) : List Kernel :=
  (s.launches.filter (fun l => !l.ended)).map (·.kernel) ++ s.bins.map (·.kernel) ++ s.nodes.map (·.kernel) ++
  s.draws.map (·.kernel) ++ s.batches.map (·.kernel) ++
  s.cores.flatMap (fun ck => ck.2.wgs.filterMap (fun g => g.2.map (·.kernel)) ++
    ck.2.ctxs.flatMap (fun c => c.savedWgs.map (·.2.kernel)))

/-- A range holds a segment of an image that a launch uses (02 R33; 04 R66), an address space's translation record (R241), or
a context's trap area (22 R394): it stays as it is mapped. -/
def pagesHeld (s : State) (asn lo n : Nat) : Bool :=
  let uses (m : Mapped) (k : Kernel) : Bool :=
    (k.code.asn = asn && k.code.base = m.codeBase) ||
    (match k.regionHandler with
      | some h => h.1.asn = asn && h.1.base = m.codeBase
      | none => false)
  meets (recordVa, 4096) (lo, n) ||
  s.mapped.any (fun m => m.asn = asn && (kernelsInUse s).any (uses m) &&
    (meets (m.codeBase.toNat, m.codeLen) (lo, n) || meets (m.dseg.toNat, m.dataLen) (lo, n))) ||
  s.cores.any (fun ck => ck.2.ctxs.any (fun c => c.asn = asn && c.trapBase != 0 && meets (c.trapBase.toNat, 262144) (lo, n)))

/-- No frame lies in a context's save area (06 R113): 4 MiB from its first frame. -/
def savesClear (s : State) (frames : List (Nat × Nat)) : Bool :=
  s.cores.all (fun ck => ck.2.ctxs.all (fun c => match c.saveArea with
    | some f => frames.all (fun x => !meets x (f * 4096, 4194304))
    | none => true))

/-- Change a leaf and complete the change (R239): the accesses under the old leaves are performed, the caches drop the pages,
the new leaf takes the place of the old ones, and the record tells it. An image that loses a page so, which no launch uses, is
mapped anew for the next that names it (02 R33; log 6). -/
def changeLeaf (s : State) (asn : Nat) (va leaf : Dword) : State :=
  let owner := vaOwner va
  let page := vaOffset va / 4096
  let l := cleanLeaf leaf
  let key := leafKey owner asn (page / pageSpan (bits l 10 2) * pageSpan (bits l 10 2))
  let old := leavesAt s owner asn page l
  let frames := (old.filter (fun e => tbit e.2 0)).flatMap (fun e => framesOf owner (e.1 % 2 ^ 42) e.2)
  let s1 := old.foldl (fun s e => dropPages s asn (leafVa owner e.1) (leafSpan e.2)) (performFrames s frames)
  let s2 := if tbit l 0 then zeroFrames s1 (framesOf owner (key % 2 ^ 42) l) else s1
  let rest := s2.leaves.filter (fun e => old.all (fun x => x.1 != e.1))
  let kept := s2.mapped.filter (fun m => m.asn != asn || old.all (fun e =>
    !meets (m.codeBase.toNat, m.codeLen) (leafVa owner e.1, leafSpan e.2) && !meets (m.dseg.toNat, m.dataLen) (leafVa owner e.1, leafSpan e.2)))
  raiseEpoch { s2 with leaves := kset 0 rest key l, mapped := kept } asn va

/-- The frame and the virtual page that control firmware gives out next (log 6): frames of a die from the top of its
memory downwards, pages from the top of the space of the owner with the same number downwards. -/
def frameAt (n : Nat) : Nat := 50331647 - n
def pageAt (n : Nat) : Nat := 2 ^ 42 - 1 - n

/-- A frame may be given out: it lies on ready stacks (01 R14), and no leaf maps it. -/
def frameFree (s : State) (die n : Nat) : Bool :=
  frameReady s die (frameAt n) && s.leaves.all (fun e => !tbit e.2 0 ||
    (framesOf (e.1 / 2 ^ 54) (e.1 % 2 ^ 42) e.2).all (fun f => !meets f (die * 2 ^ 52 + frameAt n * 4096, 4096)))

/-- The first of n numbers from i, counted round the frames of a die, that a test takes. -/
def findFrame (p : Nat → Bool) : Nat → Nat → Option Nat
  | 0, _ => none
  | n + 1, i => if p (i % 50331648) then some (i % 50331648) else findFrame p n (i + 1)

/-- The next frame of a die to give out, from which on a number of frames are free and in no save area (log 6). -/
def nextFrames (s : State) (die n : Nat) : Option Nat :=
  if (s.homes.getD die none).isNone then none
  else findFrame (fun i => decide (i + n ≤ 50331648) && (List.range n).all (fun k => frameFree s die (i + k) &&
    savesClear s [(die * 2 ^ 52 + frameAt (i + k) * 4096, 4096)])) 50331648 s.nextFrame

def nextFree (s : State) (die : Nat) : Option Nat := nextFrames s die 1

/-- A frame holds the bytes given, then zeros (R33). -/
def fillFrame (s : State) (key : Nat) (bs : List Byte) : State :=
  homeWrite { s with mem := s.mem.filter (fun e => !meets (e.1, 1) (key, 4096))
                     memErr := s.memErr.filter (fun e => !meets (32 * e.1, 1) (key, 4096)) } key bs

/-- Map one new page at a virtual address with leaf bits, in a frame of the die that the address names; where no frame may
be given out, the page stays absent. -/
def mapPage (s : State) (asn : Nat) (va flags : Nat) (bs : List Byte) : State :=
  let die := if va / 2 ^ 54 = 2 then va / 4096 % 2 else va / 2 ^ 54
  match nextFree s die with
  | none => s
  | some n =>
    let s1 := changeLeaf { s with nextFrame := n + 1 } asn (BitVec.ofNat 64 va) (BitVec.ofNat 64 (frameAt n * 4096 + flags))
    fillFrame s1 (die * 2 ^ 52 + frameAt n * 4096) bs

/-- Leaf bits of a code segment (V, R, X) and of a data segment (V, R). -/
def codeFlags : Nat := 0xB
def dataFlags : Nat := 0x3

/-- The page of an address space's translation record, with leaf bits V and R, over zeros (11 R221, R241), in a frame that
firmware may map (01 R14; R230): there from the first page that the space maps. -/
def openSpace (s : State) (asn : Nat) : State :=
  if asn = 0 || 4096 ≤ asn || leafOf s asn (BitVec.ofNat 64 recordVa) != 0 then s else mapPage s asn recordVa dataFlags []

/-- Control firmware may make a change (R222, R239; 01 R14): the page is an address space's, no one relies on it as it
stands, its frames may be mapped so, and no access under the old leaves is blocked. -/
def mayChange (s : State) (asn : Nat) (va leaf : Dword) : Bool :=
  let owner := vaOwner va
  let page := vaOffset va / 4096
  let l := cleanLeaf leaf
  let old := leavesAt s owner asn page l
  let frames := framesOf owner (page / pageSpan (bits l 10 2) * pageSpan (bits l 10 2)) l
  let olds := (old.filter (fun e => tbit e.2 0)).flatMap (fun e => framesOf owner (e.1 % 2 ^ 42) e.2)
  decide (1 ≤ asn ∧ asn < 4096 ∧ owner < 3) &&
  old.all (fun e => !pagesHeld s asn (leafVa owner e.1) (leafSpan e.2)) &&
  (!tbit l 0 || (framesUsable s frames && savesClear s frames && frameRuleOk s frames (tbit l 2) (old.map (·.1)))) &&
  !framesBusy (performFrames s olds) olds

/-- TRANSLATION_CHANGE (R239), for a leaf that control firmware may write; the space's record is there before its first. -/
def execTranslationChange (asn : Nat) (va leaf : Dword) (s : State) : Host.Outcome State Fault Refusal :=
  let s1 := openSpace s asn
  .next (if mayChange s1 asn va leaf then changeLeaf s1 asn va leaf else s)

/-! The sequencer. -/

/-- REJOIN_EXPIRE (07 R124, R125): the end of a cycle at an entry, once no part of the core issues in it. -/
def execRejoinExpire (core slot entry : Nat) (s : State) : Host.Outcome State Fault Refusal :=
  let k := getCore s core
  if !issuesDone s core then .next s
  else .next (updWave s core slot (fun w =>
    settleEntry (waveKernel k w).rejoin (coreCyc s core) (waveActive k w && !w.halted && w.frozen.isNone) w entry))

/-- FORCED_FUSE (07 R126, R128). -/
def execForcedFuse (core slot : Nat) (s : State) : Host.Outcome State Fault Refusal := .next (forceFuse s core slot)

/-- ISSUE_STARVATION (07 R118). -/
def execIssueStarvation (p : PartRef) (s : State) : Host.Outcome State Fault Refusal :=
  .next (updWave s p.core p.slot (fun w => updPart w p.lane (fun q =>
    if 64 ≤ q.readyFor then { q with starved := true } else q)))

/-- The quads of a part in which every active lane's data has been written (07 R120). -/
def readyQuads (p : Part) (ld : Load) : Quads :=
  p.lanes |> quadsOf |> fun q => q &&& ~~~(quadsOf (maskOf ((ld.lanes.filter (fun l => tbit p.exec l.lane)).map (·.lane))))

/-- The load on which a stalled part may split (R120). -/
def splitLoad (s : State) (c : Cx) : Option Load :=
  match fetchWord s c.w c.p with
  | .word w =>
    let rs := regsRead (bits w 87 9) (wordFields w) ++ regsWritten (bits w 87 9) (wordFields w)
    c.w.loads.find? (fun ld => ld.maySplit && ld.regs.any (fun r => rs.contains r) && loadPends ld c.p &&
      readyQuads c.p ld != 0 &&
      ld.lanes.any (fun l => tbit c.p.exec l.lane && l.missed && !tbit (readyQuads c.p ld) (l.lane / 4)))
  | _ => none

/-- A part that waits for a load splits at the end of a cycle (R120; 25 R417): the quads whose data is complete form the
ready part, which may issue from the next cycle. A halted wave keeps its parts as they are (R418), and the paths that a handler has
set aside are pending (22 R393). -/
def missSplit (p : PartRef) (s : State) : State :=
  match partAt s p with
  | none => s
  | some c =>
    if !(c.g.kernel.splitMiss && decide (2 ≤ popCount c.qmask) && c.p.paths.isEmpty && c.p.window.isNone &&
        c.p.wait = .score && c.p.raised.isNone && c.p.frozen.isNone && !c.w.halted &&
        c.p.handler.all (fun h => h.aside.isEmpty)) then s
    else match splitLoad s c with
    | none => s
    | some ld =>
      let go := c.p.lanes &&& quadLanes (readyQuads c.p ld)
      let stay := c.p.lanes &&& ~~~go
      let cut (m : Lanes) : Part := { c.p with lanes := m, run := c.p.run &&& m, exec := c.p.exec &&& m }
      updWave s c.core c.slot (fun w =>
        let w1 := pushEntry w c.p.lanes true c.g.kernel.rejoin c.cyc
        let old := w1.parts.filter (fun q => lowestLane q.lanes != c.lane)
        let w2 := updLoad w1 ld.id (fun x => { x with maySplit := false })
        let ready := { cut go with wait := .ready, nextIssue := max c.p.nextIssue (c.cyc + 1) }
        retest { w2 with parts := sortParts (ready :: cut stay :: old) })

/-- MISS_SPLIT (R120), once no part of the core issues in the cycle. -/
def execMissSplit (p : PartRef) (s : State) : Host.Outcome State Fault Refusal :=
  .next (if issuesDone s p.core then missSplit p s else s)

end Sys2Proof.Machine
end

