-- ==== Sys2Proof/Machine/EngineJobs.lean ====
section
/-! DEFINITION. What the engines do: acceptance, chunks, the Carder, page requests and the end of a job
(13 R262-R267, R272, R279, R280). -/
namespace Sys2Proof.Machine

def getJob (s : State) (core slot : Nat) : Option Job := kget none (getCore s core).jobs slot
def setJob (s : State) (core slot : Nat) (j : Job) : State :=
  let k := getCore s core
  setCore s core { k with jobs := kset none k.jobs slot (some j) }

/-! Acceptance (R262, R264). -/

/-- Parameter bits that R264 does not name, by word. -/
def unnamedBits (j : Job) : List (Nat × Nat) :=
  let all (l : List Nat) : List (Nat × Nat) := l.map (fun i => (i, 0xFFFFFFFF))
  match j.fn with
  | 0x00 | 0x01 => (4, 0xFFFF) :: all [5, 6, 7]
  | 0x02 => [(7, 0xFFFE)]
  | 0x03 => (4, 0x8000) :: all [5, 6, 7]
  | 0x04 => (4, 0xFFFE) :: all ([5, 6, 7] ++ (if j.par 4 % 2 = 1 then [1] else []))
  | 0x05 => [(7, 0xFFFF)]
  | 0x10 => (5, 0xFFFFFFF0) :: all [2, 3, 6, 7]
  | 0x11 => (5, 0xFFFFFFF0) :: all [6, 7]
  | 0x18 => all [3, 4, 5, 6, 7]
  | 0x20 | 0x22 => (5, 0xFFFF) :: all [6, 7]
  | 0x21 => (5, 0xFFFE) :: all ([6, 7] ++ (if j.par 5 % 2 = 1 then [3] else []))
  | _ => (5, 0xFFFE) :: all [6, 7]

/-- Values inside their ranges (R264). -/
def valuesOk (j : Job) : Bool :=
  match j.fn with
  | 0x00 => j.par 3 % 4 = 0
  | 0x02 => j.par 3 % 4 = 0 && j.par 5 % 4 = 0 && j.par 6 % 4 = 0
  | 0x03 => j.par 3 % 8 = 0 &&
      modOk 0x05A (j.par 4 / 32 % 32 + 32 * (j.par 4 % 32) + 1024 * (j.par 4 / 1024 % 16)) 0 0
  | 0x04 => j.par 2 % 4 = 0
  | 0x05 => decide (4 ≤ j.par 2 ∧ j.par 2 ≤ 4096) && j.par 2 % 4 = 0 && decide (j.par 5 ≤ 4096)
  | 0x10 | 0x11 =>
    let kt := j.par 5 / 2 % 4
    decide (j.par 4 ≤ 65536) && kt != 3 && !(kt = 2 && j.par 5 % 2 = 1)
  | _ => true

/-- Peer addresses have OWNER 3-6, and local ones do not; the local source of `put.peer` has OWNER 0-2 (R264). -/
def ownersOk (j : Job) : Bool :=
  j.peerSpans.all (fun x => isPeerVa (BitVec.ofInt 64 x.base)) &&
  j.spans.all (fun x => x.sp || !isPeerVa (BitVec.ofInt 64 x.base)) &&
  (j.fn != 0x18 || !isPeerVa (j.pair 0)) && (j.fn != 0x20 || vaOwner (j.pair 2) != 7)

def paramsOk (j : Job) : Bool :=
  (unnamedBits j).all (fun x => (j.par x.1) &&& x.2 = 0) && valuesOk j && j.bobOk && ownersOk j

/-- The check of one range (11 R220, R228). -/
def spanCheck (j : Job) (x : Span) : Option Byte :=
  if x.sp then
    if x.base % x.align != 0 then some cMisaligned
    else if (j.scratch : Int) < x.base + x.len then some cScratch else none
  else
    let b := x.base % (2 ^ 64 : Nat)
    (formCheck (BitVec.ofInt 64 b) x.len x.align).map (·.2)

/-- The status with which a job ends at acceptance, if it does. -/
def acceptStatus (j : Job) : Option Byte :=
  if !paramsOk j then some 0xC1
  else if j.fn = 0x18 then
    if j.par 2 = 0 then some 0 else spanCheck j (j.memSpan 0 (j.par 2) 4)
  else if j.total = 0 then some 0
  else (j.spans ++ j.peerSpans).findSome? (spanCheck j)

/-- A command that is a release at .wg or wider leaves its queue when what the core's waves have stored has reached its
home: engines read and write there (19 R356, R362, R363). -/
def engReleased (k : Core) (e : QEntry) : Bool := e.rel.getD 0 = 0 || k.outbound.isEmpty

/-- ENG_ACCEPT (R262): the command leaves the store queue; a sort joins the cluster's Carder queue. -/
def execEngAccept (core slot : Nat) (s : State) : Host.Outcome State Fault Refusal :=
  match queueHead s core slot with
  | some (k, _, _, ⟨q, pt, la, mk, .eng job, rel, fm, pc⟩) =>
    if !engReleased k ⟨q, pt, la, mk, .eng job, rel, fm, pc⟩ then .next s else
    let s1 := popQueue s core slot
    match getJob s1 core job with
    | none => .next s1
    | some j =>
      match acceptStatus j with
      | some st => .next (setJob s1 core job { j with phase := .ending st })
      | none =>
        let s2 := setJob s1 core job { j with phase := .running }
        if j.fn = 0x10 || j.fn = 0x11 then
          let cl := getCluster s2 (core / 8)
          .next (setCluster s2 (core / 8) { cl with carder := cl.carder ++ [(core, job)] })
        else .next s2
  | _ => .next s

/-! Bytes of a job. -/

/-- Where a byte lies. -/
inductive Place where
  | mem (va : Dword)
  | sram (a : Nat)
  deriving DecidableEq, Repr

def Place.add (p : Place) (n : Nat) : Place :=
  match p with
  | .mem va => .mem (va + BitVec.ofNat 64 n)
  | .sram a => .sram (a + n)

/-- What a job finds at a byte. -/
inductive Got where
  | ok (b : Byte)
  /-- The job stops with a status. -/
  | stop (status : Byte)
  /-- A protection failure: cause and address. -/
  | denied (cause : Byte) (va : Dword)
  deriving DecidableEq, Repr

/-- An engine read, verified (R223, R224, R238). -/
def engRead (s : State) (k : Core) (asn : Nat) (p : Place) : Got :=
  match p with
  | .sram a => if anyBad k.sramErr a 1 then .stop cCheck else .ok (kget 0 k.sram a)
  | .mem va =>
    match route s asn .load va with
    | .phys key _ => if memBadAt s key 1 then .stop cCheck else .ok (kget 0 s.mem key)
    | .absent => .stop 0xC3
    | .denied c => .denied c va
    | .peer _ => .stop 0xC1

/-- Whether an engine may write a byte. -/
def engMayWrite (s : State) (asn : Nat) (p : Place) : Got :=
  match p with
  | .sram _ => .ok 0
  | .mem va =>
    match route s asn .store va with
    | .phys _ _ => .ok 0
    | .absent => .stop 0xC3
    | .denied c => .denied c va
    | .peer _ => .stop 0xC1

/-- The first failure of a job's byte, if any: status, or cause, address and kind of access (R397). -/
inductive JobFail where
  | status (st : Byte)
  | prot (cause : Byte) (va : Dword) (access : Nat)

/-- Bytes up to the first that fails, in order. -/
def gatherBytes : List (Got × Got) → List Byte → List Byte × Option JobFail
  | [], acc => (acc.reverse, none)
  | (.ok b, .ok _) :: l, acc => gatherBytes l (b :: acc)
  | (.stop c, _) :: _, acc => (acc.reverse, some (.status c))
  | (.denied c va, _) :: _, acc => (acc.reverse, some (.prot c va 5))
  | (.ok _, .stop c) :: _, acc => (acc.reverse, some (.status c))
  | (.ok _, .denied c va) :: _, acc => (acc.reverse, some (.prot c va 6))

/-- A region's engine or array traffic over a range of addresses touches the lines of the L2 (11 R430). -/
def touchRange (s : State) (asn : Nat) (k : Access) (region : Rgn) (va n : Nat) : State :=
  (pieces va n).foldl (fun s p =>
    match route s asn k (BitVec.ofNat 64 p.1) with
    | .phys key _ => l2TouchRange s key p.2 region
    | _ => s) s

/-- The same for a job's place. -/
def touchPlace (s : State) (j : Job) (k : Access) (p : Place) (n : Nat) : State :=
  match p with
  | .mem va => touchRange s j.asn k j.region va.toNat n
  | .sram _ => s

/-- Write bytes at a place whose pages were checked. -/
def putBytes (s : State) (core asn : Nat) (p : Place) (bs : List Byte) : State :=
  match p with
  | .mem va => vmWrite s asn .store va.toNat bs
  | .sram a => setCore s core (sramWrite (getCore s core) a bs)

/-- Row, offset in the row, and bytes from there to the end of the chunk (R265). -/
def Job.position (j : Job) : Nat × Nat × Nat :=
  let at_ (row off len : Nat) : Nat × Nat × Nat := (row, off, min (len - off) (512 - off % 512))
  let rowLen : Nat :=
    match j.fn with
    | 0x02 => j.par 3
    | 0x05 => j.par 2
    | _ => j.total
  if j.fn = 0x11 then
    let keys := j.par 4 * j.keySize
    if j.done < keys then at_ 0 j.done keys else at_ 1 (j.done - keys) (j.par 4 * 4)
  else at_ (j.done / rowLen) (j.done % rowLen) rowLen

/-- The destination of a row. -/
def Job.destRow (j : Job) (r : Nat) : Place :=
  match j.fn with
  | 0x00 => .sram (j.base + j.par 2)
  | 0x01 | 0x10 => .mem (j.pair 0)
  | 0x11 => .mem (j.pair (2 * r))
  | 0x02 => if j.dirOut then .mem (j.pair 0 + BitVec.ofInt 64 (r * signed 32 (j.par 5))) else .sram (j.base + j.par 2 + r * j.par 6)
  | 0x03 => if j.dirOut then .mem (j.pair 0) else .sram (j.base + j.par 2)
  | 0x04 => if j.par 4 % 2 = 1 then .sram (j.base + j.par 0) else .mem (j.pair 0)
  | 0x05 => .sram (j.base + j.par 6 + r * j.par 2)
  | 0x21 => if j.par 5 % 2 = 1 then .sram (j.base + j.par 2) else .mem (j.pair 2)
  | _ => .mem (j.pair 0)

/-- The source of a row, for functions whose source is a range of bytes. -/
def Job.srcRow (j : Job) (r : Nat) : Place :=
  match j.fn with
  | 0x00 => .mem (j.pair 0)
  | 0x01 => .sram (j.base + j.par 2)
  | 0x02 => if j.dirOut then .sram (j.base + j.par 2 + r * j.par 6) else .mem (j.pair 0 + BitVec.ofInt 64 (r * signed 32 (j.par 5)))
  | 0x03 => if j.dirOut then .sram (j.base + j.par 2) else .mem (j.pair 0)
  | _ => .mem (j.pair 2)

/-- n bytes from a place, up to the first that fails. -/
def readRun (s : State) (core asn : Nat) (p : Place) (n : Nat) : List Byte × Option JobFail :=
  let k := getCore s core
  gatherBytes ((List.range n).map (fun i => (engRead s k asn (p.add i), .ok 0))) []

/-- Bytes of a chunk of `copy.cvt`: the elements of a run of the destination, converted (R265). -/
def convertRun (s : State) (core : Nat) (j : Job) (off n : Nat) : List Byte × Option JobFail :=
  let m := j.par 4
  let src := elemOf (m % 32)
  let dst := elemOf (m / 32 % 32)
  let e0 := off * 8 / dst.width
  let count := n * 8 / dst.width
  let r := readRun s core j.asn ((j.srcRow 0).add (e0 * src.width / 8)) (count * src.width / 8)
  let x := ofBytes r.1
  let have_ := r.1.length * 8 / src.width
  let one (i : Nat) : Nat :=
    let a := x / 2 ^ (src.width * i) % 2 ^ src.width
    let h := rsHash (BitVec.ofNat 32 a) (BitVec.ofNat 32 ((e0 + i) / 32)) j.pc (BitVec.ofNat 32 ((e0 + i) % 32))
    convertElem src dst (m / 1024 % 8) (m.testBit 13) h a
  let bits' := (List.range have_).foldr (fun i acc => acc * 2 ^ dst.width + one i) 0
  (toBytes (have_ * dst.width / 8) bits', r.2)

/-- The bytes that a chunk at a row and offset writes, up to the first failing source byte. -/
def sourceRun (s : State) (core : Nat) (j : Job) (r off n : Nat) : List Byte × Option JobFail :=
  match j.fn with
  | 0x03 => convertRun s core j off n
  | 0x04 => ((List.range n).map (fun i => BitVec.ofNat 8 (j.par 3 / 2 ^ (8 * ((off + i) % 4)))), none)
  | 0x05 =>
    match j.row with
    | none => ([], some (.status 0xC1))
    | some i => readRun s core j.asn (.mem (j.pair 0 + BitVec.ofNat 64 (i * j.par 2 + off))) n
  | 0x10 | 0x11 => (((j.sorted.getD []).drop j.done).take n, none)
  | _ => readRun s core j.asn ((j.srcRow r).add off) n

/-! Chunks (R265). -/

/-- The fault record of a job frozen under R226 (22 R397). -/
def jobRecord (s : State) (core slot : Nat) (j : Job) (cause : Byte) (va : Dword) (access : Nat) : State :=
  postFault s j.region (launchHost s j.launch)
    { cause := cause, kind := 1, access := access, cluster := core / 8, core := core % 8, wslot := slot + 0x40,
      detail := BitVec.ofNat 32 j.done, wgid := BitVec.ofNat 32 j.wgId, faddr := va, launch := launchDone s j.launch,
      rcb := j.region, cyc := BitVec.ofNat 64 (coreCyc s core) }

/-- A job stops at a failure: it ends with a status, or is frozen with its record. -/
def failJob (s : State) (core slot : Nat) (j : Job) (e : JobFail) : State :=
  match e with
  | .status st => setJob s core slot { j with phase := .ending st }
  | .prot cause va access => jobRecord (setJob s core slot { j with phase := .frozen cause }) core slot j cause va access

/-- Count bytes of a job on its bobbin (R275). -/
def countJob (s : State) (core : Nat) (j : Job) (n : Nat) (status : Byte) : State :=
  match j.bob with
  | some b => if j.bobOk then setCore s core (arriveAt (getCore s core) (j.base + b) n status 0) else s
  | none => s

/-- The status of a job whose last chunk is done. -/
def Job.goodStatus (j : Job) : Byte := if j.mismatch then 0xC5 else 0

/-- A chunk of n bytes is performed: the last one leaves the job to end; any other is counted when it reaches a
chunk boundary. -/
def advanceJob (s : State) (core slot : Nat) (j : Job) (n : Nat) (whole : Bool) : State :=
  let j1 := { j with done := j.done + n }
  if j.total ≤ j1.done then setJob s core slot { j1 with phase := .ending j1.goodStatus }
  else if whole then
    setJob (countJob s core j1 (j1.done - j.counted) 0) core slot { j1 with counted := j1.done }
  else setJob s core slot j1

/-- The index word of a row of `gather.rows` is read once, before the row's first chunk (R265; 19 R364). -/
def withRow (s : State) (core : Nat) (j : Job) : Except JobFail Job :=
  let (r, off, _) := j.position
  if j.fn != 0x05 || off != 0 then .ok j
  else
    let ix := readRun s core j.asn (.sram (j.base + j.par 4 + 4 * r)) 4
    match ix.2 with
    | some e => .error e
    | none => if j.par 3 ≤ ofBytes ix.1 then .error (.status 0xC1) else .ok { j with row := some (ofBytes ix.1) }

/-- The memory that a chunk reads. -/
def touchSource (s : State) (j : Job) (r off n : Nat) : State :=
  match j.fn with
  | 0x03 => touchPlace s j .load ((j.srcRow 0).add (off * 8 / j.toBits * j.fromBits / 8)) (n * 8 / j.toBits * j.fromBits / 8)
  | 0x05 => touchPlace s j .load (.mem (j.pair 0 + BitVec.ofNat 64 (j.row.getD 0 * j.par 2 + off))) n
  | 0x04 | 0x10 | 0x11 => s
  | _ => touchPlace s j .load ((j.srcRow r).add off) n

/-- A copying chunk. -/
def copyRun (s0 : State) (core slot : Nat) (j : Job) : State :=
  let (r, off, n) := j.position
  let dst := (j.destRow r).add off
  let s := touchPlace (touchSource s0 j r off n) j .store dst n
  let src := sourceRun s core j r off n
  let w := gatherBytes (src.1.mapIdx (fun i b => (.ok b, engMayWrite s j.asn (dst.add i)))) []
  match w.2 <|> src.2 with
  | none => advanceJob (putBytes s core j.asn dst w.1) core slot j n true
  | some (.prot c va a) => failJob s core slot j (.prot c va a)
  | some (.status st) =>
    failJob (putBytes s core j.asn dst w.1) core slot { j with done := j.done + w.1.length } (.status st)

def copyChunk (s : State) (core slot : Nat) (j : Job) : State :=
  match withRow s core j with
  | .error e => failJob s core slot j e
  | .ok j1 => copyRun s core slot j1

/-- A pair of records of `sum.flush` (R267): none when both stand unread because the pair fails. -/
def flushPair (s : State) (core asn : Nat) (clear : Bool) (dst src : Dword) : Except JobFail (State × Bool) :=
  let rec32 (va : Dword) : List Byte × Option JobFail := readRun s core asn (.mem va) 32
  let may (va : Dword) : Option JobFail :=
    match engMayWrite s asn (.mem va) with
    | .ok _ => none
    | .stop c => some (.status c)
    | .denied c v => some (.prot c v 6)
  let a := rec32 src
  let b := rec32 dst
  match a.2 <|> (if clear then may src else none) <|> b.2 <|> may dst with
  | some e => .error e
  | none =>
    match (Ws.ofBytes b.1).combine (Ws.ofBytes a.1) with
    | none => .ok (s, true)
    | some x =>
      let s1 := vmWrite s asn .store dst.toNat x.toBytes
      .ok (if clear then vmWrite s1 asn .store src.toNat (Ws.ofBytes a.1).clear.toBytes else s1, false)

/-- Pairs of a chunk in order, up to the first that fails. -/
def flushRun (core asn : Nat) (clear : Bool) (dst src : Dword) : Nat → Nat → State → Bool → State × Nat × Bool × Option JobFail
  | 0, i, s, mm => (s, i, mm, none)
  | n + 1, i, s, mm =>
    match flushPair s core asn clear (dst + BitVec.ofNat 64 (32 * i)) (src + BitVec.ofNat 64 (32 * i)) with
    | .error e => (s, i, mm, some e)
    | .ok (s1, m) => flushRun core asn clear dst src n (i + 1) s1 (mm || m)

/-- A chunk of `sum.flush`: at most 16 records. A protection failure stops the job before the chunk (R226). -/
def flushChunk (s : State) (core slot : Nat) (j : Job) : State :=
  let (_, _, n) := j.position
  let at_ (i : Nat) : Dword := j.pair i + BitVec.ofNat 64 j.done
  let s0 := touchRange (touchRange s j.asn .load j.region (at_ 2).toNat n) j.asn .load j.region (at_ 0).toNat n
  let x := flushRun core j.asn (j.par 5 % 2 = 1) (at_ 0) (at_ 2) (n / 32) 0 s0 j.mismatch
  let j1 := { j with mismatch := x.2.2.1 }
  match x.2.2.2 with
  | none => advanceJob x.1 core slot j1 n true
  | some (.prot c va a) => failJob s core slot j (.prot c va a)
  | some (.status st) => failJob x.1 core slot { j1 with done := j1.done + 32 * x.2.1 } (.status st)

/-- The peer request of a chunk (R267, 21 R387): a store of the local bytes before the first that fails, a load,
or a combination of the local records before the first that fails. -/
def peerChunk (s : State) (core slot : Nat) (j : Job) : State :=
  let (_, off, n) := j.position
  let src := if j.fn = 0x21 then (List.replicate n 0, none) else readRun s core j.asn ((j.srcRow 0).add off) n
  let len := if j.fn = 0x22 then src.1.length / 32 * 32 else src.1.length
  let op : PeerOp :=
    match j.fn with
    | 0x20 => .put (src.1.take len)
    | 0x21 => .get n
    | _ => .combine (src.1.take len)
  match src.2 with
  | some (.prot c v a) => failJob s core slot j (.prot c v a)
  | some e => if len = 0 then failJob s core slot j e else send op len
  | none => send op len
where
  send (op : PeerOp) (len : Nat) : State :=
    let va := j.pair 0 + BitVec.ofNat 64 j.done
    match peerSend s j.asn j.region va op (.job core slot len) with
    | some (s1, req) => setJob s1 core slot { j with peer := some req }
    | none =>
      peerRecord (setJob s core slot { j with phase := .ending cPeerFault }) core (slot + 0x40) cPeerFault
        (if j.fn = 0x21 then 5 else 6) j.asn j.region va j.launch j.wgId 0 0 (BitVec.ofNat 32 j.done)

/-- ENG_CHUNK (R265, R271): a job asked to stop ends at this chunk boundary. -/
def execEngChunk (core job : Nat) (s : State) : Host.Outcome State Fault Refusal :=
  match getJob s core job with
  | none => .next s
  | some j =>
    if j.phase != .running || j.peer.isSome || j.fn = 0x18 then .next s
    else if j.cancel then .next (setJob s core job { j with phase := .ending 0xC2 })
    else match j.fn with
      | 0x10 | 0x11 => .next (if j.sorted.isSome then copyChunk s core job j else s)
      | 0x20 | 0x21 | 0x22 => .next (peerChunk s core job j)
      | 0x28 => .next (flushChunk s core job j)
      | _ => .next (copyChunk s core job j)

/-! The Carder (R279, R280). -/

/-- The place of a key in the ascending order of its type. -/
def keyOrder (ktype w v : Nat) : Int :=
  match ktype with
  | 0 => (v : Int)
  | 1 => signed w v
  | _ =>
    let neg := v.testBit 31
    let t := v % 2 ^ 23
    let body : Nat := v % 2 ^ 31
    if 0x7F800000 < body then ((2 ^ 33 + 2 * t + (if neg then 1 else 0) : Nat) : Int)
    else if neg then -(body : Int) - 1 else (body : Int)

/-- Merge two sorted lists; elements of the left list come first among equals. -/
def mergeKeys {α : Type} (lt : α → α → Bool) : Nat → List α → List α → List α
  | 0, a, b => a ++ b
  | _ + 1, [], b => b
  | _ + 1, a, [] => a
  | n + 1, x :: a, y :: b => if lt y x then y :: mergeKeys lt n (x :: a) b else x :: mergeKeys lt n a (y :: b)

/-- A stable sort by merging neighbours. -/
def mergeRound {α : Type} (lt : α → α → Bool) : List (List α) → List (List α)
  | a :: b :: l => mergeKeys lt (a.length + b.length) a b :: mergeRound lt l
  | l => l

def mergeAll {α : Type} (lt : α → α → Bool) : Nat → List (List α) → List α
  | 0, l => l.flatten
  | _ + 1, [] => []
  | _ + 1, [a] => a
  | n + 1, l => mergeAll lt n (mergeRound lt l)

def stableSort {α : Type} (lt : α → α → Bool) (l : List α) : List α := mergeAll lt 64 (l.map (fun x => [x]))

/-- Cut a list into pieces of n. -/
def cutInto (n : Nat) : Nat → List Byte → List (List Byte)
  | 0, _ => []
  | count + 1, l => l.take n :: cutInto n count (l.drop n)

/-- The sorted arrays: keys, then values. -/
def sortArrays (j : Job) (keys vals : List Byte) : List Byte :=
  let ks := cutInto j.keySize (j.par 4) keys
  let vs := if j.fn = 0x11 then cutInto 4 (j.par 4) vals else ks
  let kt := j.par 5 / 2 % 4
  let ord (x : List Byte × List Byte) : Int :=
    let o := keyOrder kt (8 * j.keySize) (ofBytes x.1)
    if (j.par 5).testBit 3 then -o else o
  let pairs := ks.zip vs
  let keyed := pairs.map (fun x => (ord x, x))
  let out := (stableSort (fun a b => decide (a.1 < b.1)) keyed).map (·.2)
  out.flatMap (·.1) ++ (if j.fn = 0x11 then out.flatMap (·.2) else [])

/-- CARDER_JOB_START (R279): the first accepted sort is read and sorted; its chunks write it back. -/
def execCarderJobStart (cluster : Nat) (s : State) : Host.Outcome State Fault Refusal :=
  let frozen (x : Nat × Nat) : Bool :=
    match getJob s x.1 x.2 with
    | some j => match j.phase with
      | .frozen _ => true
      | _ => false
    | none => true
  match (getCluster s cluster).carder.filter (fun x => !frozen x) with
  | [] => .next s
  | (core, slot) :: _ =>
    match getJob s core slot with
    | none => .next s
    | some j =>
      if j.phase != .running || j.sorted.isSome then .next s
      else if j.cancel then .next (setJob s core slot { j with phase := .ending 0xC2 })
      else
        let ks := readRun s core j.asn (.mem (j.pair 0)) (j.par 4 * j.keySize)
        let vs := if j.fn = 0x11 then readRun s core j.asn (.mem (j.pair 2)) (j.par 4 * 4) else ([], none)
        match ks.2 <|> vs.2 with
        | some e => .next (failJob s core slot j e)
        | none =>
          let s1 := j.spans.foldl (fun s (x : Span) => touchRange s j.asn .load j.region (x.base % ((2 ^ 64 : Nat) : Int)).toNat x.len) s
          .next (setJob s1 core slot { j with sorted := some (sortArrays j ks.1 vs.1) })

/-! Page requests (R266). -/

/-- The status of a page request over the pages from one, ascending, and the state with the pages before a
failing one resident. Whether firmware can provide a frame is a free choice (log 2). -/
def requestPages (asn : Nat) : Nat → Nat → Nat → State → State × Byte
  | 0, _, _, s => (s, 0)
  | fuel + 1, va, stop, s =>
    if stop ≤ va then (s, 0)
    else
      let v : Dword := BitVec.ofNat 64 va
      let l := if vaOwner v < 3 then leafOf s asn v else 0
      if vaOwner v = 7 || tbit l 5 then (s, cProtPriv)
      else if bits l 1 4 = 0 then (s, 0xC6)
      else
        let next := (va / leafSpan l + 1) * leafSpan l
        if tbit l 0 then requestPages asn fuel next stop s
        else
          let s1 := { s with freeCount := s.freeCount + 1 }
          if Config.freeNat s.freeCount % 2 = 1 || !mayChange s asn v (l ||| 1) then (s1, 0xC6)
          else requestPages asn fuel next stop (changeLeaf s1 asn v (l ||| 1))

/-! The end of a job (R272). -/

/-- Locks drop, the future becomes COMPLETE, and the last bytes are counted. -/
def finishJob (s : State) (core slot : Nat) (j : Job) (status : Byte) : State :=
  let k := getCore s core
  let drop (k : Core) (x : Span) : Core := if x.len = 0 then k else l1DropRange k j.asn (x.base % (2 ^ 64 : Nat)).toNat x.len
  let k1 := j.dests.foldl drop k
  let k2 := { k1 with locks := k1.locks.filter (fun x => x.slot != slot), jobs := kset none k1.jobs slot none }
  let s1 := setCore s core (completeFut k2 slot status j.done)
  let cl := getCluster s1 (core / 8)
  let s2 := setCluster s1 (core / 8) { cl with carder := cl.carder.filter (fun x => x != (core, slot)) }
  let rest := j.total - j.counted
  if status = 0 && rest = 0 then s2 else countJob s2 core j rest status

/-- ENG_JOB_END (R272): a job whose last chunk is done, or that has stopped, or a page request. -/
def execEngJobEnd (core job : Nat) (s : State) : Host.Outcome State Fault Refusal :=
  match getJob s core job with
  | none => .next s
  | some j =>
    match j.phase with
    | .ending st => .next (finishJob s core job j st)
    | .running =>
      if j.fn = 0x18 then
        let va := (j.pair 0).toNat
        let r := requestPages j.asn (j.par 2 / 4096 + 2) va (va + j.par 2) s
        .next (finishJob r.1 core job j r.2)
      else .next s
    | _ => .next s

end Sys2Proof.Machine
end

