-- ==== Sys2Proof/Machine/Ramp.lean ====
section
/-! DEFINITION. Ballast, ramp windows and FLOOR, as other parts of the machine change them (16 R313, R319). -/
namespace Sys2Proof.Machine

def isPass (e : ArrayEntry) : Bool :=
  match e.op with
  | .pass _ _ _ _ _ _ _ => true
  | _ => false

/-- BALLAST (R313): a pass is queued, or a ramp window is open. -/
def setBallast (k : Core) : Core := { k with ballast := k.array.any isPass || k.ramp.isSome }

/-- A load drop opens a ramp window (R319). -/
def startRamp (k : Core) (cyc : Nat) : Core := setBallast { k with ramp := some { start := cyc, interval := k.interval } }

/-- A new load ends the window. -/
def endRamp (k : Core) : Core := setBallast { k with ramp := none }

/-- The active context of a core. -/
def activeCtx (k : Core) : Option Context := k.ctxs.find? (fun c => c.place = .active)

/-- FLOOR over the workgroups of the active context, INTERVAL raised to it (R313); without a workgroup FLOOR
stands as it is (log 5). -/
def updateFloor (k : Core) : Core :=
  let rgn := (activeCtx k).map (·.region)
  let hs := k.wgs.filterMap (fun g => g.2.bind (fun g => if some g.region = rgn then some (ceilDiv 64 g.kernel.heavy) else none))
  match hs with
  | [] => k
  | _ =>
    let f := hs.foldl max 1
    { k with floor := f, interval := max k.interval f }

/-- A placement on a core that held no workgroup and has no ramp window open finds INTERVAL at its reset value,
FLOOR (06 R105); otherwise INTERVAL goes on from what it is (16 R314, log 5). -/
def startFloor (fresh : Bool) (cyc : Nat) (k : Core) : Core :=
  let k1 := updateFloor k
  if fresh then { k1 with interval := k1.floor, lastEval := cyc, vecQuads := 0 } else k1

/-- Some wave of a context has lanes left. -/
def ctxLives (k : Core) (region : Rgn) : Bool :=
  k.waves.any (fun sw => match sw.2 with
    | none => false
    | some w => !w.parts.isEmpty && ((getWg k w.wg).map (·.region)) = some region)

end Sys2Proof.Machine
end

