-- ==== Sys2Proof/Machine/Squarer.lean ====
section
/-! DEFINITION. The squarer array's arithmetic: lines of elements, their alignment and flags, and the update of
a tile row (14 R281-R289; 15 R299). -/
namespace Sys2Proof.Machine

/-- Format of a float element (R282 codes 0-3). -/
def arrayFmt (fmt : Nat) : Fmt := if fmt = 0 then bf16 else if fmt = 1 then fp16 else if fmt = 2 then e4m3 else e5m2

/-- Bytes of a line of K elements (15 R299). -/
def lineBytes (fmt k : Nat) : Nat :=
  match fmt with
  | 0 | 1 => 2 * k
  | 2 | 3 | 4 => k
  | 5 => 18 * k / 16
  | 6 => 12 * k / 16
  | 7 => k / 2 + k / 32
  | _ => 8 * k / 16

/-- Tag numbers of the PX formats, as the block functions take them. -/
def pxTag (fmt : Nat) : Nat := if fmt = 5 then 0x10 else if fmt = 6 then 0x0F else 0x0E
def pxBytes (fmt : Nat) : Nat := if fmt = 5 then 18 else if fmt = 6 then 12 else 8

/-- The exact values of a line, whether each code has its sign set, and the largest block exponent (R285). -/
def lineValues (fmt k : Nat) (bs : List Byte) : List (FVal × Bool) × Int :=
  match fmt with
  | 0 | 1 | 2 | 3 =>
    let f := arrayFmt fmt
    ((splitBits f.w k (ofBytes bs)).map (fun c => (f.decode c, c.testBit (f.w - 1))), 0)
  | 4 =>
    ((splitBits 8 k (ofBytes bs)).map (fun c =>
      let i := signed 8 c
      (FVal.num (decide (i < 0)) i.natAbs 0, decide (i < 0))), 0)
  | 7 =>
    let codes := splitBits 4 k (ofBytes (bs.take (k / 2)))
    let scales := (bs.drop (k / 2)).map (·.toNat)
    (codes.mapIdx (fun i c => (mxValue 0x06 (scales.getD (i / 32) 0) c, c.testBit 3)),
     (((scales.take (k / 32)).filter (· != 255)).foldl Nat.max 0 : Nat))
  | _ =>
    let t := pxTag fmt
    let w := pxM t + 1
    let blocks := (List.range (k / 16)).map (fun b => (bs.drop (pxBytes fmt * b)).take (pxBytes fmt))
    (blocks.flatMap (fun b =>
      let scale := field b 0 1
      (splitBits w 16 (ofBytes (b.drop 2))).mapIdx (fun i c => (pxValue t scale i c, c.testBit (w - 1)))),
     (((blocks.map (fun b => field b 0 0)).filter (· != 255)).foldl Nat.max 0 : Nat))

/-- The scale exponent of a line (R285). -/
def lineExp (fmt : Nat) (xs : List FVal) (emax : Int) : Int :=
  let fin := xs.filter (fun x => !notFinite x && !isZeroVal x)
  match fmt, fin with
  | _, [] => 0
  | 4, _ => 0
  | 0, x :: l | 1, x :: l => l.foldl (fun m y => max m y.log2) x.log2 - 12
  | 2, x :: l | 3, x :: l => l.foldl (fun m y => max m y.log2) x.log2 - 7
  | _, _ => emax - 128

/-- An element aligned to a scale exponent, and whether the rounding changed it. -/
def alignElem (f : Int) (x : FVal) : Int × Bool :=
  match x with
  | .num neg m e =>
    let n := roundInt 0 neg 0 m (e - f) false
    (if neg then -(n : Int) else n, !(0 ≤ e - f || m % 2 ^ (f - e).toNat = 0))
  | _ => (0, false)

/-- Positions of a list at which a test holds. -/
def whereIn {α : Type} (p : α → Bool) (l : List α) : List Nat := ((l.mapIdx (fun i x => (i, x))).filter (fun x => p x.2)).map (·.1)

/-- A line as an edge unit forms it (R283, R285, R288). -/
def makeLine (fmt k : Nat) (bs : List Byte) : Line :=
  let v := lineValues fmt k bs
  let xs := v.1.map (·.1)
  let f := lineExp fmt xs v.2
  let al := xs.map (alignElem f)
  let isInf (x : FVal) : Bool := match x with
    | .inf _ => true
    | _ => false
  { f := f, ints := al.map (·.1), square := al.foldl (fun a x => a + x.1 * x.1) 0
    nan := whereIn FVal.isNan xs
    inf := (whereIn isInf xs).map (fun i => (i, (v.1.getD i (.nan, false)).2))
    zero := whereIn isZeroVal xs
    neg := whereIn (fun x => x.2) v.1
    loss := al.any (·.2) }

/-- The IEEE sum's special cases (R289): signs of the infinite products of a row and a column. -/
def infProducts (a b : Line) : List Bool :=
  let sgn (l : Line) (k : Nat) : Bool := l.neg.contains k
  (a.inf.filter (fun x => !b.zero.contains x.1)).map (fun x => x.2 != sgn b x.1) ++
  (b.inf.filter (fun x => !a.zero.contains x.1)).map (fun x => x.2 != sgn a x.1)

/-- Some product involves a NaN or is an infinity times zero. -/
def nanProducts (a b : Line) : Bool :=
  !a.nan.isEmpty || !b.nan.isEmpty || a.inf.any (fun x => b.zero.contains x.1) || b.inf.any (fun x => a.zero.contains x.1)

/-- The sum of the squares of a cell column (R286). -/
def squares : List Int → List Int → Int → Int
  | a :: as, b :: bs, s => squares as bs (s + (a + b) * (a + b))
  | _, _, s => s

/-- The canonical NaN of an F32 tile, 0 in an I32 tile (R294). -/
def errorElem (fmt : Nat) : Word := if fmt = 4 then 0 else 0x7FC00000

/-- The new value of a tile element (R286, R289). -/
def cellUpdate (fmt : Nat) (a b : Line) (old : Word) : Word :=
  let p := (squares a.ints b.ints 0 - a.square - b.square) / 2
  if fmt = 4 then old + BitVec.ofInt 32 p
  else
    let t := f32 old
    let infs := infProducts a b ++ (match t with
      | .inf s => [s]
      | _ => [])
    if t.isNan || nanProducts a b then 0x7FC00000
    else match infs with
      | s :: l => if l.all (· = s) then BitVec.ofNat 32 (fp32.infCode s) else 0x7FC00000
      | [] => if p = 0 then old else toF32 0 (t.add 0 (.num (decide (p < 0)) p.natAbs (a.f + b.f)))

end Sys2Proof.Machine
end

