-- ==== Sys2Proof/Machine/Array.lean ====
section
/-! DEFINITION. The array queue and what the array does: loads, rows, tile rows, drains (14 R291-R296;
15 R300-R308). -/
namespace Sys2Proof.Machine

def getTile (k : Core) (t : Nat) : Tile := kget {} k.tiles t
def setTile (k : Core) (t : Nat) (x : Tile) : Core := { k with tiles := kset {} k.tiles t x }
def getBank (k : Core) (b : Nat) : Bank := kget {} k.banks b
def setBank (k : Core) (b : Nat) (x : Bank) : Core := { k with banks := kset {} k.banks b x }
def tileElem (i n : Nat) : Nat := i * 64 + n

/-- Status bits of a tile (R294). -/
def Tile.flag (t : Tile) (bit : Nat) : Tile := { t with status := t.status ||| BitVec.ofNat 32 (2 ^ bit) }

/-- An entry that will still change a tile: a pass, a drain with ZERO that has not read it, or a zeroing. -/
def changesTile (t : Nat) (e : ArrayEntry) : Bool :=
  match e.op with
  | .pass x _ _ _ _ _ _ => x = t
  | .drain x _ _ _ zero _ _ _ _ _ _ image => x = t && zero && image.isNone
  | .zero x => x = t
  | .load _ _ _ _ => false

/-- An entry whose effect on a tile, or reading of it, is still due. -/
def dueOnTile (t : Nat) (e : ArrayEntry) : Bool :=
  changesTile t e || (match e.op with
    | .drain x _ _ _ _ _ _ _ _ _ _ image => x = t && image.isNone
    | _ => false)

def loadsBank (b : Nat) (e : ArrayEntry) : Bool :=
  match e.op with
  | .load x _ _ _ => x = b
  | _ => false

def passesBank (b : Nat) (e : ArrayEntry) : Bool :=
  match e.op with
  | .pass _ x _ _ _ _ _ => x = b
  | _ => false

/-- An entry still holds its place in the queue: a drain that has read its tile has left it. -/
def holdsPlace (e : ArrayEntry) : Bool :=
  match e.op with
  | .drain _ _ _ _ _ _ _ _ _ _ _ image => image.isNone
  | _ => true

/-- Thirty-two entries (15 R297). -/
def arrayFull (k : Core) : Bool := decide (32 ≤ (k.array.filter holdsPlace).length)

def updEntry (k : Core) (id : Nat) (g : ArrayEntry → ArrayEntry) : Core :=
  { k with array := updateWhere (fun e => e.id = id) g k.array }
def dropEntry (k : Core) (id : Nat) : Core := setBallast { k with array := k.array.filter (fun e => e.id != id) }

/-- Entries before one in the queue. -/
def earlierThan (k : Core) (id : Nat) : List ArrayEntry := k.array.takeWhile (fun e => e.id != id)

/-- The rows of a tile that a drain reads; elements with an uncorrectable error read as R294 says. -/
def readTile (t : Tile) (rows dfmt : Nat) : List (List Word) :=
  (List.range rows).map (fun i => (List.range 64).map (fun n =>
    if t.ecc.contains (tileElem i n) then errorElem (if dfmt = 5 then 4 else 0) else kget 0 t.elems (tileElem i n)))

/-- Zeroings and the reading of drained tiles take effect at their position in the queue (R293, R307, R309). -/
def settleOne (k : Core) (e : ArrayEntry) : Core :=
  match e.op with
  | .zero t =>
    if (earlierThan k e.id).any (dueOnTile t) then k
    else dropEntry (setTile k t { getTile k t with elems := [], status := 0, ecc := [] }) e.id
  | .drain t dfmt add xsat zero scope dest stride rows bob sp none =>
    if (earlierThan k e.id).any (dueOnTile t) then k
    else
      let x := getTile k t
      let met := (List.range rows).any (fun i => (List.range 64).any (fun n => x.ecc.contains (tileElem i n)))
      let x1 := if met then x.flag 1 else x
      let k1 := setTile k t (if zero then { x1 with elems := [], status := 0, ecc := [] } else x1)
      let op : ArrayOp := .drain t dfmt add xsat zero scope dest stride rows bob sp (some (readTile x rows dfmt))
      updEntry k1 e.id (fun y => { y with op := op, bits := bits x1.status 0 4 })
  | _ => k

def settleArray (k : Core) : Core := k.array.foldl settleOne k

/-- An array queue that has run empty is a load drop (16 R319). -/
def rampIfEmpty (k : Core) (cyc : Nat) : Core := if k.array.any holdsPlace then k else startRamp k cyc

/-! Loads (15 R300). -/

/-- A bank's contents, LOSS and BAD as a source in the scratchpad gives them (R282, R283). -/
def fillBank (k : Core) (bank : Bank) (fmt kk src : Nat) : Bank :=
  let rb := lineBytes fmt kk
  let bad := anyBad k.sramErr src (64 * rb)
  let cols := (List.range 64).map (fun n => makeLine fmt kk (readBytes k.sram (src + n * rb) rb))
  let st := putBits (putBits bank.state 2 1 (if bad then 1 else 0)) 3 1 (if cols.any (·.loss) then 1 else 0)
  { bank with cols := cols, bad := bad, parity := [], src := src, state := st }

/-- MLOAD_EXECUTE (R283, R284). -/
def execMloadExecute (core entry : Nat) (s : State) : Host.Outcome State Fault Refusal :=
  let k := getCore s core
  match k.array.find? (fun e => e.id = entry) with
  | none => .next s
  | some e =>
    match e.op with
    | .load b fmt kk src =>
      if (earlierThan k entry).any (fun x => passesBank b x || loadsBank b x) then .next s
      else
        let bank := fillBank k (getBank k b) fmt kk src
        let st := if k.array.any (fun x => x.id != entry && loadsBank b x) then (getBank k b).state else putBits bank.state 1 1 0
        let k1 := setBank k b { bank with state := st }
        let k2 := completeFut (dropEntry k1 entry) e.fut (if bank.bad then cCheck else 0) (64 * lineBytes fmt kk)
        .next (setCore s core (rampIfEmpty k2 (coreCyc s core)))
    | _ => .next s

/-! Rows (14 R291, R292). -/

/-- The pass whose next row enters: the first with rows left, once its bank's earlier loads have ended. -/
def nextPass (k : Core) : Option ArrayEntry :=
  match k.array.find? (fun e => match e.op with
    | .pass _ _ d _ entered _ _ => decide (entered < d.rows.length)
    | _ => false) with
  | none => none
  | some e =>
    match e.op with
    | .pass _ b _ _ _ _ _ => if (earlierThan k e.id).any (loadsBank b) then none else some e
    | _ => none

/-- Cycles in which the gather unit reads n bytes from an absolute SRAM address (R291; 11 R228). -/
def gatherCycles (a n : Nat) : Nat := bankCycles ((List.range ((a + n + 3) / 4 - a / 4)).map (a / 4 + ·))

/-- Cycles for row i of a gathered block. -/
def rowCycles (d : GatherDesc) (base i : Nat) : Nat := gatherCycles (base + d.rows.getD i 0) (lineBytes d.fmt d.k)

/-- ARRAY_ROW_ENTRY (R291): a row that has been gathered, or under BALLAST a zero row that changes nothing, takes the slot.
The gather of a row begins when the row before it has entered (log 47). -/
def execArrayRowEntry (core : Nat) (s : State) : Host.Outcome State Fault Refusal :=
  let k := getCore s core
  let cyc := coreCyc s core
  if cyc < k.nextSlot then .next s
  else
    let k1 := { k with nextSlot := cyc + k.interval }
    match (nextPass k).filter (fun e => decide (e.ready ≤ cyc)) with
    | none => .next (if k.ballast then setCore s core k1 else s)
    | some e =>
      match e.op with
      | .pass t b d base entered written check =>
        let rb := lineBytes d.fmt d.k
        let a := base + d.rows.getD entered 0
        let line := if anyBad k.sramErr a rb then none else some (makeLine d.fmt d.k (readBytes k.sram a rb))
        let k2 := updEntry k1 e.id (fun x =>
          { x with op := .pass t b d base (entered + 1) written check, ready := cyc + rowCycles d base (entered + 1) })
        .next (setCore s core { k2 with rows := k2.rows ++ [⟨e.id, entered, cyc + 138, line⟩] })
      | _ => .next s

/-- A row updates its tile row (R286, R289, R294). -/
def writeRow (fmt : Nat) (bank : Bank) (t : Tile) (r : ArrayRow) : Tile × Bool :=
  let bankLoss := bank.cols.any (·.loss)
  let cell (line : Line) (n : Nat) : Word :=
    let i := tileElem r.row n
    if bank.bad || bank.parity.contains n || t.ecc.contains i then errorElem fmt
    else cellUpdate fmt line (bank.cols.getD n {}) (kget 0 t.elems i)
  let vals : List (Nat × Word) := match r.line with
    | none => (List.range 64).map (fun n => (n, errorElem fmt))
    | some l => (List.range 64).map (fun n => (n, cell l n))
  let t1 := { t with elems := vals.foldl (fun m x => kset 0 m (tileElem r.row x.1) x.2) t.elems
                     ecc := t.ecc.filter (fun i => i / 64 != r.row) }
  let check := bank.bad || r.line.isNone
  let t2 := if check then t1.flag 2 else t1
  let t3 := if bankLoss || (r.line.map (·.loss)).getD false then t2.flag 3 else t2
  let t4 := if bank.parity.isEmpty then t3 else t3.flag 0
  (if t.ecc.any (fun i => i / 64 = r.row) then t4.flag 1 else t4, check)

/-- A pass whose rows are all written completes (R292, 15 R304): PASSES, and its future. -/
def completePass (k : Core) (e : ArrayEntry) : Core :=
  match e.op with
  | .pass t _ d _ _ _ check =>
    let x := getTile k t
    let n := min 65535 (bits x.status 16 16 + 1)
    let k1 := setTile k t { x with status := putBits x.status 16 16 n }
    settleArray (completeFut (dropEntry k1 e.id) e.fut (if check then cCheck else 0) (lineBytes d.fmt d.k * d.rows.length))
  | _ => k

/-- TILE_ROW_WRITE (R292): the oldest row whose time has come is written; a pass whose last row was written in an
earlier cycle completes, and when that leaves the array queue empty a ramp window opens (16 R319). -/
def execTileRowWrite (core : Nat) (s : State) : Host.Outcome State Fault Refusal :=
  let k := getCore s core
  let cyc := coreCyc s core
  let finished (e : ArrayEntry) : Bool := match e.op with
    | .pass _ _ d _ _ written _ => decide (written = d.rows.length) && decide (e.doneAt ≤ cyc)
    | _ => false
  match k.array.find? finished with
  | some e =>
    let k1 := completePass k e
    .next (setCore s core (rampIfEmpty k1 cyc))
  | none =>
    match k.rows.find? (fun r => decide (r.due ≤ cyc)) with
    | none => .next s
    | some r =>
      match k.array.find? (fun e => e.id = r.entry) with
      | none => .next s
      | some e =>
        match e.op with
        | .pass t b d base entered written check =>
          if (earlierThan k e.id).any (dueOnTile t) then .next s
          else
            let x := writeRow d.fmt (getBank k b) (getTile k t) r
            let op : ArrayOp := .pass t b d base entered (written + 1) (check || x.2)
            let k1 := updEntry (setTile k t x.1) e.id (fun y => { y with op := op, doneAt := cyc + 1 })
            .next (setCore s core { k1 with rows := k1.rows.filter (fun y => !(y.entry = r.entry && y.row = r.row)) })
        | _ => .next s

/-! Drains (14 R295, 15 R307, R308). -/

def drainSize (dfmt : Nat) : Nat := if dfmt = 0 || dfmt = 5 then 4 else if dfmt ≤ 2 then 2 else 1
def drainElem (dfmt : Nat) : Elem :=
  match dfmt with
  | 0 => .flt fp32
  | 1 => .flt fp16
  | 2 => .flt bf16
  | 3 => .flt e4m3
  | 4 => .flt e5m2
  | _ => .int 32 true

/-- An element as a drain writes it, from the destination's old bits under ADD. -/
def drainValue (dfmt : Nat) (add xsat : Bool) (t : Word) (old : Nat) : Nat :=
  match drainElem dfmt with
  | .int _ _ => if add then (t.toNat + old) % 2 ^ 32 else t.toNat
  | .flt f =>
    if add then f.round 0 0 false ((f.decode old).add 0 (f32 t))
    else convertElem (.flt fp32) (.flt f) 0 xsat 0 t.toNat

/-- Bytes of the covered range of a drain (R306). -/
def coveredBytes (dfmt stride rows : Nat) : Nat := (rows - 1) * stride + 64 * drainSize dfmt

/-- What a drain does at one sector of 32 bytes of its destination: address, values, count written, first
failure seen. -/
structure DrainAcc where
  s : State
  written : Nat := 0
  absent : Bool := false
  failed : Bool := false

/-- The new bytes of a sector: elements of a tile row from a column on. -/
def sectorBytes (dfmt : Nat) (add xsat : Bool) (row : List Word) (n0 : Nat) (old : List Byte) : List Byte :=
  let es := drainSize dfmt
  (List.range (32 / es)).flatMap (fun i =>
    toBytes es (drainValue dfmt add xsat (row.getD (n0 + i) 0) (ofBytes ((old.drop (es * i)).take es))))

/-- One sector of a global drain; its page was translated and permits the access. -/
def drainSector (asn dfmt : Nat) (add xsat : Bool) (row : List Word) (acc : DrainAcc) (va n0 : Nat) : DrainAcc :=
  match route acc.s asn (if add then .atomic else .store) (BitVec.ofNat 64 va) with
  | .phys key _ =>
    if add && memBadAt acc.s key 32 then { acc with failed := true }
    else
      let new := sectorBytes dfmt add xsat row n0 (if add then memRead acc.s key 32 else [])
      { acc with s := homeWrite acc.s key new, written := acc.written + 32 }
  | _ => { acc with absent := true }

/-- One sector of a scratchpad drain, at an absolute SRAM address. -/
def drainSramSector (core dfmt : Nat) (add xsat : Bool) (row : List Word) (acc : DrainAcc) (a n0 : Nat) : DrainAcc :=
  let k := getCore acc.s core
  if add && anyBad k.sramErr a 32 then { acc with failed := true }
  else
    let new := sectorBytes dfmt add xsat row n0 (if add then readBytes k.sram a 32 else [])
    { acc with s := setCore acc.s core (sramWrite k a new), written := acc.written + 32 }

/-- Every sector of a drain, rows ascending. -/
def drainAll (core asn : Nat) (sp : Bool) (dfmt : Nat) (add xsat : Bool) (dest stride : Nat) (image : List (List Word))
    (s : State) : DrainAcc :=
  let es := drainSize dfmt
  (image.mapIdx (fun i row => (i, row))).foldl (fun acc ir =>
    (List.range (2 * es)).foldl (fun acc q =>
      let a := dest + ir.1 * stride + 32 * q
      if sp then drainSramSector core dfmt add xsat ir.2 acc a (q * 32 / es)
      else drainSector asn dfmt add xsat ir.2 acc a (q * 32 / es)) acc) { s := s }

/-- The first page of a range that a drain may not write: cause and address. -/
def drainDenied (s : State) (asn : Nat) (add : Bool) (dest n : Nat) : Option (Byte × Dword) :=
  (pieces dest n).findSome? (fun p =>
    match route s asn (if add then .atomic else .store) (BitVec.ofNat 64 p.1) with
    | .denied c => some (c, BitVec.ofNat 64 p.1)
    | _ => none)

/-- The wave with a placement number, in its slot or in the save area of its context. -/
def waveOf (k : Core) (slot serial : Nat) : Option Wave :=
  match (getWave k slot).filter (fun w => w.serial = serial) with
  | some w => some w
  | none => (k.ctxs.flatMap (·.savedWaves)).findSome? (fun x => if x.2.serial = serial then some x.2 else none)

/-- The drain's entry has left its wave's store queue, as a release at SCOPE; what the core has stored has reached its home,
where the drain reads and writes. -/
def drainReleased (k : Core) (e : ArrayEntry) (scope : Nat) : Bool :=
  (match waveOf k e.slot e.serial with
    | none => true
    | some w => !w.queue.any (fun q => q.kind = .drain e.id)) && (scope = 0 || k.outbound.isEmpty)

/-- The part that holds a lane now: the record's QMASK. -/
def reportQuads (k : Core) (slot serial lane : Nat) : Quads :=
  quadsOf ((((waveOf k slot serial).bind (fun w => w.parts.find? (fun p => tbit p.lanes lane))).map (·.lanes)).getD (BitVec.ofNat 64 (2 ^ lane)))

/-- A drain has been applied: bytes written, status, and its bits. -/
def drainResult (s : State) (core entry n : Nat) (st : Byte) (b : Nat) : State :=
  setCore s core (updEntry (getCore s core) entry (fun x => { x with result := some (n, st), bits := b, peer := none }))

/-- A drain through a peer window is one request (21 R383), which fails at once where the window is invalid. -/
def sendDrain (s : State) (core : Nat) (e : ArrayEntry) (va : Dword) (op : PeerOp) : State :=
  match peerSend s e.asn e.region va op (.drain core e.id) with
  | some (s1, req) => setCore s1 core (updEntry (getCore s1 core) e.id (fun x => { x with peer := some req }))
  | none =>
    peerRecord (drainResult s core e.id 0 cPeerFault e.bits) core e.slot cPeerFault 7 e.asn e.region va e.launch e.wgId
      (reportQuads (getCore s core) e.slot e.serial e.lane) (BitVec.ofNat 64 (2 ^ e.lane))

/-- A drain to a page that it may not write freezes its wave (R308). -/
def denyDrain (s : State) (core : Nat) (e : ArrayEntry) (cause : Byte) (va : Dword) : State :=
  freezeSerial (drainResult s core e.id 0 cause e.bits) core e.slot e.serial e.launch cause
    { cause := cause, kind := 1, access := 7, cluster := core / 8, core := core % 8, wslot := e.slot,
      qmask := reportQuads (getCore s core) e.slot e.serial e.lane, wgid := BitVec.ofNat 32 e.wgId, faddr := va,
      lanes := BitVec.ofNat 64 (2 ^ e.lane), fpc := e.pc, launch := launchDone s e.launch, rcb := e.region,
      cyc := BitVec.ofNat 64 (coreCyc s core) }

/-- DRAIN_EXECUTE (R307, R308): the tile is read at its position; once released, the writes are made as one
update. -/
def execDrainExecute (core entry : Nat) (s0 : State) : Host.Outcome State Fault Refusal :=
  let s := setCore s0 core (settleArray (getCore s0 core))
  let k := getCore s core
  match k.array.find? (fun e => e.id = entry) with
  | none => .next s
  | some e =>
    match e.op with
    | .drain _ dfmt add xsat _ scope dest stride rows _ sp (some image) =>
      if e.result.isSome || e.peer.isSome || !drainReleased k e scope then .next s
      else if !sp && isPeerVa (BitVec.ofNat 64 dest) then
        .next (sendDrain s core e (BitVec.ofNat 64 dest) (.drain dfmt add xsat stride image))
      else
        let n := coveredBytes dfmt stride rows
        match if sp then none else drainDenied s e.asn add dest n with
        | some (c, va) => .next (denyDrain s core e c va)
        | none =>
          let s0 := if sp then s else touchRange s e.asn .store e.region dest n
          let r := drainAll core e.asn sp dfmt add xsat dest stride image s0
          let st : Byte := if r.absent then 0xC3 else if r.failed then cCheck else 0
          let s1 := drainResult r.s core entry r.written st (if r.failed then e.bits ||| 4 else e.bits)
          .next (if r.absent then
            updSerial s1 core e.slot e.serial (fun w => { w with resid := w.resid ||| BitVec.ofNat 64 (2 ^ e.lane) })
          else s1)
    | _ => .next s

/-- DRAIN_COMPLETE (R308): the future completes and the bobbin has its single arrival (R296). -/
def execDrainComplete (core entry : Nat) (s : State) : Host.Outcome State Fault Refusal :=
  let k := getCore s core
  match k.array.find? (fun e => e.id = entry) with
  | none => .next s
  | some e =>
    match e.op, e.result with
    | .drain _ dfmt _ _ _ _ dest stride rows bob sp _, some (n, st) =>
      let k1 := if sp then k else l1DropRange k e.asn dest (coveredBytes dfmt stride rows)
      let k2 := completeFut (dropEntry k1 entry) e.fut st n
      let k3 := match bob with
        | some b => arriveAt k2 (e.base + b) n st e.bits
        | none => k2
      .next (setCore s core k3)
    | _, _ => .next s

end Sys2Proof.Machine
end

