-- ==== Sys2Proof/Machine/Creel.lean ====
section
/-! DEFINITION. The Creel's bins: producers and the launch of node waves (20 R375-R378). -/
namespace Sys2Proof.Machine

/-- Every wave with a workgroup, resident or in a save area: core, wave, workgroup. -/
def allWaves (s : State) : List (Nat × Wave × Workgroup) :=
  s.cores.flatMap (fun kc =>
    let res := kc.2.waves.filterMap (fun sw => sw.2.bind (fun w => (getWg kc.2 w.wg).map (fun g => (kc.1, w, g))))
    let out := kc.2.ctxs.flatMap (fun c => c.savedWaves.filterMap (fun sw =>
      (c.savedWgs.find? (fun g => g.1 = sw.2.wg)).map (fun g => (kc.1, sw.2, g.2))))
    res ++ out)

/-- The root launch of a workgroup (R375). -/
def rootOf (g : Workgroup) : Nat :=
  match g.kind with
  | .node r _ => r
  | _ => g.launch

/-- Queue registers of a kernel bound to a node key. -/
def nodeRegs (k : Kernel) (key : Nat) : List Nat := (k.binds.filter (fun b => !b.launch && b.key = key)).map (·.q)

/-- Workgroups of a launch not yet placed. -/
def unplaced (l : Launch) : Nat := if l.dropped.isSome || l.ended then 0 else l.gx * l.gy * l.gz - l.next

/-- The bin has an open producer (R378): among them the fragment waves of the root launch that have not started, whether their
triangles are binned still or rasterised. -/
def openProducer (s : State) (root key : Nat) : Bool :=
  (match getLaunch s root with
    | some l => decide (0 < unplaced l) && !(nodeRegs l.kernel key).isEmpty
    | none => false) ||
  s.bins.any (fun b => b.root = root && !b.records.isEmpty && !(nodeRegs b.kernel key).isEmpty) ||
  s.nodes.any (fun n => n.root = root && !(nodeRegs n.kernel key).isEmpty) ||
  s.batches.any (fun b => b.launch = root && b.waiting && !(nodeRegs b.kernel key).isEmpty) ||
  s.draws.any (fun d => d.tris.any (fun t => t.a = root && !t.tiles.isEmpty) && !(nodeRegs d.kernel key).isEmpty) ||
  (allWaves s).any (fun x => !x.2.1.parts.isEmpty && rootOf x.2.2 = root &&
    (nodeRegs x.2.2.kernel key).any (fun q => !x.2.1.closed.contains (32 + q)))

/-- Cycles of the bin's owner cluster (R375). -/
def binCyc (s : State) (b : Bin) : Nat := (getCluster s (b.slice / 2)).cyc

/-- Launch one wave with n records of a bin. -/
def launchNode (s : State) (b : Bin) (n : Nat) : State × Bin :=
  let node : NodeWave := ⟨b.root, b.key, b.serial, b.records.take n, b.kernel⟩
  ({ s with nodes := s.nodes ++ [node] },
   { b with records := b.records.drop n, reserved := b.reserved - n, serial := b.serial + 1
            restarted := binCyc s b })

/-- Launch waves of W records, and the remainder too when `all`. -/
def launchFrom (all : Bool) : Nat → State → Bin → State × Bin
  | 0, s, b => (s, b)
  | fuel + 1, s, b =>
    let w := 2 ^ b.kernel.width
    if w ≤ b.records.length then
      let x := launchNode s b w
      launchFrom all fuel x.1 x.2
    else if all && !b.records.isEmpty then launchNode s b b.records.length
    else (s, b)

/-- Put a bin back. -/
def setBin (s : State) (b : Bin) : State :=
  { s with bins := updateWhere (fun x => x.root = b.root && x.key = b.key) (fun _ => b) s.bins }

/-- The launch is being torn down (23 R412): it starts nothing more. -/
def tornDown (s : State) (acc : Nat) : Bool := ((getLaunch s acc).bind (·.dropped)) = some 0xC7

/-- The first and third conditions of R376 for one bin. -/
def binTest (root : Nat) (s : State) (key : Nat) : State :=
  match s.bins.find? (fun b => b.root = root && b.key = key && !tornDown s root) with
  | none => s
  | some b =>
    let all := !openProducer s root key
    let x := launchFrom all (b.records.length + 1) s b
    setBin x.1 x.2

/-- Test every bin of a root launch. -/
def creelTest (s : State) (root : Nat) : State :=
  ((s.bins.filter (fun b => b.root = root)).map (·.key)).foldl (binTest root) s

/-- BIN_TIMER_EXPIRE (R376): TIMER cycles since the timer restarted, with fewer than W records. -/
def execBinTimerExpire (bin : Nat) (s : State) : Host.Outcome State Fault Refusal :=
  match s.bins[bin]? with
  | none => .next s
  | some b =>
    if !b.records.isEmpty && !tornDown s b.root && decide (b.restarted + b.timer ≤ binCyc s b) then
      let x := launchNode s b (min b.records.length (2 ^ b.kernel.width))
      .next (setBin x.1 x.2)
    else .next s

end Sys2Proof.Machine
end

