-- ==== Sys2Proof/Machine/Binner.lean ====
section
/-! DEFINITION. The binner and the rasteriser: coverage of a triangle, sequence points, flushes and the fragments
of a screen tile (17 R332-R335). -/
namespace Sys2Proof.Machine

/-! Exact geometry. -/

/-- A finite value as a rational. -/
def FVal.rat : FVal → Rat
  | .num neg m e =>
    let i : Int := if neg then -(m : Int) else (m : Int)
    if 0 ≤ e then ((i * (2 ^ e.toNat : Nat) : Int) : Rat) else mkRat i (2 ^ (-e).toNat)
  | _ => 0

def ratOf (w : Word) : Rat := (f32 w).rat

/-- A rational rounded once to FP32, an exact zero to +0 (logs 33 to 35); `sticky` stands for the digits beyond 2^-320 of the
quotient. -/
def ratToF32 (mode : Nat) (r : Rat) : Word :=
  let n := r.num.natAbs * 2 ^ 320
  BitVec.ofNat 32 (fp32.round mode 0 false (.num (decide (r.num < 0)) (n / r.den) (-320)) (n % r.den != 0))

/-- An FP32 word that is neither NaN nor infinite. -/
def isFinite (w : Word) : Bool := bits w 23 8 != 255

/-- Twice the signed area of a triangle of points. -/
def cross2 (a b c : Rat × Rat) : Rat := (b.1 - a.1) * (c.2 - a.2) - (b.2 - a.2) * (c.1 - a.1)

/-- The vertices in screen space. -/
def Tri.pts (t : Tri) : List (Rat × Rat) := t.verts.map (fun v => (ratOf v.1, ratOf v.2.1))

/-- A point is inside an edge, or on it where it is a top or a left edge (R333); the inside has positive area. -/
def edgeIn (a b p : Rat × Rat) : Bool :=
  let e := cross2 a b p
  decide (0 < e) || (e = 0 && (decide (b.2 < a.2) || (a.2 = b.2 && decide (a.1 < b.1))))

/-- The triangle covers a pixel centre. -/
def Tri.covers (t : Tri) (x y : Nat) : Bool :=
  match t.pts with
  | [a, b, c] =>
    let p : Rat × Rat := ((x : Rat) + 1 / 2, (y : Rat) + 1 / 2)
    if 0 ≤ cross2 a b c then edgeIn a b p && edgeIn b c p && edgeIn c a p
    else edgeIn a c p && edgeIn c b p && edgeIn b a p
  | _ => false

/-- First and last pixel of an axis that can be covered, inside n pixels; none for an empty range. -/
def span (cs : List Rat) (n : Nat) : Option (Nat × Nat) :=
  match cs with
  | [] => none
  | c :: rest =>
    let lo := rest.foldl min c
    let hi := rest.foldl max c
    let a := max 0 lo.floor
    let b := min ((n : Int) - 1) hi.floor
    if a ≤ b then some (a.toNat, b.toNat) else none

/-- The pixel ranges of a triangle inside a target. -/
def Tri.box (t : Tri) (width height : Nat) : Option ((Nat × Nat) × (Nat × Nat)) :=
  match span (t.pts.map (·.1)) width, span (t.pts.map (·.2)) height with
  | some x, some y => some (x, y)
  | _, _ => none

def between (lo hi : Nat) : List Nat := (List.range (hi + 1 - lo)).map (lo + ·)

/-- Pixels of a screen tile that a triangle covers, row by row. -/
def Tri.pixels (t : Tri) (width height tx ty : Nat) : List (Nat × Nat) :=
  match t.box width height with
  | none => []
  | some (bx, by') =>
    (between (max by'.1 (32 * ty)) (min by'.2 (32 * ty + 31))).flatMap (fun y =>
      ((between (max bx.1 (32 * tx)) (min bx.2 (32 * tx + 31))).filter (fun x => t.covers x y)).map (fun x => (x, y)))

/-- The screen tiles in which a triangle covers a pixel of the target (log 10). -/
def Tri.touched (t : Tri) (width height : Nat) : List (Nat × Nat) :=
  match t.box width height with
  | none => []
  | some (bx, by') =>
    (between (by'.1 / 32) (by'.2 / 32)).flatMap (fun ty =>
      ((between (bx.1 / 32) (bx.2 / 32)).filter (fun tx => !(t.pixels width height tx ty).isEmpty)).map (fun tx => (tx, ty)))

/-- Finite coordinates and an area that is not zero (R333). -/
def Tri.draws (t : Tri) : Bool :=
  t.verts.all (fun v => isFinite v.1 && isFinite v.2.1 && isFinite v.2.2) &&
  (match t.pts with
    | [a, b, c] => cross2 a b c != 0
    | _ => false)

/-- Barycentrics b1 and b2, and the depth, at a pixel centre; each rounded once (R335, 08 R138). -/
def Tri.interp (t : Tri) (x y : Nat) : Word × Word × Word :=
  match t.pts, t.verts with
  | [a, b, c], [va, vb, vc] =>
    let p : Rat × Rat := ((x : Rat) + 1 / 2, (y : Rat) + 1 / 2)
    let area := cross2 a b c
    let b1 := cross2 c a p / area
    let b2 := cross2 a b p / area
    let za := ratOf va.2.2
    let z := za + b1 * (ratOf vb.2.2 - za) + b2 * (ratOf vc.2.2 - za)
    (ratToF32 0 b1, ratToF32 0 b2, ratToF32 0 z)
  | _, _ => (0, 0, 0)

/-! Keys and the sequence point (R332, R334). -/

/-- The order of keys. -/
def keyLess (x y : Nat × Nat × Nat) : Bool :=
  decide (x.1 < y.1) || (x.1 = y.1 && (decide (x.2.1 < y.2.1) || (x.2.1 = y.2.1 && decide (x.2.2 < y.2.2))))

def Tri.key (t : Tri) : Nat × Nat × Nat := (t.a, t.s, t.n)

/-- Triangles emitted so far by a group. -/
def groupCount (s : State) (a g : Nat) : Nat :=
  ((s.groups.find? (fun x => x.launch = a && x.s = g)).map (·.n)).getD 0

def setGroup (s : State) (a g n : Nat) : State :=
  { s with groups := ⟨a, g, n⟩ :: s.groups.filter (fun x => !(x.launch = a && x.s = g)) }

/-- The lowest group of a launch that has not ended: a live wave, or the first workgroup not placed. -/
def lowestGroup (s : State) (a : Nat) : Option Nat :=
  let live := ((allWaves s).filter (fun x => x.2.2.launch = a && x.2.2.kind = .plain && !x.2.1.parts.isEmpty)).map
    (fun x => x.2.2.id * 16 + x.2.1.index)
  let next := match getLaunch s a with
    | some l => if 0 < unplaced l then [l.next * 16] else []
    | none => []
  (live ++ next).min?

/-- The sequence point of a draw: the key of the next triangle of its lowest group that has not ended; none when
every group of its launches has ended. -/
def seqPoint (s : State) (d : Draw) : Option (Nat × Nat × Nat) :=
  (sortBy (fun a b => decide (a < b)) d.launches).findSome? (fun a =>
    (lowestGroup s a).map (fun g => (a, g, groupCount s a g)))

/-! Flushes. -/

/-- Bytes that a triangle costs in the buffer. -/
def Tri.cost (t : Tri) : Nat := 32 + 4 * t.tiles.length

def Draw.free (d : Draw) : Nat := d.cap - d.tris.foldl (fun a t => a + t.cost) 0

def getDraw (s : State) (asn d : Nat) : Option Draw := s.draws.find? (fun x => x.asn = asn && x.d = d)
def setDraw (s : State) (d : Draw) : State :=
  { s with draws := updateWhere (fun x => x.asn = d.asn && x.d = d.d) (fun _ => d) s.draws }

/-- A draw record's address (R322). -/
def drawVa (d : Nat) : Dword := BitVec.ofNat 64 (0x0080000002020000 + 256 * d)

/-- The binner adds to FLUSHES and PRIMS where the record's page takes a write (R331). -/
def bumpDraw (s : State) (asn d flushes prims : Nat) : State :=
  match route s asn .store (drawVa d) with
  | .phys key _ =>
    let b := memRead s (key + 20) 8
    homeWrite s (key + 20) (toBytes 4 ((field b 0 3 + flushes) % 2 ^ 32) ++ toBytes 4 ((field b 4 7 + prims) % 2 ^ 32))
  | _ => s

/-- The batches of some triangles in key order: one for each mesh launch and screen tile. -/
def addBatches (s : State) (d : Draw) (ts : List Tri) : State :=
  let sorted := sortBy (fun a b => keyLess a.key b.key) ts
  let spots := (sorted.flatMap (fun t => t.tiles.map (fun xy => (t.a, xy)))).foldl
    (fun acc x => if acc.contains x then acc else acc ++ [x]) ([] : List (Nat × Nat × Nat))
  spots.foldl (fun s x =>
    let b : Batch := { id := s.nextBatch, launch := x.1, asn := d.asn, d := d.d, target := d.target, texel := d.texel,
                       width := d.width, height := d.height, kernel := d.kernel, tx := x.2.1, ty := x.2.2,
                       tris := sorted.filter (fun t => t.a = x.1 && t.tiles.contains x.2) }
    { s with batches := s.batches ++ [b], nextBatch := s.nextBatch + 1 }) s

/-- Rasterise some triangles of a draw. -/
def rasterise (s : State) (d : Draw) (ts : List Tri) (flushes : Nat) : State :=
  bumpDraw (addBatches s d ts) d.asn d.d flushes ts.length

/-- A triangle's key is below a sequence point. -/
def belowPoint (p : Option (Nat × Nat × Nat)) (t : Tri) : Bool :=
  match p with
  | none => true
  | some k => keyLess t.key k

/-- BINNER_FLUSH (R334): every binned triangle whose key is below the sequence point. -/
def flushDraw (s : State) (d : Draw) : State :=
  let below := belowPoint (seqPoint s d)
  let s1 := setDraw s { d with tris := d.tris.filter (fun t => !below t) }
  rasterise s1 d (d.tris.filter below) 1

/-- Every group of a launch has ended: its draws flush what remains of launches that have no group left, as far as the
sequence point lets them; a newer launch whose groups ended first goes with the older one. -/
def groupsEnded (s : State) (a : Nat) : State :=
  if (lowestGroup s a).isSome then s
  else (s.draws.filter (fun d => d.launches.contains a &&
    d.tris.any (fun t => (lowestGroup s t.a).isNone && belowPoint (seqPoint s d) t))).foldl flushDraw s

/-! Fragments of a batch (R335). -/

/-- One quad: a 2 x 2 block of one triangle, by its first pixel, with the pixels covered. -/
structure FragQuad where
  tri : Tri
  x : Nat
  y : Nat
  cover : List (Nat × Nat)
  deriving DecidableEq, Repr

/-- The quads of a triangle inside a tile, row by row. -/
def quadsIn (b : Batch) (t : Tri) : List FragQuad :=
  let px := t.pixels b.width b.height b.tx b.ty
  let corners := (px.map (fun p => (p.1 / 2 * 2, p.2 / 2 * 2))).foldl
    (fun acc x => if acc.contains x then acc else acc ++ [x]) ([] : List (Nat × Nat))
  corners.map (fun c => ⟨t, c.1, c.2, px.filter (fun p => p.1 / 2 * 2 = c.1 && p.2 / 2 * 2 = c.2)⟩)

/-- Fill waves of four quads in key order; a quad whose pixels stand in the open wave opens another. -/
def packQuads : List FragQuad → List FragQuad → List (List FragQuad)
  | [], cur => if cur.isEmpty then [] else [cur]
  | q :: qs, cur =>
    if cur.length = 4 || cur.any (fun c => c.x = q.x && c.y = q.y) then cur :: packQuads qs [q]
    else packQuads qs (cur ++ [q])

/-- The waves of a batch, each a list of quads. -/
def batchWaves (b : Batch) : List (List FragQuad) := packQuads (b.tris.flatMap (quadsIn b)) []

end Sys2Proof.Machine
end

