-- ==== Sys2Proof/Machine/Sha.lean ====
section
/-! DEFINITION. SHA-256 (FIPS 180-4), with which objects, images and keys are digested (01 R9, 02 R27, R31). -/
namespace Sys2Proof.Machine

/-- The round constants. -/
def shaK : List Word :=
  [0x428a2f98, 0x71374491, 0xb5c0fbcf, 0xe9b5dba5, 0x3956c25b, 0x59f111f1, 0x923f82a4, 0xab1c5ed5] ++
  [0xd807aa98, 0x12835b01, 0x243185be, 0x550c7dc3, 0x72be5d74, 0x80deb1fe, 0x9bdc06a7, 0xc19bf174] ++
  [0xe49b69c1, 0xefbe4786, 0x0fc19dc6, 0x240ca1cc, 0x2de92c6f, 0x4a7484aa, 0x5cb0a9dc, 0x76f988da] ++
  [0x983e5152, 0xa831c66d, 0xb00327c8, 0xbf597fc7, 0xc6e00bf3, 0xd5a79147, 0x06ca6351, 0x14292967] ++
  [0x27b70a85, 0x2e1b2138, 0x4d2c6dfc, 0x53380d13, 0x650a7354, 0x766a0abb, 0x81c2c92e, 0x92722c85] ++
  [0xa2bfe8a1, 0xa81a664b, 0xc24b8b70, 0xc76c51a3, 0xd192e819, 0xd6990624, 0xf40e3585, 0x106aa070] ++
  [0x19a4c116, 0x1e376c08, 0x2748774c, 0x34b0bcb5, 0x391c0cb3, 0x4ed8aa4a, 0x5b9cca4f, 0x682e6ff3] ++
  [0x748f82ee, 0x78a5636f, 0x84c87814, 0x8cc70208, 0x90befffa, 0xa4506ceb, 0xbef9a3f7, 0xc67178f2]

/-- The initial hash value. -/
def shaInit : List Word :=
  [0x6a09e667, 0xbb67ae85, 0x3c6ef372, 0xa54ff53a, 0x510e527f, 0x9b05688c, 0x1f83d9ab, 0x5be0cd19]

/-- A big-endian word of four bytes. -/
def shaWord (bs : List Byte) : Word := BitVec.ofNat 32 (ofBytesBE (bs.take 4))

/-- The sixteen words of a block. -/
def shaWords : Nat → List Byte → List Word
  | 0, _ => []
  | n + 1, bs => shaWord bs :: shaWords n (bs.drop 4)

/-- The message schedule: `n` more words, after a window of the last sixteen, oldest first. -/
def shaSchedule : Nat → List Word → List Word
  | 0, w => w
  | n + 1, w =>
    let a := w.getD 1 0
    let b := w.getD 14 0
    let s0 := a.rotateRight 7 ^^^ a.rotateRight 18 ^^^ (a >>> 3)
    let s1 := b.rotateRight 17 ^^^ b.rotateRight 19 ^^^ (b >>> 10)
    let x := w.getD 0 0 + s0 + w.getD 9 0 + s1
    w.headD 0 :: shaSchedule n (w.drop 1 ++ [x])

/-- One round over the eight working variables. -/
def shaRound (v : List Word) (kw : Word × Word) : List Word :=
  match v with
  | [a, b, c, d, e, f, g, h] =>
    let s1 := e.rotateRight 6 ^^^ e.rotateRight 11 ^^^ e.rotateRight 25
    let ch := (e &&& f) ^^^ (~~~e &&& g)
    let t1 := h + s1 + ch + kw.1 + kw.2
    let s0 := a.rotateRight 2 ^^^ a.rotateRight 13 ^^^ a.rotateRight 22
    let maj := (a &&& b) ^^^ (a &&& c) ^^^ (b &&& c)
    [t1 + s0 + maj, a, b, c, d + t1, e, f, g]
  | _ => v

/-- One block of 64 bytes. -/
def shaBlock (h : List Word) (bs : List Byte) : List Word :=
  let w := shaSchedule 48 (shaWords 16 bs)
  List.zipWith (· + ·) h ((shaK.zip w).foldl shaRound h)

/-- Blocks in order. -/
def shaBlocks : Nat → List Word → List Byte → List Word
  | 0, h, _ => h
  | n + 1, h, bs => shaBlocks n (shaBlock h (bs.take 64)) (bs.drop 64)

/-- The message with its padding. -/
def shaPad (bs : List Byte) : List Byte :=
  let n := bs.length
  let z := (119 - n % 64) % 64
  bs ++ [0x80] ++ List.replicate z 0 ++ (toBytes 8 (8 * n)).reverse

/-- The 32 bytes of the digest. -/
def sha256 (bs : List Byte) : List Byte :=
  let p := shaPad bs
  (shaBlocks (p.length / 64) shaInit p).flatMap (fun w => (toBytes 4 w.toNat).reverse)

end Sys2Proof.Machine
end

