-- ==== Sys2Proof/Machine/Ecdsa.lean ====
section
/-! DEFINITION. Verifying an ECDSA P-256 signature (FIPS 186-5), for firmware images and code objects
(01 R9, 02 R31). -/
namespace Sys2Proof.Machine

/-- The field prime of P-256. -/
def p256p : Nat := 0xffffffff00000001000000000000000000000000ffffffffffffffffffffffff
/-- The order of its base point. -/
def p256n : Nat := 0xffffffff00000000ffffffffffffffffbce6faada7179e84f3b9cac2fc632551
def p256b : Nat := 0x5ac635d8aa3a93e7b3ebbd55769886bc651d06b0cc53b0f63bce3c3e27d2604b
/-- The base point. -/
def p256g : Nat × Nat :=
  (0x6b17d1f2e12c4247f8bce6e563a440f277037d812deb33a0f4a13945d898c296,
   0x4fe342e2fe1a7f9b8ee7eb4a7c0f9e162bce33576b315ececbb6406837bf51f5)

/-- a^e mod m, over the low `k` bits of e. -/
def powMod : Nat → Nat → Nat → Nat → Nat
  | 0, _, _, _ => 1
  | k + 1, a, e, m =>
    let r := powMod k (a * a % m) (e / 2) m
    if e % 2 = 1 then r * a % m else r

/-- The inverse modulo a prime. -/
def invMod (a m : Nat) : Nat := powMod 256 (a % m) (m - 2) m

def subMod (a b m : Nat) : Nat := (a + (m - b % m)) % m

/-- A point of the curve; none is the point at infinity. -/
abbrev Point := Option (Nat × Nat)

/-- Addition of points, doubling included. -/
def ptAdd (a b : Point) : Point :=
  match a, b with
  | none, q => q
  | q, none => q
  | some (x1, y1), some (x2, y2) =>
    let p := p256p
    if x1 = x2 && (y1 + y2) % p = 0 then none
    else
      let l := if x1 = x2 then (3 * x1 * x1 + (p - 3)) % p * invMod (2 * y1 % p) p % p
        else subMod y2 y1 p * invMod (subMod x2 x1 p) p % p
      let x := subMod (subMod (l * l % p) x1 p) x2 p
      some (x, subMod (l * subMod x1 x p % p) y1 p)

/-- The multiple of a point by the low `n` bits of a number. -/
def ptMul : Nat → Nat → Point → Point
  | 0, _, _ => none
  | n + 1, k, q =>
    let r := ptMul n (k / 2) (ptAdd q q)
    if k % 2 = 1 then ptAdd r q else r

/-- A point lies on the curve. -/
def onCurve (x y : Nat) : Bool :=
  decide (x < p256p) && decide (y < p256p) && y * y % p256p = (x * x % p256p * x + (p256p - 3) * x + p256b) % p256p

/-- The signature (r, s) verifies under the key (x, y) for a message's digest. -/
def ecdsaOk (x y r s : Nat) (digest : List Byte) : Bool :=
  if !onCurve x y || r = 0 || p256n ≤ r || s = 0 || p256n ≤ s then false
  else
    let w := invMod s p256n
    let u1 := ofBytesBE digest * w % p256n
    let u2 := r * w % p256n
    match ptAdd (ptMul 256 u1 (some p256g)) (ptMul 256 u2 (some (x, y))) with
    | none => false
    | some (px, _) => px % p256n = r

end Sys2Proof.Machine
end

