-- ==== Sys2Proof/Machine/Portable.lean ====
section
/-! DEFINITION. The loader's translator from linran.1 to native code (02 R36; 05 R101). An accepted workgroup has at
most 1,024 threads (03 R49), so its coarsening factor is 1 and lane l of the workgroup runs thread l, whose number
v0 holds at the wave's start (06 R103). The translated code keeps every instruction of the image at its own index,
so branches, ENTRY and HANDLER keep their meaning; only region markers, and barriers inside serial regions, change.
A serial region runs on lane 0 of the workgroup with all other lanes masked; a kernel whose
every region is serial runs as one 4-lane wave (log 48). -/
namespace Sys2Proof.Machine

/-- A translated word with no hints and no guard. -/
def plainWord (op d a b : Nat) (x : Word) : BitVec 96 :=
  fieldsWord op { gn := false, gp := 7, dn := false, d := BitVec.ofNat 11 d, al := false, a := BitVec.ofNat 11 a, bl := false,
                  b := BitVec.ofNat 11 b, x := x, rt := 0, ri := 0, wb := false, lw := false, lout := 0, stall := 0 }

/-- `jmp`, from one index to another. -/
def jmpWord (source target : Nat) : BitVec 96 := plainWord 0x004 0 0 0 (BitVec.ofNat 32 target - BitVec.ofNat 32 source)

def nopWord : BitVec 96 := plainWord 0x000 0 0 0 0
/-- `mmov`, between the operand numbers of two registers. -/
def mmovWord (d a : Nat) : BitVec 96 := plainWord 0x017 d a 0 0
/-- `mexec m1, m0`: only the serial lane stays active, and m1 keeps the lanes that were. -/
def narrowWord : BitVec 96 := plainWord 0x01A 401 400 0 0
/-- `mmov $exec, m1`. -/
def widenWord : BitVec 96 := mmovWord 466 401
/-- `?p0 jmp` over some instructions. -/
def skipWord (n : Nat) : BitVec 96 :=
  fieldsWord 0x004 { gn := false, gp := 0, dn := false, d := 0, al := false, a := 0, bl := false, b := 0, x := BitVec.ofNat 32 n,
                     rt := 0, ri := 0, wb := false, lw := false, lout := 0, stall := 0 }

/-- The words of a code segment. -/
def codeWords (code : List Byte) : List (BitVec 96) :=
  (List.range (code.length / 12)).map (fun n => BitVec.ofNat 96 (ofBytes ((code.drop (12 * n)).take 12)))

/-- What the translator does at an instruction. -/
inductive Region' where
  /-- A serial region begins, is crossed by a workgroup barrier, or ends. -/
  | start | barrier | finish
  /-- Another region marker, which leaves no instruction. -/
  | marker
  /-- An instruction of the program. -/
  | keep
  deriving DecidableEq, Repr

/-- Walk over the code: `serial` is the nesting depth inside the serial region, 0 outside one; a marker inside another
serial region changes nothing. `opens` tells for each region that is open whether it is the serial one. -/
def regionMarks : List (BitVec 96) → List Bool → List Region'
  | [], _ => []
  | w :: l, opens =>
    if wordOp w = 0x1F0 then
      let serial := (wordFields w).x = 1 && !opens.contains true
      (if serial then .start else .marker) :: regionMarks l (serial :: opens)
    else if wordOp w = 0x1F1 then (if opens.head? = some true then .finish else .marker) :: regionMarks l opens.tail
    else (if wordOp w = 0x0A8 && opens.contains true then .barrier else .keep) :: regionMarks l opens

/-- The index of the next barrier or end of a serial region, from a position on. -/
def nextEdge (marks : List Region') (n : Nat) : Nat :=
  n + ((marks.drop n).findIdx (fun m => m = .barrier || m = .finish))

/-- The instructions that stand behind the code for one start or barrier of a serial region at index n, placed at index
`at'`: all lanes cross the barrier (a start enters behind it), then the path that has the serial lane active goes on at
n + 1 with that lane alone, and every other at the next edge with its lanes as they were. Which of the two a path is, p0
tells it, whose own bits m3 keeps: a single-effect instruction does nothing in a path without an active lane (09 R153), so no
path may leave its stub with none. -/
def serialStub (marks : List Region') (barrier : BitVec 96) (n at' : Nat) : List (BitVec 96) :=
  [widenWord, barrier, mmovWord 403 392, mmovWord 392 400, skipWord 4,
   mmovWord 392 403, mmovWord 401 466, jmpWord (at' + 7) (nextEdge marks (n + 1)),
   mmovWord 392 403, narrowWord, jmpWord (at' + 10) (n + 1)]

/-- The word that a stub crosses as its barrier; a region's start has none. -/
def edgeWord (ws : List (BitVec 96)) (marks : List Region') (n : Nat) : BitVec 96 :=
  if marks[n]? = some .barrier then ws.getD n 0 else nopWord

/-- The indices at which serial regions start or are crossed. -/
def serialEdges (marks : List Region') : List Nat :=
  (List.range marks.length).filter (fun n => match marks[n]? with | some .start | some .barrier => true | _ => false)

/-- Where the stub of the k-th edge stands: behind the code and the word that ends it. -/
def stubAt (len k : Nat) : Nat := len + 1 + 11 * k

/-- The flag mask register of a portable instruction, where it names one, becomes m2: the portable profile has no instruction
that reads a mask register, and the translated code keeps m0, m1 and m3 to itself. -/
def renameMask (w : BitVec 96) : BitVec 96 :=
  if (opInfo (wordOp w)).x = .addr && bits (wordFields w).x 29 3 != 0 then (w &&& ~~~(7#96 <<< 44)) ||| (2#96 <<< 44) else w

/-- The counts of the outermost regions of a code segment. -/
def regionCounts : List (BitVec 96) → Nat → List Word
  | [], _ => []
  | w :: l, depth =>
    if wordOp w = 0x1F0 then (if depth = 0 then [(wordFields w).x] else []) ++ regionCounts l (depth + 1)
    else if wordOp w = 0x1F1 then regionCounts l (depth - 1)
    else regionCounts l depth

/-- Every region of the code is serial (log 48). -/
def allSerial (code : List Byte) : Bool :=
  let l := regionCounts (codeWords code) 0
  !l.isEmpty && l.all (· = 1)

/-- Where the translated kernel begins: its entry, or the word behind the stubs that prepares the serial lane. -/
def portableEntry (code : List Byte) (entry : Nat) : Nat :=
  let marks := regionMarks (codeWords code) []
  if (serialEdges marks).isEmpty then entry else stubAt marks.length (serialEdges marks).length

/-- The translated code of a kernel with an entry index. -/
def translate (code : List Byte) (entry : Nat) : List Byte :=
  let ws := codeWords code
  let marks := regionMarks ws []
  let edges := serialEdges marks
  let k := edges.length
  let body := ((List.range ws.length).zip (ws.zip marks)).map (fun x => match x.2.2 with
    | .start => jmpWord x.1 (stubAt ws.length (edges.findIdx (· = x.1)) + 2)
    | .barrier => jmpWord x.1 (stubAt ws.length (edges.findIdx (· = x.1)))
    | .finish => widenWord
    | .marker => nopWord
    | .keep => renameMask x.2.1)
  if edges.isEmpty then body.flatMap (fun w => toBytes 12 w.toNat)
  else
    let last := jmpWord ws.length (stubAt ws.length k + 4)
    let stubs := ((List.range k).zip edges).flatMap (fun x => serialStub marks (edgeWord ws marks x.2) x.2 (stubAt ws.length x.1))
    let first := [plainWord 0x059 392 0 1792 0, mmovWord 400 392, plainWord 0x012 392 392 392 0,
                  jmpWord (stubAt ws.length k + 3) entry]
    (body ++ [last] ++ stubs ++ first).flatMap (fun w => toBytes 12 w.toNat)

end Sys2Proof.Machine
end

