-- ==== Sys2Proof/Machine/Loader.lean ====
section
/-! DEFINITION. Jewen objects: loading, signing, image selection, the portable form, kernel descriptors, and
where a loaded copy lies (02 R27-R39; 20 R373). -/
namespace Sys2Proof.Machine

/-! Detail words (22 R398). -/
def dBadForm : Word := 1
def dBadDigest : Word := 2
def dBadSignature : Word := 3
def dUnsigned : Word := 4
def dWrongKey : Word := 5
def dBadPortable : Word := 6
def dUnreadable : Word := 7
def dBadCheck : Word := 8
def dNoCandidate : Word := 9

/-- Bytes as the loader reads them (R32): pages with V and R set and P clear, every sector verified. -/
def ldPieces (s : State) (asn : Nat) : List (Nat × Nat) → List (List Byte) → Except Word (List Byte)
  | [], acc => .ok acc.reverse.flatten
  | p :: ps, acc =>
    match route s asn .load (BitVec.ofNat 64 p.1) with
    | .phys key _ => if memBadAt s key p.2 then .error dBadCheck else ldPieces s asn ps (memRead s key p.2 :: acc)
    | _ => .error dUnreadable

def ldRead (s : State) (asn va n : Nat) : Except Word (List Byte) :=
  if 2 ^ 57 < va + n then .error dUnreadable else ldPieces s asn (pieces va n) []

/-! The header and the directory (R27, R28). -/

/-- Some byte of a record's range is not zero. -/
def nonZero (bs : List Byte) (lo hi : Nat) : Bool := field bs lo hi != 0

/-- Bytes of the trailer. -/
def trailerLen (hdr : List Byte) : Nat := if field hdr 7 7 % 2 = 1 then 128 else 0

/-- The form rules of the header (R27, 04 R64). -/
def headerOk (addr : Nat) (hdr : List Byte) : Bool :=
  addr % 16 = 0 && field hdr 0 3 = 0x314F574A && field hdr 4 5 = 1 &&
  decide (1 ≤ field hdr 6 6 ∧ field hdr 6 6 ≤ 15) && decide (field hdr 7 7 < 2) && !nonZero hdr 48 63 &&
  decide (64 + 48 * field hdr 6 6 + trailerLen hdr ≤ field hdr 8 11)

/-- A directory entry (R28). -/
structure Image where
  idx : Nat
  tag : Nat
  device : Nat
  step : Nat
  minrev : Nat
  features : Nat
  codeOff : Nat
  codeLen : Nat
  ktab : Nat
  kcount : Nat
  dataOff : Nat
  dataLen : Nat
  deriving DecidableEq, Repr

def imageOf (i : Nat) (e : List Byte) : Image :=
  { idx := i, tag := field e 0 1, device := field e 2 3, step := field e 4 4, minrev := field e 5 5,
    features := field e 8 15, codeOff := field e 16 19, codeLen := field e 20 23, ktab := field e 24 27,
    kcount := field e 28 29, dataOff := field e 32 35, dataLen := field e 36 39 }

def knownTag (t : Nat) : Bool := t = 3 || t = 2 || t = 0x101

/-- The form rules of an entry whose TAG is known (R28, R32). -/
def entryOk (len : Nat) (e : List Byte) : Bool :=
  let i := imageOf 0 e
  !knownTag i.tag ||
  (!nonZero e 6 7 && !nonZero e 30 31 && !nonZero e 40 47 && i.codeOff % 16 = 0 && i.ktab % 64 = 0 &&
    decide (1 ≤ i.kcount ∧ i.kcount ≤ 4096) && i.dataOff % 16 = 0 && (i.dataLen != 0 || i.dataOff = 0) &&
    decide (i.codeOff + i.codeLen ≤ len) && decide (i.ktab + 64 * i.kcount ≤ len) &&
    decide (i.dataOff + i.dataLen ≤ len))

/-- The entries of an object's directory. -/
def directory (obj : List Byte) : List (List Byte) :=
  (List.range (field obj 6 6)).map (fun i => (obj.drop (64 + 48 * i)).take 48)

/-- The images of an object, in directory order. -/
def images (obj : List Byte) : List Image :=
  ((directory obj).mapIdx imageOf).filter (fun i => knownTag i.tag)

/-! Loading (R30-R32). -/

def bytesToNum (bs : List Byte) : Nat := ofBytesBE bs

/-- The trailer's signature verifies with the trailer's key (R31). -/
def trailerOk (body trailer : List Byte) : Bool :=
  let at' (i : Nat) : Nat := bytesToNum ((trailer.drop (32 * i)).take 32)
  ecdsaOk (at' 0) (at' 1) (at' 2) (at' 3) (sha256 body)

/-- Load an object, or find its cached copy (R30, R32). OBJECT 0 names none (23 R412; log 28). -/
def loadObject (s : State) (asn : Nat) (addr : Dword) : Except Word Loaded :=
  let a := addr.toNat
  match (if a = 0 then .error dUnreadable else ldRead s asn a 64) with
  | .error d => .error d
  | .ok hdr =>
    let digest := (hdr.drop 16).take 32
    match s.loaded.find? (fun l => l.asn = asn && l.addr = addr && l.digest = digest) with
    | some l => .ok l
    | none =>
      if !headerOk a hdr then .error dBadForm
      else
        let len := field hdr 8 11
        let top := 64 + 48 * field hdr 6 6
        match ldRead s asn (a + 64) (top - 64) with
        | .error d => .error d
        | .ok dir =>
          if !((directory (hdr ++ dir)).all (entryOk len)) then .error dBadForm
          else
            let tl := trailerLen hdr
            match ldRead s asn (a + top) (len - tl - top) with
            | .error d => .error d
            | .ok rest =>
              let body := hdr ++ dir ++ rest
              if sha256 (body.drop 64) != digest then .error dBadDigest
              else if tl = 0 then .ok ⟨asn, addr, digest, body, false, []⟩
              else
                match ldRead s asn (a + len - 128) 128 with
                | .error d => .error d
                | .ok tr =>
                  if !trailerOk body tr then .error dBadSignature
                  else .ok ⟨asn, addr, digest, body ++ tr, true, sha256 (tr.take 64)⟩

/-- The signing policy of a launch (R31): the effective SIGN, and the key slot as it stands. -/
def signPolicy (s : State) (sign : Nat) (l : Loaded) : Option Word :=
  if sign % 2 = 0 then none
  else if !l.signed then some dUnsigned
  else if (kget (0 : BitVec 256) s.keySlots (sign / 2 % 8)).toNat = ofBytes l.keyDigest then none
  else some dWrongKey

/-! Kernel descriptors (R37, R39) and queue bindings (20 R373). -/

def descOf (obj : List Byte) (i : Image) (n : Nat) : List Byte := (obj.drop (i.ktab + 64 * n)).take 64
def descs (obj : List Byte) (i : Image) : List (List Byte) := (List.range i.kcount).map (descOf obj i)

/-- The ranges and zero bits of one descriptor. -/
def descFields (i : Image) (d : List Byte) : Bool :=
  decide (2 ≤ field d 12 12 ∧ field d 12 12 ≤ 6) && decide (field d 13 13 ≤ 8) &&
  decide (1 ≤ field d 14 15 ∧ field d 14 15 ≤ 256) && decide (4 ≤ field d 16 16 ∧ field d 16 16 ≤ 128) &&
  decide (1 ≤ field d 17 17 ∧ field d 17 17 ≤ 64) && decide (field d 18 18 < 4) && decide (field d 19 19 < 2) &&
  !nonZero d 22 23 && field d 24 27 % 256 = 0 && decide (field d 24 27 ≤ 327680) && decide (field d 36 36 ≤ 32) &&
  !nonZero d 37 63 && (field d 18 18 < 2 || i.features % 2 = 1)

/-- Entry n of a descriptor's binding table. -/
def bindRaw (obj : List Byte) (i : Image) (d : List Byte) (n : Nat) : List Byte :=
  (obj.drop (i.dataOff + field d 32 35 + 16 * n)).take 16

def bindsRaw (obj : List Byte) (i : Image) (d : List Byte) : List (List Byte) :=
  (List.range (field d 36 36)).map (bindRaw obj i d)

/-- A binding as the core's queue table holds it; TIMER 0 means 4,096. -/
def bindOf (b : List Byte) : QBind :=
  { q := field b 0 0, launch := field b 1 1 = 1, recBytes := field b 2 3, key := field b 4 7,
    timer := if field b 8 9 = 0 then 4096 else field b 8 9, cap := field b 10 11 }

/-- One binding meets R373. -/
def bindOk (obj : List Byte) (i : Image) (b : List Byte) : Bool :=
  let r := field b 2 3
  let cap := field b 10 11
  decide (field b 0 0 ≤ 31) && !nonZero b 12 15 &&
  (if field b 1 1 = 0 then
    decide (4 ≤ r ∧ r ≤ 64) && r % 4 = 0 && decide (64 ≤ cap ∧ cap ≤ 4096) && decide (cap * r ≤ 65536) &&
    (descs obj i).any (fun d => field d 0 3 = field b 4 7 && field d 19 19 % 2 = 0 &&
      decide (2 ^ field d 12 12 * r ≤ field d 24 27))
  else field b 1 1 = 1 && r = 64 && !nonZero b 4 11)

/-- A descriptor's binding table (R373). QTAB 0 with QCOUNT above 0 names a table at offset 0 of the data segment, and with
QCOUNT 0 no value of QTAB is refused (log 26). -/
def bindsOk (obj : List Byte) (i : Image) (d : List Byte) : Bool :=
  let n := field d 36 36
  n = 0 || (field d 32 35 % 16 = 0 && decide (field d 32 35 + 16 * n ≤ i.dataLen) &&
    (bindsRaw obj i d).all (bindOk obj i) && ((bindsRaw obj i d).map (fun b => field b 0 0)).Nodup)

/-- Every descriptor of an image is valid (R37). -/
def tableOk (obj : List Byte) (i : Image) : Bool :=
  (descs obj i).all (fun d => descFields i d && bindsOk obj i d) && ((descs obj i).map (fun d => field d 0 3)).Nodup

/-! Selection (R34, R35). -/

/-- The conditions under which no image is a candidate. -/
def mayServe (obj : List Byte) (key : Nat) (i : Image) : Bool :=
  decide (i.minrev ≤ 3) && i.features / 1024 = 0 && (descs obj i).any (fun d => field d 0 3 = key) && tableOk obj i

/-- R35. -/
def gangOk (obj : List Byte) (i : Image) : Bool :=
  (descs obj i).all (fun d => field d 12 12 = 5 && field d 18 18 = 0 && field d 13 13 = 0 && field d 17 17 = 1)

/-- The opcode of instruction n of an image's code. -/
def codeOp (obj : List Byte) (i : Image) (n : Nat) : Nat := field obj (i.codeOff + 12 * n + 10) (i.codeOff + 12 * n + 11) / 128

/-- The nesting depth after each region marker; none when a `.pend` has no `.pfor` (R36, 05 R101). -/
def nesting : List Nat → Nat → Option Nat
  | [], d => some d
  | op :: l, d => if op = 0x1F0 then nesting l (d + 1) else if op = 0x1F1 then (if d = 0 then none else nesting l (d - 1)) else nesting l d

/-- A linran.1 image that the translator takes (R36, 05 R89). One with an unassigned opcode other than the markers is skipped
with BAD_PORTABLE (log 48). -/
def portableOk (obj : List Byte) (i : Image) : Bool :=
  let ops := (List.range (i.codeLen / 12)).map (codeOp obj i)
  ops.all (fun op => op = 0x1F0 || op = 0x1F1 || ((opInfo? op).isSome && !notInLinran op)) && nesting ops 0 = some 0

/-- The four steps of R34. -/
def stepOk (obj : List Byte) (i : Image) (step : Nat) : Bool :=
  match step with
  | 1 => i.tag = 3 && i.device = 0x48 && i.step = 0xA2
  | 2 => i.tag = 3 && (i.device = 0x48 || i.device = 0)
  | 3 => i.tag = 2 && (i.device = 0x32 || i.device = 0) && gangOk obj i
  | _ => i.tag = 0x101 && portableOk obj i

/-- The image chosen among some steps, or the detail. -/
def selectImage (obj : List Byte) (key : Nat) (steps : List Nat) : Except Word Image :=
  let cs := (images obj).filter (mayServe obj key)
  match steps.findSome? (fun n => cs.find? (fun i => stepOk obj i n)) with
  | some i => .ok i
  | none =>
    if steps.contains 4 && cs.any (fun i => i.tag = 0x101 && !portableOk obj i) then .error dBadPortable
    else .error dNoCandidate

/-! The portable form (R36). -/

/-- The width, as its logarithm, of a workgroup of T threads at coarsening factor c, and its waves. -/
def portableShape (t c : Nat) : Nat × Nat :=
  let lanes := roundUp (ceilDiv t c) 4
  let pow := ([4, 8, 16, 32, 64].find? (fun p => decide (lanes ≤ p))).getD 64
  (Nat.log2 pow, ceilDiv lanes pow)

/-- The coarsening factor with which the translated footprint fits one core; none when none does. For at most 1,024
threads it is 1 (`portableFactor_one`); a launch of more ends at step 8 of 03 R48. What one core holds is taken as its own
register bytes, not the region's limit (log 48). -/
def portableFactor (vregs t : Nat) : Nat → Nat → Option Nat
  | 0, _ => none
  | fuel + 1, c =>
    let sh := portableShape t c
    if decide (sh.2 * 2 ^ sh.1 * 4 * vregs ≤ 1572864) then some c
    else if t ≤ c then none else portableFactor vregs t fuel (2 * c)

/-! The loaded copy (R33, 04 R66). -/

/-- Map bytes on consecutive new pages, and their address: on die 0, or on die 1 where only its home slices are fixed. -/
def mapBytes (s : State) (asn flags : Nat) (bs : List Byte) : State × Dword :=
  let n := ceilDiv bs.length 4096
  let die := if (s.homes.getD 0 none).isSome then 0 else 1
  let first := die * 2 ^ 54 + pageAt (s.nextPage + n) * 4096
  let s1 := openSpace { s with nextPage := s.nextPage + n + 1 } asn
  ((List.range n).foldl (fun s i => mapPage s asn (first + 4096 * i) flags ((bs.drop (4096 * i)).take 4096)) s1,
   BitVec.ofNat 64 first)

/-- Map a selected image in an address space, once; the code of a translated one once for its entry key and thread count
(R36), and its data once for all of them (R33). -/
def mapImage (s : State) (l : Loaded) (i : Image) (key threads : Nat) (code : List Byte) : State × Mapped :=
  let same := s.mapped.filter (fun m => m.asn = l.asn && m.addr = l.addr && m.digest = l.digest && m.image = i.idx)
  match same.find? (fun m => m.key = key && m.threads = threads) with
  | some m => (s, m)
  | none =>
    let c := mapBytes s l.asn codeFlags code
    let data := (l.bytes.drop i.dataOff).take i.dataLen
    let d := match same.head? with
      | some m => (c.1, m.dseg)
      | none => if data.isEmpty then (c.1, 0) else mapBytes c.1 l.asn dataFlags data
    let m : Mapped := ⟨l.asn, l.addr, l.digest, i.idx, key, threads, c.2, code.length, i.tag = 2, d.2, data.length⟩
    ({ d.1 with mapped := d.1.mapped ++ [m] }, m)

/-- The descriptor of a key in an image. -/
def findDesc (obj : List Byte) (i : Image) (key : Nat) : List Byte :=
  ((descs obj i).find? (fun d => field d 0 3 = key)).getD []

/-- A kernel from its descriptor and its mapped image. -/
def kernelOf (obj : List Byte) (i : Image) (m : Mapped) (d : List Byte) : Kernel :=
  { key := field d 0 3, entry := field d 4 7, width := field d 12 12, tiles := field d 13 13, vregs := field d 14 15,
    sregs := field d 16 16, heavy := field d 17 17, splitBr := field d 18 18 % 2 = 1, splitMiss := 2 ≤ field d 18 18,
    gridSync := field d 19 19 % 2 = 1, rejoin := field d 20 21, scratch := field d 24 27,
    handler := if field d 28 31 = 0xFFFFFFFF then none else some (field d 28 31),
    binds := (bindsRaw obj i d).map bindOf,
    code := { asn := m.asn, base := m.codeBase, len := m.codeLen, gang := m.gang }, dseg := m.dseg }

/-- The code segment of an image in its object. -/
def imageCode (obj : List Byte) (i : Image) : List Byte := (obj.drop i.codeOff).take i.codeLen

/-- A descriptor's kernel, with its image mapped; a portable one translated for a thread count, in waves of the width
that R36 gives. HANDLER keeps its number: the translated code holds every instruction at its own index (log 48). -/
def readyKernel (s : State) (l : Loaded) (i : Image) (d : List Byte) (threads : Nat) : State × Kernel :=
  if i.tag = 0x101 then
    let m := mapImage s l i (field d 0 3) threads (translate (imageCode l.bytes i) (field d 4 7))
    (m.1, { kernelOf l.bytes i m.2 d with
      entry := portableEntry (imageCode l.bytes i) (field d 4 7), width := (portableShape threads 1).1 })
  else
    let m := mapImage s l i 0 0 (imageCode l.bytes i)
    (m.1, kernelOf l.bytes i m.2 d)

/-- A failure of step 7 of 03 R48: its cause and detail. -/
abbrev LoadFail := Byte × Word

/-- The kernel of a key of a loaded object, with the image mapped (R34-R36); a portable one whose every region is serial runs
in one 4-lane wave. -/
def chooseKernel (s : State) (l : Loaded) (key threads : Nat) (steps : List Nat) : Except LoadFail (State × Image × Kernel) :=
  match selectImage l.bytes key steps with
  | .error d => .error (0x83, d)
  | .ok i =>
    let d := findDesc l.bytes i key
    if i.tag = 0x101 && (portableFactor (field d 14 15) threads 64 (ceilDiv threads 1024)).isNone then .error (0x85, 0)
    else
      let k := readyKernel s l i d threads
      .ok (k.1, i, if i.tag = 0x101 && allSerial (imageCode l.bytes i) then { k.2 with width := 2, serial := true } else k.2)

/-- Put a loaded copy into the cache (R30). -/
def cacheLoaded (s : State) (l : Loaded) : State :=
  if s.loaded.contains l then s else { s with loaded := s.loaded ++ [l] }

/-- Bit 31 marks the handler object's failures (R38). -/
def handlerDetail (d : Word) : Word := d ||| 0x80000000

/-- The region's handler for a launch that installs it (R38); what was loaded stays cached whatever follows (R30). -/
def installHandler (s : State) (asn sign : Nat) (obj hkey : Nat) (gang : Bool) : State × Except LoadFail (CodeSeg × Nat) :=
  match loadObject s asn (BitVec.ofNat 64 obj) with
  | .error d => (s, .error (0x83, handlerDetail d))
  | .ok l =>
    let s1 := cacheLoaded s l
    match signPolicy s1 sign l with
    | some d => (s1, .error (0x83, handlerDetail d))
    | none =>
      match chooseKernel s1 l hkey 0 (if gang then [1, 2, 3] else [1, 2]) with
      | .error e => (s1, .error (e.1, handlerDetail e.2))
      | .ok (s2, _, c) => (s2, .ok (c.code, c.entry))

/-- The keys that a kernel's node bindings reach, directly or through other node kernels (20 R373). -/
def nodeKeys (obj : List Byte) (i : Image) : Nat → List Nat → List Nat
  | 0, keys => keys
  | fuel + 1, keys =>
    let next := keys.flatMap (fun k => ((bindsRaw obj i (findDesc obj i k)).map bindOf).filterMap
      (fun b => if b.launch then none else some b.key))
    let new := (next.filter (fun k => !keys.contains k)).dedup
    if new.isEmpty then keys else nodeKeys obj i fuel (keys ++ new)

/-- Some kernel of a launch declares no handler: the one launched, or a node kernel that it reaches. -/
def needsHandler (obj : List Byte) (i : Image) (key : Nat) : Bool :=
  (nodeKeys obj i i.kcount [key]).any (fun k => field (findDesc obj i k) 28 31 = 0xFFFFFFFF)

/-- The code of an image bins triangles: fragment kernels will run for its launches (17 R333). -/
def emits (obj : List Byte) (i : Image) : Bool := (List.range (i.codeLen / 12)).any (fun n => codeOp obj i n = 0x1D0)

/-- Step 7 of 03 R48: the object loads and is admitted, an image is selected, and the region's handler is
installed where the kernel, or a node kernel that it reaches, declares none. For the fragment kernels of the draws that it may
name, which are not known yet, it is loaded and checked as well, and where that fails they have none (log 32). -/
def loadKernel (s : State) (asn : Nat) (obj : Dword) (key threads sign hobj hkey : Nat) : State × Except LoadFail Kernel :=
  match loadObject s asn obj with
  | .error d => (s, .error (0x83, d))
  | .ok l =>
    let s1 := cacheLoaded s l
    match signPolicy s1 sign l with
    | some d => (s1, .error (0x83, d))
    | none =>
      match chooseKernel s1 l key threads [1, 2, 3, 4] with
      | .error e => (s1, .error e)
      | .ok (s2, i, c) =>
        if hobj = 0 || !(needsHandler l.bytes i key || emits l.bytes i) then (s2, .ok c)
        else
          match installHandler s2 asn sign hobj hkey (i.tag = 2) with
          | (s3, .error e) => (s3, if needsHandler l.bytes i key then .error e else .ok c)
          | (s3, .ok h) => (s3, .ok { c with regionHandler := some h })

end Sys2Proof.Machine
end

