-- ==== Sys2Proof/Machine/Regions.lean ====
section
/-! DEFINITION. Region control blocks: reading a chain, effective fields, readiness, rigging, and the
footprint of a workgroup (02 R40-R43; 03 R48-R51, R58, R59). -/
namespace Sys2Proof.Machine

def dBadField : Word := 0x10
def dBadRcb : Word := 0x11
def dNotDescendant : Word := 0x12
def dNoCores : Word := 0x13
def dBadRig : Word := 0x14

/-- One RCB as read (R40). -/
structure Rcb where
  addr : Dword
  parent : Dword
  override : Nat
  fields : Budget
  deriving DecidableEq, Repr

def rcbOf (addr : Dword) (b : List Byte) : Rcb :=
  { addr := addr, parent := BitVec.ofNat 64 (field b 0 7), override := field b 8 11
    fields := { prio := field b 12 12, preempt := field b 13 13, rigShape := field b 14 14, rigDim := field b 15 15
                clusters := field b 16 23, cores := field b 24 24, tiles := field b 25 25, l2Ways := field b 26 26
                ethQp := field b 27 27, ethShare := field b 28 28, hbmShare := field b 29 29, power := field b 30 31
                regs := field b 32 35, scratch := field b 36 39, permits := field b 40 40, sign := field b 41 41
                peerTmo := field b 42 43, faultDomain := field b 44 51, handlerObj := field b 52 59
                handlerKey := field b 60 63 } }

/-- The ranges and zero bits of R40, RIG_DIM apart. -/
def rcbOk (b : List Byte) : Bool :=
  let f := (rcbOf 0 b).fields
  decide (field b 8 11 < 65536) && decide (f.prio ≤ 15) && decide (f.preempt ≤ 1) && decide (f.rigShape ≤ 3) &&
  decide (f.clusters < 2 ^ 40) && decide (f.tiles ≤ 16) && decide (f.l2Ways ≤ 16) && decide (f.ethQp ≤ 64) &&
  decide (f.power ≤ 2400) && decide (f.regs ≤ 1572864) && decide (f.scratch ≤ 327680) && decide (f.permits ≤ 64) &&
  decide (f.sign < 16) && !nonZero b 64 255

/-- One node, where it can be read (R42). -/
def readRcb (s : State) (asn : Nat) (addr : Dword) : Option Rcb :=
  if addr.toNat % 256 != 0 then none
  else match ldRead s asn addr.toNat 256 with
    | .ok b => if rcbOk b then some (rcbOf addr b) else none
    | .error _ => none

/-- The chain of a region, from its own node to the root; none when it breaks a rule of R42. -/
def readChain (s : State) (asn : Nat) : Nat → List Rcb → Dword → Option (List Rcb)
  | 0, _, _ => none
  | fuel + 1, seen, addr =>
    if seen.any (fun n => n.addr = addr) then none
    else match readRcb s asn addr with
      | none => none
      | some n =>
        if n.parent = 0 then some (seen ++ [n]) else readChain s asn fuel (seen ++ [n]) n.parent

/-- The effective fields of a node below its parent's (R41). -/
def inherit (p : Budget) (n : Rcb) : Budget :=
  let f := n.fields
  let own (g : Nat) : Bool := n.override.testBit g
  let lim (g a b : Nat) : Nat := if own g then min a b else b
  { prio := lim 0 f.prio p.prio
    preempt := if own 1 then f.preempt else p.preempt
    rigShape := if own 2 then f.rigShape else p.rigShape
    rigDim := if own 2 then f.rigDim else p.rigDim
    clusters := if own 3 then f.clusters &&& p.clusters else p.clusters
    cores := if own 3 then f.cores &&& p.cores else p.cores
    tiles := lim 4 f.tiles p.tiles
    l2Ways := lim 5 f.l2Ways p.l2Ways
    ethQp := lim 6 f.ethQp p.ethQp
    ethShare := lim 6 f.ethShare p.ethShare
    hbmShare := lim 7 f.hbmShare p.hbmShare
    power := lim 8 f.power p.power
    regs := lim 9 f.regs p.regs
    scratch := lim 10 f.scratch p.scratch
    permits := lim 11 f.permits p.permits
    sign := if own 12 then f.sign else p.sign
    peerTmo := if own 13 then f.peerTmo else p.peerTmo
    faultDomain := if own 14 then f.faultDomain else p.faultDomain
    handlerObj := if own 15 then f.handlerObj else p.handlerObj
    handlerKey := if own 15 then f.handlerKey else p.handlerKey }

/-- The effective fields of the first node of a chain. -/
def effective : List Rcb → Budget
  | [] => {}
  | [root] => root.fields
  | n :: rest => inherit (effective rest) n

/-- The regions that a chain names, from its own node to the root, each with its effective fields. -/
def chainRegions (asn : Nat) : List Rcb → List (Rgn × List Rgn × Budget)
  | [] => []
  | n :: rest =>
    (mkRgn asn n.addr, (n :: rest).map (fun x => mkRgn asn x.addr), effective (n :: rest)) :: chainRegions asn rest

/-- The manager keeps what it read of every node of a chain (R43). -/
def keepRegion (s : State) (asn : Nat) (x : Rgn × List Rgn × Budget) : State :=
  if (getRegion s x.1).isSome then updRegion s x.1 (fun r => { r with chain := x.2.1, budget := x.2.2 })
  else { s with regions := s.regions ++ [{ rcb := x.1, asn := asn, chain := x.2.1, budget := x.2.2, last := x.2.2 }] }

/-! Clusters, cores and readiness. -/

/-- The clusters of a mask, ascending. -/
def clustersOf (m : Nat) : List Nat := (List.range 40).filter (fun c => m.testBit c)

/-- The cores of a cluster that a budget lists, as core numbers, ascending. -/
def coresIn (b : Budget) (cl : Nat) : List Nat := ((List.range 8).filter (fun n => b.cores.testBit n)).map (8 * cl + ·)

/-- Cores in the effective CLUSTERS and CORES. -/
def coreCount (b : Budget) : Nat := (clustersOf b.clusters).length * ((List.range 8).filter (fun n => b.cores.testBit n)).length

/-- The functions that a region uses, with their details, in the order of R48 step 4. -/
def functionsOf (s : State) (b : Budget) : List (Bool × Nat) :=
  let cs := clustersOf b.clusters
  cs.map (fun c => (clusterReady s c, 0x100 + c)) ++
  cs.flatMap (fun c => [(sliceReady s (2 * c), 0x200 + 2 * c), (sliceReady s (2 * c + 1), 0x201 + 2 * c)]) ++
  (List.range 8).map (fun n => (hbmReady s n, 0x300 + n)) ++
  (if b.ethQp = 0 then [] else [1, 2, 3, 4, 5].map (fun n => (portReady s n, 0x400 + n)))

/-- The manager places a region only on functions that are ready (01 R14). -/
def regionReady (s : State) (b : Budget) : Bool := (functionsOf s b).all (·.1)

/-- The rigging is invalid (R59). -/
def rigBad (b : Budget) : Bool :=
  let n := (clustersOf b.clusters).length
  let cols := b.rigDim % 16
  let rows := b.rigDim / 16
  match b.rigShape with
  | 0 => b.rigDim != 0
  | 1 => b.rigDim != 0 || decide (n < 2)
  | 2 => !decide (2 ≤ b.rigDim ∧ b.rigDim ≤ 4)
  | _ => decide (cols < 2) || decide (rows < 2) || cols * rows != n

/-- A link of a rigging: between two clusters, or the die-to-die link. -/
inductive Link where
  | clusters (a b : Nat)
  | dies
  deriving DecidableEq, Repr

/-- Neighbours on the 5 x 4 mesh of a die; the clusters of a die stand in rows of five, by number (log 49). -/
def meshNext (a b : Nat) : Bool := a / 20 = b / 20 && ((b = a + 1 && b % 5 != 0) || b = a + 5)

/-- The links of a rigging (R58): mesh, ring, tree or torus over the region's clusters in ascending order. Releases and
collectives follow them; no value a program sees depends on them. -/
def rigLinks (b : Budget) : List Link :=
  let l := clustersOf b.clusters
  let n := l.length
  let link (i j : Nat) : Link := .clusters (l.getD i 0) (l.getD j 0)
  match b.rigShape with
  | 0 => l.flatMap (fun a => (l.filter (meshNext a)).map (Link.clusters a)) ++ [.dies]
  | 1 => (List.range n).map (fun j => link j ((j + 1) % n))
  | 2 => (List.range n).flatMap (fun j => ((List.range b.rigDim).map (fun i => j * b.rigDim + 1 + i)).filterMap
      (fun k => if k < n then some (link j k) else none))
  | _ =>
    let cols := b.rigDim % 16
    let rows := b.rigDim / 16
    (List.range n).flatMap (fun j => [link j (j / cols * cols + (j % cols + 1) % cols),
      link j ((j / cols + 1) % rows * cols + j % cols)])

/-! The measure of a workgroup (R49) and the residency that a region guarantees (R51). -/

/-- Lanes, waves, and register bytes of one workgroup. -/
structure Shape where
  lanes : Nat
  waves : Nat
  regs : Nat
  deriving DecidableEq, Repr

def waveRegs (k : Kernel) : Nat := k.vregs * 4 * 2 ^ k.width

/-- The measure of a kernel for a workgroup of some threads; a translated kernel has the width of R36, and a serial one is one
wave. -/
def shapeOf (threads : Nat) (k : Kernel) : Shape :=
  let w := if k.serial then 1 else ceilDiv threads (2 ^ k.width)
  ⟨threads, w, w * waveRegs k⟩

def regLimit (b : Budget) : Nat := if b.preempt = 1 then min b.regs 524288 else min b.regs 1572864
def scrLimit (b : Budget) : Nat := min b.scratch 327680
def tileLimit (b : Budget) : Nat := if b.preempt = 1 then min b.tiles 8 else min b.tiles 16

/-- Workgroups that one core can hold. -/
def perCore (b : Budget) (k : Kernel) (sh : Shape) : Nat :=
  let k0 := min 16 (64 / sh.waves)
  let k1 := min k0 (regLimit b / sh.regs)
  let k2 := if k.scratch = 0 then k1 else min k1 (scrLimit b / k.scratch)
  if k.tiles = 0 then k2 else min k2 (tileLimit b / k.tiles)

/-- Steps 8 to 12 of R48: the cause of the first that fails. -/
def measureFails (b : Budget) (k : Kernel) (sh : Shape) (groups : Nat) : Option Byte :=
  if 1024 < sh.lanes || 16 < sh.waves then some 0x84
  else if regLimit b < sh.regs then some 0x85
  else if scrLimit b < k.scratch then some 0x86
  else if tileLimit b < k.tiles then some 0x87
  else if k.gridSync && decide (perCore b k sh * coreCount b < groups) then some 0x88
  else none

/-- Steps 5 and 6 of R48. -/
def placeFails (b : Budget) : Option (Byte × Word) :=
  if coreCount b = 0 then some (0x82, dNoCores) else if rigBad b then some (0x82, dBadRig) else none

end Sys2Proof.Machine
end

