-- ==== Sys2Proof/Machine/Resident.lean ====
section
/-! DEFINITION. The contexts of a core: which is active, the point at which one may be switched, its B banks, and the
places of its scratchpad windows (06 R111-R114; 11 R227; 22 R400). -/
namespace Sys2Proof.Machine

def updCtx (k : Core) (rgn : Rgn) (g : Context → Context) : Core :=
  { k with ctxs := updateWhere (fun c => c.region = rgn) g k.ctxs }

def residentWgs (k : Core) : List (Nat × Workgroup) := k.wgs.filterMap (fun g => g.2.map (fun x => (g.1, x)))
def wgsOfRgn (k : Core) (rgn : Rgn) : List Workgroup := ((residentWgs k).map (·.2)).filter (fun g => g.region = rgn)

/-- Workgroups of a region that are placed on the core, those of its save area included. -/
def placedWgs (k : Core) (rgn : Rgn) : List Workgroup :=
  wgsOfRgn k rgn ++ (((ctxOf k rgn).map (·.savedWgs)).getD []).map (·.2)

/-- Wave slots of a context on its core. -/
def ctxWaves (k : Core) (rgn : Rgn) : List (Nat × Wave) :=
  k.waves.filterMap (fun sw => sw.2.bind (fun w =>
    if ((getWg k w.wg).map (·.region)) = some rgn then some (sw.1, w) else none))

/-- A part could issue, its context apart (07 R117). -/
def partCould (w : Wave) (p : Part) (cyc : Nat) : Bool := partFree w p cyc && decide (p.wait = .ready)

/-- A context has a ready part. -/
def ctxReady (s : State) (core : Nat) (rgn : Rgn) : Bool :=
  (ctxWaves (getCore s core) rgn).any (fun x => x.2.parts.any (fun p => partCould x.2 p (coreCyc s core)))

/-- The point of R112: no register write of the context is outstanding (a load in flight, or a store that owes its flag
mask), no trap is raised, no wave is being killed, and its array work has left its tiles and banks; a drain may have its writes
still to do (15 R298). -/
def atSwitchPoint (k : Core) (rgn : Rgn) : Bool :=
  (ctxWaves k rgn).all (fun x => x.2.loads.isEmpty && x.2.queue.all (fun e => e.fm = 0) &&
    x.2.killed.isNone && x.2.parts.all (fun p => p.raised.isNone) && k.outbound.all (fun o => o.serial != x.2.serial || o.entry.fm = 0)) &&
  k.array.all (fun e => e.region != rgn || !holdsPlace e)

/-- A part as a switch leaves it: an open window restarts, and the part is ready at its start (04 R78, R79). -/
def switchedPart (p : Part) : Part :=
  match p.window with
  | some w => { p with pc := w.start, window := none, wait := .ready }
  | none => p

def switchedWave (w : Wave) : Wave := { w with parts := w.parts.map switchedPart }

/-- A valid bank reloaded from its source as the scratchpad stands (06 R114). -/
def reloadBank (k : Core) (b : Bank) : Bank := if tbit b.state 0 then fillBank k b (bits b.state 8 4) b.k b.src else b

/-- A resident context becomes active: its banks are loaded anew (R114), and FLOOR follows (16 R313). -/
def enterActive (k : Core) (rgn : Rgn) : Core :=
  let mine := ((ctxOf k rgn).map (·.savedBanks)).getD []
  let k1 := updCtx k rgn (fun c => { c with place := .active, idle := 0, quantum := 0, wanted := false, savedBanks := [] })
  updateFloor { k1 with banks := mine.map (fun e => (e.1, reloadBank k1 e.2)) }

/-- The active context becomes a shadow (R113). -/
def leaveActive (k : Core) : Core :=
  match activeCtx k with
  | none => k
  | some a =>
    let leave (w : Wave) : Wave := if (getWg k w.wg).map (·.region) = some a.region then switchedWave w else w
    let k1 := updCtx k a.region (fun c => { c with place := .shadow, savedBanks := k.banks })
    { k1 with waves := k1.waves.map (fun sw => (sw.1, sw.2.map leave)), banks := [] }

/-- Where a context that comes to a core stands, beside an active one (R113). -/
def idlePlace (fast : Bool) : CtxPlace := if fast then .shadow else .waiting

/-- A context that has come to the core is active where no other is (R400). -/
def settleCtx (k : Core) (rgn : Rgn) : Core := if (activeCtx k).isSome then k else enterActive k rgn

/-! Windows (11 R227). -/

/-- A window moves: where it lies, its bytes, and where it will lie. -/
structure Move where
  src : Nat
  n : Nat
  dst : Nat
  deriving DecidableEq, Repr

/-- Where an address of the SRAM lies after some moves. -/
def moved (ms : List Move) (a : Nat) : Nat :=
  match ms.find? (fun m => decide (m.src ≤ a) && decide (a < m.src + m.n)) with
  | some m => a - m.src + m.dst
  | none => a

/-- An array operation after some moves; the destination of a global drain is no address of the SRAM. -/
def movedOp (ms : List Move) (o : ArrayOp) : ArrayOp :=
  match o with
  | .load b f kk src => .load b f kk (moved ms src)
  | .pass t b d base e w c => .pass t b d (moved ms base) e w c
  | .drain t f a x z sc dest st r bob true im => .drain t f a x z sc (moved ms dest) st r bob true im
  | o => o

/-- A bank's source after some moves. -/
def movedBank (ms : List Move) (b : Bank) : Bank := { b with src := moved ms b.src }

/-- Move windows at once: every place that names their bytes follows. Bytes outside every window that moves stay. -/
def moveWindows (k : Core) (ms : List Move) : Core :=
  let sram := k.sram.foldl (fun m e => kput m (moved ms e.1) e.2) []
  let errs := k.sramErr.foldl (fun m e => kput m (moved ms (32 * e.1) / 32) e.2) []
  let bankOf (b : Nat × Bank) : Nat × Bank := (b.1, movedBank ms b.2)
  { k with
    sram := sram, sramErr := errs
    locks := k.locks.map (fun l => if l.scratch then { l with base := moved ms l.base } else l)
    jobs := k.jobs.map (fun j => (j.1, j.2.map (fun x => { x with base := moved ms x.base })))
    array := k.array.map (fun e => { e with base := moved ms e.base, op := movedOp ms e.op })
    wgs := k.wgs.map (fun g => (g.1, g.2.map (fun x => if x.scratch = 0 then x else { x with base := moved ms x.base })))
    banks := k.banks.map bankOf
    ctxs := k.ctxs.map (fun c => { c with savedBanks := c.savedBanks.map bankOf }) }

/-- The windows of the core's workgroups: context, base, bytes. -/
def windows (k : Core) : List (Rgn × Nat × Nat) :=
  ((residentWgs k).filter (fun g => g.2.scratch != 0)).map (fun g => (g.2.region, g.2.base, g.2.scratch))

/-- The share of a context: from its lowest window to the end of its highest. -/
def shareOf (ws : List (Rgn × Nat × Nat)) (rgn : Rgn) : Nat × Nat :=
  let own := ws.filter (fun w => w.1 = rgn)
  (own.foldl (fun a w => min a w.2.1) 1572864, own.foldl (fun a w => max a (w.2.1 + w.2.2)) 0)

/-- The shares of different contexts lie apart, within the 320 KiB. -/
def sharesApart (ws : List (Rgn × Nat × Nat)) : Bool :=
  let rs := (ws.map (·.1)).dedup
  rs.all (fun a => decide ((shareOf ws a).2 ≤ 327680) && rs.all (fun b => a = b ||
    decide ((shareOf ws a).2 ≤ (shareOf ws b).1) || decide ((shareOf ws b).2 ≤ (shareOf ws a).1))) &&
  ws.all (fun w => ws.all (fun x => w = x || decide (w.2.1 + w.2.2 ≤ x.2.1) || decide (x.2.1 + x.2.2 ≤ w.2.1)))

/-- Where a new window of a context fits without moving another: behind a window or at 0, so that each context keeps one
share. -/
def gapFor (k : Core) (rgn : Rgn) (n : Nat) : Option Nat :=
  let ws := windows k
  (sortBy (fun a b => decide (a < b)) (0 :: ws.map (fun x => x.2.1 + x.2.2))).find? (fun b =>
    ws.all (fun x => decide (b + n ≤ x.2.1) || decide (x.2.1 + x.2.2 ≤ b)) && sharesApart (ws ++ [(rgn, b, n)]))

/-- The windows of a core packed from 0, context by context: the moves, and the place of a new one behind its context's. -/
def pack : List (Rgn × Nat × Nat) → Nat → List Move × Nat
  | [], a => ([], a)
  | w :: l, a =>
    let r := pack l (a + w.2.2)
    (⟨w.2.1, w.2.2, a⟩ :: r.1, r.2)

def packFor (k : Core) (rgn : Rgn) (n : Nat) : List Move × Nat :=
  let ws := windows k
  let order := (k.ctxs.map (·.region)).filter (· != rgn)
  let own := pack (ws.filter (fun w => w.1 = rgn)) 0
  ((own.1 ++ (pack (order.flatMap (fun r => ws.filter (fun w => w.1 = r))) (own.2 + n)).1), own.2)

/-- Where a new window goes: the moves that make room for it, and its base. The windows of resident contexts leave room for
it wherever their total does (03 R62). -/
def windowPlan (k : Core) (rgn : Rgn) (n : Nat) : Option (List Move × Nat) :=
  if n = 0 then some ([], 0)
  else match gapFor k rgn n with
    | some b => some ([], b)
    | none => if ((windows k).map (·.2.2)).foldl (· + ·) n ≤ 327680 then some (packFor k rgn n) else none

/-- The 256-byte blocks of a window. -/
def blocksOf (base n : Nat) : List Nat := (List.range (n / 256)).map (base / 256 + ·)

/-- Make room for a window: what lies outside every window that stays on the core is no context's any more. -/
def makeRoom (k : Core) (ms : List Move) : Core :=
  if ms.isEmpty then k
  else
    let kept (a : Nat) : Bool := decide (sramBytes ≤ a) || ms.any (fun m => decide (m.src ≤ a) && decide (a < m.src + m.n))
    let k1 := moveWindows { k with sram := k.sram.filter (fun e => kept e.1), sramErr := k.sramErr.filter (fun e => kept (32 * e.1)) } ms
    let blocks (c : Context) : List Nat := ((windows k1).filter (fun w => w.1 = c.region)).flatMap (fun w => blocksOf w.2.1 w.2.2)
    { k1 with ctxs := k1.ctxs.map (fun c => { c with blocks := blocks c }) }

end Sys2Proof.Machine
end

