-- ==== Sys2Proof/Machine/Start.lean ====
section
/-! DEFINITION. The start of a wave, and the columns, slots, window and tiles that a workgroup takes on a core
(03 R62; 06 R103; 07 R115; 11 R227). -/
namespace Sys2Proof.Machine

/-- What a wave starts with beyond R103. -/
structure WaveInit where
  index : Nat
  active : Lanes
  args : Dword
  /-- s registers besides s0 and s1. -/
  sregs : List (Nat × Word) := []
  /-- v registers besides v0: register, tag, and lanes' values. -/
  vregs : List (Nat × Tag × List (Nat × Word)) := []
  fragments : List Fragment := []
  deriving DecidableEq, Repr

/-- Waves of a port. -/
def portWaves (k : Core) (port : Nat) : List (Nat × Wave) :=
  k.waves.filterMap (fun sw => if sw.1 / 16 = port then sw.2.map (fun w => (sw.1, w)) else none)

/-- A wave slot is free for a region: no wave stands in it, and none of the region's own that is out returns to it (22 R402). -/
def slotFree (k : Core) (rgn : Rgn) (sl : Nat) : Bool :=
  (getWave k sl).isNone && (((ctxOf k rgn).map (·.savedWaves)).getD []).all (fun x => x.1 != sl)

/-- The wave slots of a core that are free for a region. -/
def freeSlots (k : Core) (rgn : Rgn) : List Nat := (List.range 64).filter (slotFree k rgn)

/-- The lowest free slot of the port that has one and the fewest resident waves, the lowest such port on a tie. -/
def choosePort (k : Core) (rgn : Rgn) : Option Nat :=
  let free := freeSlots k rgn
  let least := (free.map (· / 16)).foldl (fun b p => if (portWaves k p).length < (portWaves k b).length then p else b) ((free.headD 0) / 16)
  free.find? (fun sl => sl / 16 = least)

/-- The first column of a wave of n quads (R115): the aligned range whose columns hold the fewest quads. -/
def chooseColumn (k : Core) (port n : Nat) : Nat :=
  let held (c : Nat) : Nat := ((portWaves k port).filter (fun x => decide (x.2.col ≤ c) && decide (c < x.2.col + x.2.width / 4))).length
  let load (c0 : Nat) : Nat := ((List.range n).map (fun i => held (c0 + i))).foldl (· + ·) 0
  ((List.range (16 / n)).map (· * n)).foldl (fun b c => if load c < load b then c else b) 0

/-- A wave in its state at start (R103). -/
def newWave (serial bar col cyc : Nat) (k : Kernel) (i : WaveInit) : Wave :=
  let width := 2 ^ k.width
  let lanes := List.range width
  let base : Wave := { serial := serial, wg := bar, index := i.index, width := width, col := col, code := k.code,
                       limits := ⟨k.vregs, k.sregs, k.tiles⟩ }
  let w0 := waveWriteV base 0 (lanes.map (fun l => (l, BitVec.ofNat 32 (i.index * width + l)))) (fun _ => tagI32)
  let w1 := i.vregs.foldl (fun w x => waveWriteV w x.1 x.2.2 (fun _ => x.2.1)) w0
  let s0 := kset (0 : Word) [] 0 (BitVec.ofNat 32 i.args.toNat)
  let s1 := kset 0 s0 1 (BitVec.ofNat 32 (i.args.toNat / 2 ^ 32))
  let part : Part := { lanes := lowLanes width, run := lowLanes width, exec := i.active
                       s := i.sregs.foldl (fun m x => kset 0 m x.1 x.2) s1
                       pc := BitVec.ofNat 32 k.entry, nextIssue := cyc + 1 }
  { w1 with parts := [part], fragments := i.fragments, fresh := true }

/-- Start one wave of a workgroup on a core: it takes a slot and columns; its LIVE bit is set. -/
def startWave (s : State) (core bar : Nat) (i : WaveInit) : State :=
  let k := getCore s core
  match getWg k bar, (getWg k bar).bind (fun g => choosePort k g.region) with
  | some g, some slot =>
    let col := chooseColumn k (slot / 16) (2 ^ g.kernel.width / 4)
    let w := newWave s.serial bar col (coreCyc s core) g.kernel i
    let k1 := setWg (setWave k slot w) bar
      { g with slots := g.slots ++ [slot], live := g.live ||| BitVec.ofNat 16 (2 ^ i.index) }
    setCore { s with serial := s.serial + 1 } core k1
  | _, _ => s

/-! The footprint on a core (R62). -/

/-- What a workgroup asks for. -/
structure Demand where
  waves : Nat
  regs : Nat
  scratch : Nat
  tiles : Nat
  deriving DecidableEq, Repr

def regsOf (l : List Workgroup) : Nat := l.foldl (fun a g => a + g.regBytes) 0

/-- Contexts of other regions that are resident on the core. -/
def otherCtxs (k : Core) (rgn : Rgn) : List Context := k.ctxs.filter (fun c => c.region != rgn && c.place != .streamed)

/-- The region's limits leave room beside its workgroups on the core, resident or streamed out (R49, R62, R63). -/
def limitsFit (k : Core) (rgn : Rgn) (regLim scrLim tileLim : Nat) (d : Demand) : Bool :=
  let own := placedWgs k rgn
  decide (regsOf own + d.regs ≤ regLim) &&
  decide (own.foldl (fun a g => a + g.scratch) 0 + d.scratch ≤ scrLim) &&
  decide (own.foldl (fun a g => a + g.tiles.length) 0 + d.tiles ≤ tileLim)

/-- The register planes hold the demand (06 R113): a fast-switch context takes a plane to itself. -/
def planesFit (k : Core) (rgn : Rgn) (fast : Bool) (d : Demand) : Bool :=
  let others := otherCtxs k rgn
  let planes := (others.filter (·.fast)).length
  let stream := ((others.filter (fun c => !c.fast)).map (fun c => regsOf (wgsOfRgn k c.region))).foldl (· + ·) 0
  let own := regsOf (wgsOfRgn k rgn) + d.regs
  if fast then decide (own ≤ 524288) && decide ((planes + 1) * 524288 + stream ≤ 1572864)
  else decide (own + stream + planes * 524288 ≤ 1572864)

/-- Physical tiles that no resident workgroup holds, ascending. -/
def freeTiles (k : Core) : List Nat :=
  (List.range 16).filter (fun t => (residentWgs k).all (fun g => !g.2.tiles.contains t))

/-- A barrier slot that is free for a region, as `slotFree`. -/
def freeBar (k : Core) (rgn : Rgn) : Option Nat :=
  (List.range 16).find? (fun b => (getWg k b).isNone && (((ctxOf k rgn).map (·.savedWgs)).getD []).all (fun x => x.1 != b))

/-- The scratchpad holds a new window beside those of resident workgroups. -/
def scratchFits (k : Core) (rgn : Rgn) (n : Nat) : Bool := (windowPlan k rgn n).isSome

/-- A core fits a workgroup (R62): its barrier slot. -/
def coreFits (s : State) (core : Nat) (rgn : Rgn) (fast : Bool) (lims : Nat × Nat × Nat) (d : Demand) : Option Nat :=
  let k := getCore s core
  if decide (d.waves ≤ (freeSlots k rgn).length) &&
      limitsFit k rgn lims.1 lims.2.1 lims.2.2 d && planesFit k rgn fast d && decide (d.tiles ≤ (freeTiles k).length) &&
      scratchFits k rgn d.scratch then freeBar k rgn
  else none

/-! Taking the footprint. -/

/-- A window's words at a workgroup's start (11 R227): a word that a workgroup of the context wrote stays, or is
zero, as a free choice; every other word is zero. -/
def clearWindow (free : Nat) (own : List Nat) (base n : Nat) (sram : KMap Byte) : KMap Byte :=
  let keep (a : Nat) : Bool := own.contains (a / 256) && (Config.freeWord free (a / 4)).toNat % 2 = 1
  sram.filter (fun e => !(decide (base ≤ e.1) && decide (e.1 < base + n)) || keep e.1)

/-- Prepare a window for a context, which other contexts and the L1 lose (R227). -/
def takeWindow (s : State) (core : Nat) (rgn : Rgn) (base n : Nat) : State :=
  let k := getCore s core
  let own := ((ctxOf k rgn).map (·.blocks)).getD []
  let mine := blocksOf base n
  let upd (c : Context) : Context :=
    if c.region = rgn then { c with blocks := (c.blocks.filter (fun b => !mine.contains b)) ++ mine }
    else { c with blocks := c.blocks.filter (fun b => !mine.contains b) }
  let k1 := { k with sram := clearWindow s.freeCount own base n k.sram, ctxs := k.ctxs.map upd
                     sramErr := k.sramErr.filter (fun x => !(decide (base ≤ 32 * x.1) && decide (32 * x.1 < base + n))) }
  setCore { s with freeCount := s.freeCount + 1 } core k1

/-- Place a workgroup on a core that fits it: barrier slot, window, tiles set to zero; its waves start one after
another. FLOOR follows, and a ramp window ends (16 R313, R319). -/
def takeCore (s : State) (core bar tiles : Nat) (g : Workgroup) (waves : List WaveInit) : State :=
  let room := (windowPlan (getCore s core) g.region g.scratch).getD ([], 0)
  let s1 := takeWindow (setCore s core (makeRoom (getCore s core) room.1)) core g.region room.2 g.scratch
  let k := getCore s1 core
  let fresh := (residentWgs k).isEmpty && k.ramp.isNone
  let ts := (freeTiles k).take tiles
  let k1 := setWg { k with tiles := ts.foldl (fun m t => kset {} m t {}) k.tiles } bar { g with base := room.2, tiles := ts }
  let s2 := waves.foldl (fun s i => startWave s core bar i) (setCore s1 core (l1Fit k1))
  setCore s2 core (startFloor fresh (coreCyc s2 core) (endRamp (getCore s2 core)))

/-- The lanes of wave w of a workgroup that start active (R49). -/
def startLanes (lanes width w : Nat) : Lanes := lowLanes (min width (lanes - w * width))

end Sys2Proof.Machine
end

