-- ==== Sys2Proof/Machine/Manager.lean ====
section
/-! DEFINITION. The partition manager: launch records, completion records, rejection, validation, acceptance and
dependences (03 R44-R57; 23 R407, R408, R411). -/
namespace Sys2Proof.Machine

/-! Records (R45, R46; 23 R407). -/

/-- A launch record. -/
structure LaunchRec where
  object : Dword
  key : Nat
  gx : Nat
  gy : Nat
  gz : Nat
  wgX : Nat
  wgY : Nat
  wgZ : Nat
  args : Dword
  rcb : Dword
  done : Dword
  dep0 : Dword
  dep1 : Dword
  deriving DecidableEq, Repr

def launchRec (b : List Byte) : LaunchRec :=
  let q (i : Nat) : Dword := BitVec.ofNat 64 (field b i (i + 7))
  { object := q 0, key := field b 8 11, gx := field b 12 15, gy := field b 16 17, gz := field b 18 19,
    wgX := field b 20 21, wgY := field b 22 22, wgZ := field b 23 23, args := q 24, rcb := q 32, done := q 40,
    dep0 := q 48, dep1 := q 56 }

/-- Bits [56:0] of DONE. -/
def LaunchRec.doneVa (r : LaunchRec) : Dword := BitVec.ofNat 64 (bits r.done 0 57)

/-- DONE itself is well formed (R50). -/
def LaunchRec.doneOk (r : LaunchRec) : Bool := r.doneVa.toNat % 16 = 0 && bits r.done 59 5 = 0

/-- A dependence field (R46). -/
def depOk (d : Dword) : Bool :=
  if bits d 0 2 = 0 then d = 0 else bits d 57 7 = 0 && bits d 2 2 = 0

/-- Step 1 of R48. -/
def LaunchRec.formOk (r : LaunchRec) : Bool :=
  decide (1 ≤ r.gx) && decide (1 ≤ r.gy) && decide (1 ≤ r.gz) && decide (r.gx * r.gy * r.gz ≤ 0xFFFFFFFF) &&
  decide (1 ≤ r.wgX ∧ r.wgX ≤ 1024) && decide (1 ≤ r.wgY) && decide (1 ≤ r.wgZ) && r.doneOk &&
  depOk r.dep0 && depOk r.dep1

/-- A completion record's sixteen bytes. -/
def doneBytes (published wgid state : Nat) (cause : Byte) (detail : Word) : List Byte :=
  toBytes 4 published ++ toBytes 4 wgid ++ [BitVec.ofNat 8 state, cause, 0, 0] ++ toBytes 4 detail.toNat

def noWg : Nat := 0xFFFFFFFF

/-- A fault record made by the I/O die. -/
def ioFault (cause : Byte) (kind access : Nat) (detail : Word) (faddr launch : Dword) (rgn : Rgn) : FaultRec :=
  { cause := cause, kind := kind, access := access, detail := detail, faddr := faddr, launch := launch, rcb := rgn }

/-- Post a record in a domain where there is one, else only to the host. -/
def postIn (s : State) (dom : Option Rgn) (host : Option Nat) (r : FaultRec) : State :=
  match dom with
  | some d => postFault s d host r
  | none => faultMessage s host r

/-- Where the manager writes a completion record (23 R408): its physical byte, or the cause that stops it. A peer
window takes no record. -/
def doneRoute (s : State) (asn : Nat) (va : Dword) : Except Byte Nat :=
  match route s asn .store va with
  | .phys key _ => .ok key
  | .denied c => .error c
  | .absent => .error 0xC3
  | .peer _ => .error cProtWrite

/-- A write to a completion record, from the bytes that stand there; or a fault record of KIND 5. -/
def writeDone (s : State) (asn : Nat) (dom : Option Rgn) (host : Option Nat) (rgn : Rgn) (done : Dword) (n : Nat)
    (g : List Byte → List Byte) : State :=
  match doneRoute s asn done with
  | .ok key => homeWrite s key (g (memRead s key n))
  | .error c => postIn s dom host (ioFault c 5 2 0 done done rgn)

/-- A whole completion record. -/
def putDone (s : State) (asn : Nat) (dom : Option Rgn) (host : Option Nat) (rgn : Rgn) (done : Dword) (bs : List Byte) : State :=
  writeDone s asn dom host rgn done 16 (fun _ => bs)

/-- A COMPLETE message (01 R24, R26). -/
def sendComplete (s : State) (host : Option Nat) (done : Dword) (bs : List Byte) : State :=
  match host with
  | none => s
  | some c => sendUnder s c 0x02 done 0 bs

/-! Futures of device launches (R47; 20 R380). -/

/-- A launch has ended or been rejected: its future completes once all the launches of the spawn have. -/
def launchResult (s : State) (fut : Option (Nat × Nat × Half × Nat)) (status : Byte) : State :=
  match fut with
  | none => s
  | some (core, i, gen, idx) =>
    let k := getCore s core
    let f := getFut k i
    if f.gen != gen || f.phase != 1 then s
    else
      let l := f.launches.mapIdx (fun j x => if j = idx then (x.1, some status) else x)
      let k1 := setFut k i { f with launches := l }
      if l.all (fun x => x.2.isSome) then
        setCore s core (completeFut k1 i ((l.findSome? (fun x => if x.2 = some 0 then none else x.2)).getD 0) 0)
      else setCore s core k1

/-! Rejection (R50). -/

/-- Where a launch comes from. -/
structure Origin where
  asn : Nat
  /-- The host context of a host launch. -/
  host : Option Nat := none
  /-- The launching wave's region. -/
  parent : Option Rgn := none
  fut : Option (Nat × Nat × Half × Nat) := none
  deriving DecidableEq, Repr

/-- The root of a region's tree. -/
def rootRgn (s : State) (r : Rgn) : Rgn := ((getRegion s r).map (fun g => g.chain.getLastD r)).getD r

/-- Reject a launch. `trusted` when its chain and its region rule passed. A host's COMPLETE goes out before its FAULT, and both
before the ACK (`applyMessage`): 01 R25, R26 and 03 R50 give no order (log 38). -/
def rejectLaunch (s : State) (o : Origin) (r : LaunchRec) (trusted : Bool) (cause : Byte) (detail : Word) : State :=
  let rgn := mkRgn o.asn r.rcb
  let dom := if trusted then some rgn else o.parent.map (rootRgn s)
  let bs := doneBytes 0 noWg 2 cause detail
  let s1 := if r.doneOk then putDone s o.asn dom o.host rgn r.doneVa bs else s
  let s2 := sendComplete s1 o.host r.doneVa bs
  let s3 := postIn s2 dom o.host (ioFault cause 2 0 detail 0 r.doneVa rgn)
  launchResult s3 o.fut cause

/-! Validation (R48). -/

/-- Steps 2 and 3: the chain, and the region rule of a device launch. -/
def checkChain (s : State) (o : Origin) (r : LaunchRec) : Except (Byte × Word) (List Rcb) :=
  match readChain s o.asn 16 [] r.rcb with
  | none => .error (0x82, dBadRcb)
  | some c =>
    match o.parent with
    | none => .ok c
    | some p => if c.any (fun n => mkRgn o.asn n.addr = p) then .ok c else .error (0x82, dNotDescendant)

/-- Steps 4 to 6, with the values that placement will use (02 R43). -/
def checkPlace (s : State) (read now : Budget) : Option (Byte × Word) :=
  match (functionsOf s read).find? (fun f => !f.1) with
  | some f => some (0x81, BitVec.ofNat 32 f.2)
  | none => placeFails now

/-- Threads of a workgroup. -/
def LaunchRec.threads (r : LaunchRec) : Nat := r.wgX * r.wgY * r.wgZ

/-- Steps 4 to 12 for a region whose chain has been kept. -/
def checkRest (s : State) (o : Origin) (r : LaunchRec) (read : Budget) : State × Except (Byte × Word) Kernel :=
  let now := regionGrant s (mkRgn o.asn r.rcb)
  match checkPlace s read now with
  | some e => (s, .error e)
  | none =>
    match loadKernel s o.asn r.object r.key r.threads now.sign now.handlerObj now.handlerKey with
    | (s1, .error e) => (s1, .error e)
    | (s1, .ok c) =>
      match measureFails now c (shapeOf r.threads c) (r.gx * r.gy * r.gz) with
      | some cause => (s1, .error (cause, 0))
      | none => (s1, .ok c)

/-! Dependences (R55). -/

/-- Bind a dependence: the launch with the DONE address accepted most recently that has not ended; of the same address
space, since the address names a place only there (log 28). -/
def bindDep (s : State) (asn : Nat) (d : Dword) : Option Dep :=
  if bits d 0 2 = 0 then none
  else
    let va : Dword := BitVec.ofNat 64 (bits d 4 53 * 16)
    (s.launches.reverse.find? (fun l => l.asn = asn && l.done = va && !l.ended)).map
      (fun l => ⟨l.acc, bits d 0 2, l.gx, l.gy, l.gz⟩)

/-! Acceptance (R44, R48). -/

/-- The launch enters its region's queue. -/
def enterQueue (s : State) (o : Origin) (r : LaunchRec) (acc : Nat) (c : Kernel) : State :=
  let rgn := mkRgn o.asn r.rcb
  let sh := shapeOf r.threads c
  let s1 := putDone s o.asn (some rgn) o.host rgn r.doneVa (doneBytes 0 noWg 0 0 0)
  let l : Launch :=
    { acc := acc, region := rgn, asn := o.asn, host := o.host, fut := o.fut, kernel := c
      gx := r.gx, gy := r.gy, gz := r.gz, lanes := sh.lanes, waves := sh.waves, wgX := r.wgX, wgY := r.wgY
      args := r.args, done := r.doneVa
      notifyWg := o.host.isSome && tbit r.done 57, notifyEnd := o.host.isSome && tbit r.done 58
      deps := ([r.dep0, r.dep1].filterMap (bindDep s1 o.asn)), checked := regionGrant s rgn }
  let s2 := { s1 with launches := s1.launches ++ [l] }
  updRegion s2 rgn (fun g => { g with queue := g.queue ++ [acc], hostCtx := o.host <|> g.hostCtx })

/-- A launch record, as its fields decide it before step 4. -/
inductive Early where
  | reject (trusted : Bool) (cause : Byte) (detail : Word)
  | teardown
  | go (read : Budget)
  deriving DecidableEq, Repr

/-- Steps 1 to 3; what the manager read of a good chain is kept. -/
def acceptEarly (s : State) (o : Origin) (r : LaunchRec) : State × Early :=
  if !r.formOk then (s, .reject false 0x80 dBadField)
  else match checkChain s o r with
    | .error e => (s, .reject false e.1 e.2)
    | .ok c =>
      let s1 := (chainRegions o.asn c).foldl (fun s x => keepRegion s o.asn x) s
      if r.object = 0 && r.key = 0xFFFFFFFF then (s1, .teardown) else (s1, .go (effective c))

/-- The acceptance of a launch that is no teardown: the state, and the cause of its rejection or 0. -/
def acceptGo (s : State) (o : Origin) (r : LaunchRec) (acc : Nat) (read : Budget) : State × Byte :=
  match checkRest s o r read with
  | (s1, .error e) => (rejectLaunch s1 o r true e.1 e.2, e.1)
  | (s1, .ok c) => (enterQueue s1 o r acc c, 0)

/-! The end of a launch (R57; 23 R411, R412). -/

/-- A launch leaves its queue. -/
def leaveQueue (s : State) (l : Launch) : State :=
  updRegion s l.region (fun g => { g with queue := g.queue.filter (fun a => a != l.acc) })

/-- The grants of a region without a placed workgroup return to the pool, its L2 ways with the lines in them (R60). -/
def settleRegion (s : State) (rgn : Rgn) : State :=
  let placed := s.cores.any (fun kc => kc.2.wgs.any (fun g => (g.2.map (·.region)) = some rgn) ||
    kc.2.ctxs.any (fun c => c.region = rgn && !c.savedWgs.isEmpty))
  if placed then s
  else updRegion { s with l2 := s.l2.filter (fun l => l.region != rgn) } rgn (fun g => { g with inForce := none })

/-- What a launch held beside its workgroups: bins, node waves, a Capstan counter, draw records. A younger launch of its draws
whose groups had all ended may be the oldest now (17 R334). -/
def freeLaunch (s : State) (acc : Nat) : State :=
  let caps := s.capstans.foldl (fun m e => if e.2.launch = some acc then kset {} m e.1 {} else m) s.capstans
  let dropDraw (d : Draw) : Draw := { d with launches := d.launches.filter (· != acc), tris := d.tris.filter (fun t => t.a != acc) }
  let s1 := { s with bins := s.bins.filter (fun b => b.root != acc), nodes := s.nodes.filter (fun n => n.root != acc)
                     capstans := caps, draws := (s.draws.map dropDraw).filter (fun d => !d.launches.isEmpty)
                     groups := s.groups.filter (fun g => g.launch != acc)
                     batches := s.batches.filter (fun b => b.launch != acc) }
  (s1.draws.flatMap (·.launches)).dedup.foldl groupsEnded s1

/-- A launch's record receives its last write, STATE 1, as a release; PUBLISHED stands as counted. Then the fault record of a
failed dependence is written (R57, R50), its future completes and, under NOTIFY_END, a COMPLETE is sent (23 R411). -/
def finishLaunch (s : State) (l : Launch) (cause : Byte) : State :=
  let bs := doneBytes l.published.length noWg 1 cause 0
  let s1 := putDone s l.asn (some l.region) l.host l.region l.done bs
  let s1 := if cause = 0x89 then postFault s1 l.region l.host (ioFault 0x89 2 0 0 0 l.done l.region) else s1
  let s2 := launchResult s1 l.fut cause
  let s3 := if l.notifyEnd then sendComplete s2 l.host l.done bs else s2
  let s4 := updLaunch (leaveQueue s3 l) l.acc (fun x => { x with ended := true })
  settleRegion (freeLaunch s4 l.acc) l.region

/-- Launches bound to a producer that ended abnormally, and that still hold an unplaced workgroup: their unplaced
workgroups are dropped with DEP_FAILED (R57). Bins of the launch may have lost their last producer (20 R376), and its last mesh
group may have ended (17 R334). -/
def failDependants (s : State) (acc : Nat) : State :=
  (s.launches.filter (fun l => !l.ended && l.dropped.isNone && l.deps.any (fun d => d.producer = acc) &&
    decide (l.next < l.gx * l.gy * l.gz))).foldl (fun s l =>
      groupsEnded (creelTest (updLaunch (leaveQueue s l) l.acc (fun x => { x with dropped := some 0x89 })) l.acc) l.acc) s

end Sys2Proof.Machine
end

