-- ==== Sys2Proof/Machine/Place.lean ====
section
/-! DEFINITION. Choosing a queue and placing a workgroup (02 R43; 03 R52-R63; 20 R371, R376, R377; 22 R394). -/
namespace Sys2Proof.Machine

/-! Dependences (R56). -/

/-- Every index of a list of workgroups has been published. -/
def allPublished (p : List Nat) (is : List Nat) : Bool := is.all (fun i => p.contains i)

/-- A dependence of the workgroup with a linear index is satisfied. -/
def depMet (s : State) (l : Launch) (i : Nat) (d : Dep) : Bool :=
  match getLaunch s d.producer with
  | none => true
  | some p =>
    let pn := d.gx * d.gy * d.gz
    let whole := decide (pn ≤ p.published.length)
    let y := i / l.gx % l.gy
    let z := i / l.gx / l.gy
    match d.map with
    | 1 => whole
    | 2 => if pn ≤ i then whole else p.published.contains i
    | _ =>
      if d.gy ≤ y || d.gz ≤ z then whole
      else allPublished p.published ((List.range d.gx).map (fun x => x + d.gx * (y + d.gy * z)))

def depsMet (s : State) (l : Launch) (i : Nat) : Bool := l.deps.all (depMet s l i)

/-! Grants (R60). -/

/-- Ways that the pinned lines of regions without a placed workgroup still take, beside a region's own (log 50). -/
def pinnedWays (s : State) (rgn : Rgn) : Nat :=
  ((s.regions.filter (fun r => r.inForce.isNone && r.rcb != rgn)).map (fun r =>
    ceilDiv (((List.range 80).map (pinnedLines s r.rcb)).foldl max 0) 1024)).foldl (· + ·) 0

/-- Granting a region a budget beside the active regions passes no limit of the module. -/
def grantsFit (s : State) (rgn : Rgn) (b : Budget) : Bool :=
  let act := s.regions.filterMap (·.inForce)
  let sum (g : Budget → Nat) : Nat := act.foldl (fun a x => a + g x) (g b)
  decide (act.length < 16) && decide (sum (·.l2Ways) + pinnedWays s rgn ≤ 16) && decide (sum (·.hbmShare) ≤ 256) &&
  decide (sum (·.ethQp) ≤ 64) && decide (sum (·.ethShare) ≤ 256)

/-- The region becomes active: its grants and its rigging are in force (R58, R60). -/
def activate (s : State) (rgn : Rgn) : State :=
  updRegion s rgn (fun g => { g with inForce := some (g.inForce.getD g.budget), last := g.inForce.getD g.budget })

/-! Contexts (06 R111; 22 R394). -/

/-- Leaf bits of a trap area: V, R, W. -/
def trapFlags : Nat := 0x7

/-- The context of a region on a core, made at its first placement there with its trap area of 256 KiB. -/
def ensureCtx (s : State) (core : Nat) (rgn : Rgn) (asn : Nat) (fast : Bool) : State :=
  if (ctxOf (getCore s core) rgn).isSome then s
  else
    let m := mapBytes s asn trapFlags (List.replicate 262144 0)
    let k := getCore m.1 core
    let c : Context := { region := rgn, asn := asn, order := m.1.serial, fast := fast, place := idlePlace fast, trapBase := m.2 }
    setCore { m.1 with serial := m.1.serial + 1 } core { k with ctxs := k.ctxs ++ [c] }

/-- A context with a workgroup placed on the core is resident there, also where others of its workgroups are streamed out;
it is active where no other is (R400). -/
def seatCtx (s : State) (core : Nat) (rgn : Rgn) : State :=
  let seat (c : Context) : Context := if c.place = .streamed then { c with place := idlePlace c.fast } else c
  setCore s core (settleCtx (updCtx (getCore s core) rgn seat) rgn)

/-! Placing (R62). -/

/-- Clusters of a region from its rotation pointer onwards. -/
def rotation (b : Budget) (pointer : Nat) : List Nat :=
  let l := clustersOf b.clusters
  l.filter (fun c => decide (pointer ≤ c)) ++ l.filter (fun c => decide (c < pointer))

def limitsOf (b : Budget) : Nat × Nat × Nat := (regLimit b, scrLimit b, tileLimit b)

/-- The first core that fits, with its barrier slot. -/
def findCore (s : State) (rgn : Rgn) (b : Budget) (pointer : Nat) (d : Demand) : Option (Nat × Nat) :=
  ((rotation b pointer).filter (clusterReady s)).findSome? (fun cl => (coresIn b cl).findSome? (fun core =>
    (coreFits s core rgn (b.preempt = 1) (limitsOf b) d).map (fun x => (core, x))))

def demandOf (k : Kernel) (waves : Nat) : Demand := ⟨waves, waves * waveRegs k, k.scratch, k.tiles⟩

/-- Place one workgroup of a region: the new state with its core and barrier slot. -/
def placeWg (s : State) (rgn : Rgn) (g : Workgroup) (waves : List WaveInit) (resident : Nat) : Option (State × Nat × Nat) :=
  match getRegion s rgn with
  | none => none
  | some r =>
    let b := r.now
    let d := demandOf g.kernel resident
    match findCore s rgn b r.pointer d with
    | none => none
    | some (core, bar) =>
      let s1 := seatCtx (ensureCtx s core rgn g.asn (b.preempt = 1)) core rgn
      let s2 := takeCore s1 core bar d.tiles { g with regBytes := d.regs, scratch := g.kernel.scratch } waves
      some (updRegion s2 rgn (fun x => { x with pointer := core / 8 + 1 }), core, bar)

/-- The next workgroup of a launch. -/
def nextWg (l : Launch) : Workgroup :=
  let i := l.next
  { launch := l.acc, region := l.region, asn := l.asn, id := i, x := i % l.gx, y := i / l.gx % l.gy, z := i / l.gx / l.gy
    gx := l.gx, gy := l.gy, gz := l.gz, kernel := l.kernel }

/-- Its waves. -/
def nextWaves (l : Launch) : List WaveInit :=
  (List.range l.waves).map (fun w => { index := w, active := startLanes l.lanes (2 ^ l.kernel.width) w, args := l.args })

/-- Place the next workgroup of a launch; the launch leaves its queue with the last. -/
def placeNext (s : State) (acc : Nat) : Option State :=
  match getLaunch s acc with
  | none => none
  | some l =>
    match placeWg s l.region (nextWg l) (nextWaves l) l.waves with
    | none => none
    | some (s1, _, _) =>
      let s2 := updLaunch s1 acc (fun x => { x with next := x.next + 1 })
      some (if l.next + 1 = l.gx * l.gy * l.gz then leaveQueue s2 l else s2)

/-- Place n workgroups of a launch in one decision (R52). -/
def placeMany : Nat → Nat → State → Option State
  | 0, _, s => some s
  | n + 1, acc, s => (placeNext s acc).bind (placeMany n acc)

/-- A grid-sync launch: all its workgroups at once, with a free Capstan counter (20 R371). -/
def placeGrid (s : State) (l : Launch) : Option State :=
  let n := l.gx * l.gy * l.gz
  match (List.range 1024).find? (fun i => (getCapstan s i).launch.isNone) with
  | none => none
  | some i =>
    let c : Capstan := { expect := BitVec.ofNat 16 n, launch := some l.acc }
    let s1 := updLaunch (setCapstan s i c) l.acc (fun x => { x with capstan := some i })
    if (List.range n).all (depsMet s l) then placeMany n l.acc s1 else none

/-- Place a node wave (20 R376, R377): its records are copied into its window before its first instruction. -/
def placeNode (s : State) (n : NodeWave) : Option State :=
  match getLaunch s n.root with
  | none => none
  | some l =>
    let g : Workgroup := { launch := l.acc, region := l.region, asn := l.asn, kind := .node n.root n.key
                           id := n.serial.toNat, x := n.serial.toNat, kernel := n.kernel }
    let w : WaveInit := { index := 0, active := lowLanes n.records.length, args := l.args }
    match placeWg s l.region g [w] 1 with
    | none => none
    | some (s1, core, bar) =>
      let base := ((getWg (getCore s1 core) bar).map (·.base)).getD 0
      let s2 := setCore s1 core (sramWrite (getCore s1 core) base n.records.flatten)
      some { s2 with nodes := s2.nodes.filter (fun x => x != n) }

/-- The node wave of a region that waits first. -/
def firstNode (s : State) (rgn : Rgn) : Option NodeWave :=
  s.nodes.find? (fun n => ((getLaunch s n.root).map (·.region)) = some rgn && !tornDown s n.root)

/-- Place what stands at the head of a region's queue; none where it is not placeable (R54). -/
def tryPlace (s : State) (r : Region) : Option State :=
  if r.inForce.isNone && !(grantsFit s r.rcb r.budget && regionReady s r.budget) then none
  else
    let s1 := activate s r.rcb
    match firstNode s r.rcb with
    | some n => placeNode s1 n
    | none =>
      match r.queue.head?.bind (getLaunch s) with
      | none => none
      | some l =>
        if l.kernel.gridSync then placeGrid s1 l
        else if depsMet s l l.next then placeNext s1 l.acc else none

/-! Weighted round robin (R54). -/

/-- The weight of a subtree (R54); one without a core in its grant, which may still hold a placeable queue, counts 1 (log 29). -/
def weightOf (s : State) (r : Rgn) : Nat := max 1 (coreCount (regionGrant s r))

def chargeOf (l : List (Rgn × Nat)) (r : Rgn) : Nat := ((l.find? (fun x => x.1 = r)).map (·.2)).getD 0

/-- One choice among children that hold placeable queues: a child that has not received its weight in the round;
which one is a free choice. The new charges go with it. -/
def pickChild (s : State) (charged : List (Rgn × Nat)) (cs : List Rgn) : Option (Rgn × List (Rgn × Nat)) :=
  let left (l : List (Rgn × Nat)) : List Rgn := cs.filter (fun c => decide (chargeOf l c < weightOf s c))
  let base := if (left charged).isEmpty then [] else charged
  let pick : Option Rgn := match left base with
    | [c] => some c
    | l => l[Config.freeNat s.freeCount % l.length]?
  pick.map (fun c => (c, (c, chargeOf base c + 1) :: base.filter (fun x => x.1 != c)))

/-- The child of a node through which a chain passes; the node itself for its own queue. -/
def childOf (node : Rgn) : List Rgn → Option Rgn
  | a :: b :: l => if b = node then some a else childOf node (b :: l)
  | _ => none

/-- Walk down from a node to a queue, charging each choice one unit: a decision that places a whole grid (R52) is one choice
as well (log 29). -/
def walkDown : Nat → State → Rgn → List Region → Option (Rgn × State)
  | 0, _, _, _ => none
  | fuel + 1, s, node, cands =>
    let child (r : Region) : Rgn := if r.rcb = node then node else (childOf node r.chain).getD node
    let cs := (cands.map child).dedup
    let charged := ((getRegion s node).map (·.charged)).getD []
    match pickChild s charged cs with
    | none => none
    | some (c, ch) =>
      let s1 := updRegion { s with freeCount := s.freeCount + 1 } node (fun g => { g with charged := ch })
      if c = node then some (node, s1) else walkDown fuel s1 c (cands.filter (fun r => child r = c))

/-- Choose among placeable queues: the highest priority, then the walk from the common top node. -/
def chooseQueue (s : State) (cands : List Region) : Option (Rgn × State) :=
  let top := cands.foldl (fun a r => max a r.budget.prio) 0
  let best := cands.filter (fun r => r.budget.prio = top)
  let root (r : Region) : Rgn := r.chain.getLastD r.rcb
  match pickChild s s.treeCharged ((best.map root).dedup) with
  | none => none
  | some (t, ch) =>
    walkDown 17 { s with treeCharged := ch, freeCount := s.freeCount + 1 } t (best.filter (fun r => root r = t))

/-! Revalidation (02 R43). -/

/-- An accepted launch is rejected after all, and leaves its queue. -/
def rejectAccepted (s : State) (l : Launch) (cause : Byte) (detail : Word) : State :=
  let bs := doneBytes 0 noWg 2 cause detail
  let s1 := sendComplete (putDone s l.asn (some l.region) l.host l.region l.done bs) l.host l.done bs
  let s2 := postFault s1 l.region l.host (ioFault cause 2 0 detail 0 l.done l.region)
  let s3 := updLaunch (leaveQueue (launchResult s2 l.fut cause) l) l.acc (fun x => { x with ended := true })
  failDependants s3 l.acc

/-- Steps 5, 6 and 8 to 12 with the values that would come into force. -/
def refails (b : Budget) (l : Launch) : Option (Byte × Word) :=
  (placeFails b) <|>
  ((measureFails b l.kernel ⟨l.lanes, l.waves, l.waves * waveRegs l.kernel⟩ (l.gx * l.gy * l.gz)).map (fun c => (c, 0)))

/-- Groups 2, 3, 5, 6 and 7 (02 R41). -/
def placeGroups (b : Budget) : List Nat :=
  [b.rigShape, b.rigDim, b.clusters, b.cores, b.l2Ways, b.ethQp, b.ethShare, b.hbmShare]

/-- Launches of a region's queue without a placed workgroup, in acceptance order. -/
def freshQueue (s : State) (r : Region) : List Launch := (r.queue.filterMap (getLaunch s)).filter (fun l => l.next = 0)

/-- A placement would make the region active with values in force that are new, to the region or to a launch of its queue. -/
def newForce (s : State) (r : Region) : Bool :=
  r.inForce.isNone && (placeGroups r.budget != placeGroups r.last ||
    (freshQueue s r).any (fun l => placeGroups l.checked != placeGroups r.budget))

/-- The placement that puts new values in force validates anew each launch of the queue without a placed workgroup. -/
def revalidate (s : State) (r : Region) : State :=
  if !newForce s r then s
  else (freshQueue s r).foldl (fun s l => match refails r.budget l with
    | some e => rejectAccepted s l e.1 e.2
    | none => s) s

/-- The head of the queue is due, and the values that it would put in force can never place it. -/
def hopeless (s : State) (r : Region) : Bool :=
  newForce s r && grantsFit s r.rcb r.budget && regionReady s r.budget && (firstNode s r.rcb).isNone &&
  (match r.queue.head?.bind (getLaunch s) with
    | some l => l.next = 0 && depsMet s l l.next && (refails r.budget l).isSome
    | none => false)

/-- PLACE_WORKGROUP (R54, R62, R63): one decision. -/
def execPlaceWorkgroup (s : State) : Host.Outcome State Fault Refusal :=
  let cands := s.regions.filter (fun r => hopeless s r || (tryPlace s r).isSome)
  match chooseQueue s cands with
  | none => .next s
  | some (rgn, s1) =>
    match getRegion s1 rgn with
    | none => .next s
    | some r =>
      let s2 := revalidate s1 r
      .next (((getRegion s2 rgn).bind (tryPlace s2)).getD s2)

end Sys2Proof.Machine
end

