-- ==== Sys2Proof/Machine/Contexts.lean ====
section
/-! DEFINITION. Contexts sharing a core: switches, streaming out and back, pre-emption (06 R111-R114; 15 R298;
22 R400-R403). -/
namespace Sys2Proof.Machine

/-- Effective PRIO of a region now. -/
def prioOf (s : State) (rgn : Rgn) : Nat := (regionGrant s rgn).prio

/-! Choosing among resident contexts (R400). -/

/-- A context is resident and not active. -/
def Context.idles (c : Context) : Bool := c.place = .shadow || c.place = .waiting

/-- Resident contexts in the order of rotation after a placement order: ascending, wrapping round. -/
def rotateFrom (k : Core) (order : Nat) : List Context :=
  let l := sortBy (fun a b => decide (a.order < b.order)) (k.ctxs.filter Context.idles)
  l.filter (fun c => decide (order < c.order)) ++ l.filter (fun c => decide (c.order < order))

/-- The first of the highest priority. -/
def topOf (s : State) (l : List Context) : Option Context :=
  let top := l.foldl (fun a c => max a (prioOf s c.region)) 0
  l.find? (fun c => prioOf s c.region = top)

/-- A core whose active context has ended or gone takes another resident one, with a ready part if there is one. -/
def electActive (s : State) (core : Nat) : State :=
  let k := getCore s core
  if (activeCtx k).isSome then s
  else
    let l := sortBy (fun a b => decide (a.order < b.order)) (k.ctxs.filter Context.idles)
    match (topOf s (l.filter (fun c => ctxReady s core c.region))) <|> (topOf s l) with
    | some c => setCore s core (enterActive k c.region)
    | none => setCore s core (updateFloor k)

/-! Streaming (R113, R401, R402). The windows and tiles of a context that is out have addresses beyond the core's own, so that
its engine jobs and drains go on reaching them. -/

/-- Move a tile's contents. -/
def moveTile (k : Core) (old new : Nat) : Core := setTile (setTile k old {}) new (getTile k old)

/-- Where the window of a streamed-out workgroup lies, by its context and barrier slot, and its tile i. -/
def saveBase (order bar : Nat) : Nat := 0x800000 * (order + 1) + 0x50000 * bar
def saveTile (order bar i : Nat) : Nat := 256 * (order + 1) + 16 * bar + i

/-- Move windows to places that hold nothing of theirs: what stood there goes. -/
def carryWindows (k : Core) (ms : List Move) : Core :=
  let gone (a : Nat) : Bool := ms.any (fun m => decide (m.dst ≤ a) && decide (a < m.dst + m.n))
  moveWindows { k with sram := k.sram.filter (fun e => !gone e.1), sramErr := k.sramErr.filter (fun e => !gone (32 * e.1)) } ms

/-- Nothing is left in the store queues of the context's waves. -/
def queuesEmpty (k : Core) (rgn : Rgn) : Bool := (ctxWaves k rgn).all (fun x => x.2.queue.isEmpty)

/-- The point of R112 for a context that streams out: its waves' issued stores have left their queues too (log 31). -/
def leaveReady (s : State) (rgn : Rgn) (core : Nat) : Bool :=
  let k := getCore s core
  atSwitchPoint k rgn && queuesEmpty k rgn

/-- Frames of a save area, 4 MiB: the register planes, the scratchpad and the tiles of a core fit. -/
def saveFrames : Nat := 1024

/-- The save area of a context, which control firmware allocates when it first streams out (R113), in frames that no page is
mapped to and no other save area holds. -/
def allotSave (s : State) (core : Nat) (rgn : Rgn) : State :=
  match ctxOf (getCore s core) rgn with
  | some c =>
    if c.saveArea.isSome then s
    else match [0, 1].findSome? (fun die => (nextFrames s die saveFrames).map (fun n => (die, n))) with
      | none => s
      | some (die, n) =>
        setCore { s with nextFrame := n + saveFrames } core
          (updCtx (getCore s core) rgn (fun x => { x with saveArea := some (die * 2 ^ 40 + frameAt (n + saveFrames - 1)) }))
  | none => s

/-- A context's state leaves its core: what is resident of it joins what is out already. -/
def leaveCore (s : State) (core : Nat) (rgn : Rgn) : State :=
  let s0 := allotSave s core rgn
  let k := getCore s0 core
  match ctxOf k rgn with
  | none => s
  | some c =>
    let was := decide (c.place = .active)
    let banks := if was then k.banks else c.savedBanks
    let wgs := (residentWgs k).filter (fun g => g.2.region = rgn)
    let ws := (ctxWaves k rgn).map (fun x => (x.1, switchedWave x.2))
    let ms := (wgs.filter (fun g => g.2.scratch != 0)).map (fun g => ⟨g.2.base, g.2.scratch, saveBase c.order g.1⟩)
    let out (g : Nat × Workgroup) : List Nat := (List.range g.2.tiles.length).map (saveTile c.order g.1)
    let k1 := wgs.foldl (fun k g => (g.2.tiles.zip (out g)).foldl (fun k t => moveTile k t.1 t.2) k)
      (carryWindows (updCtx k rgn (fun x => { x with savedBanks := banks })) ms)
    let saved := wgs.map (fun g => (g.1, { g.2 with base := if g.2.scratch = 0 then 0 else saveBase c.order g.1, tiles := out g }))
    let k2 := updCtx k1 rgn (fun x => { x with place := .streamed, savedWaves := x.savedWaves ++ ws
                                               savedWgs := x.savedWgs ++ saved })
    let k3 := { k2 with waves := ws.foldl (fun m x => kset none m x.1 none) k2.waves
                        wgs := wgs.foldl (fun m g => kset none m g.1 none) k2.wgs
                        banks := if was then [] else k2.banks }
    setCore s0 core (startRamp (l1Take k3) (coreCyc s core))

/-- Stream a context out; another resident one becomes active. -/
def streamOut (s : State) (core : Nat) (rgn : Rgn) : State :=
  if (ctxOf (getCore s core) rgn).isNone then s else electActive (leaveCore s core rgn) core

/-- The core can hold what is out of a context: its wave and barrier slots are free, and its registers, windows and
tiles fit (R402). -/
def canReturn (k : Core) (c : Context) : Bool :=
  let wgs := c.savedWgs.map (·.2)
  c.savedWaves.all (fun x => (getWave k x.1).isNone) && c.savedWgs.all (fun g => (getWg k g.1).isNone) &&
  planesFit k c.region c.fast ⟨c.savedWaves.length, regsOf wgs, 0, 0⟩ &&
  decide ((wgs.foldl (fun a g => a + g.tiles.length) 0) ≤ (freeTiles k).length)

/-- Put one workgroup of a returning context back; none where no window fits. -/
def returnWg (k : Core) (g : Nat × Workgroup) : Option Core :=
  match windowPlan k g.2.region g.2.scratch with
  | none => none
  | some (ms, base) =>
    let back : List Move := if g.2.scratch = 0 then [] else [⟨g.2.base, g.2.scratch, base⟩]
    let k0 := makeRoom k ms
    let ts := (freeTiles k0).take g.2.tiles.length
    let k1 := (g.2.tiles.zip ts).foldl (fun k x => moveTile k x.1 x.2) (carryWindows k0 back)
    let mine := blocksOf base g.2.scratch
    let upd (c : Context) : Context :=
      if c.region = g.2.region then { c with blocks := (c.blocks ++ mine).dedup }
      else { c with blocks := c.blocks.filter (fun b => !mine.contains b) }
    some (l1Fit (setWg { k1 with ctxs := k1.ctxs.map upd } g.1 { g.2 with base := base, tiles := ts }))

/-- Bring a context back: it is resident, and active where no other is; FLOOR follows where its other workgroups are active
already (16 R313). -/
def streamIn (s : State) (core : Nat) (c : Context) : Option State :=
  let k := getCore s core
  if !canReturn k c then none
  else
    match c.savedWgs.foldlM returnWg k with
    | none => none
    | some k1 =>
      let seat (x : Context) : Context :=
        { x with place := if x.place = .streamed then idlePlace x.fast else x.place, savedWaves := [], savedWgs := [] }
      let k2 := updCtx k1 c.region seat
      let k3 := { k2 with waves := c.savedWaves.foldl (fun m x => kset none m x.1 (some x.2)) k2.waves }
      let s1 := electActive (setCore s core (endRamp k3)) core
      some (setCore s1 core (updateFloor (getCore s1 core)))

/-! A launch moves as a whole (R403). -/

/-- The grid-sync launches that some workgroups belong to. -/
def gridsOf (s : State) (wgs : List Workgroup) : List Nat :=
  ((wgs.map (·.launch)).filter (fun a => ((getLaunch s a).map (fun l => l.kernel.gridSync)).getD false)).dedup

/-- A running grid barrier pins the contexts of its launch (R401). -/
def pinned (s : State) (wgs : List Workgroup) : Bool :=
  (gridsOf s wgs).any (fun a => match (getLaunch s a).bind (·.capstan) with
    | some i => (getCapstan s i).arrived != 0
    | none => false)

/-- The cores on which a context of a launch's region holds a resident workgroup of the launch. -/
def coresHolding (s : State) (l : Launch) : List Nat :=
  (s.cores.filter (fun kc => (wgsOfRgn kc.2 l.region).any (fun g => g.launch = l.acc))).map (·.1)

/-- The cores on which a workgroup of a launch is out. -/
def coresOut (s : State) (l : Launch) : List Nat :=
  (s.cores.filter (fun kc => kc.2.ctxs.any (fun c => c.savedWgs.any (fun g => g.2.launch = l.acc)))).map (·.1)

/-- A context begins to leave: with it, every context of its grid-sync launches. -/
def markLeaving (s : State) (wgs : List Workgroup) : State :=
  (gridsOf s wgs).foldl (fun s a => updLaunch s a (fun l => { l with leaving := true })) s

/-- The contexts of leaving launches that still stand on a core: core and region. -/
def leavingCtxs (s : State) : List (Nat × Rgn) :=
  (s.launches.filter (fun l => l.leaving && !l.ended && !tornDown s l.acc)).flatMap (fun l =>
    (coresHolding s l).map (fun n => (n, l.region)))

/-! Switches (R400). -/

/-- Make a resident context active at the point of R112: the one that was becomes a shadow, or streams out where it is not of
the fast-switch class (R113), with the rest of its grid-sync launch (R403). -/
def switchTo (s : State) (core : Nat) (a : Context) (rgn : Rgn) : State :=
  let k := getCore s core
  if a.fast then if atSwitchPoint k a.region then setCore s core (enterActive (leaveActive k) rgn) else s
  else if leaveReady s a.region core then
    let s1 := leaveCore (markLeaving s (wgsOfRgn k a.region)) core a.region
    setCore s1 core (enterActive (getCore s1 core) rgn)
  else s

/-- CONTEXT_PRIORITY_SWITCH (R400). -/
def execContextPrioritySwitch (core : Nat) (s : State) : Host.Outcome State Fault Refusal :=
  let k := getCore s core
  match activeCtx k with
  | none => .next (electActive s core)
  | some a =>
    let l := (rotateFrom k a.order).filter (fun c => decide (prioOf s a.region < prioOf s c.region) && ctxReady s core c.region)
    match topOf s l with
    | some c => .next (switchTo s core a c.region)
    | none => .next s

/-- CONTEXT_IDLE_SWITCH (R400). -/
def execContextIdleSwitch (core : Nat) (s : State) : Host.Outcome State Fault Refusal :=
  let k := getCore s core
  match activeCtx k with
  | none => .next (electActive s core)
  | some a =>
    if a.idle < 512 then .next s
    else match topOf s ((rotateFrom k a.order).filter (fun c => ctxReady s core c.region)) with
      | some c => .next (switchTo s core a c.region)
      | none => .next s

/-- CONTEXT_QUANTUM (R400). -/
def execContextQuantum (core : Nat) (s : State) : Host.Outcome State Fault Refusal :=
  let k := getCore s core
  match activeCtx k with
  | none => .next (electActive s core)
  | some a =>
    if a.quantum < 65536 then .next s
    else
      let l := (rotateFrom k a.order).filter (fun c => prioOf s c.region = prioOf s a.region)
      match l with
      | c :: _ =>
        if !a.wanted then .next (setCore s core (updCtx k a.region (fun x => { x with quantum := 0 })))
        else .next (switchTo s core a c.region)
      | [] => .next (setCore s core (updCtx k a.region (fun x => { x with quantum := 0, wanted := false })))

/-! Pre-emption (R401). -/

/-- A region with placeable work that fits no core now. -/
def waitsForRoom (s : State) (r : Region) : Bool :=
  (r.inForce.isSome || (grantsFit s r.rcb r.budget && regionReady s r.budget)) &&
  (match firstNode s r.rcb, r.queue.head?.bind (getLaunch s) with
    | some _, _ => true
    | none, some l => depsMet s l l.next
    | none, none => false) &&
  (tryPlace s r).isNone

/-- The contexts of a core that may leave for a priority: below it, and not pinned. -/
def mayLeave (s : State) (core prio : Nat) : List Context :=
  let k := getCore s core
  k.ctxs.filter (fun c => c.place != .streamed && decide (prioOf s c.region < prio) && !pinned s (wgsOfRgn k c.region))

/-- The one of them that leaves: the lowest priority, the one placed latest on a tie. -/
def victim (s : State) (core prio : Nat) : Option Context :=
  let cs := mayLeave s core prio
  let low := cs.foldl (fun a c => min a (prioOf s c.region)) 16
  (sortBy (fun a b => decide (b.order < a.order)) (cs.filter (fun c => prioOf s c.region = low))).head?

/-- The core, and every other that holds workgroups of a context's grid-sync launches. -/
def leaveCores (s : State) (core : Nat) (rgn : Rgn) : List Nat :=
  (core :: (gridsOf s (wgsOfRgn (getCore s core) rgn)).flatMap (fun a => ((getLaunch s a).map (coresHolding s)).getD [])).dedup

/-- The state without a context, and without the rest of its grid-sync launches. -/
def without (s : State) (core : Nat) (rgn : Rgn) : State := (leaveCores s core rgn).foldl (fun s n => streamOut s n rgn) s

/-- The grid-sync launch at the head of a region's queue. -/
def headGrid (s : State) (r : Region) : Option Launch :=
  if (firstNode s r.rcb).isSome then none else (r.queue.head?.bind (getLaunch s)).filter (fun l => l.kernel.gridSync)

/-- How many of n more workgroups of a launch have room. -/
def roomFor : Nat → Nat → State → Nat
  | 0, _, _ => 0
  | n + 1, acc, s => match placeNext s acc with
    | some t => roomFor n acc t + 1
    | none => 0

/-- The first core of the region, in rotation order, that would fit once some context of lower priority left. For a grid-sync
launch, whose workgroups need room on several cores at once, one is a core where more of them would fit, as long as all would fit
in the end (R52). -/
def preemptCore (s : State) (r : Region) : Option Nat :=
  let b := if r.inForce.isSome then r.now else r.budget
  let cores := (rotation b r.pointer).flatMap (coresIn b)
  let may (core : Nat) : List Context := mayLeave s core r.budget.prio
  match headGrid s r with
  | none => cores.find? (fun core => (may core).any (fun c => (tryPlace (without s core c.region) r).isSome))
  | some l =>
    let room (s : State) : Nat := roomFor (l.gx * l.gy * l.gz) l.acc s
    let all := cores.foldl (fun s core => (may core).foldl (fun s c => without s core c.region) s) s
    if room all < l.gx * l.gy * l.gz then none
    else cores.find? (fun core => (may core).any (fun c => decide (room s < room (without s core c.region))))

/-- A context leaves its core for a waiting region: a fast-switch one becomes a shadow where the work then fits, any other
streams out at its point. -/
def pushAside (s : State) (r : Region) (core : Nat) (v : Context) : State :=
  let k := getCore s core
  match (if v.fast && v.place = .active then tryPlace (setCore s core (leaveActive k)) r else none) with
  | some s1 => if atSwitchPoint k v.region then s1 else s
  | none =>
    let s1 := markLeaving s (wgsOfRgn k v.region)
    if leaveReady s v.region core then streamOut s1 core v.region else s1

/-- PREEMPT (R401, R403): first the contexts of leaving launches go, each at its own point; then the waiting queue of the
highest priority makes room. -/
def execPreempt (s : State) : Host.Outcome State Fault Refusal :=
  match (leavingCtxs s).find? (fun x => leaveReady s x.2 x.1) with
  | some (core, rgn) => .next (streamOut (markLeaving s (wgsOfRgn (getCore s core) rgn)) core rgn)
  | none =>
    let ws := sortBy (fun a b => decide (b.budget.prio < a.budget.prio)) (s.regions.filter (waitsForRoom s))
    match ws.findSome? (fun r => (preemptCore s r).map (fun n => (r, n))) with
    | none => .next s
    | some (r, core) =>
      match victim s core r.budget.prio with
      | some v => .next (pushAside s r core v)
      | none => .next s

/-! The return (R402, R403). -/

/-- A context of higher priority waits for a footprint on the core. -/
def betterWaits (s : State) (core prio : Nat) (rgn : Rgn) : Bool :=
  s.regions.any (fun r => decide (prio < r.budget.prio) && ((clustersOf r.now.clusters).flatMap (coresIn r.now)).contains core &&
    waitsForRoom s r) ||
  (getCore s core).ctxs.any (fun c => !c.savedWgs.isEmpty && c.region != rgn && decide (prio < prioOf s c.region))

/-- Bring back what is out of a region on several cores together. -/
def returnAll (rgn : Rgn) : List Nat → State → Option State
  | [], s => some s
  | core :: l, s =>
    match ctxOf (getCore s core) rgn with
    | some c => if c.savedWgs.isEmpty then returnAll rgn l s else (streamIn s core c).bind (returnAll rgn l)
    | none => returnAll rgn l s

/-- CONTEXT_RETURN (R402, R403): `region` is the number of the region. A grid-sync launch returns once all of its contexts
are out, together. -/
def execContextReturn (core region : Nat) (s : State) : Host.Outcome State Fault Refusal :=
  let rgn : Rgn := BitVec.ofNat 76 region
  match ctxOf (getCore s core) rgn with
  | none => .next s
  | some c =>
    let grids := if (gridsOf s (c.savedWgs.map (·.2))).isEmpty then []
      else s.launches.filter (fun l => l.leaving && !l.ended && l.region = rgn)
    let cs := (core :: grids.flatMap (coresOut s)).dedup
    if c.savedWgs.isEmpty || grids.any (fun l => !(coresHolding s l).isEmpty) ||
        cs.any (fun n => betterWaits s n (prioOf s rgn) rgn) then .next s
    else match returnAll rgn cs s with
      | none => .next s
      | some s1 => .next (grids.foldl (fun s l => updLaunch s l.acc (fun x => { x with leaving := false })) s1)

end Sys2Proof.Machine
end

