-- ==== Sys2Proof/Machine/Control.lean ====
section
/-! DEFINITION. Control flow, wave shape, traps on purpose, barriers (09 R170-R186; 20 R368-R372). -/
namespace Sys2Proof.Machine

/-- The part goes to a PC; a branch to a target not greater than its own PC is a switch point (R131, R170). -/
def Cx.goto (c : Cx) (target : Word) : Cx :=
  let own := c.p.pc
  let c1 := c.part (fun p => { p with pc := target })
  if target.toNat ≤ own.toNat then c1.part switchPath else c1

/-- A branch of the running path (R170): the lanes `take` go to the target, the other active lanes and the
idle lanes go on. -/
def Cx.branch (c : Cx) (target : Word) (take : Lanes) : Cx :=
  if take = 0 then c.nextPc
  else if take = c.p.exec then c.goto target
  else
    let rest : Path := ⟨c.p.pc + 1, c.p.run &&& ~~~take, c.p.exec &&& ~~~take, 0⟩
    (c.part (fun p => { p with run := take, exec := take, paths := p.paths ++ [rest] })).goto target

/-- `bra` (R171). -/
def execBra (f : Fields) (s : State) : Host.Outcome State Fault Refusal :=
  runPart 0x001 f s (fun c => .at (c.branch (c.p.pc + f.x) (c.activeLanes f)))

/-- HANDLER_ILLEGAL (22 R395) for an instruction that handler mode forbids. -/
def outsideHandler (c : Cx) (e : Effect) : Effect :=
  if c.p.handler.isSome then .trap { cause := 0x1A } else e

/-- The split of R119 leaves no quad in three parts. -/
def splitFits (c : Cx) (take : Lanes) : Bool :=
  let shared := quadsOf take &&& quadsOf (c.p.lanes &&& ~~~take)
  let others := (c.w.parts.eraseIdx c.idx).foldl (fun m p => m ||| p.lanes) (0 : Lanes)
  (quadsOf others &&& shared) = 0

/-- The two parts of a split (R119): the taken part at the target, the fall-through part with every other
lane at PC + 1. -/
def splitParts (p : Part) (target : Word) (take : Lanes) : Part × Part :=
  let keep := p.lanes &&& ~~~take
  ({ p with lanes := take, run := take, exec := take, pc := target },
   { p with lanes := keep, run := keep, exec := p.exec &&& ~~~take, pc := p.pc + 1 })

/-- `bra.s` (R172): the push, then the split, or R170. -/
def execBraS (f : Fields) (s : State) : Host.Outcome State Fault Refusal :=
  runPart 0x002 f s (fun c => outsideHandler c (
    let take := c.activeLanes f
    let target := c.p.pc + f.x
    let fall := c.p.exec &&& ~~~take
    let rej := c.g.kernel.rejoin
    if take != 0 && fall != 0 && c.g.kernel.splitBr && c.p.paths.isEmpty && splitFits c take then
      let two := splitParts c.p target take
      .whole (updWave c.commit c.core c.slot (fun w =>
        let w1 := pushEntry w c.p.lanes false rej c.cyc
        let old := w1.parts.filter (fun p => lowestLane p.lanes != c.lane)
        retest { w1 with parts := sortParts (two.1 :: two.2 :: old) }))
    else
      .whole (updWave (c.branch target take).commit c.core c.slot (fun w =>
        pushEntry w c.p.lanes false rej c.cyc))))

/-- `brx` (R174). -/
def execBrx (f : Fields) (s : State) : Host.Outcome State Fault Refusal :=
  runPart 0x003 f s (fun c => .at (c.branch (c.opn 0x003 f 0 .int 0) (c.activeLanes f)))

/-- `ret` (R176): the effect of `brx`. -/
def execRet (f : Fields) (s : State) : Host.Outcome State Fault Refusal :=
  runPart 0x007 f s (fun c => .at (c.branch (c.opn 0x007 f 0 .int 0) (c.activeLanes f)))

/-- `jmp` (R173): the whole running path moves. -/
def execJmp (f : Fields) (s : State) : Host.Outcome State Fault Refusal :=
  runPart 0x004 f s (fun c => if c.activeLanes f = 0 then .next c else .at (c.goto (c.p.pc + f.x)))

/-- `call` (R175): sD receives PC + 1 when some lane goes; the target is read before. -/
def Cx.call (c : Cx) (f : Fields) (target : Word) : Cx :=
  let take := c.activeLanes f
  let c1 := if take = 0 then c else c.writeS (f.d.toNat - 256) (c.p.pc + 1)
  c1.branch target take

/-- `call` to a label (R175). -/
def execCall (f : Fields) (s : State) : Host.Outcome State Fault Refusal :=
  runPart 0x005 f s (fun c => .at (c.call f (c.p.pc + f.x)))

/-- `call` to an s register (R175). -/
def execCallIndirect (f : Fields) (s : State) : Host.Outcome State Fault Refusal :=
  runPart 0x006 f s (fun c => .at (c.call f (c.opn 0x006 f 0 .int 0)))

/-- How the parked path of the lowest lane is parked (R131). -/
def parkedKind (p : Part) : Nat :=
  let low := lowestLane (p.paths.foldl (fun m x => m ||| x.lanes) (0 : Lanes))
  ((p.paths.find? (fun x => tbit x.lanes low)).map (·.parkedAt)).getD 0

/-- The part, now one path, applies R123 (kind 1) or R127 (kind 2). -/
def Cx.standAt (c : Cx) (kind : Nat) : State :=
  if kind = 1 then
    updWave c.commit c.core c.slot (fun w => arrive w c.lane c.g.kernel.rejoin c.cyc)
  else
    updWave (c.part (fun p => { p with wait := .fuse })).commit c.core c.slot (fun w => fuseAll w c.cyc)

/-- At `rejoin` or `fuse` the running path is parked and the first path that is not parked runs; when every
path is parked they merge, and the part stands at the merged PC (R131). -/
def Cx.parkPath (c : Cx) (kind : Nat) : State :=
  if c.p.paths.isEmpty then c.standAt kind
  else
    let p := { c.p with paths := c.p.paths ++ [⟨c.p.pc, c.p.run, c.p.exec, kind⟩] }
    match resumePath p with
    | some q => { c with p := q }.commit
    | none => { c with p := mergeParked p }.standAt (parkedKind p)

/-- `rejoin` (R177). -/
def execRejoin (f : Fields) (s : State) : Host.Outcome State Fault Refusal :=
  runPart 0x008 f s (fun c => outsideHandler c (.whole (c.parkPath 1)))

/-- `fuse` (R178). -/
def execFuse (f : Fields) (s : State) : Host.Outcome State Fault Refusal :=
  runPart 0x009 f s (fun c => outsideHandler c (.whole (c.parkPath 2)))

/-- `yield` (R179): a switch point. -/
def execYield (f : Fields) (s : State) : Host.Outcome State Fault Refusal :=
  runPart 0x00A f s (fun c => .at (c.nextPc.part switchPath))

/-- A wave has ended: its mesh group has ended (17 R334), and it is no producer of a bin (20 R378). -/
def afterWave (s : State) (core slot : Nat) : State :=
  let k := getCore s core
  match (getWave k slot).bind (fun w => (getWg k w.wg).map (fun g => (w, g))) with
  | none => s
  | some (w, g) =>
    if w.parts.isEmpty then creelTest (groupsEnded s g.launch) (rootOf g) else s

/-- Lanes of a wave end, and what follows (R129). -/
def endWaveLanes (s : State) (core slot : Nat) (dead : Lanes) : State :=
  afterWave (afterEnd (updWave s core slot (fun w => endLanes w dead (coreCyc s core))) core slot) core slot

/-- `exit` (R180): the path ends with all its lanes when no active lane is left; then the part resumes its
next path, or stands parked, or ends. In handler mode the paths set aside are pending too (22 R393): when the last path of
the handler ends, handler mode ends with it, and they go on (log 51). -/
def Cx.exit (c : Cx) (f : Fields) : State :=
  let take := c.activeLanes f
  if take != c.p.exec then
    if take = 0 then c.nextPc.commit else endWaveLanes c.nextPc.commit c.core c.slot take
  else
    let dead := c.p.run
    let aside := if c.p.paths.isEmpty then (c.p.handler.map (·.aside)).getD [] else []
    let q := { c.p with lanes := c.p.lanes &&& ~~~dead, paths := c.p.paths ++ aside
                        handler := if c.p.paths.isEmpty then none else c.p.handler }
    if q.paths.isEmpty then endWaveLanes c.commit c.core c.slot c.p.lanes
    else
      match resumePath q with
      | some r =>
        endWaveLanes { c with p := { r with lanes := c.p.lanes } }.commit c.core c.slot dead
      | none =>
        let s1 := endWaveLanes { c with p := { mergeParked q with lanes := c.p.lanes } }.commit c.core c.slot dead
        match partAt s1 ⟨c.core, c.slot, lowestLane q.lanes⟩ with
        | some d => d.standAt (parkedKind q)
        | none => s1

/-- `exit` (R180). -/
def execExit (f : Fields) (s : State) : Host.Outcome State Fault Refusal :=
  runPart 0x00B f s (fun c => .whole (c.exit f))

/-- A context whose last lanes were killed is a load drop (16 R319). -/
def rampAfterKill (s : State) (core : Nat) (region : Rgn) : State :=
  let k := getCore s core
  if ctxLives k region then s else setCore s core (startRamp k (coreCyc s core))

/-- Every lane of a wave ends at once (R129, R181). -/
def killWave (s : State) (core slot : Nat) : State :=
  let k := getCore s core
  match (getWave k slot).bind (fun w => (getWg k w.wg).map (fun g => (w, g))) with
  | none => s
  | some (w, g) =>
    let s1 := updWave s core slot (fun w => { w with killed := none, frozen := none })
    rampAfterKill (endWaveLanes s1 core slot (liveLanes w)) core g.region

/-- `kill` (R181): every lane of the wave. Where the wave has other parts, they may issue in the same cycle, and what they do
stays (R182): the wave ends at the cycle's end. -/
def execKill (f : Fields) (s : State) : Host.Outcome State Fault Refusal :=
  runPart 0x00C f s (fun c =>
    if c.activeLanes f = 0 then .next c
    else if c.w.parts.length ≤ 1 then .whole (killWave c.commit c.core c.slot)
    else .whole { c with w := { c.w with killed := some c.cyc } }.commit)

/-- `nop` (R183). -/
def execNop (f : Fields) (s : State) : Host.Outcome State Fault Refusal :=
  runPart 0x000 f s (fun c => .next c)

/-- `bpt` (R184). -/
def execBpt (f : Fields) (s : State) : Host.Outcome State Fault Refusal :=
  runPart 0x00D f s (fun c => single f c (.trap { cause := 0x20, detail := f.x, skip := true }))

/-- `trap` (R184). -/
def execTrap (f : Fields) (s : State) : Host.Outcome State Fault Refusal :=
  runPart 0x00E f s (fun c => single f c (.trap { cause := 0x22, detail := f.x, skip := true }))

/-- The part's own trap record as the core reads it now, with whether one of its sectors fails its check
value (22 R396, 11 R238). Where it lies follows the part's lowest lane now, which an exit in the handler may have changed (log 15). -/
def Cx.readRecord (c : Cx) : List Byte × Bool :=
  let va := trapVa (((ctxOf c.k c.g.region).map (·.trapBase)).getD 0) c.slot c.lane
  let one (i : Nat) : Byte × Bool :=
    let a := va + BitVec.ofNat 64 i
    match route c.s c.g.asn .load a with
    | .phys key _ => (coreByte c.s c.k c.w c.w.seq c.g.asn a key,
        (pendingByte c.s c.k c.w c.w.seq c.g.asn key).isNone && heldBad c.s c.k c.g.asn a key 1)
    | _ => (0, false)
  let l := (List.range 64).map one
  (l.map (·.1), l.any (·.2))

/-- `trapret` (R185, 22 R395, R396). It names no registers, so it waits for no load that is still to write s0 or s1 (log 15). -/
def execTrapret (f : Fields) (s : State) : Host.Outcome State Fault Refusal :=
  runPart 0x00F f s (fun c =>
    match c.p.handler with
    | none => .trap { cause := 0x19 }
    | some h =>
      if !c.p.paths.isEmpty then .trap { cause := 0x19 }
      else
        let rec' := c.readRecord
        if rec'.2 then
          .whole (freezeWave c.nextPc.commit c.core c.slot cCheck
            (partFault c cCheck 1 1 c.p.exec
              (trapVa (((ctxOf c.k c.g.region).map (·.trapBase)).getD 0) c.slot c.lane) 0 none))
        else .at (returnFromTrap c h rec'.1))

/-- A word with an unassigned opcode raises ILLEGAL_OPCODE (05 R99, 04 R81 step 1). -/
def execUnassignedOpcode (w : BitVec 96) (s : State) : Host.Outcome State Fault Refusal :=
  runPart (bits w 87 9) (wordFields w) s (fun _ => .trap { cause := 0x01 })

/-- The part is parked at a barrier instruction, and the opening test is made (20 R368). -/
def Cx.parkBarrier (c : Cx) (w : Wait) : State :=
  barrierTest (c.part (fun p => { p with wait := w })).commit c.core c.w.wg

/-- `wbar` (20 R370). -/
def execWbar (f : Fields) (s : State) : Host.Outcome State Fault Refusal :=
  runPart 0x0A8 f s (fun c => outsideHandler c (.whole (c.parkBarrier .barrier)))

/-- `gbar` (20 R372). -/
def execGbar (f : Fields) (s : State) : Host.Outcome State Fault Refusal :=
  runPart 0x0A9 f s (fun c => outsideHandler c (
    if c.g.kernel.gridSync then .whole (c.parkBarrier .gbar) else .trap { cause := 0x16 }))

end Sys2Proof.Machine
end

