-- ==== Sys2Proof/Machine/Debug.lean ====
section
/-! DEFINITION. The debugger: the commands of DBGCMD, DBGCTL, and the views that a debug block holds
(11 R219; 22 R391, R404-R406). -/
namespace Sys2Proof.Machine

/-- RESULT of a command. -/
def rDone : Nat := 0
def rMissing : Nat := 1
def rState : Nat := 2

def cmdOp (cmd : Dword) : Nat := bits cmd 0 8
def cmdSlot (cmd : Dword) : Nat := bits cmd 8 8
def cmdArg (cmd : Dword) : Nat := bits cmd 32 32

/-- The wave that a command names. -/
def cmdWave (s : State) (core : Nat) (cmd : Dword) : Option Wave :=
  if cmdSlot cmd < 64 then getWave (getCore s core) (cmdSlot cmd) else none

/-- A command takes effect, and DBGCMD holds it with its RESULT; bits [23:16] read zero (R404). -/
def finishCommand (core : Nat) (cmd : Dword) (x : State × Nat) : State :=
  let k := getCore x.1 core
  setCore x.1 core { k with dbgcmd := putBits cmd 16 16 (x.2 * 256) }

/-- Every part at its next instruction boundary, or at its window's start (R404); a trap raised in this cycle is entered
first (R392). -/
def haltPart (p : Part) : Part :=
  match p.window, p.raised with
  | some w, none => { p with pc := w.start, window := none, stepping := false }
  | _, _ => { p with stepping := false }

/-- HALT. -/
def haltWave (s : State) (core : Nat) (cmd : Dword) : State × Nat :=
  match cmdWave s core cmd with
  | none => (s, rMissing)
  | some w =>
    if w.frozen.isSome || w.halted then (s, rState)
    else (updWave s core (cmdSlot cmd) (fun w => { w with halted := true, parts := w.parts.map haltPart }), rDone)

/-- RESUME. -/
def resumeWave (s : State) (core : Nat) (cmd : Dword) : State × Nat :=
  match cmdWave s core cmd with
  | none => (s, rMissing)
  | some w =>
    if !w.halted then (s, rState)
    else
      let run (p : Part) : Part := { p with stepping := false, nextIssue := max p.nextIssue (coreCyc s core + 1) }
      (updWave s core (cmdSlot cmd) (fun w => { w with halted := false, parts := w.parts.map run }), rDone)

/-- A step begins, with the next cycle: a part that is parked, or stalled at `fuse`, has ended it at once (R405). -/
def beginStep (cyc : Nat) (p : Part) : Part :=
  match p.wait with
  | .parked _ | .fuse | .barrier | .gbar => { p with cause := 0x21 }
  | .width => { p with stepping := true, wait := .ready, nextIssue := max p.nextIssue (cyc + 1) }
  | _ => { p with stepping := true, nextIssue := max p.nextIssue (cyc + 1) }

/-- STEP. -/
def stepPart (s : State) (core : Nat) (cmd : Dword) : State × Nat :=
  match cmdWave s core cmd with
  | none => (s, rMissing)
  | some w =>
    match findPart w (cmdArg cmd) with
    | none => (s, rMissing)
    | some p =>
      if !w.halted || w.frozen.isSome || p.frozen.isSome || p.stepping then (s, rState)
      else (updWave s core (cmdSlot cmd) (fun w => updPart w (cmdArg cmd) (beginStep (coreCyc s core))), rDone)

/-- A part frozen by a trap resumes: in handler mode where it stood (09 R186); otherwise at its record's RESUME with
the record's EXEC (R404). -/
def releasePart (core slot : Nat) (s : State) (lane : Nat) : State :=
  match partAt s ⟨core, slot, lane⟩ with
  | none => s
  | some c =>
    match c.p.frozen with
    | none => s
    | some fz =>
      if c.p.handler.isSome then (c.part (fun p => { p with frozen := none, pc := fz.resume })).commit
      else
        let rec' := c.readRecord
        if rec'.2 then
          freezeWave s core slot cCheck (partFault c cCheck 1 1 c.p.exec
            (trapVa (((ctxOf c.k c.g.region).map (·.trapBase)).getD 0) slot lane) 0 none)
        else
          let c1 := c.setExec (BitVec.ofNat 64 (field rec'.1 8 15))
          (c1.part (fun p => { p with frozen := none, pc := BitVec.ofNat 32 (field rec'.1 20 23) })).commit

/-- RELEASE wave: parts frozen by a trap resume, and a marked part enters its trap (R392). -/
def releaseWave (s : State) (core : Nat) (cmd : Dword) : State × Nat :=
  match cmdWave s core cmd with
  | none => (s, rMissing)
  | some w =>
    if w.frozen.isNone && w.parts.all (fun p => p.frozen.isNone) then (s, rState)
    else
      let late (p : Part) : Part := { p with nextIssue := max p.nextIssue (coreCyc s core + 1) }
      let s1 := updWave s core (cmdSlot cmd) (fun w => { w with frozen := none, parts := w.parts.map late })
      let enter (s : State) (lane : Nat) : State := resolveTrap (releasePart core (cmdSlot cmd) s lane) ⟨core, cmdSlot cmd, lane⟩
      ((w.parts.map (fun p => lowestLane p.lanes)).foldl enter s1, rDone)

/-- RELEASE job. -/
def releaseJob (s : State) (core : Nat) (cmd : Dword) : State × Nat :=
  let slot := cmdSlot cmd - 64
  if cmdSlot cmd < 64 then (s, rMissing)
  else match getJob s core slot with
    | none => (s, rMissing)
    | some j =>
      match j.phase with
      | .frozen cause => (finishJob s core slot j cause, rDone)
      | _ => (s, rState)

/-- A write of DBGCMD (R404). -/
def debugCommand (core : Nat) (cmd : Dword) (s : State) : State :=
  finishCommand core cmd (
    match cmdOp cmd with
    | 1 => haltWave s core cmd
    | 2 => resumeWave s core cmd
    | 3 => stepPart s core cmd
    | 4 => releaseWave s core cmd
    | 5 => releaseJob s core cmd
    | _ => (s, rState))

/-- A write of DBGCTL (R404). -/
def debugControl (core : Nat) (value : Word) (s : State) : State :=
  let k := getCore s core
  setCore s core { k with catchBpt := tbit value 0 }

/-- DBG_HALT (R404). -/
def execDbgHalt (core : Nat) (cmd : Dword) (s : State) : Host.Outcome State Fault Refusal :=
  .next (if cmdOp cmd = 1 then debugCommand core cmd s else s)

/-- DBG_RESUME (R404). -/
def execDbgResume (core : Nat) (cmd : Dword) (s : State) : Host.Outcome State Fault Refusal :=
  .next (if cmdOp cmd = 2 then debugCommand core cmd s else s)

/-- DBG_STEP (R405). -/
def execDbgStep (core : Nat) (cmd : Dword) (s : State) : Host.Outcome State Fault Refusal :=
  .next (if cmdOp cmd = 3 then debugCommand core cmd s else s)

/-- DBG_RELEASE_WAVE (R404). -/
def execDbgReleaseWave (core : Nat) (cmd : Dword) (s : State) : Host.Outcome State Fault Refusal :=
  .next (if cmdOp cmd = 4 then debugCommand core cmd s else s)

/-- DBG_RELEASE_JOB (R404). -/
def execDbgReleaseJob (core : Nat) (cmd : Dword) (s : State) : Host.Outcome State Fault Refusal :=
  .next (if cmdOp cmd = 5 then debugCommand core cmd s else s)

/-- DBG_INVALID_OP (R404). -/
def execDbgInvalidOp (core : Nat) (cmd : Dword) (s : State) : Host.Outcome State Fault Refusal :=
  .next (if 1 ≤ cmdOp cmd && cmdOp cmd ≤ 5 then s else debugCommand core cmd s)

/-- DBGCTL_WRITE (R404). -/
def execDbgctlWrite (core : Nat) (value : Word) (s : State) : Host.Outcome State Fault Refusal :=
  .next (debugControl core value s)

/-! The views. -/

/-- STATE of a part's view (R406). -/
def viewState (w : Wave) (p : Part) : Nat :=
  if w.frozen.isSome then 6
  else if w.halted then 7
  else if p.frozen.isSome then 6
  else if p.handler.isSome then 5
  else match p.wait with
    | .parked _ => 1
    | .width => 2
    | .fuse => 3
    | .sync | .barrier | .gbar => 4
    | .ready | .score => 0

/-- A part's view, as a number of 256 bits (R406). -/
def partView (w : Wave) (p : Part) : Nat :=
  let entry := match p.wait with
    | .parked e => e
    | _ => 0
  let q := quadsOf p.lanes
  p.lanes.toNat + p.pc.toNat * 2 ^ 64 + ((p.restart).getD 0xFFFFFFFF).toNat * 2 ^ 96 + q.toNat * 2 ^ 128 +
  4 * popCount q * 2 ^ 144 + p.cause.toNat * 2 ^ 152 + viewState w p * 2 ^ 160 + entry % 16 * 2 ^ 164 + 2 ^ 168 +
  (if p.stepping then 2 ^ 169 else 0) + p.exec.toNat * 2 ^ 192

/-- A rejoin entry (07 R121). -/
def rejoinView (e : RejoinEntry) : Nat :=
  1 + (if e.miss then 2 else 0) + (if e.started then 4 else 0) + (if e.expired then 8 else 0) +
  e.deadline.toNat * 2 ^ 16 + e.expect.toNat * 2 ^ 32 + e.token.toNat * 2 ^ 48 + e.rpc.toNat * 2 ^ 64 +
  e.arrived.toNat * 2 ^ 96 + e.lanes.toNat * 2 ^ 160

/-- A range-lock entry (13 R277). -/
def lockView (l : RangeLock) : Nat :=
  1 + l.slot % 64 * 2 ^ 13 + (if l.scratch then 2 ^ 19 else l.asn % 4096 * 2 ^ 20) + l.len % 2 ^ 32 * 2 ^ 32 + l.base % 2 ^ 64 * 2 ^ 64

/-- A barrier slot, with KIND in byte 8 (20 R367, 11 R219). -/
def barView (g : Workgroup) : Nat :=
  g.live.toNat + g.arrived.toNat * 2 ^ 16 + g.gen.toNat * 2 ^ 32 + g.barKind % 256 * 2 ^ 64

/-- Byte i of a number. -/
def numByte (v i : Nat) : Byte := BitVec.ofNat 8 (v / 256 ^ i)

/-- A byte of a core's debug block (11 R219). -/
def debugByte (k : Core) (off : Nat) : Byte :=
  if off < 8 then numByte (if k.catchBpt then 1 else 0) off
  else if off < 0x10 then numByte k.dbgcmd.toNat (off - 8)
  else if 0x10000 ≤ off && off < 0x30000 then
    let i := (off - 0x10000) / 32
    match getWave k (i / 64) with
    | some w => numByte (((findPart w (i % 64)).map (partView w)).getD 0) (off % 32)
    | none => 0
  else if 0x40000 ≤ off && off < 0x48000 then
    let i := (off - 0x40000) / 32
    match getWave k (i / 16) with
    | some w => numByte (((w.rejoin.find? (fun e => e.idx = i % 16)).map rejoinView).getD 0) (off % 32)
    | none => 0
  else if 0x80000 ≤ off && off < 0x80200 then numByte (((k.locks[(off - 0x80000) / 16]?).map lockView).getD 0) (off % 16)
  else if 0x90000 ≤ off && off < 0x90100 then numByte (((getWg k ((off - 0x90000) / 16)).map barView).getD 0) (off % 16)
  else if 0x91000 ≤ off && off < 0x91010 then numByte (getBank k ((off - 0x91000) / 8)).state.toNat (off % 8)
  else 0

end Sys2Proof.Machine
end

