-- ==== Sys2Proof/Machine/Retire.lean ====
section
/-! DEFINITION. Retirement: publishing a workgroup, the end of a launch, and teardown (03 R57; 23 R407-R413). -/
namespace Sys2Proof.Machine

/-- The waves of a workgroup. -/
def wgWaves (k : Core) (g : Workgroup) : List Wave := g.slots.filterMap (getWave k)

/-- A mesh workgroup's triangles have all been rasterised, and their tiles written back (17 R335). -/
def meshDone (s : State) (g : Workgroup) : Bool :=
  let mine (t : Tri) : Bool := t.a = g.launch && t.s / 16 = g.id
  s.draws.all (fun d => !d.tris.any mine) && s.batches.all (fun b => !b.tris.any mine)

/-- A load of a wave slot has a lane unanswered at a peer (21 R384). -/
def peerWaits (s : State) (core slot : Nat) : Bool :=
  s.peers.any (fun p => match p.use with
    | .load c sl _ _ => c = core && sl = slot
    | _ => false)

/-- Everything a workgroup has started is done (R409), and its accesses are performed, peer accesses included (R410 step 1); a
wave that a teardown has killed no freeze or halt holds back (R412). -/
def wgDone (s : State) (core : Nat) (g : Workgroup) : Bool :=
  let k := getCore s core
  let ws := wgWaves k g
  let ser := ws.map (·.serial)
  ws.all (fun w => w.parts.isEmpty && w.queue.isEmpty && (tornDown s g.launch || (w.frozen.isNone && !w.halted))) &&
  !k.jobs.any (fun j => (j.2.map (fun x => ser.contains x.serial)).getD false) &&
  !k.array.any (fun e => ser.contains e.serial) &&
  !k.outbound.any (fun o => ser.contains o.serial) && !g.slots.any (peerWaits s core) &&
  (g.kind != .plain || tornDown s g.launch || meshDone s g)

/-- A workgroup's footprint returns to its core (R410 step 3); with the last workgroup of its context the context
ends, its banks become invalid, and the load drops (16 R319). -/
def freeWg (s : State) (core bar : Nat) : State :=
  let k := getCore s core
  match getWg k bar with
  | none => s
  | some g =>
    let ser := (wgWaves k g).map (·.serial)
    let k0 := freeFuts k ser
    let k1 := l1Take { k0 with waves := g.slots.foldl (fun m x => kset none m x none) k.waves
                               wgs := kset none k.wgs bar none
                               tiles := g.tiles.foldl (fun m t => kset {} m t {}) k.tiles }
    if !(wgsOfRgn k1 g.region).isEmpty then setCore s core (updateFloor k1)
    else if !(placedWgs k1 g.region).isEmpty then
      let act := ((activeCtx k1).map (·.region)) = some g.region
      let out := updCtx k1 g.region (fun c => { c with place := .streamed, savedBanks := if act then k1.banks else c.savedBanks })
      electActive (setCore s core { out with banks := if act then [] else out.banks }) core
    else
      let act := ((activeCtx k1).map (·.region)) = some g.region
      let k2 := { k1 with ctxs := k1.ctxs.filter (fun c => c.region != g.region), banks := if act then [] else k1.banks }
      settleRegion (electActive (setCore s core (startRamp k2 (coreCyc s core))) core) g.region

/-- The last workgroup of a grid-sync launch has published: its counter is free (20 R371). -/
def freeCapstan (s : State) (acc : Nat) : State :=
  match getLaunch s acc with
  | none => s
  | some l =>
    match l.capstan with
    | some i => if l.gx * l.gy * l.gz ≤ l.published.length then updLaunch (setCapstan s i {}) acc (fun x => { x with capstan := none }) else s
    | none => s

/-- PUBLISHED rises by one (R408, R410 step 2). -/
def raisePublished (s : State) (l : Launch) (i : Nat) : State :=
  let s1 := writeDone s l.asn (some l.region) l.host l.region l.done 4 (fun b => toBytes 4 ((ofBytes b + 1) % 2 ^ 32))
  updLaunch s1 l.acc (fun x => { x with published := x.published ++ [i] })

/-! Teardown (R412, R413). -/

/-- A launch holds no workgroup on any core, nor in a save area. -/
def allRetired (s : State) (accs : List Nat) : Bool :=
  s.cores.all (fun kc => kc.2.wgs.all (fun g => match g.2 with
      | some x => !accs.contains x.launch
      | none => true) && kc.2.ctxs.all (fun c => c.savedWgs.all (fun g => !accs.contains g.2.launch)))

/-- Steps 6 to 8 of a teardown: the record of each launch that no earlier request has ended, its dependants where it had
workgroups left to publish (R57), what it held, and the request's own record. -/
def endTeardown (s : State) (t : Teardown) : State :=
  let one (s : State) (a : Nat) : State :=
    match getLaunch s a with
    | some l =>
      if l.ended then s
      else
        let s1 := finishLaunch s l 0xC7
        if l.published.length < l.gx * l.gy * l.gz then failDependants s1 a else s1
    | none => s
  let s1 := t.accs.foldl one { s with teardowns := s.teardowns.filter (fun x => x != t) }
  let bs := doneBytes 0 noWg 1 0 0
  let s2 := putDone s1 t.asn (some t.top) t.host t.top t.done bs
  let s3 := if t.notify then sendComplete s2 t.host t.done bs else s2
  launchResult s3 t.fut 0

/-- Teardowns whose workgroups have all retired go on to their end. -/
def advanceTeardowns (s : State) : State :=
  (s.teardowns.filter (fun t => allRetired s t.accs)).foldl endTeardown s

/-- WG_PUBLISH (R410): a workgroup of a launch publishes; a node wave's workgroup frees its footprint alone, and so does one
that is torn down (R412 step 5). -/
def execWgPublish (core bar : Nat) (s : State) : Host.Outcome State Fault Refusal :=
  match getWg (getCore s core) bar with
  | none => .next s
  | some g =>
    if !wgDone s core g then .next s
    else if tornDown s g.launch then .next (advanceTeardowns (freeWg s core bar))
    else match g.kind, getLaunch s g.launch with
      | .plain, some l =>
        let s1 := raisePublished s l g.id
        let s2 := freeCapstan (freeWg s1 core bar) l.acc
        .next (if l.notifyWg then sendComplete s2 l.host l.done (doneBytes (l.published.length + 1) g.id 3 0 0) else s2)
      | .node _ _, _ => .next (freeWg s core bar)
      | _, _ => .next s

/-- Every node wave that descends from a launch has ended, and its bins are empty, with no place promised to a `spawn` that
is still in a store queue (20 R378). -/
def nodesDone (s : State) (acc : Nat) : Bool :=
  !s.nodes.any (fun n => n.root = acc) && s.bins.all (fun b => b.root != acc || (b.records.isEmpty && b.reserved = 0)) &&
  !(allWaves s).any (fun x => (!x.2.1.parts.isEmpty || !x.2.1.queue.isEmpty) && x.2.2.kind != .plain && rootOf x.2.2 = acc)

/-- A region lies in the subtree of another. -/
def inSubtree (s : State) (top r : Rgn) : Bool := ((getRegion s r).map (fun g => g.chain.contains top)).getD false

/-- Engine jobs of some launches stop: those frozen end with TORN_DOWN, the others at their next chunk with CANCELLED. -/
def stopJobs (s : State) (accs : List Nat) : State :=
  s.cores.foldl (fun s kc =>
    (kc.2.jobs.filterMap (fun j => j.2.bind (fun x => if accs.contains x.launch then some j.1 else none))).foldl (fun s slot =>
      match getJob s kc.1 slot with
      | none => s
      | some j => match j.phase with
          | .frozen _ => finishJob s kc.1 slot j 0xC7
          | _ => setJob s kc.1 slot { j with cancel := true }) s) s

/-- Every wave of some launches is killed (09 R181): what it has issued stays, in its store queue, in the array and in the
engines (R182). Waves in save areas have nothing in their queues (22 R402). -/
def killWaves (s : State) (accs : List Nat) : State :=
  s.cores.foldl (fun s kc =>
    let k := getCore s kc.1
    let mine := k.waves.filterMap (fun sw => sw.2.bind (fun w => (getWg k w.wg).bind (fun g =>
      if accs.contains g.launch then some sw.1 else none)))
    let s1 := mine.foldl (fun s sl => killWave s kc.1 sl) s
    let k1 := getCore s1 kc.1
    let dead (c : Context) (w : Wave) : Bool := c.savedWgs.any (fun g => g.1 = w.wg && accs.contains g.2.launch)
    let cut (c : Context) : Context := { c with savedWaves := c.savedWaves.map (fun x =>
      if dead c x.2 then (x.1, { x.2 with parts := [], rejoin := [], loads := [], frozen := none, halted := false }) else x) }
    setCore s1 kc.1 { k1 with ctxs := k1.ctxs.map cut }) s

/-- The workgroups of some launches in save areas retire, once nothing of theirs is on its way. -/
def retireSaved (s : State) (accs : List Nat) : State :=
  s.cores.foldl (fun s kc =>
    let k := getCore s kc.1
    let busy (ser : Nat) : Bool := k.outbound.any (fun o => o.serial = ser) || k.array.any (fun e => e.serial = ser) ||
      k.jobs.any (fun j => (j.2.map (fun x => decide (x.serial = ser))).getD false)
    let gone (c : Context) : List Nat := (c.savedWgs.filter (fun g => accs.contains g.2.launch &&
      c.savedWaves.all (fun w => w.2.wg != g.1 || !busy w.2.serial))).map (·.1)
    let sers := k.ctxs.flatMap (fun c => (c.savedWaves.filter (fun w => (gone c).contains w.2.wg)).map (·.2.serial))
    let cut (c : Context) : Context :=
      { c with savedWgs := c.savedWgs.filter (fun g => !(gone c).contains g.1)
               savedWaves := c.savedWaves.filter (fun w => !(gone c).contains w.2.wg) }
    let rgns := (k.ctxs.filter (fun c => !(gone c).isEmpty)).map (·.region)
    let k1 := freeFuts { k with ctxs := (k.ctxs.map cut).filter (fun c => c.place != .streamed || !c.savedWgs.isEmpty) } sers
    rgns.foldl settleRegion (setCore s kc.1 k1)) s

/-- Workgroups of torn-down launches retire where they are done (R412 step 5); a job of theirs that has frozen since they were
stopped ends first. -/
def retireTorn (s : State) (accs : List Nat) : State :=
  let s := stopJobs s accs
  let bars (k : Core) : List Nat := (residentWgs k).filterMap (fun g => if accs.contains g.2.launch then some g.1 else none)
  retireSaved (s.cores.foldl (fun s kc => (bars (getCore s kc.1)).foldl (fun s b =>
    match getWg (getCore s kc.1) b with
    | some g => if wgDone s kc.1 g then freeWg s kc.1 b else s
    | none => s) s) s) accs

/-- Launches of a subtree that have not ended, those of an earlier request included. -/
def tornLaunches (s : State) (top : Rgn) : List Launch := s.launches.filter (fun l => !l.ended && inSubtree s top l.region)

/-- Inbound peer contexts bound to a subtree (21 R385). -/
def releasePairs (s : State) (top : Rgn) : State :=
  let mine (p : Nat) : Bool := s.pctxs.any (fun x => x.1 = p && inSubtree s top (mkRgn x.2.1 x.2.2))
  { s with frozenPairs := s.frozenPairs.filter (fun p => !mine p) }

/-- A teardown request acts: steps 1 to 4 of R412 at its acceptance, step 5 for each workgroup once its accesses are performed,
and then the rest. -/
def tearDown (s : State) (o : Origin) (r : LaunchRec) : State :=
  let top := mkRgn o.asn r.rcb
  let ls := tornLaunches s top
  let accs := ls.map (·.acc)
  let s1 := ls.foldl (fun s l => updLaunch (leaveQueue s l) l.acc (fun x => { x with dropped := some 0xC7 })) s
  let new := (ls.filter (fun l => !tornDown s l.acc)).map (·.acc)
  let s2 := stopJobs (killWaves { s1 with nodes := s1.nodes.filter (fun n => !new.contains n.root) } new) new
  let t : Teardown := ⟨accs, top, o.asn, o.host, o.fut, r.doneVa, o.host.isSome && tbit r.done 58⟩
  let s3 := releasePairs { s2 with teardowns := s2.teardowns ++ [t] } top
  advanceTeardowns (retireTorn s3 accs)

/-- LAUNCH_END (R411; R57 for a launch whose unplaced workgroups were dropped). What was bound to a launch that itself ends
with DEP_FAILED is neither failed nor released by that (log 28). -/
def execLaunchEnd (acc : Nat) (s : State) : Host.Outcome State Fault Refusal :=
  match getLaunch s acc with
  | none => .next s
  | some l =>
    let due := if l.dropped.isSome then l.next else l.gx * l.gy * l.gz
    if tornDown s acc then .next (advanceTeardowns (retireTorn s [acc]))
    else if l.ended || l.published.length != due || !nodesDone s acc || l.capstan.isSome then .next s
    else .next (finishLaunch s l (l.dropped.getD 0))

/-- A launch record arrives at the manager (03 R44): the state, and the cause of a rejection or 0. -/
def acceptLaunch (s : State) (o : Origin) (bytes : List Byte) : State × Byte :=
  let r := launchRec bytes
  let acc := s.accepted
  let s0 := { s with accepted := acc + 1 }
  match acceptEarly s0 o r with
  | (s1, .reject t cause d) => (rejectLaunch s1 o r t cause d, cause)
  | (s1, .teardown) => (tearDown s1 o r, 0)
  | (s1, .go read) => acceptGo s1 o r acc read

end Sys2Proof.Machine
end

