-- ==== Sys2Proof/Machine/Tex.lean ====
section
/-! DEFINITION. Resource and sampler records, texels, and the texture and resource instructions (17 R322-R330). -/
namespace Sys2Proof.Machine

/-! Reads. A texel, element, record, node or cell read is a relaxed load of the part (17 R326, R327; 18 R338). The
instruction waits for the loads that it needs, whose bytes come into the part's buffer (log 13). -/

/-- What a read of some bytes gives. -/
inductive NowRead where
  | ok (bs : List Byte)
  | absent
  | fail (cause : Byte) (va : Dword)
  /-- Its address breaks a step of 11 R220. -/
  | trap (step : Nat) (cause : Byte)
  /-- The bytes are not there yet. -/
  | wait
  deriving DecidableEq, Repr

/-- A read of n bytes: of the bytes that the part's loads for this instruction have brought. -/
def Cx.readNow (c : Cx) (va : Dword) (n : Nat) : NowRead :=
  match formCheck va n 0 with
  | some e => .trap e.1 e.2
  | none =>
    match c.p.buffer.find? (fun b => b.1 = va && b.2.1 = n) with
    | some (_, _, .bytes bs) => .ok bs
    | some (_, _, .flagged) => .absent
    | some (_, _, .failed cause a) => .fail cause a
    | none => .wait

/-- A load for the instruction at the part's PC is in flight. -/
def Cx.reading (c : Cx) : Bool := c.w.loads.any (fun ld => ld.dst = .buffer && (ld.part &&& c.p.lanes) != 0)

/-- What lanes need: lane, address, bytes. -/
abbrev Needs := List (Nat × Dword × Nat)

/-- The addresses that one load asks for, those of the first size: one for each lane, and each for one lane, whose read serves
the others that need the same bytes (log 13). -/
def readAddrs (need : Needs) : Addrs × Nat :=
  let n := (need.headD (0, 0, 0)).2.2
  let add (l : Addrs) (x : Nat × Dword × Nat) : Addrs :=
    if x.2.2 != n || l.any (fun y => y.1 = x.1 || y.2 = x.2.1) then l else l ++ [(x.1, x.2.1)]
  (need.foldl add [], n)

/-- A part asks for bytes. -/
def askFor (r : PartRef) (need : Needs) (s : State) : State :=
  match partAt s r with
  | none => s
  | some c =>
    let x := readAddrs need
    (c.launchLoad { dst := .buffer, regs := [], size := x.2 } x.1).commit

/-- The instruction waits for bytes. -/
def Cx.await (c : Cx) (need : Needs) : Effect :=
  let x := readAddrs need
  if c.reading || c.peerConflict x.1 x.2 then .stall .sync
  else .stallDo .sync (askFor ⟨c.core, c.slot, c.lane⟩ need)

/-! Records (R322-R324, R326). -/

def resourceVa (h : Word) : Dword := BitVec.ofNat 64 (0x0080000000000000 + 32 * bits h 0 20)
def samplerVa (h : Word) : Dword := BitVec.ofNat 64 (0x0080000002000000 + 32 * bits h 20 12)

/-- A resource record. -/
structure Res where
  base : Nat
  w : Nat
  h : Nat
  d : Nat
  count : Nat
  kind : Nat
  fmt : Nat
  levels : Nat
  writable : Bool
  deriving DecidableEq, Repr

/-- Bytes of a texel (R325). -/
def texelBytes (fmt : Nat) : Nat := [4, 8, 16, 8, 4, 4].getD fmt 4

/-- A resource record that keeps R323. -/
def parseRes (bs : List Byte) : Option Res :=
  let f := field bs
  let r : Res := ⟨f 0 7, f 8 9 + 1, f 10 11 + 1, f 12 13 + 1, f 8 11 + 1, f 14 14, f 15 15, f 16 16, (f 17 17).testBit 1⟩
  if r.base % 256 = 0 && decide (r.base < 2 ^ 57) && decide (r.kind ≤ 3) && decide (r.fmt ≤ 5) &&
      decide (1 ≤ r.levels ∧ r.levels ≤ 16) && (r.kind != 0 || r.levels = 1) && (f 17 17).testBit 0 &&
      decide (f 17 17 < 4) && f 18 31 = 0 then some r
  else none

/-- A sampler record. -/
structure Samp where
  linear : Bool
  mip : Nat
  au : Nat
  av : Nat
  aw : Nat
  bias : Word
  minLod : Word
  maxLod : Word
  deriving DecidableEq, Repr

/-- A sampler record that keeps R324. -/
def parseSamp (bs : List Byte) : Option Samp :=
  let f := field bs
  if f 0 0 ≤ 1 && f 1 1 ≤ 2 && f 2 2 ≤ 2 && f 3 3 ≤ 2 && f 4 4 ≤ 2 && f 5 5 = 1 && f 6 7 = 0 && f 20 31 = 0 then
    some ⟨f 0 0 = 1, f 1 1, f 2 2, f 3 3, f 4 4, BitVec.ofNat 32 (f 8 11), BitVec.ofNat 32 (f 12 15), BitVec.ofNat 32 (f 16 19)⟩
  else none

/-- A record through the resource-record cache of 512 records; the oldest makes room. -/
def Cx.readRecordCached (c : Cx) (va : Dword) : Cx × NowRead :=
  match c.k.records.find? (fun r => r.1 = c.g.asn && r.2.1 = va.toNat) with
  | some r => (c, .ok r.2.2)
  | none =>
    match c.readNow va 32 with
    | .ok bs =>
      let l := c.k.records ++ [(c.g.asn, va.toNat, bs)]
      ({ c with k := { c.k with records := l.drop (l.length - 512) } }, .ok bs)
    | x => (c, x)

/-! Texels (R323, R325). -/

def Res.lw (r : Res) (l : Nat) : Nat := max 1 (r.w / 2 ^ l)
def Res.lh (r : Res) (l : Nat) : Nat := max 1 (r.h / 2 ^ l)
def Res.ld (r : Res) (l : Nat) : Nat := if r.kind = 2 then max 1 (r.d / 2 ^ l) else if r.kind = 3 then r.d else 1
def Res.pitch (r : Res) (l : Nat) : Nat := roundUp (r.lw l * texelBytes r.fmt) 16

/-- The start of a level. -/
def Res.start (r : Res) (l : Nat) : Nat :=
  (List.range l).foldl (fun a i => roundUp (a + r.ld i * r.lh i * r.pitch i) 256) r.base

/-- Address of texel (x, y, z) of a level. -/
def Res.texel (r : Res) (l x y z : Nat) : Dword :=
  BitVec.ofNat 64 (r.start l + (z * r.lh l + y) * r.pitch l + x * texelBytes r.fmt)

/-- RN(byte / 255) in FP32. -/
def unorm8 (b : Nat) : Word :=
  let q := b * 2 ^ 40 / 255
  BitVec.ofNat 32 (fp32.round 0 0 false (.num false q (-40)) (b * 2 ^ 40 % 255 != 0))

def fOne : Word := 0x3F800000

/-- The four components of a texel's bytes (R325). -/
def texelComps (fmt : Nat) (bs : List Byte) : List Word :=
  let w (i : Nat) : Word := BitVec.ofNat 32 (field bs (4 * i) (4 * i + 3))
  match fmt with
  | 0 => [w 0, 0, 0, fOne]
  | 1 => [w 0, w 1, 0, fOne]
  | 2 => [w 0, w 1, w 2, w 3]
  | 3 => (List.range 4).map (fun i => toF32 0 (fp16.decode (field bs (2 * i) (2 * i + 1))))
  | 4 => (List.range 4).map (fun i => unorm8 (field bs i i))
  | _ => [w 0, 0, 0, 1]

/-- What a lane has met so far: a page that is not resident; its first failing access; an address that breaks 11 R220,
with its step; and the reads that it still waits for. -/
structure LaneAcc where
  resid : Bool := false
  fail : Option (Byte × Dword) := none
  trap : Option (Nat × Byte × Dword) := none
  need : List (Dword × Nat) := []
  deriving DecidableEq, Repr

/-- The address that fails the earlier step. -/
def firstTrap : Option (Nat × Byte × Dword) → Option (Nat × Byte × Dword) → Option (Nat × Byte × Dword)
  | some a, some b => if b.1 < a.1 then some b else some a
  | a, b => a <|> b

def LaneAcc.join (a b : LaneAcc) : LaneAcc :=
  ⟨a.resid || b.resid, a.fail <|> b.fail, firstTrap a.trap b.trap, a.need ++ b.need⟩

/-- Read one texel or buffer element. -/
def Cx.fetchTexel (c : Cx) (fmt : Nat) (va : Dword) : List Word × LaneAcc :=
  match c.readNow va (texelBytes fmt) with
  | .ok bs => (texelComps fmt bs, {})
  | .absent => ([0, 0, 0, 0], { resid := true })
  | .fail cause a => ([0, 0, 0, 0], { fail := some (cause, a) })
  | .trap step cause => ([0, 0, 0, 0], { trap := some (step, cause, va) })
  | .wait => ([0, 0, 0, 0], { need := [(va, texelBytes fmt)] })

/-! Filtering (R329). -/

/-- floor of a finite value. -/
def FVal.floor : FVal → Int
  | .num neg m e =>
    let i : Int := if neg then -(m : Int) else (m : Int)
    if 0 ≤ e then i * (2 ^ e.toNat : Nat) else i / (2 ^ (-e).toNat : Nat)
  | _ => 0

def natVal (n : Nat) : FVal := .num false n 0
def intVal (i : Int) : FVal := .num (decide (i < 0)) i.natAbs 0

/-- Address mode (R324): the index of a texel, none outside under border. -/
def addrMode (mode : Nat) (n : Nat) (i : Int) : Option Nat :=
  match mode with
  | 0 => some (i % n).toNat
  | 1 => some (max 0 (min (n - 1 : Int) i)).toNat
  | _ => if 0 ≤ i && i < n then some i.toNat else none

/-- The footprint of a coordinate on an axis of n texels: first index, weight of the second in 256ths. -/
def footprint (linear : Bool) (u : Word) (n : Nat) : Int × Nat :=
  let x := (f32 u).mul (natVal n)
  if linear then
    let y := x.add 0 (.num true 1 (-1))
    let i := y.floor
    let a := match y.add 0 (intVal (-i)) with
      | .num _ m e => roundInt 0 false 0 (256 * m) e false
      | _ => 0
    if a = 256 then (i + 1, 0) else (i, a)
  else (x.floor, 0)

/-- Values with their weights, joined under the IEEE rules and rounded once. -/
def joinTerms (shift : Nat) (ws : List (Nat × Word)) : Word :=
  match ws with
  | [] => 0
  | x :: l =>
    let term (y : Nat × Word) : FVal := (natVal y.1).mul (f32 y.2)
    toF32 0 ((l.foldl (fun a y => a.add 0 (term y)) (term x)).scale (-shift))

/-- Texels with their weights; one with weight 0 takes no part. -/
def weightedSum (shift : Nat) (ws : List (Nat × Word)) : Word := joinTerms shift (ws.filter (fun x => x.1 != 0))

/-- A texel by index under the address modes; outside a border it reads zeros. -/
def Cx.texelAt (c : Cx) (r : Res) (sm : Samp) (l : Nat) (x y z : Int) : List Word × LaneAcc :=
  match addrMode sm.au (r.lw l) x, addrMode sm.av (r.lh l) y, (if r.kind = 1 then some 0 else addrMode sm.aw (r.ld l) z) with
  | some i, some j, some k => c.fetchTexel r.fmt (r.texel l i j k)
  | _, _, _ => ([0, 0, 0, 0], {})

/-- The layer that an array's third coordinate names (log 11): its floor. -/
def layerOf (w : Word) : Int := (f32 w).floor

/-- Filter one level at (u, v, w). -/
def Cx.filterLevel (c : Cx) (r : Res) (sm : Samp) (l : Nat) (u v w : Word) : List Word × LaneAcc :=
  let linear := sm.linear && r.fmt != 5
  let fx := footprint linear u (r.lw l)
  let fy := footprint linear v (r.lh l)
  let fz : Int × Nat := if r.kind = 2 then footprint linear w (r.ld l) else if r.kind = 3 then (layerOf w, 0) else (0, 0)
  if !linear then c.texelAt r sm l fx.1 fy.1 fz.1
  else
    let three := r.kind = 2
    let zs : List (Int × Nat) := if three then [(fz.1, 256 - fz.2), (fz.1 + 1, fz.2)] else [(fz.1, 1)]
    let taps := zs.flatMap (fun z => [(fy.1, 256 - fy.2), (fy.1 + 1, fy.2)].flatMap (fun y =>
      [(fx.1, 256 - fx.2), (fx.1 + 1, fx.2)].map (fun x => (x.1, y.1, z.1, x.2 * y.2 * z.2))))
    let got := (taps.filter (fun t => t.2.2.2 != 0)).map (fun t =>
      let p := c.texelAt r sm l t.1 t.2.1 t.2.2.1
      (t.2.2.2, p.1, p.2))
    let comp (i : Nat) : Word := weightedSum (if three then 24 else 16) (got.map (fun g => (g.1, g.2.1.getD i 0)))
    ((List.range 4).map comp, got.foldl (fun a g => a.join g.2.2) {})

/-! Level of detail (R328, R329). -/

def fSub (a b : Word) : Word := toF32 0 ((f32 a).add 0 (f32 b).neg)
def fMul (a b : Word) : Word := toF32 0 ((f32 a).mul (f32 b))
def fMax (a b : Word) : Word := BitVec.ofNat 32 (fp32.select true a.toNat b.toNat)
def fMin (a b : Word) : Word := BitVec.ofNat 32 (fp32.select false a.toNat b.toNat)
def ofDim (n : Nat) : Word := toF32 0 (natVal n)

/-- 0.5 * log2 of the larger of the two squared footprints; each list holds the scaled differences of an axis. -/
def lambdaOf (dx dy : List Word) : Word :=
  let sumSq (l : List Word) : Word :=
    match l.map (fun d => fMul d d) with
    | [] => 0
    | x :: xs => xs.foldl f32Add x
  fMul 0x3F000000 (log2F (fMax (sumSq dx) (sumSq dy)))
where
  log2F (x : Word) : Word := sfuLog2 x

/-- The LOD used: bias, sampler bias and clamp; a NaN is taken as MINLOD. -/
def lodOf (r : Res) (sm : Samp) (lam : Word) (bias : Option Word) : Word :=
  let l1 := match bias with
    | some b => f32Add lam b
    | none => lam
  let l2 := f32Add l1 sm.bias
  if (f32 l2).isNan then sm.minLod
  else fMin (fMax l2 sm.minLod) (fMin sm.maxLod (ofDim (r.levels - 1)))

/-- An integer of a finite value rounded to nearest even. -/
def FVal.nearest : FVal → Int
  | .num neg m e => let n : Int := roundInt 0 neg 0 m e false; if neg then -n else n
  | _ => 0

/-- Keep a level inside the resource. -/
def Res.clampLevel (r : Res) (l : Int) : Nat := min (r.levels - 1) l.toNat

/-- Sample at a LOD (R329); where one of two levels is none of the resource's, the other alone (log 11). -/
def Cx.sampleAt (c : Cx) (r : Res) (sm : Samp) (lod u v w : Word) : List Word × LaneAcc :=
  let x := f32 lod
  if sm.mip = 0 then c.filterLevel r sm 0 u v w
  else if sm.mip = 1 || r.fmt = 5 then c.filterLevel r sm (r.clampLevel x.nearest) u v w
  else
    let l := x.floor
    let f := match x.add 0 (intVal (-l)) with
      | .num _ m e => roundInt 0 false 0 (256 * m) e false
      | _ => 0
    let a := c.filterLevel r sm (r.clampLevel l) u v w
    let b := c.filterLevel r sm (r.clampLevel (l + 1)) u v w
    if r.clampLevel l = r.clampLevel (l + 1) then a
    else ((List.range 4).map (fun i => joinTerms 8 [(256 - f, a.1.getD i 0), (f, b.1.getD i 0)]), a.2.join b.2)

/-! The instructions (R326, R327). -/

/-- A record of a handle: what serving it gives. -/
inductive Served (α : Type) where
  | ok (x : α)
  | absent
  | fail (cause : Byte) (va : Dword)
  | wait (va : Dword)

/-- Read and check a record. Its address lies in an owner-2 window, so that 11 R220 holds. -/
def Cx.serve {α : Type} (c : Cx) (va : Dword) (parse : List Byte → Option α) : Cx × Served α :=
  match c.readRecordCached va with
  | (c1, .ok bs) => (c1, match parse bs with
      | some x => .ok x
      | none => .fail 0x46 va)
  | (c1, .absent) => (c1, .absent)
  | (c1, .fail cause a) => (c1, .fail cause a)
  | (c1, .trap _ cause) => (c1, .fail cause va)
  | (c1, .wait) => (c1, .wait va)

/-- One lane's outcome: values, residency, failure with the record or texel address and kind of access, an address that
breaks 11 R220, and the reads that it waits for. -/
structure LaneTex where
  lane : Nat
  vals : List Word
  resid : Bool := false
  fail : Option (Byte × Dword × Nat) := none
  trap : Option (Nat × Byte × Dword) := none
  need : List (Dword × Nat) := []
  deriving DecidableEq, Repr

/-- The handle that a lane holds. -/
def Cx.handleOf (c : Cx) (op : Nat) (f : Fields) (l : Nat) : Word := c.opn op f 0 .int l

/-- What a pass gives each of its lanes: `lane` where the records are served. -/
def servedLane (h : Word) (kindOk : Res → Bool) (lane : Res → Samp → Nat → List Word × LaneAcc)
    (r : Served Res) (sm : Served Samp) (l : Nat) : LaneTex :=
  match r, sm with
  | .absent, _ => { lane := l, vals := [0, 0, 0, 0], resid := true }
  | .fail cause va, _ => { lane := l, vals := [], fail := some (cause, va, 9) }
  | .wait va, _ => { lane := l, vals := [], need := [(va, 32)] }
  | .ok res, sm =>
    if !kindOk res then { lane := l, vals := [], fail := some (0x46, resourceVa h, 9) }
    else match sm with
      | .absent => { lane := l, vals := [0, 0, 0, 0], resid := true }
      | .fail cause va => { lane := l, vals := [], fail := some (cause, va, 9) }
      | .wait va => { lane := l, vals := [], need := [(va, 32)] }
      | .ok sm =>
        let x := lane res sm l
        { lane := l, vals := x.1, resid := x.2.resid, fail := x.2.fail.map (fun y => (y.1, y.2, 1)), trap := x.2.trap
          need := x.2.need }

/-- The pass of one handle (R326): its records are read once, and serve every participating lane that holds it. -/
def Cx.servePass (c : Cx) (sampled : Bool) (kindOk : Res → Bool) (lane : Cx → Res → Samp → Nat → List Word × LaneAcc)
    (h : Word) (lanes : List Nat) : Cx × List LaneTex :=
  let (c1, r) := c.serve (resourceVa h) parseRes
  let usable := match r with
    | .ok res => kindOk res
    | _ => false
  let (c2, sm) := if sampled && usable then c1.serve (samplerVa h) parseSamp else (c1, .ok ⟨false, 0, 1, 1, 1, 0, 0, 0⟩)
  (c2, lanes.map (servedLane h kindOk (lane c2) r sm))

/-- Serve the distinct handles in order of their lowest lane; outcomes by lane. -/
def Cx.eachHandle (c : Cx) (op : Nat) (f : Fields) (sampled : Bool) (kindOk : Res → Bool)
    (lane : Cx → Res → Samp → Nat → List Word × LaneAcc) : Cx × List LaneTex :=
  let lanes := lanesOf (c.activeLanes f)
  let pass (acc : Cx × List LaneTex) (h : Word) : Cx × List LaneTex :=
    let x := acc.1.servePass sampled kindOk lane h (lanes.filter (fun l => c.handleOf op f l = h))
    (x.1, acc.2 ++ x.2)
  let x := ((lanes.map (c.handleOf op f)).eraseDups).foldl pass (c, [])
  (x.1, lanes.filterMap (fun l => x.2.find? (fun y => y.lane = l)))

/-- The freeze of failing lanes (R226, R326): the first in lane order gives cause and address; `detail` is the
word that the record of a bad record carries for a lane. -/
def freezeTex (c : Cx) (detail : Nat → Word) (ls : List LaneTex) (s : State) : State :=
  let bad := ls.filterMap (fun x => x.fail.map (fun y => (x.lane, y)))
  match bad with
  | [] => s
  | (l, cause, va, access) :: _ =>
    freezeWave s c.core c.slot cause
      (partFault c cause 1 access (maskOf (bad.map (·.1))) va (if cause = 0x46 then detail l else 0) c.p.restart)

/-- The lanes that take effect: those that do not fail, or none where a check value fails (11 R238). -/
def goodLanes (ls : List LaneTex) : List LaneTex :=
  if ls.any (fun x => (x.fail.map (·.1)) = some cCheck) then [] else ls.filter (fun x => x.fail.isNone)

/-- Lanes whose bits of $resid are set. -/
def residLanes (ls : List LaneTex) : Lanes := maskOf ((ls.filter (fun x => x.resid && x.fail.isNone)).map (·.lane))

/-- The trap of lanes whose addresses break 11 R220. -/
def texTrap (ls : List LaneTex) : Option TrapInfo :=
  earliest (ls.filterMap (fun x => x.trap.map (fun t => (x.lane, t.2.2, some (t.1, t.2.1)))))

/-- The instruction waits while some lane waits; then it traps where an address check fails; else it has its effect. -/
def Cx.whenRead (c : Cx) (ls : List LaneTex) (e : Effect) : Effect :=
  match ls.flatMap (fun x => x.need.map (fun n => (x.lane, n))), texTrap ls with
  | x :: l, _ => c.await (x :: l)
  | [], some t => .trap t
  | [], none => e

/-- Finish a reading instruction: good lanes are written, residency is flagged, failing lanes freeze the wave. -/
def Cx.finishTex (c0 c : Cx) (detail : Nat → Word) (f : Fields) (tag : Tag) (n : Nat) (ls : List LaneTex) : Effect :=
  let good := goodLanes ls
  let c1 := c.flag 0 0 (residLanes ls)
  let c2 := (List.range n).foldl (fun c i =>
    if f.dn then c else c.writeV (f.d.toNat + i) (good.map (fun x => (x.lane, x.vals.getD i 0))) (fun _ => tag)) c1
  c0.whenRead ls (.thenDo c2 (freezeTex c0 detail ls))

/-- A reading instruction of the TEX unit. -/
def texRead (op : Nat) (f : Fields) (s : State) (sampled : Bool) (kindOk : Res → Bool) (n : Nat) (tag : Tag)
    (lane : Cx → Res → Samp → Nat → List Word × LaneAcc) : Host.Outcome State Fault Refusal :=
  runPart op f s (fun c =>
    if c.held then .stall .sync
    else
      let x := c.eachHandle op f sampled kindOk lane
      let c1 := { x.1 with s := { x.1.s with freeCount := x.1.s.freeCount + 1 } }
      Cx.finishTex c c1 (c.handleOf op f) f tag n x.2)

def isImage (r : Res) : Bool := r.kind != 0

/-- Free words: a result that the spec does not state (log 2). -/
def Cx.freeWords (c : Cx) (l : Nat) : List Word := (List.range 4).map (fun i => Config.freeWord c.s.freeCount (4 * l + i))

def finite32 (w : Word) : Bool := !notFinite' (f32 w)
where
  notFinite' : FVal → Bool
    | .num _ _ _ => false
    | _ => true

/-- Coordinates that are not finite, or a LOD that is not, have no stated result. -/
def Cx.guardSample (c : Cx) (l : Nat) (r : Res) (sm : Samp) (lod u v w : Word) : List Word × LaneAcc :=
  if finite32 u && finite32 v && (r.kind = 1 || finite32 w) && (sm.mip = 0 || finite32 lod) then c.sampleAt r sm lod u v w
  else (c.freeWords l, {})

/-- Register i of group B in a lane, whatever its $exec bit. -/
def Cx.grpB (c : Cx) (f : Fields) (i l : Nat) : Word := c.readV (f.b.toNat + i) l

/-- `tex.smp` (R328). -/
def execTexSmp (f : Fields) (s : State) : Host.Outcome State Fault Refusal :=
  texRead 0x1C0 f s true isImage 4 tagAny (fun c r sm l =>
    let q := l / 4 * 4
    let diff (i lane n : Nat) : Word := fMul (fSub (c.grpB f i lane) (c.grpB f i q)) (ofDim n)
    let axes (lane : Nat) : List Word :=
      [diff 0 lane r.w, diff 1 lane r.h] ++ (if r.kind = 2 then [diff 2 lane r.d] else [])
    let lam := lambdaOf (axes (q + 1)) (axes (q + 2))
    let lod := lodOf r sm lam (some (c.grpB f 3 l))
    c.guardSample l r sm lod (c.grpB f 0 l) (c.grpB f 1 l) (c.grpB f 2 l))

/-- `tex.smp.lod` (R327). -/
def execTexSmpLod (f : Fields) (s : State) : Host.Outcome State Fault Refusal :=
  texRead 0x1C1 f s true isImage 4 tagAny (fun c r sm l =>
    c.guardSample l r sm (lodOf r sm (c.grpB f 3 l) none) (c.grpB f 0 l) (c.grpB f 1 l) (c.grpB f 2 l))

/-- `tex.smp.grad` (R328): C0-C3 in place of the differences. -/
def execTexSmpGrad (f : Fields) (s : State) : Host.Outcome State Fault Refusal :=
  texRead 0x1C2 f s true isImage 4 tagAny (fun c r sm l =>
    let g (i n : Nat) : Word := fMul (c.readV (fieldC f + i) l) (ofDim n)
    let lod := lodOf r sm (lambdaOf [g 0 r.w, g 1 r.h] [g 2 r.w, g 3 r.h]) none
    c.guardSample l r sm lod (c.grpB f 0 l) (c.grpB f 1 l) (c.grpB f 2 l))

/-- The texel of integer coordinates, inside its level. -/
def Cx.intTexel (c : Cx) (f : Fields) (r : Res) (level l : Nat) : Option Dword :=
  let x := (c.grpB f 0 l).toNat
  let y := (c.grpB f 1 l).toNat
  let z := if r.kind = 1 then 0 else (c.grpB f 2 l).toNat
  if level < r.levels && x < r.lw level && y < r.lh level && z < r.ld level then some (r.texel level x y z) else none

/-- `tex.ld` (R327). -/
def execTexLd (f : Fields) (s : State) : Host.Outcome State Fault Refusal :=
  texRead 0x1C3 f s false isImage 4 tagAny (fun c r _ l =>
    match c.intTexel f r (modOf f % 16) l with
    | some va => c.fetchTexel r.fmt va
    | none => ([0, 0, 0, 0], {}))

/-- `tex.g4` (R327): a LEVEL that the resource lacks has no stated result. -/
def execTexG4 (f : Fields) (s : State) : Host.Outcome State Fault Refusal :=
  texRead 0x1C5 f s true isImage 4 tagAny (fun c r sm l =>
    let k := modOf f % 4
    let level := modOf f / 4 % 16
    let u := c.grpB f 0 l
    let v := c.grpB f 1 l
    let w := c.grpB f 2 l
    if r.levels ≤ level || !finite32 u || !finite32 v || !(r.kind = 1 || finite32 w) then (c.freeWords l, {})
    else
      let x := (footprint true u (r.lw level)).1
      let y := (footprint true v (r.lh level)).1
      let z := if r.kind = 1 then 0 else layerOf w
      let ps := [(x, y), (x + 1, y), (x, y + 1), (x + 1, y + 1)].map (fun p => c.texelAt r sm level p.1 p.2 z)
      (ps.map (fun p => p.1.getD k 0), ps.foldl (fun a p => a.join p.2) {}))

/-- `res.ld` (R327). -/
def execResLd (f : Fields) (s : State) : Host.Outcome State Fault Refusal :=
  texRead 0x1C6 f s false (fun r => r.kind = 0) 1 tagAny (fun c r _ l =>
    let i := (c.opn 0x1C6 f 1 .int l).toNat
    if r.count ≤ i then ([0], {})
    else
      let x := c.fetchTexel r.fmt (BitVec.ofNat 64 (r.base + i * texelBytes r.fmt))
      ([x.1.getD (modOf f % 4) 0], x.2))

/-- `res.q` (R327). -/
def execResQ (f : Fields) (s : State) : Host.Outcome State Fault Refusal :=
  texRead 0x1C7 f s false (fun _ => true) 1 tagI32 (fun _ r _ _ =>
    let l := modOf f / 8 % 16
    let v := match modOf f % 8 with
      | 0 => r.lw l
      | 1 => r.lh l
      | 2 => if r.kind = 2 then r.ld l else r.d
      | 3 => r.levels
      | 4 => r.fmt
      | 5 => r.kind
      | _ => r.count
    ([BitVec.ofNat 32 v], {}))

/-- The bytes that `tex.st` writes for a lane (R330). -/
def storeTexel (fmt : Nat) (cs : List Word) : List Byte :=
  let w (i : Nat) : List Byte := toBytes 4 (cs.getD i 0).toNat
  match fmt with
  | 0 | 5 => w 0
  | 1 => w 0 ++ w 1
  | 2 => w 0 ++ w 1 ++ w 2 ++ w 3
  | 3 => (List.range 4).flatMap (fun i => toBytes 2 (fp16.round 0 0 false (f32 (cs.getD i 0))))
  | _ => (List.range 4).map (fun i =>
      match f32 (cs.getD i 0) with
      | .nan => 0
      | x =>
        if x.cmp (natVal 1) ≥ 0 then 255
        else match x with
          | .num false m e => BitVec.ofNat 8 (roundInt 0 false 0 (255 * m) e false)
          | _ => 0)

/-- A float texel's components, each rounded into its format; FP32 components keep a NaN canonical. -/
def canonF32 (w : Word) : Word := toF32 0 (f32 w)

/-- `tex.st` (R327, R330). -/
def execTexSt (f : Fields) (s : State) : Host.Outcome State Fault Refusal :=
  runPart 0x1C4 f s (fun c =>
    if c.held then .stall .sync
    else
      let comp (fmt l i : Nat) : Word :=
        let x := c.readV (fieldC f + i) l
        if fmt ≤ 2 then canonF32 x else x
      let x := c.eachHandle 0x1C4 f false (fun r => isImage r && r.writable) (fun c r _ l =>
        match c.intTexel f r (modOf f % 16) l with
        | some va => ([halfWord va false, halfWord va true, BitVec.ofNat 32 r.fmt],
            { trap := (formCheck va (texelBytes r.fmt) 0).map (fun e => (e.1, e.2, va)) })
        | none => ([], {}))
      let good := (goodLanes x.2).filter (fun y => !y.resid && !y.vals.isEmpty)
      let ws : List LaneWrite := good.map (fun y =>
        let va : Dword := y.vals.getD 1 0 ++ y.vals.getD 0 0
        let fmt := (y.vals.getD 2 0).toNat
        ⟨y.lane, va, storeTexel fmt ((List.range 4).map (comp fmt y.lane))⟩)
      let c1 := x.1.flag 0 0 (residLanes x.2)
      let c2 := if ws.isEmpty then c1 else c1.push (c1.entry (.store ws) none 0 (ws.map (fun w => (w.lane, w.va))))
      c.whenRead x.2 (.thenDo c2 (freezeTex c (c.handleOf 0x1C4 f) x.2)))
where
  halfWord (v : Dword) (hi : Bool) : Word := BitVec.ofNat 32 (bits v (if hi then 32 else 0) 32)

end Sys2Proof.Machine
end

