-- ==== Sys2Proof/Machine/Draw.lean ====
section
/-! DEFINITION. Draws: emitting triangles, fragment workgroups and the colour tile, ordered blend (17 R331-R336). -/
namespace Sys2Proof.Machine

/-! The draw record and its buffer (R331, R334, R335). -/

/-- A draw record that keeps R331: kernel object and key, buffer bytes, target. -/
structure DrawRec where
  fobj : Dword
  fkey : Nat
  cap : Nat
  target : Nat
  deriving DecidableEq, Repr

def parseDraw (bs : List Byte) : Option DrawRec :=
  let r : DrawRec := ⟨BitVec.ofNat 64 (field bs 0 7), field bs 8 11, field bs 12 15, field bs 16 19⟩
  if r.cap % 4096 = 0 && decide (4096 ≤ r.cap ∧ r.cap ≤ 1048576) && decide (r.target < 2 ^ 20) && field bs 28 255 = 0 then some r
  else none

/-- What an `emitp` finds at its draw record: the record and its target; pages that are not resident; a cause; or bytes
that are not there yet. -/
inductive DrawRead where
  | ok (r : DrawRec) (t : Res)
  | absent
  | fail (cause : Byte)
  | wait (va : Dword) (n : Nat)

/-- Read the draw record and the resource record of its target. -/
def Cx.readDraw (c : Cx) (d : Nat) : DrawRead :=
  match c.readNow (drawVa d) 256 with
  | .absent => .absent
  | .fail cause _ | .trap _ cause => .fail cause
  | .wait => .wait (drawVa d) 256
  | .ok bs =>
    match parseDraw bs with
    | none => .fail 0x46
    | some r =>
      match (c.serve (resourceVa (BitVec.ofNat 32 r.target)) parseRes).2 with
      | .absent => .absent
      | .fail cause _ => .fail cause
      | .wait va => .wait va 32
      | .ok t => if t.kind = 1 && t.writable then .ok r t else .fail 0x46

/-- The slices in which a region's buffers lie (R334). -/
def regionSlices (b : Budget) : List Nat := (clustersOf b.clusters).flatMap (fun c => [2 * c, 2 * c + 1])

/-- The region's ways have room for a buffer. -/
def bufferFits (s : State) (rgn : Rgn) (d : Draw) : Bool :=
  let ways := grantedWays s rgn
  ways != 0 && !d.slices.isEmpty &&
  d.slices.all (fun sl => decide (pinnedLines s rgn sl + d.share ≤ wayLines ways))

/-- A kernel that may shade (R335). -/
def shades (k : Kernel) (texel : Nat) : Bool := k.width = 4 && decide (8 ≤ k.vregs) && decide (1024 * texel ≤ k.scratch)

/-- The draw record comes into use: its kernel is loaded and its lines are taken. A fragment kernel that declares no handler has
the region's handler that the mesh launch installed at its own step 7 (02 R38; log 32). The error is a DETAIL. -/
def openDraw (s : State) (g : Workgroup) (d : Nat) (r : DrawRec) (t : Res) : State × Except Word Draw :=
  let b := regionGrant s g.region
  match loadKernel s g.asn r.fobj r.fkey 16 b.sign 0 0 with
  | (s1, .error _) => (s1, .error 0)
  | (s1, .ok k0) =>
    let k := { k0 with regionHandler := g.kernel.regionHandler }
    let x : Draw := { asn := g.asn, d := d, region := g.region, slices := regionSlices b, launches := [], kernel := k
                      target := BitVec.ofNat 64 t.base, fmt := t.fmt, texel := texelBytes t.fmt, width := t.w, height := t.h
                      cap := r.cap }
    if !shades k x.texel then (s1, .error 0)
    else if !bufferFits s1 g.region x then (s1, .error (BitVec.ofNat 32 r.cap))
    else (l2Fit { s1 with draws := s1.draws ++ [x] } g.region x.slices, .ok x)

/-! `emitp` (R333, R334). -/

/-- Lanes in threes; one or two left over are ignored. -/
def inThrees : List Nat → List (Nat × Nat × Nat)
  | x :: y :: z :: rest => (x, y, z) :: inThrees rest
  | _ => []

/-- The triangles that the participating lanes form, with the tiles that each touches. -/
def Cx.triangles (c : Cx) (f : Fields) (width height : Nat) : List Tri :=
  let a := f.a.toNat
  let s := c.g.id * 16 + c.w.index
  let first := groupCount c.s c.g.launch s
  let vert (l : Nat) : Word × Word × Word := (c.readV a l, c.readV (a + 1) l, c.readV (a + 2) l)
  (inThrees (lanesOf (c.activeLanes f))).mapIdx (fun i x =>
    let t : Tri := { a := c.g.launch, s := s, n := first + i, verts := [vert x.1, vert x.2.1, vert x.2.2]
                     attr := c.readV (a + 3) x.1, tiles := [] }
    { t with tiles := if t.draws then t.touched width height else [] })

/-- Bytes of the buffer that are free once a flush has been made with a launch among the draw's. -/
def freeAfterFlush (s : State) (d : Draw) : Nat :=
  match seqPoint s d with
  | none => d.cap
  | some k => { d with tris := d.tris.filter (fun t => !keyLess t.key k) }.free

/-- A flush would rasterise something. -/
def flushWorks (s : State) (d : Draw) : Bool :=
  match seqPoint s d with
  | none => !d.tris.isEmpty
  | some k => d.tris.any (fun t => keyLess t.key k)

/-- The launch names the draw record. -/
def Draw.join (d : Draw) (acc : Nat) : Draw := if d.launches.contains acc then d else { d with launches := d.launches ++ [acc] }

/-- The group is the one at the sequence point. -/
def atPoint (s : State) (d : Draw) (acc grp : Nat) : Bool :=
  match seqPoint s d with
  | some (a, g, _) => a = acc && g = grp
  | none => false

/-- Emitted triangles enter the buffer, after a flush where space is short, or go straight to the rasteriser. -/
def emitInto (s : State) (d : Draw) (all ts : List Tri) (flush : Bool) : State :=
  let need := ts.foldl (fun a t => a + t.cost) 0
  let s1 := if decide (d.free < need) && flush then flushDraw s d else s
  let d1 := (getDraw s1 d.asn d.d).getD d
  let s2 := if need ≤ d1.free then setDraw s1 { d1 with tris := d1.tris ++ ts } else rasterise s1 d1 ts 0
  match all.getLast? with
  | some t => setGroup s2 t.a t.s (t.n + 1)
  | none => s2

/-- The freeze of an `emitp` (R333-R335, 11 R226). -/
def freezeDraw (c : Cx) (f : Fields) (d : Nat) (cause : Byte) (detail : Word) (s : State) : State :=
  freezeWave s c.core c.slot cause (partFault c cause 1 9 (c.activeLanes f) (drawVa d) detail c.p.restart)

/-- The draw record in use, or opened now, with the launch among its own; the error is a DETAIL. -/
def useDraw (s : State) (g : Workgroup) (d : Nat) (r : Option (DrawRec × Res)) : State × Except Word Draw :=
  match getDraw s g.asn d, r with
  | some x, _ => (setDraw s (x.join g.launch), .ok (x.join g.launch))
  | none, none => (s, .error 0)
  | none, some (r, t) =>
    match openDraw s g d r t with
    | (s1, .ok x) => (setDraw s1 (x.join g.launch), .ok (x.join g.launch))
    | x => x

/-- A stalled part has made its flush. -/
def markFlushed (s : State) (r : PartRef) : State :=
  updWave s r.core r.slot (fun w => updPart w r.lane (fun p => { p with flushed := true }))

/-- An instruction that did not issue has frozen its wave: its part goes on after it (22 R404). -/
def passOver (s : State) (r : PartRef) : State :=
  updWave s r.core r.slot (fun w => updPart w r.lane (fun p => { p with pc := p.pc + 1, wait := .ready, nextIssue := coreCyc s r.core + 1 }))

/-- `emitp` on a draw record: `r` is what was read where the record is not in use yet. -/
def Cx.emit (c : Cx) (f : Fields) (d : Nat) (r : Option (DrawRec × Res)) (width height : Nat) (now : Option Draw) (cap : Nat) : Effect :=
  let all := c.triangles f width height
  let ts := all.filter (·.draws)
  let need := ts.foldl (fun a t => a + t.cost) 0
  let cur : Draw := match now with
    | some x => x.join c.g.launch
    | none => { asn := c.g.asn, d := d, region := c.g.region, slices := [], launches := [c.g.launch], kernel := {}
                target := 0, fmt := 0, texel := 4, width := width, height := height, cap := cap }
  let grp := c.g.id * 16 + c.w.index
  let goes := decide (need ≤ cur.free) || decide (need ≤ freeAfterFlush c.s cur) || atPoint c.s cur c.g.launch grp
  let flush (s : State) (x : Draw) : Bool := !c.p.flushed || flushWorks s x
  if goes then
    .thenDo c (fun s => match useDraw s c.g d r with
      | (s1, .ok x) => emitInto s1 x all ts (flush s1 x)
      | (s1, .error detail) => freezeDraw c f d 0x46 detail s1)
  else
    .stallDo .sync (fun s => match useDraw s c.g d r with
      | (s1, .ok x) => markFlushed (if flush s1 x then flushDraw s1 x else s1) ⟨c.core, c.slot, c.lane⟩
      | (s1, .error detail) => freezeDraw c f d 0x46 detail (passOver s1 ⟨c.core, c.slot, c.lane⟩))

/-- `emitp` (R333). -/
def execEmitp (f : Fields) (s : State) : Host.Outcome State Fault Refusal :=
  runPart 0x1D0 f s (fun c =>
    if c.held then .stall .sync
    else if c.activeLanes f = 0 then .next c
    else
      let b := c.opn 0x1D0 f 1 .int 0
      let d := bits b 0 8
      if bits b 8 24 != 0 then .thenDo c (freezeDraw c f d 0x46 0)
      else match getDraw c.s c.g.asn d with
        | some x => c.emit f d none x.width x.height (some x) x.cap
        | none =>
          match c.readDraw d with
          | .absent => .next (c.flag 0 0 (c.activeLanes f))
          | .fail cause => .thenDo c (freezeDraw c f d cause 0)
          | .wait va n => c.await [(lowestLane (c.activeLanes f), va, n)]
          | .ok r t => c.emit f d (some (r, t)) t.w t.h none r.cap)

/-! Fragment workgroups (R335). -/

/-- Bytes of one row of the target, and where a texel lies. -/
def Batch.pitch (b : Batch) : Nat := roundUp (b.width * b.texel) 16
def Batch.texelVa (b : Batch) (x y : Nat) : Nat := b.target.toNat + y * b.pitch + x * b.texel

/-- The rows of the colour tile inside the target: row, address, bytes. -/
def Batch.rows (b : Batch) : List (Nat × Nat × Nat) :=
  ((List.range 32).filter (fun r => decide (32 * b.ty + r < b.height))).map (fun r =>
    (r, b.texelVa (32 * b.tx) (32 * b.ty + r), b.texel * (min 32 (b.width - 32 * b.tx))))

/-- Rows that lie in a peer window. -/
def Batch.peerRows (b : Batch) : List (Nat × Nat × Nat) := b.rows.filter (fun r => isPeerVa (BitVec.ofNat 64 r.2.1))

/-- Bytes on their way, each with the error of the check value that its sector had (11 R235): a copy neither verifies the check
values nor mends them (R236). -/
abbrev Carried := List (Byte × Half)

/-- Bytes read at a place. -/
def carried (mem : KMap Byte) (errs : KMap Half) (a n : Nat) : Carried :=
  (List.range n).map (fun i => (kget 0 mem (a + i), kget 0 errs ((a + i) / 32)))

/-- The errors of sectors that receive some bytes: one that receives a byte of a failing sector fails (log 33). -/
def carryErrs (errs : KMap Half) (a : Nat) (l : Carried) : KMap Half :=
  (l.mapIdx (fun i x => (i, x.2))).foldl (fun m x => if x.2 = 0 then m else kset 0 m ((a + x.1) / 32) x.2) errs

def sramCarry (k : Core) (a : Nat) (l : Carried) : Core :=
  let k1 := sramWrite k a (l.map (·.1))
  { k1 with sramErr := carryErrs k1.sramErr a l }

/-- A row as the target holds it: a page that gives no bytes reads zeros, whether it is absent or denies the access (log 33). -/
def readRow (s : State) (asn va n : Nat) : Carried :=
  (pieces va n).flatMap (fun p =>
    match route s asn .load (BitVec.ofNat 64 p.1) with
    | .phys key _ => carried s.mem s.memErr key p.2
    | _ => List.replicate p.2 (0, 0))

/-- A row is written to the target; a page that takes no bytes keeps what it has. -/
def tileRowOut (s : State) (asn va : Nat) (l : Carried) : State :=
  ((pieces va l.length).foldl (fun (acc : State × Carried) p =>
    let now := acc.2.take p.2
    ((match route acc.1 asn .store (BitVec.ofNat 64 p.1) with
      | .phys key _ =>
        let s1 := homeWrite acc.1 key (now.map (·.1))
        { s1 with memErr := carryErrs s1.memErr key now }
      | _ => acc.1), acc.2.drop p.2)) (s, l)).1

/-- The colour tile is copied to scratchpad offset 0, through the slices for its region (11 R430). -/
def copyTileIn (s : State) (core base : Nat) (rgn : Rgn) (b : Batch) : State :=
  b.rows.foldl (fun s r =>
    let s1 := touchRange s b.asn .load rgn r.2.1 r.2.2
    let row := match b.image.find? (fun x => x.1 = r.1) with
      | some x => x.2.map (fun y => (y, 0))
      | none => readRow s1 b.asn r.2.1 r.2.2
    setCore s1 core (sramCarry (getCore s1 core) (base + r.1 * 32 * b.texel) row)) s

/-- A request of a colour tile goes to its peer, or fails at once (21 R383, R384); so does one with bytes of a sector that fails
its check value, of which none leave the module (11 R238). -/
def sendRow (s : State) (rgn : Rgn) (b : Batch) (r : Nat × Nat × Nat) (op : PeerOp) (bad : Bool) : State :=
  let va : Dword := BitVec.ofNat 64 r.2.1
  let note (h : Batch → Batch) (s : State) : State := { s with batches := updateWhere (fun x => x.id = b.id) h s.batches }
  if bad then s
  else match peerSend s b.asn rgn va op (.tile b.id r.1) with
    | some (s1, id) => note (fun x => { x with peers := x.peers ++ [id] }) s1
    | none =>
      let port := ((windowOf (kget 0 s.peerWindows (4 * b.asn + (vaOwner va - 3)))).map (·.1)).getD 0
      let s1 := tileRecord s b cPeerFault (if opWrites op = 0 then 1 else 2) va port
      if opWrites op = 0 then note (fun x => { x with image := x.image ++ [(r.1, List.replicate r.2.2 0)] }) s1 else s1

/-- The rows of the target in a peer window are asked for. -/
def askTile (s : State) (rgn : Rgn) (b : Batch) : State :=
  let s1 := { s with batches := updateWhere (fun x => x.id = b.id) (fun x => { x with asked := true }) s.batches }
  b.peerRows.foldl (fun s r => sendRow s rgn b r (.load r.2.2) false) s1

/-- The colour tile is written back to the texels inside the target, or sent to the peer that holds them. -/
def copyTileOut (s : State) (core base : Nat) (rgn : Rgn) (b : Batch) : State :=
  let s0 := { s with batches := updateWhere (fun x => x.id = b.id) (fun x => { x with sent := true }) s.batches }
  b.rows.foldl (fun s r =>
    let k := getCore s core
    let row := carried k.sram k.sramErr (base + r.1 * 32 * b.texel) r.2.2
    if isPeerVa (BitVec.ofNat 64 r.2.1) then sendRow s rgn b r (.store (row.map (·.1))) (row.any (fun x => x.2 != 0))
    else tileRowOut (touchRange s b.asn .store rgn r.2.1 r.2.2) b.asn r.2.1 row) s0

/-- Lane l of quad block q: pixel of the block. -/
def quadPixel (q : FragQuad) (l : Nat) : Nat × Nat := (q.x + l % 2, q.y + l / 2)

/-- The start of a fragment wave. -/
def fragmentInit (args : Dword) (b : Batch) (index : Nat) (qs : List FragQuad) : WaveInit :=
  let lanes : List (Nat × FragQuad × Nat × Nat) := (qs.mapIdx (fun i q => (List.range 4).map (fun l => (4 * i + l, q, quadPixel q l)))).flatten
  let covered := lanes.filter (fun x => x.2.1.cover.contains x.2.2)
  let col (h : FragQuad → Nat × Nat → Word) : List (Nat × Word) := lanes.map (fun x => (x.1, h x.2.1 x.2.2))
  let it (q : FragQuad) (p : Nat × Nat) : Word × Word × Word := q.tri.interp p.1 p.2
  { index := index, active := maskOf (covered.map (·.1)), args := args
    sregs := [(2, BitVec.ofNat 32 (32 * b.tx + 2 ^ 16 * (32 * b.ty)))]
    vregs := [(1, tagAny, col (fun _ p => BitVec.ofNat 32 (p.1 + 2 ^ 16 * p.2))),
              (2, tagF32, col (fun q p => (it q p).1)), (3, tagF32, col (fun q p => (it q p).2.1)),
              (4, tagF32, col (fun q p => (it q p).2.2)), (5, tagAny, col (fun q _ => q.tri.attr)),
              (6, tagAny, col (fun q _ => BitVec.ofNat 32 q.tri.n)), (7, tagAny, col (fun q _ => BitVec.ofNat 32 q.tri.s))]
    fragments := covered.map (fun x => { lane := x.1, x := x.2.2.1, y := x.2.2.2, s := x.2.1.tri.s, n := x.2.1.tri.n }) }

/-- Waves that a core holds of a fragment workgroup: at most sixteen, and as many as its region's registers take. -/
def residentFragments (s : State) (b : Batch) (rgn : Rgn) : Nat :=
  max 1 (min (min 16 (batchWaves b).length) (regLimit (regionGrant s rgn) / max 1 (waveRegs b.kernel)))

/-- Launch ARGS. -/
def argsOf (s : State) (acc : Nat) : Dword := ((getLaunch s acc).map (·.args)).getD 0

/-- The batch's workgroup is placed with its first waves, behind every earlier batch of its tile, once the peers have sent what
they hold of the tile. -/
def placeBatch (s : State) (b : Batch) : Option State :=
  let earlier := s.batches.any (fun x => decide (x.id < b.id) && x.asn = b.asn && x.target = b.target && x.tx = b.tx && x.ty = b.ty)
  match getLaunch s b.launch with
  | none => none
  | some l =>
    if earlier || tornDown s b.launch then none
    else if !b.asked && !b.peerRows.isEmpty then some (askTile s l.region b)
    else if !b.peers.isEmpty then none
    else
      let n := residentFragments s b l.region
      let g : Workgroup := { launch := l.acc, region := l.region, asn := l.asn, kind := .fragment b.id, gx := l.gx, gy := l.gy
                             gz := l.gz, kernel := b.kernel, started := n }
      let ws := ((batchWaves b).take n).mapIdx (fun i qs => fragmentInit l.args b i qs)
      match placeWg s l.region g ws n with
      | none => none
      | some (s1, core, bar) =>
        let s2 := copyTileIn s1 core (((getWg (getCore s1 core) bar).map (·.base)).getD 0) l.region b
        let mark (x : Batch) : Batch := { x with running := true, waiting := decide (n < (batchWaves b).length) }
        some { s2 with batches := updateWhere (fun x => x.id = b.id) mark s2.batches }

/-- A wave has ended and all that it started is done. -/
def waveDrained (k : Core) (w : Wave) : Bool :=
  w.parts.isEmpty && w.queue.isEmpty && w.frozen.isNone && !w.halted &&
  !k.jobs.any (fun j => (j.2.map (fun x => decide (x.serial = w.serial))).getD false) &&
  !k.array.any (fun e => e.serial = w.serial) && !k.outbound.any (fun o => o.serial = w.serial)

/-- The resident workgroup of a batch: core, barrier slot, workgroup. -/
def batchWg (s : State) (id : Nat) : Option (Nat × Nat × Workgroup) :=
  s.cores.findSome? (fun kc => ((residentWgs kc.2).find? (fun g => g.2.kind = .fragment id)).map (fun g => (kc.1, g.1, g.2)))

/-- The next wave of a running batch takes the place of one that has ended. -/
def nextFragment (s : State) (b : Batch) : Option State :=
  match batchWg s b.id with
  | none => none
  | some (core, bar, g) =>
    if tornDown s b.launch then none else
    let k := getCore s core
    match (batchWaves b)[g.started]?, g.slots.find? (fun sl => ((getWave k sl).map (waveDrained k)).getD false) with
    | some qs, some sl =>
      match getWave k sl with
      | none => none
      | some w =>
        let k1 := freeFuts k [w.serial]
        let k2 := setWg { k1 with waves := kset none k1.waves sl none } bar
          { g with slots := g.slots.filter (· != sl), started := g.started + 1 }
        let mark (x : Batch) : Batch := { x with waiting := decide (g.started + 1 < (batchWaves b).length) }
        let s1 := { s with batches := updateWhere (fun x => x.id = b.id) mark s.batches }
        some (startWave (setCore s1 core k2) core bar (fragmentInit (argsOf s b.launch) b w.index qs))
    | _, _ => none

/-- FRAGMENT_WG_CREATE (R335): a waiting batch's workgroup is created, or a running one starts its next wave. -/
def execFragmentWgCreate (batch : Nat) (s : State) : Host.Outcome State Fault Refusal :=
  match s.batches.find? (fun b => b.id = batch) with
  | none => .next s
  | some b => .next ((if b.running then nextFragment s b else placeBatch s b).getD s)

/-- Every wave of a fragment workgroup has started and ended. -/
def fragmentsDone (s : State) (core : Nat) (g : Workgroup) (b : Batch) : Bool :=
  let k := getCore s core
  decide ((batchWaves b).length ≤ g.started) && (g.slots.filterMap (getWave k)).all (waveDrained k)

/-- A batch has written its tile back, and its workgroup's footprint returns to its core, when no peer has a row to answer. -/
def endBatch (s : State) (core bar id : Nat) : State :=
  match s.batches.find? (fun b => b.id = id) with
  | none => s
  | some b => if b.peers.isEmpty then freeWg { s with batches := s.batches.filter (fun x => x.id != id) } core bar else s

/-- COLOUR_TILE_WRITEBACK (R335): the tile returns to the target, and the workgroup's footprint to its core. -/
def execColourTileWriteback (core bar : Nat) (s : State) : Host.Outcome State Fault Refusal :=
  match getWg (getCore s core) bar with
  | none => .next s
  | some g =>
    match g.kind with
    | .fragment id =>
      match s.batches.find? (fun b => b.id = id) with
      | none => .next s
      | some b =>
        if !fragmentsDone s core g b then .next s
        else .next (endBatch (if b.sent then s else copyTileOut s core g.base g.region b) core bar id)
    | _ => .next s

/-! Ordered blend (R336). -/

def fragmentAt (w : Wave) (lane : Nat) : Option Fragment := w.fragments.find? (fun x => x.lane = lane)

/-- A fragment of a wave has released its section: by `blend.rel`, or by its lane's end. -/
def released (w : Wave) (x : Fragment) : Bool := x.hold = 2 || !tbit (liveLanes w) x.lane

/-- A fragment of the same pixel with a lower key, in a resident wave of the workgroup, has not released. -/
def blockedBy (ws : List Wave) (x : Fragment) : Bool :=
  ws.any (fun w => w.fragments.any (fun y => y.x = x.x && y.y = x.y &&
    keyLess (0, y.s, y.n) (0, x.s, x.n) && !released w y))

/-- The waves of the part's workgroup, the part's own as it is now. -/
def Cx.wgWaves (c : Cx) : List Wave :=
  c.g.slots.filterMap (fun sl => if sl = c.slot then some { c.w with parts := c.w.parts.set c.idx c.p } else getWave c.k sl)

def Cx.isFragment (c : Cx) : Bool := match c.g.kind with
  | .fragment _ => true
  | _ => false

/-- Fragments of the participating lanes. -/
def Cx.sections (c : Cx) (f : Fields) : List Fragment := (lanesOf (c.activeLanes f)).filterMap (fragmentAt c.w)

def Cx.setHold (c : Cx) (f : Fields) (h : Nat) : Cx :=
  { c with w := { c.w with fragments := updateWhere (fun x => tbit (c.activeLanes f) x.lane) (fun x => { x with hold := h }) c.w.fragments } }

/-- `blend.acq` (R336): it acts as an acquire at .wg. -/
def execBlendAcq (f : Fields) (s : State) : Host.Outcome State Fault Refusal :=
  runPart 0x1D1 f s (fun c => outsideHandler c (
    if c.activeLanes f = 0 then .next c
    else if !c.isFragment || (c.sections f).any (fun x => x.hold != 0) then .trap { cause := 0x18 }
    else if (c.sections f).any (blockedBy c.wgWaves) then .stall .sync
    else
      let d := c.setHold f 1
      .next { d with k := l1Acquire d.k d.g.asn 1 }))

/-- `blend.rel` (R336): it acts as a release at .wg. -/
def execBlendRel (f : Fields) (s : State) : Host.Outcome State Fault Refusal :=
  runPart 0x1D2 f s (fun c => outsideHandler c (
    if c.activeLanes f = 0 then .next c
    else if !c.isFragment || (c.sections f).length != popCount (c.activeLanes f) || (c.sections f).any (fun x => x.hold != 1) then
      .trap { cause := 0x18 }
    else if !c.performed 1 then .stall .sync
    else .next (c.setHold f 2)))

end Sys2Proof.Machine
end

