-- ==== Sys2Proof/Machine/Exchange.lean ====
section
/-! DEFINITION. Lane exchange (10 R211-R216). -/
namespace Sys2Proof.Machine

/-- Lanes of a segment: 4 x 2^SEG, or the wave's declared width for the instructions of width W. -/
def segOf (c : Cx) (op : Nat) (f : Fields) : Nat :=
  if (opInfo op).width = .wave then c.w.width else 4 * 2 ^ bits f.x 0 3

def segBase (n l : Nat) : Nat := l - l % n

/-- The tag that an exchange sets in a quad (R211): that of the source in the quads of the source lanes, ANY
where those differ. `src` gives the source lanes read for a written lane. -/
def exchangeTag (c : Cx) (op : Nat) (f : Fields) (act : Lanes) (src : Nat → List Nat) (q : Nat) : Tag :=
  let quads := ((lanesOf act).filter (fun l => l / 4 = q)).flatMap (fun l => (src l).map (· / 4))
  match quads.map (c.opnTag op f 0) with
  | [] => tagAny
  | t :: ts => if ts.all (· = t) then t else tagAny

/-- `vshfl` (R212): `pick n i b` is the index within the segment that lane index i reads. -/
def shuffle (op : Nat) (f : Fields) (s : State) (pick : Nat → Nat → Nat → Nat) : Host.Outcome State Fault Refusal :=
  runPart op f s (fun c =>
    let n := segOf c op f
    let act := c.activeLanes f
    let from_ (l : Nat) : Nat := segBase n l + pick n (l % n) (c.opn op f 1 .int l).toNat
    .next (c.putV op f (perLane f c (fun l => c.opn op f 0 .int (from_ l)))
      (exchangeTag c op f act (fun l => [from_ l]))))

/-- `vshfl.idx` (R212). -/
def execVshflIdx (f : Fields) (s : State) : Host.Outcome State Fault Refusal :=
  shuffle 0x060 f s (fun n _ b => b % n)

/-- `vshfl.idx` with an immediate (R212): over the whole wave. -/
def execVshflIdxImm (f : Fields) (s : State) : Host.Outcome State Fault Refusal :=
  shuffle 0x160 f s (fun n _ b => b % n)

/-- `vshfl.up` (R212). -/
def execVshflUp (f : Fields) (s : State) : Host.Outcome State Fault Refusal :=
  shuffle 0x061 f s (fun _ i b => if b ≤ i then i - b else i)

/-- `vshfl.down` (R212). -/
def execVshflDown (f : Fields) (s : State) : Host.Outcome State Fault Refusal :=
  shuffle 0x062 f s (fun n i b => if i + b < n then i + b else i)

/-- `vshfl.xor` (R212). -/
def execVshflXor (f : Fields) (s : State) : Host.Outcome State Fault Refusal :=
  shuffle 0x063 f s (fun n i b => i ^^^ (b % n))

/-- The lane that a value names, modulo the wave's declared width; no wave has more than 64 lanes (R213). -/
def Cx.laneOf (c : Cx) (x : Word) : Nat := x.toNat % c.w.width % 64

/-- `vreadl` (R213). -/
def readLane (op : Nat) (f : Fields) (s : State) : Host.Outcome State Fault Refusal :=
  runPart op f s (fun c =>
    let j := c.laneOf (c.opn op f 1 .int 0)
    single f c (.next (c.putS op f (c.opn op f 0 .int j))))

/-- `vreadl` (R213). -/
def execVreadl (f : Fields) (s : State) : Host.Outcome State Fault Refusal := readLane 0x064 f s

/-- `vreadl` with an immediate (R213). -/
def execVreadlImm (f : Fields) (s : State) : Host.Outcome State Fault Refusal := readLane 0x164 f s

/-- `vwritel` (R213): lane j, whether it participates or not. -/
def writeLane (op : Nat) (f : Fields) (s : State) : Host.Outcome State Fault Refusal :=
  runPart op f s (fun c =>
    let j := c.laneOf (c.opn op f 1 .int 0)
    single f c (.next (c.putV op f [(j, c.opn op f 0 .int 0)] (fun _ => tagAny))))

/-- `vwritel` (R213). -/
def execVwritel (f : Fields) (s : State) : Host.Outcome State Fault Refusal := writeLane 0x065 f s

/-- `vwritel` with an immediate (R213). -/
def execVwritelImm (f : Fields) (s : State) : Host.Outcome State Fault Refusal := writeLane 0x165 f s

/-- The participating lanes of a lane's segment. -/
def segPart (act : Lanes) (n l : Nat) : Lanes := act &&& maskOf ((List.range n).map (segBase n l + ·))

/-- The votes `any` and `all` (R214). -/
def vote (op : Nat) (f : Fields) (s : State) (h : Lanes → Lanes → Bool) : Host.Outcome State Fault Refusal :=
  runPart op f s (fun c =>
    let n := segOf c op f
    let act := c.activeLanes f
    let p := c.readP (f.a.toNat - 392)
    .next (c.putP f act (lanesWhere act (fun l => h p (segPart act n l)))))

/-- `vvote.any` (R214). -/
def execVvoteAny (f : Fields) (s : State) : Host.Outcome State Fault Refusal :=
  vote 0x066 f s (fun p seg => p &&& seg != 0)

/-- `vvote.all` (R214). -/
def execVvoteAll (f : Fields) (s : State) : Host.Outcome State Fault Refusal :=
  vote 0x067 f s (fun p seg => p &&& seg = seg)

/-- `vvote.ballot` (R214). -/
def execVvoteBallot (f : Fields) (s : State) : Host.Outcome State Fault Refusal :=
  runPart 0x068 f s (fun c =>
    single f c (.next (c.writeM (f.d.toNat - 400) (c.activeLanes f &&& c.readP (f.a.toNat - 392)))))

/-- One level of the float tree of 08 R151: neighbours at distance d are added. -/
def treeLevel : List Word → List Word
  | a :: b :: rest => f32Add a b :: treeLevel rest
  | l => l

/-- The float tree over a segment whose length is a power of two (08 R151). -/
def floatTree : Nat → List Word → Word
  | 0, l => l.headD 0
  | n + 1, l => if l.length ≤ 1 then l.headD 0 else floatTree n (treeLevel l)

/-- The values of a segment in lane order, the identity where a lane does not participate (R215). -/
def segVals (c : Cx) (op : Nat) (k : OpKind) (f : Fields) (act : Lanes) (n l : Nat) (ident : Word) : List Word :=
  (List.range n).map (fun i =>
    let j := segBase n l + i
    if tbit act j then c.opn op f 0 k j else ident)

/-- A reduction or scan: `h` gives a lane's result from its index and its segment's values (R215). -/
def reduce (op : Nat) (k : OpKind) (f : Fields) (s : State) (ident : Word) (h : Nat → List Word → Word) :
    Host.Outcome State Fault Refusal :=
  runPart op f s (fun c =>
    let n := segOf c op f
    let act := c.activeLanes f
    .next (c.putV op f (perLane f c (fun l => h (l % n) (segVals c op k f act n l ident)))
      (exchangeTag c op f act (fun l => (List.range n).map (segBase n l + ·)))))

def redType (f : Fields) : Nat := bits f.x 3 2

/-- `vredadd` (R215). -/
def execVredadd (f : Fields) (s : State) : Host.Outcome State Fault Refusal :=
  if redType f = 2 then reduce 0x069 .f32 f s 0x80000000 (fun _ l => floatTree 7 l)
  else reduce 0x069 .int f s 0 (fun _ l => l.foldl (· + ·) 0)

/-- `vredmax` (R215, R199). -/
def execVredmax (f : Fields) (s : State) : Host.Outcome State Fault Refusal :=
  match redType f with
  | 0 => reduce 0x06A .int f s 0x80000000 (fun _ l => l.foldl maxS 0x80000000)
  | 1 => reduce 0x06A .int f s 0 (fun _ l => l.foldl maxU 0)
  | _ => reduce 0x06A .f32 f s 0xFF800000 (fun _ l =>
      (l.drop 1).foldl (fun a b => BitVec.ofNat 32 (fp32.select true a.toNat b.toNat)) (l.headD 0))

/-- `vscan` (R215, 08 R151): ascending, each float step rounded. -/
def execVscan (f : Fields) (s : State) : Host.Outcome State Fault Refusal :=
  let excl := tbit f.x 5
  let cut (i : Nat) : Nat := if excl then i else i + 1
  if redType f = 2 then
    reduce 0x06B .f32 f s 0x80000000 (fun i l => (l.take (cut i)).foldl f32Add 0x80000000)
  else reduce 0x06B .int f s 0 (fun i l => (l.take (cut i)).foldl (· + ·) 0)

/-- `vmatch` (R216). -/
def execVmatch (f : Fields) (s : State) : Host.Outcome State Fault Refusal :=
  runPart 0x06C f s (fun c =>
    let n := segOf c 0x06C f
    let act := c.activeLanes f
    let v (l : Nat) : Word := c.opn 0x06C f 0 .int l
    let first (l : Nat) : Nat := ((lanesOf (segPart act n l)).find? (fun k => v k = v l)).getD l
    .next (c.putV 0x06C f (perLane f c (fun l => BitVec.ofNat 32 (first l))) (fun _ => tagI32)))

end Sys2Proof.Machine
end

