-- ==== Sys2Proof/Machine/Power.lean ====
section
/-! DEFINITION. Cadence, sprint permits and ramp windows (16 R313-R320; 29 R426-R428). -/
namespace Sys2Proof.Machine

/-! Cadence. -/

/-- Cores that hold workgroups of a region. -/
def coresOfRegion (s : State) (region : Rgn) : Nat :=
  (s.cores.filter (fun kc => kc.2.wgs.any (fun g => (g.2.map (·.region)) = some region))).length

/-- INTERVAL equals FLOOR for certain (R314): the core's share of POWER is at least 7.5 W and its vector issue took
at most half of the 64 quads a cycle since the last evaluation. -/
def atFloor (s : State) (k : Core) (cyc : Nat) : Bool :=
  let share := match activeCtx k with
    | none => true
    | some c => decide (15 * coresOfRegion s c.region ≤ 2 * (regionGrant s c.region).power)
  share && decide (k.vecQuads ≤ 32 * (cyc - k.lastEval))

/-- CADENCE_EVAL (R314). Where the spec leaves the estimate open, the value it finds is free (log 2). -/
def execCadenceEval (core : Nat) (s : State) : Host.Outcome State Fault Refusal :=
  let k := getCore s core
  let cyc := coreCyc s core
  if k.ramp.isSome || cyc % 1024 != 0 || cyc ≤ k.lastEval then .next s
  else
    let want := if atFloor s k cyc then k.floor else max k.floor (min 64 (Config.freeNat s.freeCount))
    let i := if k.interval ≤ want then want else max want ((k.interval + 1) / 2)
    .next (setCore { s with freeCount := s.freeCount + 1 } core { k with interval := i, lastEval := cyc, vecQuads := 0 })

/-! Permits. -/

def getZone (s : State) (z : Nat) : Zone := kget {} s.zones z
def setZone (s : State) (z : Nat) (x : Zone) : State := { s with zones := kset {} s.zones z x }

/-- A context is runnable (R428). -/
def ctxRunnable (k : Core) (c : Context) : Bool :=
  c.place != .streamed && k.waves.any (fun sw => match sw.2 with
    | none => false
    | some w => ((getWg k w.wg).map (·.region)) = some c.region && w.frozen.isNone &&
        w.parts.any (fun p => p.frozen.isNone && (!w.halted || p.stepping)))

/-- p: the largest effective PERMITS among regions with a runnable context on a cluster (R316). -/
def claimOf (s : State) (cl : Nat) : Nat :=
  (List.range 8).foldl (fun m i =>
    let k := getCore s (8 * cl + i)
    ((k.ctxs.filter (ctxRunnable k)).map (fun c => (regionGrant s c.region).permits)).foldl max m) 0

/-- One due credit of a cluster (R318). -/
def creditOne (s : State) (cl : Nat) : State :=
  let c := getCluster s cl
  if c.lowCycles / 16384 ≤ c.credited then s
  else
    let z := getZone s (cl / 2)
    setZone (setCluster s cl { c with credited := c.credited + 1 }) (cl / 2)
      { z with pool := if z.pool < z.grant then z.pool + 1 else z.pool }

/-- The due ramp charge of a core (R320): 8,192 of its ramp-window cycles ran above the module cap without a grant. -/
def chargeOne (s : State) (core : Nat) : State :=
  let k := getCore s core
  if k.overCap < 8192 then s
  else
    let s1 := setCore s core { k with overCap := k.overCap - 8192 }
    let z := getZone s1 (core / 16)
    if 0 < z.pool then setZone s1 (core / 16) { z with pool := z.pool - 1 }
    else
      let c := getCluster s1 (core / 8)
      setCluster s1 (core / 8) { c with debt := c.debt + 1 }

/-- The due credits of a zone's clusters, which come first (R427). -/
def zoneCredits (s : State) (zone : Nat) : State := creditOne (creditOne s (2 * zone)) (2 * zone + 1)

/-- The due ramp charges of a zone's cores, which come after them. -/
def zoneCharges (s : State) (zone : Nat) : State := ((List.range 16).map (16 * zone + ·)).foldl chargeOne s

/-- PERMIT_CREDIT (R318). -/
def execPermitCredit (cluster : Nat) (s : State) : Host.Outcome State Fault Refusal := .next (creditOne s cluster)

/-- A cluster stands at a charging boundary (R426) that has not been settled. -/
def atBoundary (c : Cluster) : Bool := decide (c.nextClaim = c.cyc)

/-- The next charging boundary. -/
def passBoundary (c : Cluster) : Cluster := { c with nextClaim := (c.cyc / 8192 + 1) * 8192 }

/-- A sprint ends in the fall of R317; each of the cluster's loaded cores drops its load (R319). -/
def fall (s : State) (cl : Nat) (noCool : Bool) : State :=
  let c := getCluster s cl
  if c.clock != .sprint then s
  else
    let s1 := setCluster s cl { c with clock := .falling, clockEnd := c.cyc + 2048, noCool := noCool }
    (List.range 8).foldl (fun s i =>
      let n := 8 * cl + i
      let k := getCore s n
      if k.ctxs.isEmpty then s else setCore s n (startRamp k c.cyc)) s1

/-- A claim is granted: one permit, and the cluster sprints. -/
def grantClaim (s : State) (cl : Nat) : State :=
  let z := getZone s (cl / 2)
  let s1 := setZone s (cl / 2) { z with pool := z.pool - 1 }
  setCluster s1 cl { getCluster s1 cl with clock := .sprint }

/-- A claim would be granted alone, with a number of permits already taken. -/
def wouldGrant (z : Zone) (taken p : Nat) : Bool := decide (1 ≤ z.pool - taken) && decide (z.grant < z.pool - taken + p)

/-- What a cluster does at its boundary: nothing while falling or cooling; no claim when p is 0; else its p. -/
def claimAt (s : State) (cl : Nat) (here : Bool) : Option Nat :=
  let c := getCluster s cl
  if here && atBoundary c && (c.clock = .nominal || c.clock = .sprint) then some (claimOf s cl) else none

/-- Settle the claims of a zone that arrive at once (R316). -/
def settleClaims (s : State) (zn : Nat) (lo hi : Option Nat) : State :=
  let a := 2 * zn
  let b := 2 * zn + 1
  let z := getZone s zn
  let pl := lo.getD 0
  let ph := hi.getD 0
  let one (s : State) (cl p : Nat) (claim : Option Nat) : State :=
    match claim with
    | none => s
    | some 0 => fall s cl true
    | some _ => if wouldGrant z 0 p then grantClaim s cl else fall s cl false
  if 0 < pl && 0 < ph then
    if wouldGrant z 1 pl && wouldGrant z 1 ph then grantClaim (grantClaim s a) b
    else if wouldGrant z 0 pl && wouldGrant z 0 ph then
      let s1 := if z.last then fall (grantClaim s a) b false else fall (grantClaim s b) a false
      setZone s1 zn { getZone s1 zn with last := !z.last }
    else one (one s a pl lo) b ph hi
  else one (one s a pl lo) b ph hi

/-- SPRINT_CLAIM (R316, R427): the clusters whose boundaries arrive together, after the zone's due credits and charges. -/
def execSprintClaim (zone : Nat) (lower upper : Bool) (s : State) : Host.Outcome State Fault Refusal :=
  let a := 2 * zone
  let b := 2 * zone + 1
  let s1 := zoneCharges (zoneCredits s zone) zone
  let lo := claimAt s1 a lower
  let hi := claimAt s1 b upper
  let s2 := settleClaims s1 zone lo hi
  let pass (s : State) (cl : Nat) (here : Bool) : State :=
    let c := getCluster s cl
    if here && atBoundary c then setCluster s cl (passBoundary c) else s
  .next (pass (pass s2 a lower) b upper)

/-- FALL_STEP_END (R317, R320): cool-down with its debt, or nominal after a boundary without a claim. -/
def execFallStepEnd (cluster : Nat) (s : State) : Host.Outcome State Fault Refusal :=
  let c := getCluster s cluster
  if c.clock != .falling || c.cyc < c.clockEnd then .next s
  else if c.noCool then .next (setCluster s cluster { c with clock := .nominal, noCool := false })
  else
    .next (setCluster s cluster
      { c with clock := .coolDown, clockEnd := c.cyc + 262144 + 16384 * c.debt, debt := 0 })

/-- COOL_DOWN_END (R317): the next claim is made at a later boundary (R426). -/
def execCoolDownEnd (cluster : Nat) (s : State) : Host.Outcome State Fault Refusal :=
  let c := getCluster s cluster
  if c.clock != .coolDown || c.cyc < c.clockEnd then .next s
  else
    let c1 := { c with clock := .nominal }
    .next (setCluster s cluster (if atBoundary c then passBoundary c1 else c1))

/-! Ramp windows. -/

/-- RAMP_INTERVAL_DOUBLE (R319). -/
def execRampIntervalDouble (core : Nat) (s : State) : Host.Outcome State Fault Refusal :=
  let k := getCore s core
  match k.ramp with
  | none => .next s
  | some r =>
    if coreCyc s core < r.start + 10240 * (r.doubled + 1) then .next s
    else .next (setCore s core { k with interval := min 64 (2 * k.interval), ramp := some { r with doubled := r.doubled + 1 } })

/-- RAMP_WINDOW_END (R319). -/
def execRampWindowEnd (core : Nat) (s : State) : Host.Outcome State Fault Refusal :=
  let k := getCore s core
  match k.ramp with
  | none => .next s
  | some r => if coreCyc s core < r.start + 64000 then .next s else .next (setCore s core (endRamp k))

/-- RAMP_CHARGE (R320), after the zone's due credits (R427). -/
def execRampCharge (core : Nat) (s : State) : Host.Outcome State Fault Refusal := .next (chargeOne (zoneCredits s (core / 16)) core)

end Sys2Proof.Machine
end

