-- ==== Sys2Proof/Machine/Firmware.lean ====
section
/-! DEFINITION. Writes of control firmware to registers without a row of their own, and to the bindings that it keeps
(11 R219, R221, R232, R241; 02 R31; 16 R315; 21 R383). -/
namespace Sys2Proof.Machine

/-- Bits of a peer-window register that are not read-only zeros (21 R383). -/
def windowMask : Dword := 0x80000FF700000FFF

/-- A permit register's GRANT, to at most 64; POOL stays within it (16 R315). -/
def setGrant (s : State) (z : Nat) (value : Word) : State :=
  let x := getZone s z
  let g := min 64 (bits value 7 7)
  setZone s z { x with grant := g, pool := min x.pool g }

/-- FW_REGISTER_WRITE (11 R219). -/
def execFwRegisterWrite (w : FwWrite) (s : State) : Host.Outcome State Fault Refusal :=
  match w with
  | .keySlot k digest => .next { s with keySlots := kset 0 s.keySlots k digest }
  | .sliceConfig n value => .next { s with combineWin := kset 32 s.combineWin n (BitVec.ofNat 8 value.toNat) }
  | .permits z value => .next (setGrant s z value)
  | .peerWindow asn j value => .next { s with peerWindows := kset 0 s.peerWindows (4 * asn + j) (value &&& windowMask) }
  | .addressSpace asn => .next (openSpace s asn)
  | .hostSpace ctx asn => .next (setHost s ctx { getHost s ctx with asn := asn })
  | .peerContext p asn rcb => .next { s with pctxs := (p, asn, rcb) :: s.pctxs.filter (fun x => x.1 != p) }

end Sys2Proof.Machine
end

