-- ==== Sys2Proof/Machine/Cert.lean ====
section
/-! DEFINITION. The identity key pair, ECDSA P-256 signing (FIPS 186-5), and the certificate over the identity key in DER
(01 R16; ITU-T X.690, X.509). What the rule leaves open in the certificate is log 46's. -/
namespace Sys2Proof.Machine

/-- A number from 1 to n - 1, the range of a private key and of a nonce. -/
def scalarOf (x : Nat) : Nat := x % (p256n - 1) + 1

/-- The public key of a private key. -/
def publicKey (d : Nat) : Nat × Nat := (ptMul 256 d (some p256g)).getD (0, 0)

/-- The signature (r, s) of a digest by a private key with a nonce. -/
def signWith (d k : Nat) (digest : List Byte) : Nat × Nat :=
  let r := (publicKey k).1 % p256n
  (r, invMod k p256n * (ofBytesBE digest + r * d) % p256n)

/-- The signature of a digest: a nonce that gives a zero r or s is not used. -/
def ecdsaSign (d : Nat) (digest : List Byte) : Nat × Nat :=
  let tries := (List.range 16).map (fun i => signWith d (scalarOf (Config.signNonce digest i)) digest)
  (tries.find? (fun x => x.1 != 0 && x.2 != 0)).getD (1, 1)

/-- Big-endian bytes of a number. -/
def bytesBE (n v : Nat) : List Byte := (toBytes n v).reverse

/-! DER (X.690). -/

/-- A length in the definite form. -/
def derLen (n : Nat) : List Byte :=
  if n < 128 then bytesBE 1 n else if n < 256 then 0x81 :: bytesBE 1 n else 0x82 :: bytesBE 2 n

def der (tag : Byte) (body : List Byte) : List Byte := tag :: derLen body.length ++ body
def derSeq (parts : List (List Byte)) : List Byte := der 0x30 parts.flatten

/-- A non-negative INTEGER. -/
def derInt (v : Nat) : List Byte :=
  let bs := bytesBE (Nat.log2 v / 8 + 1) v
  der 0x02 (if 128 ≤ (bs.headD 0).toNat then 0 :: bs else bs)

def derBits (bs : List Byte) : List Byte := der 0x03 (0 :: bs)

/-- OBJECT IDENTIFIERs: ecdsa-with-SHA256, id-ecPublicKey, prime256v1, and the attributes commonName, serialNumber. -/
def oidEcdsaSha256 : List Byte := der 0x06 [0x2A, 0x86, 0x48, 0xCE, 0x3D, 0x04, 0x03, 0x02]
def oidEcKey : List Byte := der 0x06 [0x2A, 0x86, 0x48, 0xCE, 0x3D, 0x02, 0x01]
def oidP256 : List Byte := der 0x06 [0x2A, 0x86, 0x48, 0xCE, 0x3D, 0x03, 0x01, 0x07]
def oidName : List Byte := der 0x06 [0x55, 0x04, 0x03]
def oidSerial : List Byte := der 0x06 [0x55, 0x04, 0x05]

/-- A digit as a character, in base 16. -/
def digitByte (n : Nat) : Byte := BitVec.ofNat 8 (if n < 10 then 48 + n else 55 + n)

/-- A number in n digits of a base. -/
def digits (base : Nat) : Nat → Nat → List Byte
  | 0, _ => []
  | n + 1, v => digits base n (v / base) ++ [digitByte (v % base)]

/-- A name of attributes, each a PrintableString in a set of its own. -/
def derName (attrs : List (List Byte × List Byte)) : List Byte :=
  derSeq (attrs.map (fun a => der 0x31 (derSeq [a.1, der 0x13 a.2])))

/-- The issuer, as the text "Dravtin". -/
def issuerName : List Byte := derName [(oidName, [0x44, 0x72, 0x61, 0x76, 0x74, 0x69, 0x6E])]

/-- The subject: the fused serial number, and the firmware's security version number, in hexadecimal. -/
def subjectName (svn : Nat) : List Byte :=
  derName [(oidSerial, digits 16 16 Config.fusedSerial), (oidName, digits 16 8 svn)]

/-- The first day of validity, as a UTCTime; a module's certificate has no last day. -/
def validity : List Byte :=
  let day := Config.certDay
  derSeq [der 0x17 (digits 10 2 (day / 400 % 50) ++ digits 10 2 (day / 32 % 12 + 1) ++ digits 10 2 (day % 28 + 1) ++
            [48, 48, 48, 48, 48, 48, 0x5A]),
          der 0x18 ([57, 57, 57, 57, 49, 50, 51, 49, 50, 51, 53, 57, 53, 57, 0x5A])]

/-- The subjectPublicKeyInfo of an uncompressed P-256 point. -/
def keyInfo (q : Nat × Nat) : List Byte :=
  derSeq [derSeq [oidEcKey, oidP256], derBits (0x04 :: bytesBE 32 q.1 ++ bytesBE 32 q.2)]

/-- The part of a version 3 certificate that is signed. -/
def certBody (svn : Nat) (q : Nat × Nat) : List Byte :=
  derSeq [der 0xA0 (derInt 2), derInt (Config.certSerial % 2 ^ 64 + 1), derSeq [oidEcdsaSha256], issuerName, validity,
          subjectName svn, keyInfo q]

/-- The certificate of an identity public key, signed with Dravtin's key. -/
def certificateOf (svn : Nat) (q : Nat × Nat) : List Byte :=
  let body := certBody svn q
  let sig := ecdsaSign (scalarOf Config.dravtinKey) (sha256 body)
  derSeq [body, derSeq [oidEcdsaSha256], derBits (derSeq [derInt sig.1, derInt sig.2])]

/-- The identity private key, made from the fused secret and the firmware's digest (R16). -/
def identityKey (digest : List Byte) : Nat := scalarOf (Config.identityScalar digest)

end Sys2Proof.Machine
end

