-- ==== Sys2Proof/Machine/HostPort.lean ====
section
/-! DEFINITION. Bring-up, and the messages that the host sends on port 0 (01; 11 R218, R219). -/
namespace Sys2Proof.Machine

/-! The readiness map and the bring-up fault record (R12-R15). -/

/-- Word and bit of a function in READY and FAIL (R13). -/
def funcBit : Func → Nat × Nat
  | .cluster n => (0, n)
  | .slice n => if n < 64 then (1, n) else (2, n - 64)
  | .hbm n => (2, 16 + n)
  | .port n => (2, 24 + n)
  | .ccore n => (2, 32 + n)

/-- Detail code (22 R398). -/
def funcDetail : Func → Nat
  | .cluster n => 0x100 + n
  | .slice n => 0x200 + n
  | .hbm n => 0x300 + n
  | .port n => 0x400 + n
  | .ccore n => 0x500 + n

/-- The 64 bytes of the record (R12). -/
def bringUpRecord (s : State) : List Byte :=
  s.ccause ++ toBytes 8 s.fail0.toNat ++ toBytes 8 s.fail1.toNat ++ toBytes 8 s.fail2.toNat ++ toBytes 4 s.first.toNat ++
  [s.firstCause, if s.recovery then 1 else 0] ++ List.replicate 26 0

/-- The three readiness words; zero in recovery (R11). -/
def readyWords (s : State) : List Byte :=
  if s.recovery then List.replicate 24 0
  else toBytes 8 s.ready0.toNat ++ toBytes 8 s.ready1.toNat ++ toBytes 8 s.ready2.toNat

/-- A READY message (R15). -/
def sendReady (s : State) : State := sendUnder s 0 0x09 0 0 (readyWords s ++ bringUpRecord s)

/-! Boot (R9-R11). -/

/-- The result of a firmware image at a boot ROM: 0, BAD_IMAGE or ROLLBACK (R9). -/
def imageCause (img : List Byte) : Byte :=
  let hdr := img.take 64
  let body := (img.drop 128).take (field img 8 11)
  let be (lo : Nat) : Nat := ofBytesBE ((img.drop lo).take 32)
  let key := (toBytes 32 Config.firmwareKeyX).reverse ++ (toBytes 32 Config.firmwareKeyY).reverse
  if img.length < 128 + field img 8 11 || field img 0 3 != 0x4A574649 || field img 12 15 != 0 || field img 48 63 != 0 then 0x52
  else if sha256 key != Config.fusedKeyDigest ||
      !ecdsaOk Config.firmwareKeyX Config.firmwareKeyY (be 64) (be 96) (sha256 hdr) then 0x52
  else if sha256 body != (img.drop 16).take 32 then 0x52
  else if field img 4 7 < Config.fusedMinSvn then 0x53
  else 0

/-- The result of every boot ROM. -/
def bootFrom (s : State) (images : List (List Byte)) : State :=
  let cs := (List.range 8).map (fun n => imageCause (images.getD n []))
  let digests := (List.range 8).map (fun n => if cs.getD n 0x52 = 0 then some (((images.getD n []).drop 16).take 32) else none)
  let up := (List.range 8).find? (fun n => cs.getD n 0x52 = 0)
  let fail2 : Dword := maskOf (((List.range 8).filter (fun n => cs.getD n 0x52 != 0)).map (32 + ·))
  let svn := match up with
    | some n => BitVec.ofNat 32 (field (images.getD n []) 4 7)
    | none => 0
  let s1 := { s with booted := true, bringUp := up, recovery := up.isNone, ccause := cs, fail2 := fail2, digests := digests, svn := svn }
  if up.isNone then sendReady s1 else s1

/-- POWER_ON_BOOT (R9, R11): at power-on, or at a module reset, which first returns the module to its state at reset. -/
def execPowerOnBoot (images : List (List Byte)) (s : State) : Host.Outcome State Fault Refusal :=
  let s0 := if s.booted then { State.reset with agenda := s.agenda, freeCount := s.freeCount, sent := s.sent } else s
  .next (bootFrom s0 images)

/-! Self-tests (R10). -/

def readyBit (s : State) (f : Func) : Bool :=
  let b := funcBit f
  if b.1 = 0 then tbit s.ready0 b.2 else if b.1 = 1 then tbit s.ready1 b.2 else tbit s.ready2 b.2

def failBit (s : State) (f : Func) : Bool :=
  let b := funcBit f
  if b.1 = 0 then tbit s.fail0 b.2 else if b.1 = 1 then tbit s.fail1 b.2 else tbit s.fail2 b.2

/-- A function exists. -/
def funcExists : Func → Bool
  | .cluster n => decide (n < 40)
  | .slice n => decide (n < 80)
  | .hbm n => decide (n < 8)
  | .port n => decide (n < 6)
  | .ccore n => decide (n < 8)

/-- Its self-test runs and has not ended. -/
def testRuns (s : State) (f : Func) : Bool :=
  s.booted && !s.recovery && funcExists f && !readyBit s f && !failBit s f

/-- The bits of some functions in word i of the map. -/
def funcMask (fs : List Func) (i : Nat) : Dword := maskOf ((fs.filter (fun f => (funcBit f).1 = i)).map (fun f => (funcBit f).2))

/-- The home slices of a die are fixed once all its slice tests have ended (11 R230). -/
def fixHomes (s : State) (die : Nat) : State :=
  let all := (List.range 40).map (40 * die + ·)
  if (s.homes.getD die none).isNone && all.all (fun n => readyBit s (.slice n) || failBit s (.slice n)) then
    { s with homes := s.homes.set die (some (all.filter (fun n => readyBit s (.slice n)))) }
  else s

/-- SELFTEST_PASS (R10, R15): self-tests that end in one cycle, with one READY message. -/
def execSelftestPass (fs : List Func) (s : State) : Host.Outcome State Fault Refusal :=
  let l := fs.filter (testRuns s)
  if l.isEmpty then .next s
  else
    let s1 := { s with ready0 := s.ready0 ||| funcMask l 0, ready1 := s.ready1 ||| funcMask l 1, ready2 := s.ready2 ||| funcMask l 2 }
    .next (sendReady (fixHomes (fixHomes s1 0) 1))

/-- SELFTEST_FAIL (R10, R12). -/
def execSelftestFail (fs : List Func) (s : State) : Host.Outcome State Fault Refusal :=
  let l := fs.filter (testRuns s)
  match l with
  | [] => .next s
  | f :: rest =>
    let low := rest.foldl (fun m g => min m (funcDetail g)) (funcDetail f)
    let s1 := { s with fail0 := s.fail0 ||| funcMask l 0, fail1 := s.fail1 ||| funcMask l 1, fail2 := s.fail2 ||| funcMask l 2 }
    let s2 := if s.first = 0 then { s1 with first := BitVec.ofNat 32 low, firstCause := 0x54 } else s1
    .next (fixHomes (fixHomes s2 0) 1)

/-! Control space (11 R219). -/

def ctlBase : Nat := 0x01C0000000000000

/-- A zone permit register (16 R315). -/
def permitWord (s : State) (z : Nat) : Nat :=
  let x := getZone s z
  let st (cl : Nat) : Nat := match (getCluster s cl).clock with
    | .nominal => 0
    | .sprint => 1
    | .falling => 2
    | .coolDown => 3
  (if x.last then 2 ^ 31 else 0) + st (2 * z + 1) * 2 ^ 29 + st (2 * z) * 2 ^ 27 + x.grant % 128 * 128 + x.pool % 128

/-- A Capstan counter (20 R371). -/
def capstanWord (s : State) (n : Nat) : Nat :=
  let c := getCapstan s n
  c.arrived.toNat + c.expect.toNat * 2 ^ 16 + c.gen.toNat * 2 ^ 48

/-- The boot endpoint (01 R24): address in network order, port, two zero bytes. -/
def endpointBytes (e : Endpoint) : List Byte := (toBytes 16 e.ip.toNat).reverse ++ toBytes 2 e.port.toNat ++ [0, 0]

/-- A byte of the control page. -/
def pageByte (s : State) (off : Nat) : Byte :=
  if off < 0x18 then (readyWords s).getD off 0
  else if 0x40 ≤ off && off < 0x80 then (bringUpRecord s).getD (off - 0x40) 0
  else if 0x80 ≤ off && off < 0x94 then (endpointBytes Config.bootEndpoint).getD (off - 0x80) 0
  else 0

/-- A byte of control space that a host may read; none outside the areas marked GET. -/
def ctlByte (s : State) (off : Nat) : Option Byte :=
  if off < 0x1000 then some (pageByte s off)
  else if off < 0x1100 then some (numByte (kget (0 : BitVec 256) s.keySlots ((off - 0x1000) / 32)).toNat (off % 32))
  else if 0x20000 ≤ off && off < 0x200A0 then some (numByte (permitWord s ((off - 0x20000) / 8)) (off % 8))
  else if 0x30000 ≤ off && off < 0x32000 then some (numByte (capstanWord s ((off - 0x30000) / 8)) (off % 8))
  else if 0x1000000 ≤ off && off < 0x1000000 + 320 * 0x100000 then
    some (debugByte (getCore s ((off - 0x1000000) / 0x100000)) ((off - 0x1000000) % 0x100000))
  else none

/-- A host PUT to a whole debug register, carried out (22 R404); none for any other PUT to control space. -/
def ctlPut (s : State) (off : Nat) (bs : List Byte) : Option State :=
  if off < 0x1000000 || 0x1000000 + 320 * 0x100000 ≤ off || bs.length != 8 then none
  else
    let core := (off - 0x1000000) / 0x100000
    if off % 0x100000 = 0 then some (debugControl core (BitVec.ofNat 32 (field bs 0 3)) s)
    else if off % 0x100000 = 8 then some (debugCommand core (BitVec.ofNat 64 (field bs 0 7)) s)
    else none

/-! Headers and replies (R18, R24, R25). -/

def dType (d : Datagram) : Nat := field d.bytes 3 3
def dFlags (d : Datagram) : Nat := field d.bytes 4 5
def dCtx (d : Datagram) : Nat := field d.bytes 6 7
def dSeq (d : Datagram) : Word := BitVec.ofNat 32 (field d.bytes 8 11)
def dLen (d : Datagram) : Nat := field d.bytes 12 15
def dAddr (d : Datagram) : Dword := BitVec.ofNat 64 (field d.bytes 16 23)
def dPayload (d : Datagram) : List Byte := d.bytes.drop 32

/-- LEN agrees with the type, which is one that a host sends (R19, R20). -/
def typeOk (d : Datagram) : Bool :=
  match dType d with
  | 0x01 => decide (dLen d = 64)
  | 0x03 => decide (4 ≤ dLen d)
  | 0x04 => decide (dLen d = 4)
  | 0x07 => decide (dLen d = 32)
  | 0x0B => decide (dLen d = 0)
  | _ => false

/-- The message passes the first list of R20. -/
def messageOk (d : Datagram) : Bool :=
  decide (field d.bytes 0 1 = 0xD7A1) && decide (field d.bytes 2 2 = 1) && typeOk d && decide (dFlags d ≤ 1) &&
  decide (dCtx d ≤ 4095) && decide (field d.bytes 24 31 = 0) && decide (d.bytes.length = 32 + dLen d)

/-- A reply to a message, with its CTX, SEQ and ADDR. -/
def answer (s : State) (d : Datagram) (type : Nat) (addr : Dword) (status : Word) (payload : List Byte) : State :=
  sendReply s d.src type (dCtx d) (dSeq d) addr status payload

/-- STATUS: cause, and bytes done (R18). -/
def statusOf (cause : Byte) (done : Nat) : Word := BitVec.ofNat 32 (cause.toNat + 256 * done)

/-- The FAULT message for a host message (R20). -/
def answerFault (s : State) (d : Datagram) (cause : Byte) (access : Nat) (faddr : Dword) (done : Nat) : State :=
  answer s d 0x06 (dAddr d) (statusOf cause done)
    (FaultRec.bytes { cause := cause, kind := 6, access := access, detail := BitVec.ofNat 32 done, faddr := faddr })

/-- The ACK, when FLAGS asks for one (R25). -/
def answerAck (s : State) (d : Datagram) (status : Word) : State :=
  if dFlags d % 2 = 1 then answer s d 0x0A (dAddr d) status [] else s

/-! PUT and GET (R20). -/

/-- What a PUT or GET came to. -/
structure Transfer where
  s : State
  bytes : List Byte := []
  done : Nat := 0
  /-- Cause, and address of the first failing byte. -/
  fail : Option (Byte × Dword) := none

/-- The checks before any access. -/
def transferForm (addr : Dword) (n : Nat) (get : Bool) : Option (Byte × Dword) :=
  if addr.toNat % 4 != 0 || n % 4 != 0 then some (cMisaligned, addr)
  else if 8192 < n then some (0x51, addr)
  else if get && n = 0 then none
  else if 2 ^ 57 ≤ addr.toNat then some (cNonCanonical, addr)
  else if 2 ^ 57 < addr.toNat + n then some (cWrap, addr)
  else none

/-- The route of a host access: a privileged page gives the cause of a missing permission (11 R223). -/
def hostRoute (s : State) (asn : Nat) (get : Bool) (va : Dword) : Except Byte Nat :=
  match route s asn (if get then .load else .store) va with
  | .phys key _ => .ok key
  | .absent => .error cNotResident
  | .denied c => .error (if c = cProtPriv then (if get then cProtRead else cProtWrite) else c)
  | .peer _ => .error 0x47

/-- The first byte of a physical range that lies in a failing sector. -/
def firstBad (s : State) (key n : Nat) : Nat := ((List.range n).find? (fun i => memBadAt s (key + i) 1)).getD 0

/-- One page of a GET. -/
def getPage (asn : Nat) (t : Transfer) (p : Nat × Nat) : Transfer :=
  if t.fail.isSome then t
  else
    let va : Dword := BitVec.ofNat 64 p.1
    if vaOwner va = 7 then
      let l := ((List.range p.2).map (fun i => ctlByte t.s (p.1 + i - ctlBase))).takeWhile (·.isSome)
      let bs := l.filterMap id
      { t with bytes := t.bytes ++ bs, done := t.done + bs.length
               fail := if bs.length < p.2 then some (cProtRead, va + BitVec.ofNat 64 bs.length) else none }
    else match hostRoute t.s asn true va with
      | .error c => { t with fail := some (c, va) }
      | .ok key =>
        if memBadAt t.s key p.2 then { t with fail := some (cCheck, va + BitVec.ofNat 64 (firstBad t.s key p.2)) }
        else { t with bytes := t.bytes ++ memRead t.s key p.2, done := t.done + p.2 }

/-- One page of a PUT. -/
def putPage (asn : Nat) (data : List Byte) (t : Transfer) (p : Nat × Nat) : Transfer :=
  if t.fail.isSome then t
  else
    let va : Dword := BitVec.ofNat 64 p.1
    if vaOwner va = 7 then
      match if data.length = p.2 then ctlPut t.s (p.1 - ctlBase) data else none with
      | some s => { t with s := s, done := t.done + p.2 }
      | none => { t with fail := some (cProtWrite, va) }
    else match hostRoute t.s asn false va with
      | .error c => { t with fail := some (c, va) }
      | .ok key => { t with s := homeWrite t.s key ((data.drop t.done).take p.2), done := t.done + p.2 }

/-- A PUT or GET over its pages. A page here is 4 KiB whatever SIZE its leaf has: a failed check value in a larger page counts
the 4 KiB pieces before it as done (DESIGN CHOICE, log 38). -/
def transfer (s : State) (asn : Nat) (addr : Dword) (n : Nat) (put : Option (List Byte)) : Transfer :=
  match transferForm addr n put.isNone with
  | some f => { s := s, fail := some f }
  | none =>
    let step := match put with
      | some data => putPage asn data
      | none => getPage asn
    (pieces addr.toNat n).foldl step { s := s }

/-- The replies to a PUT or GET (R20, R25). -/
def transferReplies (d : Datagram) (get : Bool) (t : Transfer) : State :=
  let status := match t.fail with
    | some f => statusOf f.1 t.done
    | none => 0
  let s1 := if get then answer t.s d 0x05 (dAddr d) status t.bytes else t.s
  let s2 := match t.fail with
    | some f => answerFault s1 d f.1 (if get then 1 else 2) f.2 t.done
    | none => s1
  answerAck s2 d status

/-! ATTEST (R16, R17). -/

/-- MEASURE. -/
def measure (s : State) : List Byte := sha256 (s.digests.flatMap (fun x => x.getD (List.replicate 32 0)))

/-- The digest of the verified firmware from which the identity key is made: the model's choice is MEASURE (log 46). -/
def firmwareDigest (s : State) : List Byte := measure s

/-- The certificate of R16. -/
def certificate (s : State) : List Byte := certificateOf s.svn.toNat (publicKey (identityKey (firmwareDigest s)))

/-- The payload of an ATTEST_REPLY. -/
def attestPayload (s : State) (nonce : List Byte) : List Byte :=
  let cert := certificate s
  let body := nonce ++ readyWords s ++ toBytes 4 s.svn.toNat ++ toBytes 4 cert.length ++ measure s ++ fitBytes (roundUp cert.length 4) cert
  let sig := ecdsaSign (identityKey (firmwareDigest s)) (sha256 body)
  body ++ bytesBE 32 sig.1 ++ bytesBE 32 sig.2

/-! Applying messages (R21-R25). -/

/-- A message is the latest applied in its context (R23, R24). -/
def takeLast (s : State) (d : Datagram) : State :=
  setHost s (dCtx d) { getHost s (dCtx d) with last := dSeq d, endpoint := some d.src }

/-- Apply the next message of a context; a LAUNCH's ACK follows what its acceptance sends (log 38). -/
def applyMessage (s0 : State) (d : Datagram) : State :=
  let s := takeLast s0 d
  let h := getHost s (dCtx d)
  match dType d with
  | 0x01 =>
    let r := acceptLaunch s { asn := h.asn, host := some (dCtx d) } (dPayload d)
    answerAck r.1 d (statusOf r.2 0)
  | 0x03 => transferReplies d false (transfer s h.asn (dAddr d) (dLen d) (some (dPayload d)))
  | 0x04 => transferReplies d true (transfer s h.asn (dAddr d) (field (dPayload d) 0 3) none)
  | 0x07 => answerAck (answer s d 0x08 0 0 (attestPayload s (dPayload d))) d 0
  | _ => s

/-- Apply the messages held for a context while the next one is there (R22). -/
def applyHeld (ctx : Nat) : Nat → State → State
  | 0, s => s
  | fuel + 1, s =>
    let h := getHost s ctx
    match h.held.find? (fun d => dSeq d = h.last + 1) with
    | none => s
    | some d =>
      applyHeld ctx fuel (applyMessage (setHost s ctx { h with held := h.held.filter (fun x => dSeq x != dSeq d) }) d)

/-- A CTX_RESET (R23, R24). -/
def resetContext (s : State) (d : Datagram) : State :=
  let h := getHost s (dCtx d)
  answerAck (setHost s (dCtx d) { h with last := dSeq d, held := [], count := 0, endpoint := some d.src }) d 0

/-- A message ahead of a gap (R22). -/
def holdMessage (s : State) (d : Datagram) : State :=
  let h := getHost s (dCtx d)
  if h.held.any (fun x => dSeq x = dSeq d) || 64 ≤ h.held.length then s
  else setHost s (dCtx d) { h with held := h.held ++ [d] }

/-- A message arrives on port 0, which is usable once its bit is set (R14); in recovery state the boot ROM uses it without
(R11). -/
def receive (d : Datagram) (s : State) : State :=
  if !s.booted then s
  else if s.recovery then sendReady s
  else if !portReady s 0 then s
  else if !messageOk d then answerFault s d 0x50 0 (dAddr d) 0
  else if dType d = 0x0B then resetContext s d
  else
    let gap := (dSeq d - (getHost s (dCtx d)).last).toNat
    if gap = 1 then applyHeld (dCtx d) 65 (applyMessage s d)
    else if gap = 0 || 2 ^ 31 ≤ gap then answerAck s d 0
    else holdMessage s d

/-! The events: each kind of message is its own row. -/

/-- A LAUNCH whose record is a teardown request (23 R412). -/
def isTeardown (d : Datagram) : Bool :=
  let r := launchRec (dPayload d)
  dType d = 0x01 && decide (r.object = 0) && decide (r.key = 0xFFFFFFFF)

/-- A message of no type that a host sends. -/
def isUnknown (d : Datagram) : Bool :=
  !(dType d = 0x01 || dType d = 0x03 || dType d = 0x04 || dType d = 0x07 || dType d = 0x0B) ||
  !(decide (field d.bytes 0 1 = 0xD7A1) && decide (field d.bytes 2 2 = 1))

/-- LAUNCH (R44). -/
def execLaunch (d : Datagram) (s : State) : Host.Outcome State Fault Refusal :=
  .next (if dType d = 0x01 && !isTeardown d then receive d s else s)

/-- PUT (R20). -/
def execPut (d : Datagram) (s : State) : Host.Outcome State Fault Refusal := .next (if dType d = 0x03 then receive d s else s)

/-- GET (R20). -/
def execGet (d : Datagram) (s : State) : Host.Outcome State Fault Refusal := .next (if dType d = 0x04 then receive d s else s)

/-- ATTEST (R17). -/
def execAttest (d : Datagram) (s : State) : Host.Outcome State Fault Refusal := .next (if dType d = 0x07 then receive d s else s)

/-- CTX_RESET (R23). -/
def execCtxReset (d : Datagram) (s : State) : Host.Outcome State Fault Refusal := .next (if dType d = 0x0B then receive d s else s)

/-- TEARDOWN (23 R412). -/
def execTeardown (d : Datagram) (s : State) : Host.Outcome State Fault Refusal := .next (if isTeardown d then receive d s else s)

/-- REJECTED_HOST_MESSAGE (R20). -/
def execRejectedHostMessage (d : Datagram) (s : State) : Host.Outcome State Fault Refusal :=
  .next (if isUnknown d then receive d s else s)

/-- RECOVERY_REPLY (R11). -/
def execRecoveryReply (_ : Datagram) (s : State) : Host.Outcome State Fault Refusal :=
  .next (if s.booted && s.recovery then sendReady s else s)

end Sys2Proof.Machine
end

