-- ==== Sys2Proof/Machine/Matrix.lean ====
section
/-! DEFINITION. Matrix instructions (15 R297-R310). -/
namespace Sys2Proof.Machine

/-- An entry of the array queue made by this part now. -/
def Cx.arrayEntry (c : Cx) (op : ArrayOp) (fut : Nat) : ArrayEntry where
  id := c.k.nextArray
  op := op
  fut := fut
  serial := c.w.serial
  slot := c.slot
  lane := c.lane
  seq := c.w.seq
  asn := c.g.asn
  region := c.g.region
  launch := c.g.launch
  wgId := c.g.id
  base := c.g.base
  scratch := c.g.scratch
  pc := c.p.pc

/-- Append an entry to the array queue; what is due at its position takes effect; a pass is a
new load (16 R319). -/
def Cx.enqueue (c : Cx) (op : ArrayOp) (fut : Nat) : Cx :=
  let ready := match op with
    | .pass _ _ d base _ _ _ => c.cyc + rowCycles d base 0
    | _ => 0
  let e := { c.arrayEntry op fut with ready := ready }
  let k := { c.k with array := c.k.array ++ [e], nextArray := c.k.nextArray + 1 }
  { c with k := settleArray (if isPass e then endRamp k else setBallast k) }

/-- A matrix instruction that allocates a future and enters the queue: it stalls while either is full (R297);
hD receives the handle. -/
def Cx.withFuture (c : Cx) (f : Fields) (scope : Nat) (g : Cx → Nat → Cx) : Effect :=
  match freeFut c.k 64 128 with
  | none => .stall .sync
  | some i =>
    if arrayFull c.k then .stall .sync
    else
      let k := allocFut c.k i c.g.region c.w.serial scope
      .next ((g { c with k := k } i).writeH (f.d.toNat - 408) (handle 1 i (getFut k i).gen))

/-- A trap of a single-effect access at an address: it belongs to $lane. -/
def Cx.trapAt (c : Cx) (cause : Byte) (addr : Dword) : Effect :=
  .trap { cause := cause, lanes := some (BitVec.ofNat 64 (2 ^ c.lane)), addr := addr }

/-- K of a KBLK field. -/
def kOf (kblk : Nat) : Nat := 16 * (kblk + 1)

/-- `mload.b` (R300). -/
def execMloadB (f : Fields) (s : State) : Host.Outcome State Fault Refusal :=
  runPart 0x1B0 f s (fun c =>
    single f c (
      let mm := mmOf f
      let fmt := mm % 16
      let b := mm / 16 % 2
      let kk := kOf (mm / 32 % 64)
      let src := (c.src .int false f.a.toNat 0 0).toInt + offField f.x
      let n := 64 * lineBytes fmt kk
      if c.held then .stall .sync
      else match spCheck c.k c.g src n 16 with
        | some (_, cause) => c.trapAt cause (BitVec.ofInt 64 src)
        | none =>
          c.withFuture f 1 (fun c i =>
            let st : Dword := BitVec.ofNat 64 (src.toNat * 2 ^ 32 + fmt * 256 + 3)
            let bank := { getBank c.k b with state := st, k := kk }
            { c with k := setBank c.k b bank }.enqueue (.load b fmt kk (c.g.base + src.toNat)) i)))

/-- The 16-lane segment that holds the part's lowest quad. -/
def Cx.seg16 (c : Cx) : Nat := c.lane / 16

/-- `mgather.a` (R301-R303). -/
def execMgatherA (f : Fields) (s : State) : Host.Outcome State Fault Refusal :=
  runPart 0x1B1 f s (fun c =>
    single f c (
      let m := modOf f
      let fmt := m % 16
      let kk := kOf (m / 16 % 64)
      let rows := m / 1024 % 128 + 1
      let b := c.opn 0x1B1 f 1 .int 0
      let idx (j : Nat) : Nat := bits (c.readV (f.a.toNat + j / 32) (16 * c.seg16 + j % 32 / 2)) (16 * (j % 2)) 16
      let offs := (List.range rows).map (fun j => 16 * bits b 0 15 + idx j * 16 * bits b 15 15)
      match offs.find? (fun a => decide (c.g.scratch < a + lineBytes fmt kk)) with
      | some a => c.trapAt cScratch (BitVec.ofNat 64 a)
      | none => .next { c with w := { c.w with gather := kset none c.w.gather c.seg16 (some ⟨fmt, kk, offs⟩) } }))

/-- Change the tag of a tile named t0-t7. -/
def Cx.setTileTag (c : Cx) (n : Nat) (t : Tag) : Cx :=
  { c with k := setTile c.k (c.physTile n) { c.tile n with tag := t } }

/-- `mma` in one of its nine forms, by format code (R304). -/
def mma (op fmt : Nat) (f : Fields) (s : State) : Host.Outcome State Fault Refusal :=
  runPart op f s (fun c =>
    single f c (
      let b := modOf f % 2
      let t := f.a.toNat - 384
      let bank := getBank c.k b
      if c.held then .stall .sync
      else match kget none c.w.gather c.seg16 with
        | none => .trap { cause := 0x17 }
        | some d =>
          if !tbit bank.state 0 || bits bank.state 8 4 != fmt || d.fmt != fmt || d.k != bank.k then .trap { cause := 0x08 }
          else match d.rows.find? (fun a => lockedSram c.k (c.g.base + a) (lineBytes fmt d.k)) with
            | some a => c.trapAt cLocked (BitVec.ofNat 64 a)
            | none =>
              c.withFuture f 0 (fun c i =>
                (c.setTileTag t (if fmt = 4 then tagI32 else tagF32)).enqueue (.pass (c.physTile t) b d c.g.base 0 0 false) i)))

/-- `mma.bf16` (R304). -/
def execMmaBf16 (f : Fields) (s : State) : Host.Outcome State Fault Refusal := mma 0x1B2 0 f s

/-- `mma.fp16` (R304). -/
def execMmaFp16 (f : Fields) (s : State) : Host.Outcome State Fault Refusal := mma 0x1B3 1 f s

/-- `mma.e4m3` (R304). -/
def execMmaE4m3 (f : Fields) (s : State) : Host.Outcome State Fault Refusal := mma 0x1B4 2 f s

/-- `mma.e5m2` (R304). -/
def execMmaE5m2 (f : Fields) (s : State) : Host.Outcome State Fault Refusal := mma 0x1B5 3 f s

/-- `mma.int8` (R304). -/
def execMmaInt8 (f : Fields) (s : State) : Host.Outcome State Fault Refusal := mma 0x1B6 4 f s

/-- `mma.px8` (R304). -/
def execMmaPx8 (f : Fields) (s : State) : Host.Outcome State Fault Refusal := mma 0x1B7 5 f s

/-- `mma.px5` (R304). -/
def execMmaPx5 (f : Fields) (s : State) : Host.Outcome State Fault Refusal := mma 0x1B8 6 f s

/-- `mma.mxfp4` (R304). -/
def execMmaMxfp4 (f : Fields) (s : State) : Host.Outcome State Fault Refusal := mma 0x1B9 7 f s

/-- `mma.px3` (R304). -/
def execMmaPx3 (f : Fields) (s : State) : Host.Outcome State Fault Refusal := mma 0x1BA 8 f s

/-- The checks of a drain in their order (R306): start, covered bytes, row stride, bobbin. -/
def Cx.drainCheck (c : Cx) (sp : Bool) (start : Int) (n stride : Nat) (bob : Option Nat) : Option (Byte × Dword) :=
  let va : Dword := BitVec.ofInt 64 start
  if start % 32 != 0 || stride % 32 != 0 then some (cMisaligned, va)
  else match (if sp then (if start < 0 || (c.g.scratch : Int) < start + n then some cScratch else none)
      else (formCheck va n 0).map (·.2)) with
    | some cause => some (cause, va)
    | none =>
      match bob with
      | some b =>
        if c.g.scratch < b + 16 then some (cScratch, BitVec.ofNat 64 b)
        else if lockedOut va then some (cLocked, va)
        else if lockedSram c.k (c.g.base + b) 16 then some (cLocked, BitVec.ofNat 64 b) else none
      | none => if lockedOut va then some (cLocked, va) else none
where
  lockedOut (va : Dword) : Bool :=
    if sp then lockedSram c.k (c.g.base + start.toNat) n else lockedGlobal c.k c.g.asn va n

/-- A drain (R305-R307): it enters the store queue and the array queue. -/
def drain (op : Nat) (sp : Bool) (f : Fields) (s : State) : Host.Outcome State Fault Refusal :=
  runPart op f s (fun c =>
    single f c (
      let mm := mmOf f
      let dfmt := mm % 8
      let zero := tbit f.x 25
      let scope := mm / 64 % 8
      let r (i : Nat) : Word := c.readS (f.a.toNat - 256 + i)
      let start : Int := if sp then (r 0).toInt + offField f.x
        else (((r 1 ++ r 0 : Dword) + offWord f).toNat : Int)
      let stride := (r 2).toNat
      let rows := bits (r 3) 0 7 + 1
      let bob := if bits (r 3) 16 16 = 0xFFFF then none else some (16 * bits (r 3) 16 16)
      let t := f.b.toNat - 384
      if c.held then .stall .sync
      else match c.drainCheck sp start (coveredBytes dfmt stride rows) stride bob with
        | some (cause, va) => c.trapAt cause va
        | none =>
          c.withFuture f (if sp then 1 else if scope = 5 || isPeerVa (BitVec.ofNat 64 start.toNat) then 5 else 4) (fun c i =>
            let dest := if sp then c.g.base + start.toNat else start.toNat
            let scope := if !sp && isPeerVa (BitVec.ofNat 64 dest) then 5 else scope
            let c1 := c.push (c.entry (.drain c.k.nextArray) (some scope) 0 [])
            let c2 := c1.enqueue (.drain (c.physTile t) dfmt (tbit f.x 23) (tbit f.x 24) zero scope dest stride rows bob sp none) i
            if zero then c2.setTileTag t tagAny else c2)))

/-- `mdrain.sp` (R305). -/
def execMdrainSp (f : Fields) (s : State) : Host.Outcome State Fault Refusal := drain 0x1BB true f s

/-- `mdrain` (R305). -/
def execMdrain (f : Fields) (s : State) : Host.Outcome State Fault Refusal := drain 0x1BC false f s

/-- `mzero` (R309). -/
def execMzero (f : Fields) (s : State) : Host.Outcome State Fault Refusal :=
  runPart 0x1BD f s (fun c =>
    single f c (
      let t := f.d.toNat - 384
      if arrayFull c.k then .stall .sync
      else .next ((c.setTileTag t tagAny).enqueue (.zero (c.physTile t)) 0)))

/-- `mstat` of a word that entries of the array queue may still change (R310). -/
def mstat (f : Fields) (s : State) (due : Cx → ArrayEntry → Bool) (value : Cx → Word) : Host.Outcome State Fault Refusal :=
  runPart 0x1BE f s (fun c =>
    single f c (
      if arrayFull c.k || c.k.array.any (due c) then .stall .sync
      else .next (c.putV 0x1BE f (perLane f c (fun _ => value c)) (fun _ => tagU32))))

/-- `mstat.tile` (R310). -/
def execMstatTile (f : Fields) (s : State) : Host.Outcome State Fault Refusal :=
  mstat f s (fun c => changesTile (c.physTile (f.a.toNat - 384))) (fun c => (c.tile (f.a.toNat - 384)).status)

/-- `mstat.bank0` (R310). -/
def execMstatBank0 (f : Fields) (s : State) : Host.Outcome State Fault Refusal :=
  mstat f s (fun _ => loadsBank 0) (fun c => BitVec.ofNat 32 (getBank c.k 0).state.toNat)

/-- `mstat.bank1` (R310). -/
def execMstatBank1 (f : Fields) (s : State) : Host.Outcome State Fault Refusal :=
  mstat f s (fun _ => loadsBank 1) (fun c => BitVec.ofNat 32 (getBank c.k 1).state.toNat)

end Sys2Proof.Machine
end

