-- ==== Sys2Proof/Machine/Ray.lean ====
section
/-! DEFINITION. Rays: box and triangle tests, and traversal stacks (18 R337-R343). -/
namespace Sys2Proof.Machine

/-! Exact values (18, introduction): a rational, or an infinity. -/

inductive Ext where
  | neg
  | fin (r : Rat)
  | pos
  deriving DecidableEq, Repr

def extOf (w : Word) : Ext :=
  match f32 w with
  | .inf true => .neg
  | .inf false => .pos
  | _ => .fin (ratOf w)

def Ext.le : Ext → Ext → Bool
  | .neg, _ => true
  | _, .pos => true
  | .fin a, .fin b => decide (a ≤ b)
  | _, _ => false

def Ext.max (a b : Ext) : Ext := if a.le b then b else a
def Ext.min (a b : Ext) : Ext := if a.le b then a else b

/-- (x - o) / d for d other than 0. -/
def Ext.slab (x : Ext) (o d : Rat) : Ext :=
  match x with
  | .fin r => .fin ((r - o) / d)
  | .pos => if 0 < d then .pos else .neg
  | .neg => if 0 < d then .neg else .pos

def plusInf : Word := 0x7F800000
def canonNan : Word := 0x7FC00000

def Ext.round (mode : Nat) : Ext → Word
  | .neg => 0xFF800000
  | .fin r => ratToF32 mode r
  | .pos => plusInf

/-! Vectors. -/

abbrev Vec3 := Rat × Rat × Rat

def Vec3.sub (a b : Vec3) : Vec3 := (a.1 - b.1, a.2.1 - b.2.1, a.2.2 - b.2.2)
def Vec3.dot (a b : Vec3) : Rat := a.1 * b.1 + a.2.1 * b.2.1 + a.2.2 * b.2.2
def Vec3.cross (a b : Vec3) : Vec3 :=
  (a.2.1 * b.2.2 - a.2.2 * b.2.1, a.2.2 * b.1 - a.1 * b.2.2, a.1 * b.2.1 - a.2.1 * b.1)
def vecOf (x y z : Word) : Vec3 := (ratOf x, ratOf y, ratOf z)

/-! Rays (R339). -/

/-- Word i of some bytes. -/
def wordAt (bs : List Byte) (i : Nat) : Word := BitVec.ofNat 32 (field bs (4 * i) (4 * i + 3))

/-- A valid ray; the end may be infinite. -/
structure RayRec where
  o : Vec3
  tmin : Rat
  d : Vec3
  tmax : Ext
  deriving DecidableEq, Repr

/-- A ray record that is valid: no NaN, no infinity among its first seven words, a direction. -/
def parseRay (bs : List Byte) : Option RayRec :=
  let w := wordAt bs
  let d := vecOf (w 4) (w 5) (w 6)
  if (List.range 7).all (fun i => isFinite (w i)) && !(f32 (w 7)).isNan && decide (d ≠ (0, 0, 0)) then
    some ⟨vecOf (w 0) (w 1) (w 2), ratOf (w 3), d, extOf (w 7)⟩
  else none

/-- The range of t in which a ray is inside one slab of a box; none for a miss. -/
def slabRange (lo hi : Ext) (o d : Rat) (r : Ext × Ext) : Option (Ext × Ext) :=
  if d = 0 then
    if lo.le (.fin o) && (Ext.fin o).le hi then some r else none
  else
    let a := lo.slab o d
    let b := hi.slab o d
    some (r.1.max (a.min b), r.2.min (a.max b))

/-- D of one box (R340). -/
def boxHit (ray : RayRec) (bs : List Byte) : Word :=
  let w := wordAt bs
  let bad := (List.range 6).any (fun i => (f32 (w i)).isNan)
  let e (i : Nat) : Ext := extOf (w i)
  if bad || !((e 0).le (e 3) && (e 1).le (e 4) && (e 2).le (e 5)) then plusInf
  else
    let r0 : Ext × Ext := (.fin ray.tmin, ray.tmax)
    match ((slabRange (e 0) (e 3) ray.o.1 ray.d.1 r0).bind (slabRange (e 1) (e 4) ray.o.2.1 ray.d.2.1)).bind
        (slabRange (e 2) (e 5) ray.o.2.2 ray.d.2.2) with
    | some (tn, tf) => if tn.le tf then tn.round 3 else plusInf
    | none => plusInf

/-- A hit of one triangle (R341): t, b1, b2, back-facing. -/
def triHit (ray : RayRec) (cull : Bool) (bs : List Byte) : Option (Rat × Rat × Rat × Bool) :=
  let w := wordAt bs
  if !(List.range 9).all (fun i => isFinite (w i)) then none
  else
    let v0 := vecOf (w 0) (w 1) (w 2)
    let e1 := (vecOf (w 3) (w 4) (w 5)).sub v0
    let e2 := (vecOf (w 6) (w 7) (w 8)).sub v0
    let p := ray.d.cross e2
    let det := e1.dot p
    if det = 0 then none
    else
      let tv := ray.o.sub v0
      let q := tv.cross e1
      let b1 := tv.dot p / det
      let b2 := ray.d.dot q / det
      let t := e2.dot q / det
      let back := decide (0 < (e1.cross e2).dot ray.d)
      if 0 ≤ b1 && 0 ≤ b2 && b1 + b2 ≤ 1 && ray.tmin ≤ t && (Ext.fin t).le ray.tmax && !(cull && back) then some (t, b1, b2, back)
      else none

def triMiss : List Word := [plusInf, 0xFFFFFFFF, 0, 0]

/-- D0-D3 of a triangle node. -/
def triNode (cull : Bool) (ray : RayRec) (bs : List Byte) : List Word :=
  let out (i : Nat) (h : Rat × Rat × Rat × Bool) : List Word :=
    [ratToF32 0 h.1, BitVec.ofNat 32 (i + (if h.2.2.2 then 2 else 0)), ratToF32 0 h.2.1, ratToF32 0 h.2.2.1]
  match triHit ray cull (bs.take 48), triHit ray cull (bs.drop 48) with
  | some a, some b => if a.1 ≤ b.1 then out 0 a else out 1 b
  | some a, none => out 0 a
  | none, some b => out 1 b
  | none, none => triMiss

/-- D0-D3 of a box node. -/
def boxNode (ray : RayRec) (bs : List Byte) : List Word :=
  (List.range 4).map (fun j => boxHit ray ((bs.drop (32 * j)).take 32))

/-- The checks of R337 for a lane: its global address, then its scratchpad range. -/
def Cx.geoCheck (c : Cx) (va : Dword) (size align : Nat) (o : Int) : Dword × Option (Nat × Byte) :=
  match formCheck va size align with
  | some e => (va, some e)
  | none => (BitVec.ofInt 64 o, (spCheck c.k c.g o 32 32).map (fun e => (e.1 + 4, e.2)))

/-- `rt.box` and `rt.tri` (R339): the node's size and alignment, what it gives for a ray, and the miss result. -/
def rayTest (op : Nat) (f : Fields) (s : State) (size align : Nat) (miss : List Word) (hit : RayRec → List Byte → List Word) :
    Host.Outcome State Fault Refusal :=
  runPart op f s (fun c =>
    let a := f.a.toNat
    let rays := (c.opn op f 1 .int 0).toInt
    let node (l : Nat) : Dword := c.readV (a + 1) l ++ c.readV a l
    let off (l : Nat) : Int := rays + 32 * ((c.readV (a + 2) l).toNat : Int)
    let lanes := lanesOf (c.activeLanes f)
    if c.held then .stall .sync
    else match earliest (lanes.map (fun l => (l, c.geoCheck (node l) size align (off l)))) with
    | some t => .trap t
    | none =>
      let one (l : Nat) : LaneTex :=
        if c.spBad (off l) 32 then { lane := l, vals := [], fail := some (cCheck, BitVec.ofInt 64 (off l), 1) }
        else match c.readNow (node l) size with
        | .wait => { lane := l, vals := [], need := [(node l, size)] }
        | .trap step cause => { lane := l, vals := [], trap := some (step, cause, node l) }
        | .fail cause va => { lane := l, vals := [], fail := some (cause, va, 1) }
        | .absent => { lane := l, vals := miss, resid := true }
        | .ok bs =>
          match parseRay (c.spRead (off l) 32) with
          | some ray => { lane := l, vals := hit ray bs }
          | none => { lane := l, vals := miss }
      Cx.finishTex c c (fun _ => 0) f tagAny 4 (lanes.map one))

/-- `rt.box` (R340). -/
def execRtBox (f : Fields) (s : State) : Host.Outcome State Fault Refusal :=
  rayTest 0x1C8 f s 128 128 [plusInf, plusInf, plusInf, plusInf] boxNode

/-- `rt.tri` (R341). -/
def execRtTri (f : Fields) (s : State) : Host.Outcome State Fault Refusal :=
  rayTest 0x1C9 f s 96 32 triMiss (triNode (modOf f % 2 = 1))

/-! Traversal stacks (R342, R343). -/

/-- A stack word: levels per lane and area. -/
def stackCap (w : Word) : Nat := bits w 24 7
def stackArea (w : Word) : Nat := bits w 0 24

/-- The declared wave width, and bytes of the area. -/
def stackSize (w : Word) (wave : Nat) : Nat := 64 + 4 * stackCap w * wave

/-- Header byte and entry of a lane, by scratchpad offset. -/
def headerOff (w : Word) (l : Nat) : Nat := stackArea w + l
def entryOff (w : Word) (wave j l : Nat) : Nat := stackArea w + 64 + 4 * (j * wave + l)

/-- The checks of R343 on a lane's area, and of 11 R228 on the bytes that it touches, each by offset and bytes: address, step
and cause. -/
def Cx.stackChecks (c : Cx) (w : Word) (touched : List (Nat × Nat)) (l : Nat) : List (Nat × Dword × Option (Nat × Byte)) :=
  ((stackArea w, stackSize w c.w.width, 16) :: touched.map (fun t => (t.1, t.2, t.2))).map (fun t =>
    (l, BitVec.ofNat 64 t.1, spCheck c.k c.g (t.1 : Int) t.2.1 t.2.2))

/-- The checks, then the effect on each lane; header bytes and entries touched are given by offset. An instruction that
stores is a release after a `fence.rel` (12 R255). -/
def stackOp (op : Nat) (f : Fields) (s : State) (stores : Bool) (word : Cx → Word) (lanes : Cx → List Nat)
    (touched : Cx → Word → Nat → List (Nat × Nat)) (body : Cx → Word → Cx) : Host.Outcome State Fault Refusal :=
  runPart op f s (fun c =>
    let w := word c
    let ls := lanes c
    if c.held || (stores && !ls.isEmpty && c.releaseWaits none) then .stall .sync
    else match earliest (ls.flatMap (fun l => c.stackChecks w (touched c w l) l)) with
    | some t => .trap t
    | none =>
      let bad := ls.filterMap (fun l => ((touched c w l).find? (fun t => c.spBad t.1 t.2)).map (fun t => (l, cCheck, (BitVec.ofNat 64 t.1 : Dword))))
      if !bad.isEmpty then .thenDo c (freezeLanes c 1 bad) else .next (body c w))

/-- Header and DEPTH of a lane. -/
def Cx.stackHead (c : Cx) (w : Word) (l : Nat) : Nat := ofBytes (c.spRead (headerOff w l) 1)

/-- `wstk.push` (R343). -/
def execWstkPush (f : Fields) (s : State) : Host.Outcome State Fault Refusal :=
  stackOp 0x1CA f s true (fun c => c.opn 0x1CA f 1 .int 0) (fun c => lanesOf (c.activeLanes f))
    (fun _ w l => [(headerOff w l, 1)])
    (fun c w => (lanesOf (c.activeLanes f)).foldl (fun d l =>
      let h := c.stackHead w l
      if h % 128 < stackCap w then
        (d.spWrite (entryOff w c.w.width (h % 128) l) (toBytes 4 (c.opn 0x1CA f 0 .int l).toNat)).spWrite
          (headerOff w l) (toBytes 1 (h + 1))
      else d.spWrite (headerOff w l) (toBytes 1 (128 + h % 128))) c)

/-- The entry that a pop reads, all ones for an empty stack. A DEPTH beyond CAP, which only an ordinary store leaves,
names a word behind the area. -/
def Cx.stackTop (c : Cx) (w : Word) (l : Nat) : Word :=
  let depth := c.stackHead w l % 128
  if depth = 0 then 0xFFFFFFFF
  else BitVec.ofNat 32 (ofBytes (c.spRead (entryOff w c.w.width (depth - 1) l) 4))

/-- Bytes that a pop touches: the header, and the entry it names. -/
def popTouches (c : Cx) (w : Word) (l : Nat) : List (Nat × Nat) :=
  let depth := c.stackHead w l % 128
  (headerOff w l, 1) :: (if depth = 0 then [] else [(entryOff w c.w.width (depth - 1) l, 4)])

/-- `wstk.pop` (R343); `peek` leaves DEPTH. -/
def stackPop (peek : Bool) (f : Fields) (s : State) : Host.Outcome State Fault Refusal :=
  stackOp 0x1CB f s (!peek) (fun c => c.opn 0x1CB f 1 .int 0) (fun c => lanesOf (c.activeLanes f)) popTouches
    (fun c w =>
      let d := c.putV 0x1CB f (perLane f c (c.stackTop w)) (fun _ => tagAny)
      if peek then d
      else (lanesOf (c.activeLanes f)).foldl (fun d l =>
        let h := c.stackHead w l
        if h % 128 = 0 then d else d.spWrite (headerOff w l) (toBytes 1 (h - 1))) d)

/-- `wstk.pop` (R343). -/
def execWstkPop (f : Fields) (s : State) : Host.Outcome State Fault Refusal := stackPop false f s

/-- `wstk.pop.peek` (R343). -/
def execWstkPeek (f : Fields) (s : State) : Host.Outcome State Fault Refusal := stackPop true f s

/-- `wstk.clr` (R343). -/
def execWstkClr (f : Fields) (s : State) : Host.Outcome State Fault Refusal :=
  stackOp 0x1CC f s true (fun c => c.opn 0x1CC f 0 .int 0) (fun c => if c.activeLanes f = 0 then [] else [c.lane])
    (fun _ _ _ => [])
    (fun c w => if c.activeLanes f = 0 then c else c.spWrite (stackArea w) (List.replicate 64 0))

end Sys2Proof.Machine
end

