-- ==== Sys2Proof/Machine/Mesh.lean ====
section
/-! DEFINITION. Meshes: descriptors, cells, marching, location and interpolation (18 R344-R351). -/
namespace Sys2Proof.Machine

/-! Reads that may stop a lane. -/

/-- Why a lane's reads stop: a page that is not resident, a failing access, an address that breaks 11 R220 with
its step, or bytes that are not there yet. The cell is the one whose read stopped. -/
inductive GeoStop where
  | absent (cell : Nat)
  | fail (cause : Byte) (va : Dword)
  | trap (step : Nat) (cause : Byte) (va : Dword)
  | wait (va : Dword) (n : Nat)
  deriving DecidableEq, Repr

abbrev Geo (α : Type) := Except GeoStop α

/-- Read a record of a mesh for a cell. -/
def Cx.geoRead (c : Cx) (cell va n : Nat) : Geo (List Byte) :=
  let a : Dword := BitVec.ofNat 64 va
  match c.readNow a n with
  | .ok bs => .ok bs
  | .absent => .error (.absent cell)
  | .fail cause x => .error (.fail cause x)
  | .trap step cause => .error (.trap step cause a)
  | .wait => .error (.wait a n)

/-! The descriptor (R344). -/

structure MeshDesc where
  cells : Nat
  verts : Nat
  fields : Nat
  ncells : Nat
  nverts : Nat
  poly : Bool
  stepMax : Nat
  deriving DecidableEq, Repr

def parseMesh (bs : List Byte) : Option MeshDesc :=
  let f := field bs
  let poly := f 32 32 = 1
  let m : MeshDesc := ⟨f 0 7, f 8 15, f 16 23, f 24 27, f 28 31, poly, if f 34 35 = 0 then 1024 else f 34 35⟩
  if f 32 32 ≤ 1 && f 33 33 = 0 && f 36 63 = 0 && decide (1 ≤ m.ncells ∧ m.ncells < 2 ^ 31) &&
      (if poly then m.cells % 64 = 0
       else m.cells % 32 = 0 && m.verts % 16 = 0 && m.fields % 4 = 0 && decide (4 ≤ m.nverts ∧ m.nverts < 2 ^ 31)) then some m
  else none

/-- The descriptor through the resource-record cache, as two records. -/
def Cx.readMesh (c : Cx) (va : Dword) : Cx × Served MeshDesc :=
  match c.serve va some with
  | (c1, .fail cause a) => (c1, .fail cause a)
  | (c1, .absent) => (c1, .absent)
  | (c1, .wait a) => (c1, .wait a)
  | (c1, .ok a) =>
    match c1.serve (va + 32) some with
    | (c2, .fail cause x) => (c2, .fail cause x)
    | (c2, .absent) => (c2, .absent)
    | (c2, .wait x) => (c2, .wait x)
    | (c2, .ok b) =>
      match parseMesh (a ++ b) with
      | some m => (c2, .ok m)
      | none => (c2, .fail 0x46 va)

/-! Cells (R345, R347). -/

/-- An affine function of a point: constant and gradient. -/
abbrev Affine := Rat × Vec3

def Affine.at' (a : Affine) (p : Vec3) : Rat := a.1 + a.2.dot p

/-- A cell: outside measure and neighbour of each face, and the field. -/
structure MeshCell where
  faces : List (Affine × Int)
  f : Affine
  deriving DecidableEq, Repr

def signedWord (w : Word) : Int := w.toInt

/-- A neighbour index in range. -/
def neighbourOk (m : MeshDesc) (n : Int) : Bool := decide (-1 ≤ n) && decide (n < (m.ncells : Int))

/-- The barycentric coordinate of a vertex whose opposite face is a, b, c; none for zero volume. -/
def baryOf (v a b c : Vec3) : Option Affine :=
  let n := (b.sub a).cross (c.sub a)
  let vol := n.dot (v.sub a)
  if vol = 0 then none else some (-(n.dot a) / vol, n.1 / vol, n.2.1 / vol, n.2.2 / vol)

def Affine.neg (a : Affine) : Affine := (-a.1, -a.2.1, -a.2.2.1, -a.2.2.2)
def Affine.scale (k : Rat) (a : Affine) : Affine := (k * a.1, k * a.2.1, k * a.2.2.1, k * a.2.2.2)
def Affine.add (a b : Affine) : Affine := (a.1 + b.1, a.2.1 + b.2.1, a.2.2.1 + b.2.2.1, a.2.2.2 + b.2.2.2)

/-- A tetrahedron from its record, vertices and field values; none when it is bad. -/
def tetOf (m : MeshDesc) (rec' : List Byte) (vs : List (List Byte)) (fs : List Word) : Option MeshCell :=
  let ns := (List.range 4).map (fun i => signedWord (wordAt rec' (4 + i)))
  let ws := vs.flatMap (fun b => [wordAt b 0, wordAt b 1, wordAt b 2])
  if !(ns.all (neighbourOk m) && ws.all isFinite && fs.all isFinite) then none
  else match vs.map (fun b => vecOf (wordAt b 0) (wordAt b 1) (wordAt b 2)) with
    | [a, b, c, d] =>
      match baryOf a b c d, baryOf b a c d, baryOf c a b d, baryOf d a b c with
      | some l0, some l1, some l2, some l3 =>
        let ls := [l0, l1, l2, l3]
        let f := (ls.zip fs).foldl (fun acc x => Affine.add acc (Affine.scale (ratOf x.2) x.1)) ((0, 0, 0, 0) : Affine)
        some ⟨(ls.map Affine.neg).zip ns, f⟩
      | _, _, _, _ => none
    | _ => none

/-- A polyhedron from its record; none when it is bad. -/
def polyOf (m : MeshDesc) (r : List Byte) : Option MeshCell :=
  let n := field r 188 188
  let face (j : Nat) : List Word := (List.range 4).map (fun i => wordAt r (4 * j + i))
  let ns := (List.range n).map (fun j => signedWord (wordAt r (32 + j)))
  let tail := (List.range 7).map (fun i => wordAt r (40 + i))
  if !(decide (4 ≤ n ∧ n ≤ 8)) then none
  else if !(ns.all (neighbourOk m) && (List.range n).all (fun j => (face j).all isFinite) && tail.all isFinite) then none
  else
    let plane (j : Nat) : Affine := (ratOf (wordAt r (4 * j + 3)), vecOf (wordAt r (4 * j)) (wordAt r (4 * j + 1)) (wordAt r (4 * j + 2)))
    if (List.range n).any (fun j => decide ((plane j).2 = (0, 0, 0))) then none
    else
      let g := vecOf (wordAt r 44) (wordAt r 45) (wordAt r 46)
      let p := vecOf (wordAt r 40) (wordAt r 41) (wordAt r 42)
      some ⟨((List.range n).map plane).zip ns, (ratOf (wordAt r 43) - g.dot p, g)⟩

/-- The record of a cell. -/
def Cx.cellRecord (c : Cx) (m : MeshDesc) (cell : Nat) : Geo (List Byte) :=
  if m.poly then c.geoRead cell (m.cells + 192 * cell) 192 else c.geoRead cell (m.cells + 32 * cell) 32

/-- Read a cell; none when it is bad. -/
def Cx.readCell (c : Cx) (m : MeshDesc) (cell : Nat) : Geo (Option MeshCell) := do
  let r ← c.cellRecord m cell
  if m.poly then return polyOf m r
  else
    let vi := (List.range 4).map (fun i => (wordAt r i).toNat)
    if vi.any (fun i => decide (m.nverts ≤ i)) then return none
    else
      let vs ← vi.mapM (fun i => c.geoRead cell (m.verts + 16 * i) 16)
      let fs ← vi.mapM (fun i => c.geoRead cell (m.fields + 4 * i) 4)
      return tetOf m r vs (fs.map (fun b => wordAt b 0))

/-- Faces of a cell's record that count, and the neighbour across each. -/
def recordNeighbours (m : MeshDesc) (r : List Byte) : List Int :=
  if m.poly then (List.range (min 8 (field r 188 188))).map (fun j => signedWord (wordAt r (32 + j)))
  else (List.range 4).map (fun i => signedWord (wordAt r (4 + i)))

/-- The global index of a face (R346). -/
def Cx.globalFace (c : Cx) (m : MeshDesc) (cell face : Nat) (nb : Int) : Geo Nat :=
  let per := if m.poly then 8 else 4
  let own := per * cell + face
  if nb < 0 then .ok own
  else do
    let r ← c.cellRecord m nb.toNat
    let back := (recordNeighbours m r).mapIdx (fun i x => (i, x))
    match back.find? (fun x => x.2 = (cell : Int)) with
    | some (i, _) => return min own (per * nb.toNat + i)
    | none => return own

/-- Among faces that tie, the one of least global index; a single face needs no index. -/
def Cx.breakTie (c : Cx) (m : MeshDesc) (cell : Nat) (ties : List (Nat × Int)) : Geo (Option (Nat × Int)) :=
  match ties with
  | [] => .ok none
  | [x] => .ok (some x)
  | l => do
    let gs ← l.mapM (fun x => do return (← c.globalFace m cell x.1 x.2, x))
    return (gs.foldl (fun b g => match b with
      | some y => if g.1 < y.1 then some g else some y
      | none => some g) (none : Option (Nat × Nat × Int))).map (·.2)

/-- Candidates with the least value. -/
def leastOf (l : List (Rat × Nat × Int)) : List (Nat × Int) :=
  match l.map (·.1) with
  | [] => []
  | x :: xs =>
    let m := xs.foldl min x
    (l.filter (fun y => y.1 = m)).map (·.2)

/-! Lanes. -/

/-- The run that operand A names (R348). -/
structure MeshRun where
  o : Vec3
  tin : Word
  d : Vec3
  finite : Bool
  cell : Int
  deriving DecidableEq, Repr

def Cx.meshRun (c : Cx) (a l : Nat) : MeshRun :=
  let w (i : Nat) : Word := c.readV (a + i) l
  ⟨vecOf (w 0) (w 1) (w 2), w 3, vecOf (w 4) (w 5) (w 6), (List.range 7).all (fun i => isFinite (w i)), signedWord (w 7)⟩

def MeshRun.point (r : MeshRun) (t : Rat) : Vec3 :=
  (r.o.1 + t * r.d.1, r.o.2.1 + t * r.d.2.1, r.o.2.2 + t * r.d.2.2)

/-- Status codes. -/
def stOk : Nat := 0
def stBoundary : Nat := 1
def stNoExit : Nat := 2
def stBadMesh : Nat := 3
def stNotResident : Nat := 4
def stStepLimit : Nat := 5

def statusWord (status face : Nat) : Word := BitVec.ofNat 32 (256 * status + face)
def noFace : Nat := 15

/-- What a lane gives: D0-D3, and the new t_in and cell of the run. -/
structure MeshOut where
  vals : List Word
  tin : Option Word := none
  cell : Option Int := none
  resid : Bool := false
  deriving DecidableEq, Repr

/-- `mesh.step` for a lane (R349). -/
def Cx.stepLane (c : Cx) (m : MeshDesc) (r : MeshRun) : Geo MeshOut := do
  let stop (status : Nat) (d1 : Word) : MeshOut := { vals := [statusWord status noFace, d1, 0, 0] }
  if r.cell = -1 then return stop stBoundary r.tin
  else if decide (r.cell < 0) || decide ((m.ncells : Int) ≤ r.cell) then return stop stBadMesh 0
  else
    let cell := r.cell.toNat
    match ← c.readCell m cell with
    | none => return stop stBadMesh 0
    | some g =>
      if !r.finite then return stop stNoExit plusInf
      else
        let exits := (g.faces.mapIdx (fun i x => (i, x))).filterMap (fun x =>
          let rate := x.2.1.2.dot r.d
          if 0 < rate then some (-(x.2.1.at' r.o) / rate, x.1, x.2.2) else none)
        match ← c.breakTie m cell (leastOf exits) with
        | none => return stop stNoExit plusInf
        | some (k, next) =>
          let tk := ((exits.find? (fun e => e.2.1 = k)).map (·.1)).getD 0
          let rk := ratToF32 0 tk
          let tout := fMax r.tin rk
          let d2 := ratToF32 0 (g.f.at' (r.point (ratOf r.tin)))
          let d3 := if rk = plusInf then canonNan else ratToF32 0 (g.f.at' (r.point (ratOf tout)))
          return { vals := [statusWord (if next = -1 then stBoundary else stOk) k, tout, d2, d3]
                   tin := some tout, cell := some next }

/-- The walk of `mesh.loc` (R350) from cell c with n faces crossed, the last of them `face`. -/
def Cx.locWalk (c : Cx) (m : MeshDesc) (r : MeshRun) : Nat → Nat → Nat → Nat → Geo MeshOut
  | 0, cell, n, face => .ok { vals := [statusWord stStepLimit face, BitVec.ofNat 32 n, 0, BitVec.ofNat 32 cell] }
  | fuel + 1, cell, n, face =>
    let out (status : Nat) (f : Nat) (n : Nat) (d2 : Word) (last : Nat) : MeshOut :=
      { vals := [statusWord status f, BitVec.ofNat 32 n, d2, BitVec.ofNat 32 last] }
    let t := ratOf r.tin
    let p := r.point t
    match c.readCell m cell with
    | .error (.absent x) => .ok { out stNotResident face n 0 x with resid := true }
    | .error e => .error e
    | .ok none => .ok (out stBadMesh face n 0 cell)
    | .ok (some g) =>
      let outside := (g.faces.mapIdx (fun i x => (i, x))).filterMap (fun x =>
        let h := x.2.1.at' p
        if 0 < h || (h = 0 && decide (0 < x.2.1.2.dot r.d)) then some (-h, x.1, x.2.2) else none)
      if outside.isEmpty then .ok { out stOk face n (ratToF32 0 (g.f.at' p)) cell with cell := some (cell : Int) }
      else if n = m.stepMax then .ok (out stStepLimit face n 0 cell)
      else match c.breakTie m cell (leastOf outside) with
        | .error (.absent x) => .ok { out stNotResident face n 0 x with resid := true }
        | .error e => .error e
        | .ok none => .ok (out stOk face n 0 cell)
        | .ok (some (k, next)) =>
          if next < 0 then .ok { out stBoundary k (n + 1) 0 cell with cell := some (-1) }
          else c.locWalk m r fuel next.toNat (n + 1) k

/-- `mesh.loc` for a lane with a finite run. -/
def Cx.locLane (c : Cx) (m : MeshDesc) (r : MeshRun) : Geo MeshOut :=
  let start := if decide (r.cell < 0) || decide ((m.ncells : Int) ≤ r.cell) then 0 else r.cell.toNat
  c.locWalk m r (m.stepMax + 1) start 0 noFace

/-- `mesh.interp` for a lane (R351). -/
def Cx.interpLane (c : Cx) (m : MeshDesc) (p : List Word) (cell : Int) : Geo MeshOut := do
  if decide (cell < 0) || decide ((m.ncells : Int) ≤ cell) || !p.all isFinite then return { vals := [canonNan] }
  else
    match ← c.readCell m cell.toNat with
    | none => return { vals := [canonNan] }
    | some g => return { vals := [ratToF32 0 (g.f.at' (vecOf (p.getD 0 0) (p.getD 1 0) (p.getD 2 0)))] }

/-! The instructions (R348). -/

/-- One lane's result, with its new run. -/
structure MeshLane where
  tex : LaneTex
  tin : Option Word := none
  cell : Option Int := none
  deriving DecidableEq, Repr

/-- A lane's outcome from its reads; `gone` is what a page that is not resident gives. -/
def meshLane (l : Nat) (gone : List Word) : Geo MeshOut → MeshLane
  | .ok o => { tex := { lane := l, vals := o.vals, resid := o.resid }, tin := o.tin, cell := o.cell }
  | .error (.absent _) => { tex := { lane := l, vals := gone, resid := true } }
  | .error (.fail cause va) => { tex := { lane := l, vals := [], fail := some (cause, va, 1) } }
  | .error (.trap step cause va) => { tex := { lane := l, vals := [], trap := some (step, cause, va) } }
  | .error (.wait va n) => { tex := { lane := l, vals := [], need := [(va, n)] } }

/-- A mesh instruction: D's registers, the result of a page that is not resident, the lanes that use no record,
and a lane's result. -/
def meshOp (op : Nat) (f : Fields) (s : State) (n : Nat) (gone : Cx → Nat → List Word) (early : Cx → Nat → Option MeshOut)
    (lane : Cx → MeshDesc → Nat → Geo MeshOut) : Host.Outcome State Fault Refusal :=
  runPart op f s (fun c =>
    let ls := lanesOf (c.activeLanes f)
    let va : Dword := c.readS (f.b.toNat - 255) ++ c.readS (f.b.toNat - 256)
    if c.held then .stall .sync
    else match earliest (ls.map (fun l => (l, va, formCheck va 64 64))) with
    | some t => .trap t
    | none =>
      let late := ls.filter (fun l => (early c l).isNone)
      let x : Cx × Served MeshDesc := if late.isEmpty then (c, .absent) else c.readMesh va
      let one (l : Nat) : MeshLane :=
        match early c l, x.2 with
        | some o, _ => meshLane l [] (.ok o)
        | none, .ok m => meshLane l (gone c l) (lane c m l)
        | none, .absent => meshLane l (gone c l) (.error (.absent 0))
        | none, .fail cause a => { tex := { lane := l, vals := [], fail := some (cause, a, 9) } }
        | none, .wait a => { tex := { lane := l, vals := [], need := [(a, 32)] } }
      let rs := ls.map one
      let run (c : Cx) : Cx :=
        let ok := (goodLanes (rs.map (·.tex))).map (·.lane)
        let keep := rs.filter (fun r => ok.contains r.tex.lane)
        let c1 := c.writeV (f.a.toNat + 3) (keep.filterMap (fun r => r.tin.map (fun v => (r.tex.lane, v)))) (fun _ => tagAny)
        c1.writeV (f.a.toNat + 7) (keep.filterMap (fun r => r.cell.map (fun v => (r.tex.lane, BitVec.ofInt 32 v)))) (fun _ => tagAny)
      match Cx.finishTex c x.1 (fun _ => 0) f tagAny n (rs.map (·.tex)) with
      | .thenDo d g => .thenDo (run d) g
      | .trap t => .trap { t with access := 1 }
      | e => e)

/-- `mesh.loc` (R350): a run that is not finite uses no record. -/
def execMeshLoc (f : Fields) (s : State) : Host.Outcome State Fault Refusal :=
  meshOp 0x1CD f s 4 (fun c l => [statusWord stNotResident noFace, 0, 0, c.readV (f.a.toNat + 7) l])
    (fun c l =>
      if (c.meshRun f.a.toNat l).finite then none
      else some { vals := [statusWord stNoExit noFace, 0, 0, c.readV (f.a.toNat + 7) l] })
    (fun c m l => c.locLane m (c.meshRun f.a.toNat l))

/-- `mesh.step` (R349). -/
def execMeshStep (f : Fields) (s : State) : Host.Outcome State Fault Refusal :=
  meshOp 0x1CE f s 4 (fun _ _ => [statusWord stNotResident noFace, 0, 0, 0]) (fun _ _ => none)
    (fun c m l => c.stepLane m (c.meshRun f.a.toNat l))

/-- `mesh.interp` (R351). -/
def execMeshInterp (f : Fields) (s : State) : Host.Outcome State Fault Refusal :=
  let a := f.a.toNat
  meshOp 0x1CF f s 1 (fun _ _ => [0]) (fun _ _ => none)
    (fun c m l => c.interpLane m [c.readV a l, c.readV (a + 1) l, c.readV (a + 2) l] (signedWord (c.readV (a + 3) l)))

end Sys2Proof.Machine
end

