-- ==== Sys2Proof/Machine/Peer.lean ====
section
/-! DEFINITION. Peer requests at the target, and their replies, timeouts and cancels (21 R383-R387). -/
namespace Sys2Proof.Machine

/-! The target. -/

/-- Bytes of an inbound request, its alignment, and its kind of access. -/
def peerShape : PeerOp → Nat × Nat × Access
  | .load n | .get n => (n, 1, .load)
  | .sumget => (32, 32, .sumget)
  | .store d | .put d => (d.length, 1, .store)
  | .atomic _ _ _ _ => (4, 4, .atomic)
  | .contribute _ _ | .initSum _ => (32, 32, .atomic)
  | .combine r => (r.length, 32, .atomic)
  | .drain f add _ stride rows => (coveredBytes f stride rows.length, 32, if add then .atomic else .store)

/-- Whether the request reads what stands there. -/
def peerReads : PeerOp → Bool
  | .store _ | .put _ | .initSum _ => false
  | .drain _ add _ _ _ => add
  | _ => true

/-- New bytes from old ones for one record or word, with the answer: an old value, and whether two E0 differed. -/
def peerApply (op : PeerOp) (old : List Byte) : List Byte × List Byte × Bool :=
  match op with
  | .load _ | .get _ | .sumget => (old, old, false)
  | .store d | .put d => (d.take old.length, [], false)
  | .atomic o u x y => (toBytes 4 (atomicNew o u (BitVec.ofNat 32 (ofBytes old)) x y).toNat, old, false)
  | .contribute fmt v =>
    let x := if fmt = 0 then fp32.decode v.toNat else if fmt = 1 then fp16.decode (bits v 0 16) else bf16.decode (bits v 0 16)
    (((Ws.ofBytes old).contribute x).toBytes, [], false)
  | .initSum e0 => ((Ws.init e0).toBytes, [], false)
  | .combine recs =>
    let pairs := (cutInto 32 (old.length / 32) old).zip (cutInto 32 (recs.length / 32) recs)
    let one (p : List Byte × List Byte) : List Byte × Bool :=
      match (Ws.ofBytes p.1).combine (Ws.ofBytes p.2) with
      | some w => (w.toBytes, false)
      | none => (p.1, true)
    let out := pairs.map one
    (out.flatMap (·.1), [], out.any (·.2))
  | .drain _ _ _ _ _ => (old, [], false)

/-- The bytes that a request touches, in order: address and count. -/
def peerRuns (va : Nat) : PeerOp → List (Nat × Nat)
  | .drain f _ _ stride rows => (List.range rows.length).map (fun i => (va + i * stride, 64 * drainSize f))
  | op => [(va, (peerShape op).1)]

/-- Places of bytes, up to the first that fails a check (R383: 11 R223, R224, R238). -/
def peerPlaces (s : State) (asn : Nat) (op : PeerOp) : List Nat → List Nat
  | [] => []
  | va :: l =>
    match route s asn (peerShape op).2.2 (BitVec.ofNat 64 va) with
    | .phys key _ => if peerReads op && memBadAt s key 1 then [] else key :: peerPlaces s asn op l
    | _ => []

/-- A request that stops at the first byte that fails: a chunk of an engine job (13 R265). -/
def peerStops : PeerOp → Bool
  | .put _ | .get _ | .combine _ => true
  | _ => false

/-- The whole records or bytes before a failure. -/
def peerWhole (op : PeerOp) (n : Nat) : Nat :=
  match op with
  | .combine _ => n / 32 * 32
  | _ => n

/-- Write bytes at their places; bytes of one sector or record follow one another. -/
def putPlaces (s : State) (ps : List Nat) (bs : List Byte) : State :=
  match ps with
  | [] => s
  | _ =>
    let run (acc : List (Nat × List Byte)) (x : Nat × Byte) : List (Nat × List Byte) :=
      match acc with
      | (k, l) :: rest => if k + l.length = x.1 then (k, l ++ [x.2]) :: rest else (x.1, [x.2]) :: acc
      | [] => [(x.1, [x.2])]
    ((ps.zip bs).foldl run []).reverse.foldl (fun s r => homeWrite s r.1 r.2) s

def answerPeer (s : State) (r : PeerRequest) (x : PeerResult) : State := { s with peerSent := s.peerSent ++ [.answer r.pctx r.id x] }

/-- A request fails at the target (R385), at a byte so far from its address: its queue pair freezes, and a record goes to the
target region. -/
def faultPeer (s : State) (r : PeerRequest) (rgn : Option Rgn) (off done : Nat) (data : List Byte) : State :=
  let va : Dword := BitVec.ofNat 64 (r.owner * 2 ^ 54 + r.offset + off)
  let s1 := answerPeer { s with frozenPairs := r.pctx :: s.frozenPairs } r (.fault off done data)
  match rgn with
  | none => s1
  | some g => postFault s1 g none { cause := cPeerFault, kind := 3, access := 8, core := 16 * r.port, faddr := va, rcb := g }

/-- A request is applied at some places, in full or up to a failure. It belongs to no region, and moves no line of a slice
(11 R430). -/
def applyPeer (s : State) (asn : Nat) (va : Dword) (op : PeerOp) (ps : List Nat) : State × List Byte × Bool :=
  let x := peerApply op (ps.map (fun k => kget 0 s.mem k))
  match op with
  | .load _ | .get _ | .sumget => (s, x.2.1, false)
  | .drain f add xsat stride rows => ((drainAll 0 asn false f add xsat va.toNat stride rows s).s, [], false)
  | _ => (putPlaces s ps x.1, x.2.1, x.2.2)

/-- PEER_INBOUND_REQUEST (R383, R385). Nothing arrives on a port that is not ready (01 R14). -/
def execPeerInboundRequest (r : PeerRequest) (s : State) : Host.Outcome State Fault Refusal :=
  if !portReady s r.port then .next s
  else if s.peerCancelled.contains (r.pctx, r.id) then .next { s with peerCancelled := s.peerCancelled.filter (fun x => x != (r.pctx, r.id)) }
  else if s.frozenPairs.contains r.pctx then .next (answerPeer s r (.fault 0 0 []))
  else match s.pctxs.find? (fun x => x.1 = r.pctx) with
    | none => .next (faultPeer s r none 0 0 [])
    | some (_, asn, rcb) =>
      let va : Dword := BitVec.ofNat 64 (r.owner * 2 ^ 54 + r.offset)
      let rgn := mkRgn asn rcb
      let sh := peerShape r.op
      if 3 ≤ r.owner || 2 ^ 54 ≤ r.offset || (formCheck va sh.1 sh.2.1).isSome then .next (faultPeer s r (some rgn) 0 0 [])
      else
        let all := (peerRuns va.toNat r.op).flatMap (fun x => (List.range x.2).map (x.1 + ·))
        let ps := peerPlaces s asn r.op all
        let note (t : State) : State := { t with peerApplied := t.peerApplied ++ [(r.pctx, r.id)] }
        let off := all.getD ps.length va.toNat - va.toNat
        if ps.length = all.length then
          let x := applyPeer s asn va r.op ps
          .next (answerPeer (note x.1) r (if x.2.2 then .mismatch else .ok x.2.1))
        else if peerStops r.op then
          let n := peerWhole r.op ps.length
          let x := applyPeer s asn va r.op (ps.take n)
          .next (faultPeer (note x.1) r (some rgn) off n x.2.1)
        else .next (faultPeer s r (some rgn) off 0 [])

/-- PEER_CANCEL (R385): a request that has not been applied yet is discarded. -/
def execPeerCancel (pctx id : Nat) (s : State) : Host.Outcome State Fault Refusal :=
  if s.peerApplied.contains (pctx, id) || s.peerCancelled.contains (pctx, id) then .next s
  else .next { s with peerCancelled := s.peerCancelled ++ [(pctx, id)] }

/-! The initiator. -/

/-- What a part sees of a failed lane (R385): $pstat CODE and $resid. -/
def flagPeer (s : State) (core slot serial : Nat) (part : Lanes) (lane : Nat) (cause : Byte) : State :=
  let mark (p : Part) : Part := if (part &&& p.lanes) != 0 then { p with pstat := BitVec.ofNat 16 cause.toNat } else p
  updSerial s core slot serial (fun w => { w with resid := w.resid ||| BitVec.ofNat 64 (2 ^ lane), parts := w.parts.map mark })

/-- A lane of a load receives its bytes; the flag mask register is written with the last (12 R246). -/
def fixPeerLane (s : State) (core slot load lane : Nat) (bs : List Byte) (flag : Bool) : State :=
  let fix (l : LoadLane) : LoadLane := if l.lane = lane then { l with fixed := some bs, peer := none } else l
  updWave s core slot (fun w => payFm (updLoad w load (fun ld =>
    { ld with lanes := ld.lanes.map fix
              flagged := if flag then ld.flagged ||| BitVec.ofNat 64 (2 ^ lane) else ld.flagged })) load)

/-- A store or atomic of the outbound path has its answer. -/
def outAnswered (s : State) (core entry id : Nat) : State :=
  finishOut (updOut s core entry (fun o => { o with peers := o.peers.filter (· != id) })) core entry

/-- The address at which a request failed (22 R397). -/
def PeerOut.at' (r : PeerOut) (off : Nat) : Dword := r.va + BitVec.ofNat 64 off

/-- A peer load fails: zeros, flags and a record. -/
def failPeerLoad (s : State) (r : PeerOut) (core slot load lane : Nat) (cause : Byte) (off : Nat) : State :=
  let k := getCore s core
  match getWave k slot with
  | none => s
  | some w =>
    match w.loads.find? (fun ld => ld.id = load), getWg k w.wg with
    | some ld, some g =>
      let s1 := flagPeer s core slot w.serial ld.part lane cause
      let s2 := fixPeerLane s1 core slot load lane (zeroBytes ld.dst ld.size) true
      peerRecord s2 core slot cause 1 g.asn g.region (r.at' off) g.launch g.id (quadsOf ld.part) (BitVec.ofNat 64 (2 ^ lane)) 0
        (some r.port)
    | _, _ => s

/-- A peer store or atomic fails: flags, a returned 0, and a record. -/
def failPeerOut (s : State) (r : PeerOut) (core entry lane : Nat) (load : Option Nat) (cause : Byte) (off : Nat) : State :=
  match (getCore s core).outbound.find? (fun o => o.id = entry) with
  | none => s
  | some o =>
    let s1 := flagOut s core o lane
    let s2 := flagPeer s1 core o.slot o.serial o.entry.part lane cause
    let s3 := peerRecord s2 core o.slot cause (if load.isSome then 3 else 2) o.asn o.region (r.at' off) o.launch o.wgId
      (quadsOf o.entry.part) (BitVec.ofNat 64 (2 ^ lane)) 0 (some r.port)
    outAnswered s3 core entry r.id

/-- A chunk's bytes arrive from the peer and are written (13 R265). -/
def landChunk (s : State) (core slot : Nat) (j : Job) (data : List Byte) : State :=
  let (r, off, n) := j.position
  let dst := (j.destRow r).add off
  let s0 := touchPlace s j .store dst n
  let w := gatherBytes ((data.take n).mapIdx (fun i b => (.ok b, engMayWrite s0 j.asn (dst.add i)))) []
  match w.2 with
  | none => advanceJob (putBytes s0 core j.asn dst w.1) core slot j n true
  | some (.prot c va a) => failJob s0 core slot j (.prot c va a)
  | some (.status st) => failJob (putBytes s0 core j.asn dst w.1) core slot { j with done := j.done + w.1.length } (.status st)

/-- A job's request fails: the bytes before the failing one are done (13 R265), and the job ends with the cause. -/
def failPeerJob (s : State) (r : PeerOut) (core job : Nat) (cause : Byte) (off done : Nat) (data : List Byte) : State :=
  match getJob s core job with
  | none => s
  | some j =>
    if j.peer != some r.id then s
    else
      let j0 := { j with peer := none }
      let write (s : State) : State := if j.fn = 0x21 then putBytes s core j.asn ((j.destRow j.position.1).add j.position.2.1) data else s
      let may := data.mapIdx (fun i b => (Got.ok b, engMayWrite s j.asn (((j.destRow j.position.1).add j.position.2.1).add i)))
      match if j.fn = 0x21 then (gatherBytes may []).2 else none with
      | some _ => landChunk s core job j0 data
      | none =>
        let j1 := { j0 with phase := .ending cause, done := j.done + done }
        peerRecord (setJob (write s) core job j1) core (job + 0x40) cause (if j.fn = 0x21 then 5 else 6) j.asn j.region
          (r.at' off) j.launch j.wgId 0 0 (BitVec.ofNat 32 j1.done) (some r.port)

/-- A drain's request fails: nothing is written, and its future takes the cause. -/
def failPeerDrain (s : State) (r : PeerOut) (core entry : Nat) (cause : Byte) (off : Nat) : State :=
  let k := getCore s core
  match k.array.find? (fun e => e.id = entry) with
  | none => s
  | some e =>
    peerRecord (drainResult s core entry 0 cause e.bits) core e.slot cause 7 e.asn e.region (r.at' off) e.launch e.wgId
      (reportQuads k e.slot e.serial e.lane) (BitVec.ofNat 64 (2 ^ e.lane)) 0 (some r.port)

/-- A row of a colour tile has its answer (17 R335). -/
def tileAnswered (s : State) (r : PeerOut) (batch row : Nat) (data : List Byte) : State :=
  let rows := match r.op with
    | .load _ => [(row, data)]
    | _ => []
  let got (b : Batch) : Batch := { b with peers := b.peers.filter (· != r.id), image := b.image ++ rows }
  { s with batches := updateWhere (fun b => b.id = batch) got s.batches }

/-- A row of a colour tile fails: zeros where it was read, and a record, which no core reports (log 33). -/
def failTile (s : State) (r : PeerOut) (batch row : Nat) (cause : Byte) (off : Nat) : State :=
  let n := match r.op with
    | .load n => n
    | _ => 0
  match s.batches.find? (fun b => b.id = batch) with
  | none => s
  | some b => tileRecord (tileAnswered s r batch row (List.replicate n 0)) b cause (if n = 0 then 2 else 1) (r.at' off) r.port

/-- A request fails for what it belongs to (R385). -/
def failPeer (s : State) (r : PeerOut) (cause : Byte) (off done : Nat) (data : List Byte) : State :=
  match r.use with
  | .load core slot load lane => failPeerLoad s r core slot load lane cause off
  | .store core entry lane => failPeerOut s r core entry lane none cause off
  | .atomic core entry lane load => failPeerOut s r core entry lane (some load) cause off
  | .job core job _ => failPeerJob s r core job cause off done data
  | .drain core entry => failPeerDrain s r core entry cause off
  | .tile batch row => failTile s r batch row cause off

/-- A job's chunk is acknowledged; a source that failed behind it shows at the next chunk (13 R265, R387). -/
def ackChunk (s : State) (r : PeerOut) (core job n : Nat) (mismatch : Bool) (data : List Byte) : State :=
  match getJob s core job with
  | none => s
  | some j =>
    if j.peer != some r.id then s
    else
      let j1 := { j with peer := none, mismatch := j.mismatch || mismatch }
      if j.fn = 0x21 then landChunk s core job j1 data else advanceJob s core job j1 n true

/-- What an answer gives to what it belongs to. -/
def takePeer (s : State) (r : PeerOut) (data : List Byte) (mismatch : Bool) : State :=
  match r.use with
  | .load core slot load lane => fixPeerLane s core slot load lane data false
  | .store core entry _ => outAnswered s core entry r.id
  | .atomic core entry lane load =>
    match (getCore s core).outbound.find? (fun o => o.id = entry) with
    | none => s
    | some o => outAnswered (answerLane s core o.slot o.serial (some load) lane data) core entry r.id
  | .job core job n => ackChunk s r core job n mismatch data
  | .tile batch row => tileAnswered s r batch row data
  | .drain core entry =>
    match r.op with
    | .drain f _ _ _ rows => drainResult s core entry (rows.length * 64 * drainSize f) 0
        ((((getCore s core).array.find? (fun e => e.id = entry)).map (·.bits)).getD 0)
    | _ => s

/-- PEER_REPLY (R384, R385): a reply to a request that is no longer outstanding is discarded. -/
def execPeerReply (id : Nat) (x : PeerResult) (s : State) : Host.Outcome State Fault Refusal :=
  match s.peers.find? (fun r => r.id = id) with
  | none => .next s
  | some r =>
    let s1 := { s with peers := s.peers.filter (fun r => r.id != id) }
    match x with
    | .ok data => .next (takePeer s1 r data false)
    | .mismatch => .next (takePeer s1 r [] true)
    | .fault off done data => .next (failPeer s1 r cPeerFault off done data)

/-- PEER_TIMEOUT (R385): the request is cancelled, and its initiator sees a timeout. -/
def execPeerTimeout (id : Nat) (s : State) : Host.Outcome State Fault Refusal :=
  match s.peers.find? (fun r => r.id = id) with
  | none => .next s
  | some r =>
    let s1 := { s with peers := s.peers.filter (fun r => r.id != id), peerSent := s.peerSent ++ [.cancel r.port r.module id] }
    .next (failPeer s1 r cPeerTimeout 0 0 [])

end Sys2Proof.Machine
end

