-- ==== Sys2Proof/Machine/Pred.lean ====
section
/-! DEFINITION. Predicates, lane masks and special registers (09 R162-R169; 06 R104, R105). -/
namespace Sys2Proof.Machine

/-- A predicate instruction: lane by lane, other bits of pD keep their value (R162). -/
def predOp (op : Nat) (f : Fields) (s : State) (h : Lanes → Lanes → Lanes) : Host.Outcome State Fault Refusal :=
  runPart op f s (fun c =>
    .next (c.putP f (c.activeLanes f) (h (c.readP (f.a.toNat - 392)) (c.readP (f.b.toNat - 392)))))

/-- `pand` (R162). -/
def execPand (f : Fields) (s : State) : Host.Outcome State Fault Refusal :=
  predOp 0x010 f s (fun a b => a &&& b)

/-- `por` (R162). -/
def execPor (f : Fields) (s : State) : Host.Outcome State Fault Refusal :=
  predOp 0x011 f s (fun a b => a ||| b)

/-- `pxor` (R162). -/
def execPxor (f : Fields) (s : State) : Host.Outcome State Fault Refusal :=
  predOp 0x012 f s (fun a b => a ^^^ b)

/-- `pnot` (R162). -/
def execPnot (f : Fields) (s : State) : Host.Outcome State Fault Refusal :=
  predOp 0x013 f s (fun a _ => ~~~a)

/-- A mask instruction: one 64-bit value, single-effect (R163). -/
def maskOp (op : Nat) (f : Fields) (s : State) (h : Dword → Dword → Dword) : Host.Outcome State Fault Refusal :=
  runPart op f s (fun c =>
    single f c (.next (c.writeM (f.d.toNat - 400) (h (c.readM (f.a.toNat - 400)) (c.readM (f.b.toNat - 400))))))

/-- `mand` (R163). -/
def execMand (f : Fields) (s : State) : Host.Outcome State Fault Refusal :=
  maskOp 0x014 f s (fun a b => a &&& b)

/-- `mor` (R163). -/
def execMor (f : Fields) (s : State) : Host.Outcome State Fault Refusal :=
  maskOp 0x015 f s (fun a b => a ||| b)

/-- `mxor` (R163). -/
def execMxor (f : Fields) (s : State) : Host.Outcome State Fault Refusal :=
  maskOp 0x016 f s (fun a b => a ^^^ b)

/-- `mpopc` (R163). -/
def execMpopc (f : Fields) (s : State) : Host.Outcome State Fault Refusal :=
  runPart 0x018 f s (fun c =>
    single f c (.next (c.putS 0x018 f (BitVec.ofNat 32 (popCount (c.readM (f.a.toNat - 400)))))))

/-- Index of the lowest one bit, all ones for zero (R163). -/
def lowestOne (m : Dword) : Word := if m = 0 then 0xFFFFFFFF else BitVec.ofNat 32 (lowestLane m)

/-- `mffs` (R163). -/
def execMffs (f : Fields) (s : State) : Host.Outcome State Fault Refusal :=
  runPart 0x019 f s (fun c =>
    single f c (.next (c.putS 0x019 f (lowestOne (c.readM (f.a.toNat - 400))))))

/-- The 64 bits that `mmov` reads from an m, p or s2 register or $exec (R165). -/
def Cx.maskSource (c : Cx) (n : Nat) : Dword :=
  if n = 466 then c.p.exec
  else if 400 ≤ n then c.readM (n - 400)
  else if 392 ≤ n then c.readP (n - 392) &&& c.p.lanes
  else c.readS (n - 255) ++ c.readS (n - 256)

/-- `mmov` (R165). -/
def execMmov (f : Fields) (s : State) : Host.Outcome State Fault Refusal :=
  runPart 0x017 f s (fun c =>
    let v := c.maskSource f.a.toNat
    let d := f.d.toNat
    single f c (.next (
      if d = 466 then c.setExec v
      else if 400 ≤ d then c.writeM (d - 400) v
      else c.putP f c.p.lanes v)))

/-- `mexec` (R166): mA is read before mD is written. -/
def execMexec (f : Fields) (s : State) : Host.Outcome State Fault Refusal :=
  runPart 0x01A f s (fun c =>
    let a := c.readM (f.a.toNat - 400)
    single f c (.next ((c.writeM (f.d.toNat - 400) c.p.exec).setExec (c.p.exec &&& a))))

/-- $cad (06 R105). -/
def cadWord (k : Core) : Word :=
  BitVec.ofNat 32 (k.floor * 256 + (if k.ballast then 128 else 0) + k.interval)

/-- $width: WAVE, and 4 x quads of the part (06 R105). -/
def Cx.widthWord (c : Cx) : Word := BitVec.ofNat 32 (c.w.width * 256 + 4 * popCount c.qmask)

/-- The contents of a special register by number (04 R73; 06 R104); $grid_x shares number 463. -/
def Cx.special (c : Cx) (n : Nat) (gridX : Bool) : Dword :=
  match n with
  | 456 => BitVec.ofNat 64 c.lane
  | 457 => BitVec.ofNat 64 (c.lane / 4)
  | 458 => BitVec.ofNat 64 c.w.index
  | 459 => BitVec.ofNat 64 c.qmask.toNat
  | 460 => BitVec.ofNat 64 c.widthWord.toNat
  | 461 => BitVec.ofNat 64 c.g.x
  | 462 => BitVec.ofNat 64 c.g.y
  | 463 => BitVec.ofNat 64 (if gridX then c.g.gx else c.g.z)
  | 464 => BitVec.ofNat 64 c.g.gy
  | 465 => BitVec.ofNat 64 c.g.gz
  | 466 => c.p.exec
  | 467 => c.w.resid
  | 468 => BitVec.ofNat 64 c.cyc
  | 469 => BitVec.ofNat 64 (cadWord c.k).toNat
  | 470 => BitVec.ofNat 64 c.p.pstat.toNat
  | 471 => BitVec.ofNat 64 c.g.id
  | 472 => c.g.kernel.dseg
  | _ => 0

/-- A 32-bit half of a 64-bit value. -/
def halfOf (v : Dword) (hi : Bool) : Word := BitVec.ofNat 32 (bits v (if hi then 32 else 0) 32)

/-- Replace a half of a 64-bit value. -/
def putHalf (v : Dword) (hi : Bool) (x : Word) : Dword := putBits v (if hi then 32 else 0) 32 x.toNat

/-- `srd` (R167). -/
def execSrd (f : Fields) (s : State) : Host.Outcome State Fault Refusal :=
  runPart 0x01B f s (fun c =>
    single f c (.next (c.putS 0x01B f (halfOf (c.special f.a.toNat (tbit f.x 15)) (tbit f.x 0)))))

/-- `swr $exec` (R168, R164): one half is replaced. -/
def execSwrExec (f : Fields) (s : State) : Host.Outcome State Fault Refusal :=
  runPart 0x01C f s (fun c =>
    single f c (.next (c.setExec (putHalf c.p.exec (tbit f.x 0) (c.opn 0x01C f 0 .int 0)))))

/-- The addresses of a queued access. -/
def entryAddrs (e : QEntry) : List Dword := (entryRanges e).map (·.1)

/-- Queued and outbound accesses of the part. -/
def Cx.partEntries (c : Cx) : List QEntry :=
  c.w.queue.filter (fun e => (e.part &&& c.p.lanes) != 0) ++
  (c.k.outbound.filter (fun o => o.serial = c.w.serial && (o.entry.part &&& c.p.lanes) != 0)).map (·.entry)

/-- Every earlier memory access of the part has reported its residency (R168). -/
def Cx.residencyReported (c : Cx) : Bool :=
  c.partEntries.all (fun e => (entryAddrs e).isEmpty) &&
  !c.w.loads.any (fun ld => ld.lanes.any (fun l => tbit c.p.lanes l.lane))

/-- Every earlier peer access of the part has reported (R168). -/
def Cx.peersReported (c : Cx) : Bool :=
  c.partEntries.all (fun e => !(entryAddrs e).any isPeerVa) &&
  !c.w.loads.any (fun ld => ld.lanes.any (fun l => tbit c.p.lanes l.lane && isPeerVa l.va))

/-- `swr $resid` (R168). -/
def execSwrResid (f : Fields) (s : State) : Host.Outcome State Fault Refusal :=
  runPart 0x01C f s (fun c =>
    single f c (
      if c.residencyReported then
        .next { c with w := { c.w with resid := putHalf c.w.resid (tbit f.x 0) (c.opn 0x01C f 0 .int 0) } }
      else .stall .sync))

/-- `swr $pstat` (R168): CODE only. -/
def execSwrPstat (f : Fields) (s : State) : Host.Outcome State Fault Refusal :=
  runPart 0x01C f s (fun c =>
    single f c (
      if c.peersReported then
        .next (c.part (fun p => { p with pstat := BitVec.ofNat 16 (bits (c.opn 0x01C f 0 .int 0) 0 16) }))
      else .stall .sync))

/-- `scyc` (R169): all 64 bits at once. -/
def execScyc (f : Fields) (s : State) : Host.Outcome State Fault Refusal :=
  runPart 0x01D f s (fun c =>
    let v : Dword := BitVec.ofNat 64 c.cyc
    single f c (.next ((c.writeS (f.d.toNat - 256) (halfOf v false)).writeS (f.d.toNat - 255) (halfOf v true))))

end Sys2Proof.Machine
end

