-- ==== Sys2Proof/Machine/Queue.lean ====
section
/-! DEFINITION. Queue registers, the Creel's appends, device launches, and the grid barrier's messages (20 R371-R382). -/
namespace Sys2Proof.Machine

/-! Bindings and bins (R373, R375). -/

def qIndex (f : Fields) : Nat := f.a.toNat - 424

/-- QUEUE_UNBOUND (R379), or the binding. -/
def Cx.withBinding (c : Cx) (f : Fields) (g : QBind → Effect) : Effect :=
  match c.g.kernel.binds.find? (fun b => b.q = qIndex f) with
  | none => .trap { cause := 0x12 }
  | some b => if !b.launch && (regionGrant c.s c.g.region).l2Ways = 0 then .trap { cause := 0x12 } else g b

def getBin (s : State) (root key : Nat) : Option Bin := s.bins.find? (fun b => b.root = root && b.key = key)

/-- The slices that a bin may take, in order (R375). -/
def binSlices (s : State) (root key : Nat) : List Nat :=
  let h := homesOf s 0 ++ homesOf s 1
  let i := if h.isEmpty then 0 else (key + root) % h.length
  h.drop i ++ h.take i

/-- The slice that holds a new bin of n lines, if one can. -/
def binSlice (s : State) (rgn : Rgn) (root key n : Nat) : Option Nat :=
  (binSlices s root key).find? (fun sl => decide (pinnedLines s rgn sl + n ≤ wayLines (grantedWays s rgn)))

/-- The image that a kernel was loaded from: the loaded object, and the image with its mapping. -/
def imageOfKernel (s : State) (k : Kernel) : Option (Loaded × Image × Mapped) :=
  match s.mapped.find? (fun m => m.asn = k.code.asn && m.codeBase = k.code.base) with
  | none => none
  | some m =>
    match s.loaded.find? (fun l => l.asn = m.asn && l.addr = m.addr && l.digest = m.digest) with
    | none => none
    | some l => ((images l.bytes).find? (fun i => i.idx = m.image)).map (fun i => (l, i, m))

/-- The kernel of a node key of the same image (R373), with the handler that the launch installed for those that declare
none (02 R38). A portable image is translated for one wave of the node's width (02 R36). -/
def nodeKernel (s : State) (k : Kernel) (key : Nat) : Option (State × Kernel) :=
  (imageOfKernel s k).map (fun x =>
    let d := findDesc x.1.bytes x.2.1 key
    let r := readyKernel s x.1 x.2.1 d (2 ^ field d 12 12)
    (r.1, { r.2 with regionHandler := k.regionHandler }))

/-- The first `spawn` into a bin takes its lines. -/
def createBin (s : State) (g : Workgroup) (b : QBind) : State :=
  let root := rootOf g
  match getBin s root b.key, binSlice s g.region root b.key (ceilDiv (b.cap * b.recBytes) 128), nodeKernel s g.kernel b.key with
  | none, some sl, some (s1, k) =>
    l2Fit { s1 with bins := s1.bins ++ [{ root := root, key := b.key, region := g.region, slice := sl, recBytes := b.recBytes
                                          cap := b.cap, timer := b.timer, kernel := k }] } g.region [sl]
  | _, _, _ => s

/-- Room for n more records: in the bin, or in a slice for a new one (R375, R380). -/
def binRoom (s : State) (g : Workgroup) (b : QBind) (n : Nat) : Bool :=
  match getBin s (rootOf g) b.key with
  | some x => decide (x.reserved + n ≤ x.cap)
  | none => (binSlice s g.region (rootOf g) b.key (ceilDiv (b.cap * b.recBytes) 128)).isSome && (imageOfKernel s g.kernel).isSome

/-- Places promised to a `spawn`. -/
def reserve (s : State) (root key n : Nat) : State :=
  { s with bins := updateWhere (fun x => x.root = root && x.key = key) (fun x => { x with reserved := x.reserved + n }) s.bins }

/-! `spawn` (R380). -/

/-- Records of a `spawn`: lane and scratchpad offset, in ascending lane. -/
def Cx.spawnRecords (c : Cx) (op : Nat) (f : Fields) (b : QBind) : List (Nat × Int) :=
  let o := (c.opn op f 1 .int 0).toInt
  if modOf f % 2 = 1 then (lanesOf (c.activeLanes f)).map (fun l => (l, o + ((l * b.recBytes : Nat) : Int)))
  else [(c.lane, o)]

/-- A stall on bin room counts its cycles; a stall on the future table does not. -/
def Cx.stallSpawn (c : Cx) (n : Nat) : Effect :=
  .stallDo .sync (fun s => updWave s c.core c.slot (fun w => updPart w c.lane (fun p =>
    { p with stallFor := if n = 0 then 0 else max n p.stallFor })))

/-- The `spawn` takes effect with a future entry: its records are read, and it enters the store queue. -/
def Cx.spawnGo (c : Cx) (f : Fields) (b : QBind) (recs : List (Nat × Int)) (i : Nat) : Effect :=
  let words (o : Int) : List Word := (List.range (b.recBytes / 4)).map (fun j => BitVec.ofNat 32 (ofBytes (c.spRead (o + (4 * j : Nat)) 4)))
  let data : List (Nat × Word) := recs.flatMap (fun r => (words r.2).map (fun w => (r.1, w)))
  let k := allocFut c.k i c.g.region c.w.serial 0
  let fut : Future := { getFut k i with queue := some b.q, launches := if b.launch then List.replicate recs.length (0, none) else [] }
  let c1 : Cx := { c with k := setFut k i fut }
  let c2 := c1.writeH (f.d.toNat - 408) (handle 1 i fut.gen)
  let c3 := c2.push (c2.entry (.spawn b.q data i) (some 4) 0 [])
  if b.launch then .next c3
  else .thenDo c3 (fun s => reserve (createBin s c.g b) (rootOf c.g) b.key recs.length)

/-- `spawn` (R380). -/
def spawnOp (op : Nat) (f : Fields) (s : State) : Host.Outcome State Fault Refusal :=
  runPart op f s (fun c => single f c (c.withBinding f (fun b =>
    let recs := c.spawnRecords op f b
    let bad := recs.filter (fun r => c.spBad r.2 b.recBytes)
    if c.w.closed.contains (qIndex f) then .trap { cause := 0x13 }
    else if c.held then .stall .sync
    else match c.spTrap recs b.recBytes (if b.launch then 64 else 4) with
    | some t => .trap t
    | none =>
      if !bad.isEmpty then .thenDo c (freezeLanes c 1 (bad.map (fun x => (x.1, cCheck, BitVec.ofInt 64 x.2))))
      else match freeFut c.k 64 128 with
      | none => c.stallSpawn 0
      | some i =>
        if !b.launch && !binRoom c.s c.g b recs.length then c.stallSpawn 1
        else c.spawnGo f b recs i)))

/-- `spawn` (R380). -/
def execSpawn (f : Fields) (s : State) : Host.Outcome State Fault Refusal := spawnOp 0x0B6 f s

/-- `spawn.lanes` (R380). -/
def execSpawnLanes (f : Fields) (s : State) : Host.Outcome State Fault Refusal := spawnOp 0x0B6 f s

/-- `qcount` (R381). -/
def execQcount (f : Fields) (s : State) : Host.Outcome State Fault Refusal :=
  runPart 0x0B7 f s (fun c => single f c (c.withBinding f (fun b =>
    let n :=
      if b.launch then
        (c.k.futs.filter (fun e => e.2.phase = 1 && e.2.serial = c.w.serial && e.2.queue = some b.q)).foldl
          (fun a e => a + e.2.launches.length) 0
      else ((getBin c.s (rootOf c.g) b.key).map (fun x => x.records.length)).getD 0
    .next (c.putS 0x0B7 f (BitVec.ofNat 32 n)))))

/-- `qclose` (R382). -/
def execQclose (f : Fields) (s : State) : Host.Outcome State Fault Refusal :=
  runPart 0x0B8 f s (fun c => single f c (c.withBinding f (fun b =>
    if c.w.closed.contains b.q then .next c
    else
      let c1 : Cx := { c with w := { c.w with closed := c.w.closed ++ [b.q] } }
      .next (c1.push (c1.entry (.qclose b.q) none 0 [])))))

/-! The queue leaves (R380, R382). -/

/-- Records of a queued `spawn`, cut to RECBYTES. -/
def cutRecords (n : Nat) (data : List (Nat × Word)) : List (List Byte) :=
  cutInto n (4 * data.length / max 1 n) (data.flatMap (fun x => toBytes 4 x.2.toNat))

/-- Records reach a bin's bank: they are appended, the future completes, and waves are launched (R376, R380). -/
def appendRecords (s : State) (core fut root : Nat) (b : QBind) (recs : List (List Byte)) : State :=
  let put (x : Bin) : Bin :=
    { x with records := x.records ++ recs, restarted := if x.records.isEmpty then binCyc s x else x.restarted }
  let s1 := { s with bins := updateWhere (fun x => x.root = root && x.key = b.key) put s.bins }
  let k := getCore s1 core
  binTest root (setCore s1 core (completeFut k fut 0 (recs.length * b.recBytes))) b.key

/-- Launch records go to the manager one by one (R380, 03 R47). -/
def handLaunches (s : State) (core fut : Nat) (g : Workgroup) (recs : List (List Byte)) : State :=
  let k := getCore s core
  let x := getFut k fut
  let s1 := setCore s core (setFut k fut { x with launches := (List.range recs.length).map (fun i => (s.accepted + i, none)) })
  (recs.mapIdx (fun i r => (i, r))).foldl (fun s r =>
    (acceptLaunch s { asn := g.asn, parent := some g.region, fut := some (core, fut, x.gen, r.1) } r.2).1) s1

/-- SPAWN_APPEND (R380): a `spawn` at the head of its store queue leaves it, as a release. -/
def execSpawnAppend (core slot : Nat) (s : State) : Host.Outcome State Fault Refusal :=
  match queueHead s core slot with
  | some (_, _, g, ⟨_, _, _, _, .spawn q data fut, _, _, _⟩) =>
    match g.kernel.binds.find? (fun b => b.q = q) with
    | none => .next s
    | some b =>
      let s1 := popQueue s core slot
      if b.launch then .next (handLaunches s1 core fut g (cutRecords 64 data))
      else .next (appendRecords s1 core fut (rootOf g) b (cutRecords b.recBytes data))
  | _ => .next s

/-- QCLOSE_LEAVE (R382): the wave stops being an open producer. -/
def execQcloseLeave (core slot : Nat) (s : State) : Host.Outcome State Fault Refusal :=
  match queueHead s core slot with
  | some (_, _, g, ⟨_, _, _, _, .qclose q, _, _, _⟩) =>
    .next (creelTest (updWave (popQueue s core slot) core slot (fun w => { w with closed := w.closed ++ [32 + q] })) (rootOf g))
  | _ => .next s

/-- QUEUE_STALL (R380): a part stalled on bin room for 1,048,576 cycles. -/
def execQueueStall (p : PartRef) (s : State) : Host.Outcome State Fault Refusal :=
  match partAt s p with
  | none => .next s
  | some c =>
    if 1048576 < c.p.stallFor then
      .next (takeTrap (c.part (fun p => { p with stallFor := 0, wait := .ready })) { cause := 0x14 })
    else .next s

/-! The grid barrier's messages (R372). -/

/-- What the waves loaded has been performed, and nothing of theirs is left in a store queue. -/
def settled (ws : List Wave) : Bool := ws.all (fun w => w.queue.isEmpty && !w.loads.any (fun ld => ld.lanes.any LoadLane.out))

/-- GBAR_ARRIVAL (R372): the accesses of the workgroup are performed at .dev, and its message reaches the counter. No counter
changes while contexts of its launch leave or are out (R371, 22 R403). -/
def execGbarArrival (core bar : Nat) (s : State) : Host.Outcome State Fault Refusal :=
  let k := getCore s core
  match getWg k bar with
  | none => .next s
  | some g =>
    let ws := g.slots.filterMap (getWave k)
    let out := k.outbound.any (fun o => ws.any (fun w => w.serial = o.serial))
    let away := ((getLaunch s g.launch).map (·.leaving)).getD false
    if !g.gbarSent || g.gbarIn || !settled ws || out || away then .next s
    else match (getLaunch s g.launch).bind (·.capstan) with
      | none => .next s
      | some i =>
        let s1 := updWg s core bar (fun g => { g with gbarIn := true })
        let x := getCapstan s1 i
        .next (capstanTest (setCapstan s1 i { x with arrived := x.arrived + 1 }) i)

/-- GBAR_RELEASE (R372): the release reaches a workgroup's core, as an acquire at .dev, and the instance opens. -/
def execGbarRelease (core bar : Nat) (s : State) : Host.Outcome State Fault Refusal :=
  match getWg (getCore s core) bar with
  | none => .next s
  | some g =>
    if !g.gbarDue then .next s
    else
      let s1 := setCore s core (l1Acquire (getCore s core) g.asn 4)
      .next (openBarrier s1 core bar)

end Sys2Proof.Machine
end

