-- ==== Sys2Proof/Machine/Dispatch.lean ====
section
/-! DEFINITION. One arm per constructor of Instr. -/
namespace Sys2Proof.Machine

def exec (i : Instr) (s : State) : Host.Outcome State Fault Refusal :=
  match i with
  | .powerOnBoot images => Sys2Proof.Machine.execPowerOnBoot images s
  | .selftestPass fs => Sys2Proof.Machine.execSelftestPass fs s
  | .selftestFail fs => Sys2Proof.Machine.execSelftestFail fs s
  | .recoveryReply d => Sys2Proof.Machine.execRecoveryReply d s
  | .launch d => Sys2Proof.Machine.execLaunch d s
  | .put d => Sys2Proof.Machine.execPut d s
  | .get d => Sys2Proof.Machine.execGet d s
  | .attest d => Sys2Proof.Machine.execAttest d s
  | .ctxReset d => Sys2Proof.Machine.execCtxReset d s
  | .teardown d => Sys2Proof.Machine.execTeardown d s
  | .placeWorkgroup => Sys2Proof.Machine.execPlaceWorkgroup s
  | .wgPublish core bar => Sys2Proof.Machine.execWgPublish core bar s
  | .launchEnd acc => Sys2Proof.Machine.execLaunchEnd acc s
  | .issueStarvation p => Sys2Proof.Machine.execIssueStarvation p s
  | .globalLoadReturn core slot load quads => Sys2Proof.Machine.execGlobalLoadReturn core slot load quads s
  | .missSplit p => Sys2Proof.Machine.execMissSplit p s
  | .storeQueueLeave core slot => Sys2Proof.Machine.execStoreQueueLeave core slot s
  | .rejoinExpire core slot entry => Sys2Proof.Machine.execRejoinExpire core slot entry s
  | .forcedFuse core slot => Sys2Proof.Machine.execForcedFuse core slot s
  | .combineWindowClose entry => Sys2Proof.Machine.execCombineWindowClose entry s
  | .engAccept core slot => Sys2Proof.Machine.execEngAccept core slot s
  | .engChunk core job => Sys2Proof.Machine.execEngChunk core job s
  | .engJobEnd core job => Sys2Proof.Machine.execEngJobEnd core job s
  | .carderJobStart cluster => Sys2Proof.Machine.execCarderJobStart cluster s
  | .translationChange asn va leaf => Sys2Proof.Machine.execTranslationChange asn va leaf s
  | .fwRegisterWrite w => Sys2Proof.Machine.execFwRegisterWrite w s
  | .mloadExecute core entry => Sys2Proof.Machine.execMloadExecute core entry s
  | .arrayRowEntry core => Sys2Proof.Machine.execArrayRowEntry core s
  | .tileRowWrite core => Sys2Proof.Machine.execTileRowWrite core s
  | .drainExecute core entry => Sys2Proof.Machine.execDrainExecute core entry s
  | .drainComplete core entry => Sys2Proof.Machine.execDrainComplete core entry s
  | .cadenceEval core => Sys2Proof.Machine.execCadenceEval core s
  | .sprintClaim zone lower upper => Sys2Proof.Machine.execSprintClaim zone lower upper s
  | .fallStepEnd cluster => Sys2Proof.Machine.execFallStepEnd cluster s
  | .coolDownEnd cluster => Sys2Proof.Machine.execCoolDownEnd cluster s
  | .permitCredit cluster => Sys2Proof.Machine.execPermitCredit cluster s
  | .rampIntervalDouble core => Sys2Proof.Machine.execRampIntervalDouble core s
  | .rampWindowEnd core => Sys2Proof.Machine.execRampWindowEnd core s
  | .rampCharge core => Sys2Proof.Machine.execRampCharge core s
  | .fragmentWgCreate batch => Sys2Proof.Machine.execFragmentWgCreate batch s
  | .colourTileWriteback core bar => Sys2Proof.Machine.execColourTileWriteback core bar s
  | .binTimerExpire bin => Sys2Proof.Machine.execBinTimerExpire bin s
  | .spawnAppend core slot => Sys2Proof.Machine.execSpawnAppend core slot s
  | .qcloseLeave core slot => Sys2Proof.Machine.execQcloseLeave core slot s
  | .queueStall p => Sys2Proof.Machine.execQueueStall p s
  | .gbarArrival core bar => Sys2Proof.Machine.execGbarArrival core bar s
  | .gbarRelease core bar => Sys2Proof.Machine.execGbarRelease core bar s
  | .peerInboundRequest r => Sys2Proof.Machine.execPeerInboundRequest r s
  | .peerReply id r => Sys2Proof.Machine.execPeerReply id r s
  | .peerTimeout id => Sys2Proof.Machine.execPeerTimeout id s
  | .peerCancel pctx id => Sys2Proof.Machine.execPeerCancel pctx id s
  | .contextPrioritySwitch core => Sys2Proof.Machine.execContextPrioritySwitch core s
  | .contextIdleSwitch core => Sys2Proof.Machine.execContextIdleSwitch core s
  | .contextQuantum core => Sys2Proof.Machine.execContextQuantum core s
  | .preempt => Sys2Proof.Machine.execPreempt s
  | .contextReturn core region => Sys2Proof.Machine.execContextReturn core region s
  | .dbgHalt core cmd => Sys2Proof.Machine.execDbgHalt core cmd s
  | .dbgResume core cmd => Sys2Proof.Machine.execDbgResume core cmd s
  | .dbgStep core cmd => Sys2Proof.Machine.execDbgStep core cmd s
  | .dbgReleaseWave core cmd => Sys2Proof.Machine.execDbgReleaseWave core cmd s
  | .dbgReleaseJob core cmd => Sys2Proof.Machine.execDbgReleaseJob core cmd s
  | .dbgInvalidOp core cmd => Sys2Proof.Machine.execDbgInvalidOp core cmd s
  | .dbgctlWrite core value => Sys2Proof.Machine.execDbgctlWrite core value s
  | .unassignedOpcode w => Sys2Proof.Machine.execUnassignedOpcode w s
  | .nop f => Sys2Proof.Machine.execNop f s
  | .bra f => Sys2Proof.Machine.execBra f s
  | .braS f => Sys2Proof.Machine.execBraS f s
  | .brx f => Sys2Proof.Machine.execBrx f s
  | .jmp f => Sys2Proof.Machine.execJmp f s
  | .call f => Sys2Proof.Machine.execCall f s
  | .callIndirect f => Sys2Proof.Machine.execCallIndirect f s
  | .ret f => Sys2Proof.Machine.execRet f s
  | .rejoin f => Sys2Proof.Machine.execRejoin f s
  | .fuse f => Sys2Proof.Machine.execFuse f s
  | .yield f => Sys2Proof.Machine.execYield f s
  | .exit f => Sys2Proof.Machine.execExit f s
  | .kill f => Sys2Proof.Machine.execKill f s
  | .bpt f => Sys2Proof.Machine.execBpt f s
  | .trap f => Sys2Proof.Machine.execTrap f s
  | .trapret f => Sys2Proof.Machine.execTrapret f s
  | .pand f => Sys2Proof.Machine.execPand f s
  | .por f => Sys2Proof.Machine.execPor f s
  | .pxor f => Sys2Proof.Machine.execPxor f s
  | .pnot f => Sys2Proof.Machine.execPnot f s
  | .mand f => Sys2Proof.Machine.execMand f s
  | .mor f => Sys2Proof.Machine.execMor f s
  | .mxor f => Sys2Proof.Machine.execMxor f s
  | .mmov f => Sys2Proof.Machine.execMmov f s
  | .mpopc f => Sys2Proof.Machine.execMpopc f s
  | .mffs f => Sys2Proof.Machine.execMffs f s
  | .mexec f => Sys2Proof.Machine.execMexec f s
  | .srd f => Sys2Proof.Machine.execSrd f s
  | .swrExec f => Sys2Proof.Machine.execSwrExec f s
  | .swrResid f => Sys2Proof.Machine.execSwrResid f s
  | .swrPstat f => Sys2Proof.Machine.execSwrPstat f s
  | .scyc f => Sys2Proof.Machine.execScyc f s
  | .sadd f => Sys2Proof.Machine.execSadd f s
  | .ssub f => Sys2Proof.Machine.execSsub f s
  | .smul f => Sys2Proof.Machine.execSmul f s
  | .smulh f => Sys2Proof.Machine.execSmulh f s
  | .smad f => Sys2Proof.Machine.execSmad f s
  | .sand f => Sys2Proof.Machine.execSand f s
  | .sor f => Sys2Proof.Machine.execSor f s
  | .sxor f => Sys2Proof.Machine.execSxor f s
  | .snot f => Sys2Proof.Machine.execSnot f s
  | .sshl f => Sys2Proof.Machine.execSshl f s
  | .sshr f => Sys2Proof.Machine.execSshr f s
  | .ssra f => Sys2Proof.Machine.execSsra f s
  | .smin f => Sys2Proof.Machine.execSmin f s
  | .smax f => Sys2Proof.Machine.execSmax f s
  | .sminu f => Sys2Proof.Machine.execSminu f s
  | .smaxu f => Sys2Proof.Machine.execSmaxu f s
  | .sclz f => Sys2Proof.Machine.execSclz f s
  | .spopc f => Sys2Proof.Machine.execSpopc f s
  | .sbfe f => Sys2Proof.Machine.execSbfe f s
  | .sbfi f => Sys2Proof.Machine.execSbfi f s
  | .smov f => Sys2Proof.Machine.execSmov f s
  | .sli f => Sys2Proof.Machine.execSli f s
  | .ssel f => Sys2Proof.Machine.execSsel f s
  | .scmp f => Sys2Proof.Machine.execScmp f s
  | .saddImm f => Sys2Proof.Machine.execSaddImm f s
  | .ssubImm f => Sys2Proof.Machine.execSsubImm f s
  | .smulImm f => Sys2Proof.Machine.execSmulImm f s
  | .smulhImm f => Sys2Proof.Machine.execSmulhImm f s
  | .smadImm f => Sys2Proof.Machine.execSmadImm f s
  | .sandImm f => Sys2Proof.Machine.execSandImm f s
  | .sorImm f => Sys2Proof.Machine.execSorImm f s
  | .sxorImm f => Sys2Proof.Machine.execSxorImm f s
  | .sshlImm f => Sys2Proof.Machine.execSshlImm f s
  | .sshrImm f => Sys2Proof.Machine.execSshrImm f s
  | .ssraImm f => Sys2Proof.Machine.execSsraImm f s
  | .sminImm f => Sys2Proof.Machine.execSminImm f s
  | .smaxImm f => Sys2Proof.Machine.execSmaxImm f s
  | .sminuImm f => Sys2Proof.Machine.execSminuImm f s
  | .smaxuImm f => Sys2Proof.Machine.execSmaxuImm f s
  | .sbfeImm f => Sys2Proof.Machine.execSbfeImm f s
  | .sbfiImm f => Sys2Proof.Machine.execSbfiImm f s
  | .vadd f => Sys2Proof.Machine.execVadd f s
  | .vsub f => Sys2Proof.Machine.execVsub f s
  | .vmul f => Sys2Proof.Machine.execVmul f s
  | .vmulh f => Sys2Proof.Machine.execVmulh f s
  | .vmad f => Sys2Proof.Machine.execVmad f s
  | .vand f => Sys2Proof.Machine.execVand f s
  | .vor f => Sys2Proof.Machine.execVor f s
  | .vxor f => Sys2Proof.Machine.execVxor f s
  | .vnot f => Sys2Proof.Machine.execVnot f s
  | .vshl f => Sys2Proof.Machine.execVshl f s
  | .vshr f => Sys2Proof.Machine.execVshr f s
  | .vsra f => Sys2Proof.Machine.execVsra f s
  | .vmin f => Sys2Proof.Machine.execVmin f s
  | .vmax f => Sys2Proof.Machine.execVmax f s
  | .vabs f => Sys2Proof.Machine.execVabs f s
  | .vneg f => Sys2Proof.Machine.execVneg f s
  | .vclz f => Sys2Proof.Machine.execVclz f s
  | .vpopc f => Sys2Proof.Machine.execVpopc f s
  | .vbfe f => Sys2Proof.Machine.execVbfe f s
  | .vbfi f => Sys2Proof.Machine.execVbfi f s
  | .vsel f => Sys2Proof.Machine.execVsel f s
  | .vmov f => Sys2Proof.Machine.execVmov f s
  | .vprmt f => Sys2Proof.Machine.execVprmt f s
  | .vdot4 f => Sys2Proof.Machine.execVdot4 f s
  | .vsad f => Sys2Proof.Machine.execVsad f s
  | .vcmp f => Sys2Proof.Machine.execVcmp f s
  | .vcvt f => Sys2Proof.Machine.execVcvt f s
  | .vpackMx f => Sys2Proof.Machine.execVpackMx f s
  | .vpackPx f => Sys2Proof.Machine.execVpackPx f s
  | .vunpackMx f => Sys2Proof.Machine.execVunpackMx f s
  | .vunpackPx f => Sys2Proof.Machine.execVunpackPx f s
  | .vretag f => Sys2Proof.Machine.execVretag f s
  | .vaddImm f => Sys2Proof.Machine.execVaddImm f s
  | .vsubImm f => Sys2Proof.Machine.execVsubImm f s
  | .vmulImm f => Sys2Proof.Machine.execVmulImm f s
  | .vmulhImm f => Sys2Proof.Machine.execVmulhImm f s
  | .vmadImm f => Sys2Proof.Machine.execVmadImm f s
  | .vandImm f => Sys2Proof.Machine.execVandImm f s
  | .vorImm f => Sys2Proof.Machine.execVorImm f s
  | .vxorImm f => Sys2Proof.Machine.execVxorImm f s
  | .vshlImm f => Sys2Proof.Machine.execVshlImm f s
  | .vshrImm f => Sys2Proof.Machine.execVshrImm f s
  | .vsraImm f => Sys2Proof.Machine.execVsraImm f s
  | .vminImm f => Sys2Proof.Machine.execVminImm f s
  | .vmaxImm f => Sys2Proof.Machine.execVmaxImm f s
  | .vbfeImm f => Sys2Proof.Machine.execVbfeImm f s
  | .vbfiImm f => Sys2Proof.Machine.execVbfiImm f s
  | .vmovImm f => Sys2Proof.Machine.execVmovImm f s
  | .vprmtImm f => Sys2Proof.Machine.execVprmtImm f s
  | .vdot4Imm f => Sys2Proof.Machine.execVdot4Imm f s
  | .vsadImm f => Sys2Proof.Machine.execVsadImm f s
  | .vshflIdx f => Sys2Proof.Machine.execVshflIdx f s
  | .vshflUp f => Sys2Proof.Machine.execVshflUp f s
  | .vshflDown f => Sys2Proof.Machine.execVshflDown f s
  | .vshflXor f => Sys2Proof.Machine.execVshflXor f s
  | .vshflIdxImm f => Sys2Proof.Machine.execVshflIdxImm f s
  | .vreadl f => Sys2Proof.Machine.execVreadl f s
  | .vreadlImm f => Sys2Proof.Machine.execVreadlImm f s
  | .vwritel f => Sys2Proof.Machine.execVwritel f s
  | .vwritelImm f => Sys2Proof.Machine.execVwritelImm f s
  | .vvoteAny f => Sys2Proof.Machine.execVvoteAny f s
  | .vvoteAll f => Sys2Proof.Machine.execVvoteAll f s
  | .vvoteBallot f => Sys2Proof.Machine.execVvoteBallot f s
  | .vredadd f => Sys2Proof.Machine.execVredadd f s
  | .vredmax f => Sys2Proof.Machine.execVredmax f s
  | .vscan f => Sys2Proof.Machine.execVscan f s
  | .vmatch f => Sys2Proof.Machine.execVmatch f s
  | .vfadd f => Sys2Proof.Machine.execVfadd f s
  | .vfsub f => Sys2Proof.Machine.execVfsub f s
  | .vfmul f => Sys2Proof.Machine.execVfmul f s
  | .vfma f => Sys2Proof.Machine.execVfma f s
  | .vfmin f => Sys2Proof.Machine.execVfmin f s
  | .vfmax f => Sys2Proof.Machine.execVfmax f s
  | .vfcmp f => Sys2Proof.Machine.execVfcmp f s
  | .vfclass f => Sys2Proof.Machine.execVfclass f s
  | .vfscale f => Sys2Proof.Machine.execVfscale f s
  | .vfexp f => Sys2Proof.Machine.execVfexp f s
  | .vfrnd f => Sys2Proof.Machine.execVfrnd f s
  | .vrcp f => Sys2Proof.Machine.execVrcp f s
  | .vrsq f => Sys2Proof.Machine.execVrsq f s
  | .vsqrt f => Sys2Proof.Machine.execVsqrt f s
  | .vexp2 f => Sys2Proof.Machine.execVexp2 f s
  | .vlog2 f => Sys2Proof.Machine.execVlog2 f s
  | .vsin f => Sys2Proof.Machine.execVsin f s
  | .vcos f => Sys2Proof.Machine.execVcos f s
  | .vfaddImm f => Sys2Proof.Machine.execVfaddImm f s
  | .vfsubImm f => Sys2Proof.Machine.execVfsubImm f s
  | .vfmulImm f => Sys2Proof.Machine.execVfmulImm f s
  | .vfmaImm f => Sys2Proof.Machine.execVfmaImm f s
  | .vfminImm f => Sys2Proof.Machine.execVfminImm f s
  | .vfmaxImm f => Sys2Proof.Machine.execVfmaxImm f s
  | .vfscaleImm f => Sys2Proof.Machine.execVfscaleImm f s
  | .vfaddH2 f => Sys2Proof.Machine.execVfaddH2 f s
  | .vfsubH2 f => Sys2Proof.Machine.execVfsubH2 f s
  | .vfmulH2 f => Sys2Proof.Machine.execVfmulH2 f s
  | .vfmaH2 f => Sys2Proof.Machine.execVfmaH2 f s
  | .vfminH2 f => Sys2Proof.Machine.execVfminH2 f s
  | .vfmaxH2 f => Sys2Proof.Machine.execVfmaxH2 f s
  | .vfcmpH2 f => Sys2Proof.Machine.execVfcmpH2 f s
  | .vfaddH2Imm f => Sys2Proof.Machine.execVfaddH2Imm f s
  | .vfsubH2Imm f => Sys2Proof.Machine.execVfsubH2Imm f s
  | .vfmulH2Imm f => Sys2Proof.Machine.execVfmulH2Imm f s
  | .vfmaH2Imm f => Sys2Proof.Machine.execVfmaH2Imm f s
  | .vfminH2Imm f => Sys2Proof.Machine.execVfminH2Imm f s
  | .vfmaxH2Imm f => Sys2Proof.Machine.execVfmaxH2Imm f s
  | .vfaddB2 f => Sys2Proof.Machine.execVfaddB2 f s
  | .vfsubB2 f => Sys2Proof.Machine.execVfsubB2 f s
  | .vfmulB2 f => Sys2Proof.Machine.execVfmulB2 f s
  | .vfmaB2 f => Sys2Proof.Machine.execVfmaB2 f s
  | .vfminB2 f => Sys2Proof.Machine.execVfminB2 f s
  | .vfmaxB2 f => Sys2Proof.Machine.execVfmaxB2 f s
  | .vfcmpB2 f => Sys2Proof.Machine.execVfcmpB2 f s
  | .vfaddB2Imm f => Sys2Proof.Machine.execVfaddB2Imm f s
  | .vfsubB2Imm f => Sys2Proof.Machine.execVfsubB2Imm f s
  | .vfmulB2Imm f => Sys2Proof.Machine.execVfmulB2Imm f s
  | .vfmaB2Imm f => Sys2Proof.Machine.execVfmaB2Imm f s
  | .vfminB2Imm f => Sys2Proof.Machine.execVfminB2Imm f s
  | .vfmaxB2Imm f => Sys2Proof.Machine.execVfmaxB2Imm f s
  | .wbar f => Sys2Proof.Machine.execWbar f s
  | .gbar f => Sys2Proof.Machine.execGbar f s
  | .barm f => Sys2Proof.Machine.execBarm f s
  | .barmImm f => Sys2Proof.Machine.execBarmImm f s
  | .bsig f => Sys2Proof.Machine.execBsig f s
  | .bsigImm f => Sys2Proof.Machine.execBsigImm f s
  | .bwait f => Sys2Proof.Machine.execBwait f s
  | .bwaitImm f => Sys2Proof.Machine.execBwaitImm f s
  | .fwait f => Sys2Proof.Machine.execFwait f s
  | .ftest f => Sys2Proof.Machine.execFtest f s
  | .fcancel f => Sys2Proof.Machine.execFcancel f s
  | .hmovToH f => Sys2Proof.Machine.execHmovToH f s
  | .hmovToS f => Sys2Proof.Machine.execHmovToS f s
  | .engCopyIn f => Sys2Proof.Machine.execEngCopyIn f s
  | .engCopyOut f => Sys2Proof.Machine.execEngCopyOut f s
  | .engCopy2d f => Sys2Proof.Machine.execEngCopy2d f s
  | .engCopyCvt f => Sys2Proof.Machine.execEngCopyCvt f s
  | .engFill f => Sys2Proof.Machine.execEngFill f s
  | .engGatherRows f => Sys2Proof.Machine.execEngGatherRows f s
  | .engSortKeys f => Sys2Proof.Machine.execEngSortKeys f s
  | .engSortKv f => Sys2Proof.Machine.execEngSortKv f s
  | .engPgreq f => Sys2Proof.Machine.execEngPgreq f s
  | .engPutPeer f => Sys2Proof.Machine.execEngPutPeer f s
  | .engGetPeer f => Sys2Proof.Machine.execEngGetPeer f s
  | .engReducePeer f => Sys2Proof.Machine.execEngReducePeer f s
  | .engSumFlush f => Sys2Proof.Machine.execEngSumFlush f s
  | .engBadFunction f => Sys2Proof.Machine.execEngBadFunction f s
  | .spawn f => Sys2Proof.Machine.execSpawn f s
  | .spawnLanes f => Sys2Proof.Machine.execSpawnLanes f s
  | .qcount f => Sys2Proof.Machine.execQcount f s
  | .qclose f => Sys2Proof.Machine.execQclose f s
  | .vld f => Sys2Proof.Machine.execVld f s
  | .vldLane f => Sys2Proof.Machine.execVldLane f s
  | .vst f => Sys2Proof.Machine.execVst f s
  | .vstLane f => Sys2Proof.Machine.execVstLane f s
  | .vldt f => Sys2Proof.Machine.execVldt f s
  | .vldtLane f => Sys2Proof.Machine.execVldtLane f s
  | .vldBlk f => Sys2Proof.Machine.execVldBlk f s
  | .vstBlk f => Sys2Proof.Machine.execVstBlk f s
  | .vprefetch f => Sys2Proof.Machine.execVprefetch f s
  | .vprefetchLane f => Sys2Proof.Machine.execVprefetchLane f s
  | .vldSp f => Sys2Proof.Machine.execVldSp f s
  | .vldSpLane f => Sys2Proof.Machine.execVldSpLane f s
  | .vstSp f => Sys2Proof.Machine.execVstSp f s
  | .vstSpLane f => Sys2Proof.Machine.execVstSpLane f s
  | .vldtSp f => Sys2Proof.Machine.execVldtSp f s
  | .vldtSpLane f => Sys2Proof.Machine.execVldtSpLane f s
  | .vldBlkSp f => Sys2Proof.Machine.execVldBlkSp f s
  | .vstBlkSp f => Sys2Proof.Machine.execVstBlkSp f s
  | .sld f => Sys2Proof.Machine.execSld f s
  | .sst f => Sys2Proof.Machine.execSst f s
  | .sldc f => Sys2Proof.Machine.execSldc f s
  | .sldSp f => Sys2Proof.Machine.execSldSp f s
  | .sstSp f => Sys2Proof.Machine.execSstSp f s
  | .cctlInv f => Sys2Proof.Machine.execCctlInv f s
  | .cctlInvall f => Sys2Proof.Machine.execCctlInvall f s
  | .cctlInvc f => Sys2Proof.Machine.execCctlInvc f s
  | .cctlDemote f => Sys2Proof.Machine.execCctlDemote f s
  | .fenceFull f => Sys2Proof.Machine.execFenceFull f s
  | .fenceAcq f => Sys2Proof.Machine.execFenceAcq f s
  | .fenceRel f => Sys2Proof.Machine.execFenceRel f s
  | .vatomAdd f => Sys2Proof.Machine.execVatomAdd f s
  | .vatomSub f => Sys2Proof.Machine.execVatomSub f s
  | .vatomMin f => Sys2Proof.Machine.execVatomMin f s
  | .vatomMax f => Sys2Proof.Machine.execVatomMax f s
  | .vatomAnd f => Sys2Proof.Machine.execVatomAnd f s
  | .vatomOr f => Sys2Proof.Machine.execVatomOr f s
  | .vatomXor f => Sys2Proof.Machine.execVatomXor f s
  | .vatomXchg f => Sys2Proof.Machine.execVatomXchg f s
  | .vatomCas f => Sys2Proof.Machine.execVatomCas f s
  | .vatomInc f => Sys2Proof.Machine.execVatomInc f s
  | .vatomFadd f => Sys2Proof.Machine.execVatomFadd f s
  | .vatomFmin f => Sys2Proof.Machine.execVatomFmin f s
  | .vatomFmax f => Sys2Proof.Machine.execVatomFmax f s
  | .vatomFaddD f => Sys2Proof.Machine.execVatomFaddD f s
  | .suminit f => Sys2Proof.Machine.execSuminit f s
  | .sumget f => Sys2Proof.Machine.execSumget f s
  | .satomAdd f => Sys2Proof.Machine.execSatomAdd f s
  | .satomSub f => Sys2Proof.Machine.execSatomSub f s
  | .satomMin f => Sys2Proof.Machine.execSatomMin f s
  | .satomMax f => Sys2Proof.Machine.execSatomMax f s
  | .satomAnd f => Sys2Proof.Machine.execSatomAnd f s
  | .satomOr f => Sys2Proof.Machine.execSatomOr f s
  | .satomXor f => Sys2Proof.Machine.execSatomXor f s
  | .satomXchg f => Sys2Proof.Machine.execSatomXchg f s
  | .satomCas f => Sys2Proof.Machine.execSatomCas f s
  | .satomInc f => Sys2Proof.Machine.execSatomInc f s
  | .satomFadd f => Sys2Proof.Machine.execSatomFadd f s
  | .satomFmin f => Sys2Proof.Machine.execSatomFmin f s
  | .satomFmax f => Sys2Proof.Machine.execSatomFmax f s
  | .vatomSpAdd f => Sys2Proof.Machine.execVatomSpAdd f s
  | .vatomSpSub f => Sys2Proof.Machine.execVatomSpSub f s
  | .vatomSpMin f => Sys2Proof.Machine.execVatomSpMin f s
  | .vatomSpMax f => Sys2Proof.Machine.execVatomSpMax f s
  | .vatomSpAnd f => Sys2Proof.Machine.execVatomSpAnd f s
  | .vatomSpOr f => Sys2Proof.Machine.execVatomSpOr f s
  | .vatomSpXor f => Sys2Proof.Machine.execVatomSpXor f s
  | .vatomSpXchg f => Sys2Proof.Machine.execVatomSpXchg f s
  | .vatomSpCas f => Sys2Proof.Machine.execVatomSpCas f s
  | .vatomSpInc f => Sys2Proof.Machine.execVatomSpInc f s
  | .vatomSpFadd f => Sys2Proof.Machine.execVatomSpFadd f s
  | .vatomSpFmin f => Sys2Proof.Machine.execVatomSpFmin f s
  | .vatomSpFmax f => Sys2Proof.Machine.execVatomSpFmax f s
  | .satomSpAdd f => Sys2Proof.Machine.execSatomSpAdd f s
  | .satomSpSub f => Sys2Proof.Machine.execSatomSpSub f s
  | .satomSpMin f => Sys2Proof.Machine.execSatomSpMin f s
  | .satomSpMax f => Sys2Proof.Machine.execSatomSpMax f s
  | .satomSpAnd f => Sys2Proof.Machine.execSatomSpAnd f s
  | .satomSpOr f => Sys2Proof.Machine.execSatomSpOr f s
  | .satomSpXor f => Sys2Proof.Machine.execSatomSpXor f s
  | .satomSpXchg f => Sys2Proof.Machine.execSatomSpXchg f s
  | .satomSpCas f => Sys2Proof.Machine.execSatomSpCas f s
  | .satomSpInc f => Sys2Proof.Machine.execSatomSpInc f s
  | .satomSpFadd f => Sys2Proof.Machine.execSatomSpFadd f s
  | .satomSpFmin f => Sys2Proof.Machine.execSatomSpFmin f s
  | .satomSpFmax f => Sys2Proof.Machine.execSatomSpFmax f s
  | .mloadB f => Sys2Proof.Machine.execMloadB f s
  | .mgatherA f => Sys2Proof.Machine.execMgatherA f s
  | .mmaBf16 f => Sys2Proof.Machine.execMmaBf16 f s
  | .mmaFp16 f => Sys2Proof.Machine.execMmaFp16 f s
  | .mmaE4m3 f => Sys2Proof.Machine.execMmaE4m3 f s
  | .mmaE5m2 f => Sys2Proof.Machine.execMmaE5m2 f s
  | .mmaInt8 f => Sys2Proof.Machine.execMmaInt8 f s
  | .mmaPx8 f => Sys2Proof.Machine.execMmaPx8 f s
  | .mmaPx5 f => Sys2Proof.Machine.execMmaPx5 f s
  | .mmaMxfp4 f => Sys2Proof.Machine.execMmaMxfp4 f s
  | .mmaPx3 f => Sys2Proof.Machine.execMmaPx3 f s
  | .mdrain f => Sys2Proof.Machine.execMdrain f s
  | .mdrainSp f => Sys2Proof.Machine.execMdrainSp f s
  | .mzero f => Sys2Proof.Machine.execMzero f s
  | .mstatTile f => Sys2Proof.Machine.execMstatTile f s
  | .mstatBank0 f => Sys2Proof.Machine.execMstatBank0 f s
  | .mstatBank1 f => Sys2Proof.Machine.execMstatBank1 f s
  | .texSmp f => Sys2Proof.Machine.execTexSmp f s
  | .texSmpLod f => Sys2Proof.Machine.execTexSmpLod f s
  | .texSmpGrad f => Sys2Proof.Machine.execTexSmpGrad f s
  | .texLd f => Sys2Proof.Machine.execTexLd f s
  | .texSt f => Sys2Proof.Machine.execTexSt f s
  | .texG4 f => Sys2Proof.Machine.execTexG4 f s
  | .resLd f => Sys2Proof.Machine.execResLd f s
  | .resQ f => Sys2Proof.Machine.execResQ f s
  | .rtBox f => Sys2Proof.Machine.execRtBox f s
  | .rtTri f => Sys2Proof.Machine.execRtTri f s
  | .wstkPush f => Sys2Proof.Machine.execWstkPush f s
  | .wstkPop f => Sys2Proof.Machine.execWstkPop f s
  | .wstkPeek f => Sys2Proof.Machine.execWstkPeek f s
  | .wstkClr f => Sys2Proof.Machine.execWstkClr f s
  | .meshLoc f => Sys2Proof.Machine.execMeshLoc f s
  | .meshStep f => Sys2Proof.Machine.execMeshStep f s
  | .meshInterp f => Sys2Proof.Machine.execMeshInterp f s
  | .emitp f => Sys2Proof.Machine.execEmitp f s
  | .blendAcq f => Sys2Proof.Machine.execBlendAcq f s
  | .blendRel f => Sys2Proof.Machine.execBlendRel f s
  | .homeSliceApply core entry => Sys2Proof.Machine.execHomeSliceApply core entry s
  | .rejectedHostMessage d => Sys2Proof.Machine.execRejectedHostMessage d s

end Sys2Proof.Machine
end

