-- ==== Sys2Proof/Machine/Run.lean ====
section
/-! DEFINITION. Running an instruction word. `runWord` is exec of the decoded word; the compiler, which
cannot build every constructor of Instr, runs the table of meanings instead, proved equal to it. -/
namespace Sys2Proof.Machine

abbrev Outcome' := Host.Outcome State Fault Refusal

/-- Meanings by row of the opcode map, part 1. -/
def execRows1 : List (Nat × (Fields → State → Outcome')) :=
  [(0, Sys2Proof.Machine.execNop),
   (128, Sys2Proof.Machine.execBra),
   (256, Sys2Proof.Machine.execBraS),
   (384, Sys2Proof.Machine.execBrx),
   (512, Sys2Proof.Machine.execJmp),
   (640, Sys2Proof.Machine.execCall),
   (768, Sys2Proof.Machine.execCallIndirect),
   (896, Sys2Proof.Machine.execRet),
   (1024, Sys2Proof.Machine.execRejoin),
   (1152, Sys2Proof.Machine.execFuse),
   (1280, Sys2Proof.Machine.execYield),
   (1408, Sys2Proof.Machine.execExit),
   (1536, Sys2Proof.Machine.execKill),
   (1664, Sys2Proof.Machine.execBpt),
   (1792, Sys2Proof.Machine.execTrap),
   (1920, Sys2Proof.Machine.execTrapret),
   (2048, Sys2Proof.Machine.execPand),
   (2176, Sys2Proof.Machine.execPor),
   (2304, Sys2Proof.Machine.execPxor),
   (2432, Sys2Proof.Machine.execPnot),
   (2560, Sys2Proof.Machine.execMand),
   (2688, Sys2Proof.Machine.execMor),
   (2816, Sys2Proof.Machine.execMxor),
   (2944, Sys2Proof.Machine.execMmov),
   (3072, Sys2Proof.Machine.execMpopc),
   (3200, Sys2Proof.Machine.execMffs),
   (3328, Sys2Proof.Machine.execMexec),
   (3456, Sys2Proof.Machine.execSrd),
   (3584, Sys2Proof.Machine.execSwrExec),
   (3585, Sys2Proof.Machine.execSwrResid),
   (3586, Sys2Proof.Machine.execSwrPstat),
   (3712, Sys2Proof.Machine.execScyc),
   (4096, Sys2Proof.Machine.execSadd),
   (4224, Sys2Proof.Machine.execSsub),
   (4352, Sys2Proof.Machine.execSmul),
   (4480, Sys2Proof.Machine.execSmulh),
   (4608, Sys2Proof.Machine.execSmad),
   (4736, Sys2Proof.Machine.execSand),
   (4864, Sys2Proof.Machine.execSor),
   (4992, Sys2Proof.Machine.execSxor),
   (5120, Sys2Proof.Machine.execSnot),
   (5248, Sys2Proof.Machine.execSshl),
   (5376, Sys2Proof.Machine.execSshr),
   (5504, Sys2Proof.Machine.execSsra)]

/-- Meanings by row of the opcode map, part 2. -/
def execRows2 : List (Nat × (Fields → State → Outcome')) :=
  [(5632, Sys2Proof.Machine.execSmin),
   (5760, Sys2Proof.Machine.execSmax),
   (5888, Sys2Proof.Machine.execSminu),
   (6016, Sys2Proof.Machine.execSmaxu),
   (6144, Sys2Proof.Machine.execSclz),
   (6272, Sys2Proof.Machine.execSpopc),
   (6400, Sys2Proof.Machine.execSbfe),
   (6528, Sys2Proof.Machine.execSbfi),
   (6656, Sys2Proof.Machine.execSmov),
   (6784, Sys2Proof.Machine.execSli),
   (6912, Sys2Proof.Machine.execSsel),
   (7040, Sys2Proof.Machine.execScmp),
   (8192, Sys2Proof.Machine.execVadd),
   (8320, Sys2Proof.Machine.execVsub),
   (8448, Sys2Proof.Machine.execVmul),
   (8576, Sys2Proof.Machine.execVmulh),
   (8704, Sys2Proof.Machine.execVmad),
   (8832, Sys2Proof.Machine.execVand),
   (8960, Sys2Proof.Machine.execVor),
   (9088, Sys2Proof.Machine.execVxor),
   (9216, Sys2Proof.Machine.execVnot),
   (9344, Sys2Proof.Machine.execVshl),
   (9472, Sys2Proof.Machine.execVshr),
   (9600, Sys2Proof.Machine.execVsra),
   (9728, Sys2Proof.Machine.execVmin),
   (9856, Sys2Proof.Machine.execVmax),
   (9984, Sys2Proof.Machine.execVabs),
   (10112, Sys2Proof.Machine.execVneg),
   (10240, Sys2Proof.Machine.execVclz),
   (10368, Sys2Proof.Machine.execVpopc),
   (10496, Sys2Proof.Machine.execVbfe),
   (10624, Sys2Proof.Machine.execVbfi),
   (10752, Sys2Proof.Machine.execVsel),
   (10880, Sys2Proof.Machine.execVmov),
   (11008, Sys2Proof.Machine.execVprmt),
   (11136, Sys2Proof.Machine.execVdot4),
   (11264, Sys2Proof.Machine.execVsad),
   (11392, Sys2Proof.Machine.execVcmp),
   (11520, Sys2Proof.Machine.execVcvt),
   (11648, Sys2Proof.Machine.execVpackMx),
   (11776, Sys2Proof.Machine.execVpackPx),
   (11904, Sys2Proof.Machine.execVunpackMx),
   (12032, Sys2Proof.Machine.execVunpackPx),
   (12160, Sys2Proof.Machine.execVretag)]

/-- Meanings by row of the opcode map, part 3. -/
def execRows3 : List (Nat × (Fields → State → Outcome')) :=
  [(12288, Sys2Proof.Machine.execVshflIdx),
   (12416, Sys2Proof.Machine.execVshflUp),
   (12544, Sys2Proof.Machine.execVshflDown),
   (12672, Sys2Proof.Machine.execVshflXor),
   (12800, Sys2Proof.Machine.execVreadl),
   (12928, Sys2Proof.Machine.execVwritel),
   (13056, Sys2Proof.Machine.execVvoteAny),
   (13184, Sys2Proof.Machine.execVvoteAll),
   (13312, Sys2Proof.Machine.execVvoteBallot),
   (13440, Sys2Proof.Machine.execVredadd),
   (13568, Sys2Proof.Machine.execVredmax),
   (13696, Sys2Proof.Machine.execVscan),
   (13824, Sys2Proof.Machine.execVmatch),
   (16384, Sys2Proof.Machine.execVfadd),
   (16512, Sys2Proof.Machine.execVfsub),
   (16640, Sys2Proof.Machine.execVfmul),
   (16768, Sys2Proof.Machine.execVfma),
   (16896, Sys2Proof.Machine.execVfmin),
   (17024, Sys2Proof.Machine.execVfmax),
   (17152, Sys2Proof.Machine.execVfcmp),
   (17280, Sys2Proof.Machine.execVfclass),
   (17408, Sys2Proof.Machine.execVfscale),
   (17536, Sys2Proof.Machine.execVfexp),
   (17664, Sys2Proof.Machine.execVfrnd),
   (17792, Sys2Proof.Machine.execVrcp),
   (17920, Sys2Proof.Machine.execVrsq),
   (18048, Sys2Proof.Machine.execVsqrt),
   (18176, Sys2Proof.Machine.execVexp2),
   (18304, Sys2Proof.Machine.execVlog2),
   (18432, Sys2Proof.Machine.execVsin),
   (18560, Sys2Proof.Machine.execVcos),
   (19456, Sys2Proof.Machine.execVfaddH2),
   (19584, Sys2Proof.Machine.execVfsubH2),
   (19712, Sys2Proof.Machine.execVfmulH2),
   (19840, Sys2Proof.Machine.execVfmaH2),
   (19968, Sys2Proof.Machine.execVfminH2),
   (20096, Sys2Proof.Machine.execVfmaxH2),
   (20224, Sys2Proof.Machine.execVfcmpH2),
   (20480, Sys2Proof.Machine.execVfaddB2),
   (20608, Sys2Proof.Machine.execVfsubB2),
   (20736, Sys2Proof.Machine.execVfmulB2),
   (20864, Sys2Proof.Machine.execVfmaB2),
   (20992, Sys2Proof.Machine.execVfminB2),
   (21120, Sys2Proof.Machine.execVfmaxB2)]

/-- Meanings by row of the opcode map, part 4. -/
def execRows4 : List (Nat × (Fields → State → Outcome')) :=
  [(21248, Sys2Proof.Machine.execVfcmpB2),
   (21504, Sys2Proof.Machine.execWbar),
   (21632, Sys2Proof.Machine.execGbar),
   (21760, Sys2Proof.Machine.execBarm),
   (21888, Sys2Proof.Machine.execBarmImm),
   (22016, Sys2Proof.Machine.execBsig),
   (22144, Sys2Proof.Machine.execBsigImm),
   (22272, Sys2Proof.Machine.execBwait),
   (22400, Sys2Proof.Machine.execBwaitImm),
   (22528, Sys2Proof.Machine.execFwait),
   (22656, Sys2Proof.Machine.execFtest),
   (22784, Sys2Proof.Machine.execFcancel),
   (22912, Sys2Proof.Machine.execHmovToH),
   (23040, Sys2Proof.Machine.execHmovToS),
   (23168, Sys2Proof.Machine.execEngCopyIn),
   (23169, Sys2Proof.Machine.execEngCopyOut),
   (23170, Sys2Proof.Machine.execEngCopy2d),
   (23171, Sys2Proof.Machine.execEngCopyCvt),
   (23172, Sys2Proof.Machine.execEngFill),
   (23173, Sys2Proof.Machine.execEngGatherRows),
   (23184, Sys2Proof.Machine.execEngSortKeys),
   (23185, Sys2Proof.Machine.execEngSortKv),
   (23192, Sys2Proof.Machine.execEngPgreq),
   (23200, Sys2Proof.Machine.execEngPutPeer),
   (23201, Sys2Proof.Machine.execEngGetPeer),
   (23202, Sys2Proof.Machine.execEngReducePeer),
   (23208, Sys2Proof.Machine.execEngSumFlush),
   (23295, Sys2Proof.Machine.execEngBadFunction),
   (23296, Sys2Proof.Machine.execSpawn),
   (23297, Sys2Proof.Machine.execSpawnLanes),
   (23424, Sys2Proof.Machine.execQcount),
   (23552, Sys2Proof.Machine.execQclose),
   (24576, Sys2Proof.Machine.execVld),
   (24704, Sys2Proof.Machine.execVst),
   (24832, Sys2Proof.Machine.execVldt),
   (24960, Sys2Proof.Machine.execVldBlk),
   (25088, Sys2Proof.Machine.execVstBlk),
   (25216, Sys2Proof.Machine.execVprefetch),
   (25344, Sys2Proof.Machine.execVldLane),
   (25472, Sys2Proof.Machine.execVstLane),
   (25600, Sys2Proof.Machine.execVldtLane),
   (25728, Sys2Proof.Machine.execVprefetchLane),
   (25856, Sys2Proof.Machine.execVldSp),
   (25984, Sys2Proof.Machine.execVstSp)]

/-- Meanings by row of the opcode map, part 5. -/
def execRows5 : List (Nat × (Fields → State → Outcome')) :=
  [(26112, Sys2Proof.Machine.execVldtSp),
   (26240, Sys2Proof.Machine.execVldBlkSp),
   (26368, Sys2Proof.Machine.execVstBlkSp),
   (26496, Sys2Proof.Machine.execVldSpLane),
   (26624, Sys2Proof.Machine.execVstSpLane),
   (26752, Sys2Proof.Machine.execVldtSpLane),
   (26880, Sys2Proof.Machine.execSld),
   (27008, Sys2Proof.Machine.execSst),
   (27136, Sys2Proof.Machine.execSldc),
   (27264, Sys2Proof.Machine.execCctlInv),
   (27265, Sys2Proof.Machine.execCctlInvall),
   (27266, Sys2Proof.Machine.execCctlInvc),
   (27267, Sys2Proof.Machine.execCctlDemote),
   (27392, Sys2Proof.Machine.execFenceFull),
   (27393, Sys2Proof.Machine.execFenceAcq),
   (27394, Sys2Proof.Machine.execFenceRel),
   (27520, Sys2Proof.Machine.execSldSp),
   (27648, Sys2Proof.Machine.execSstSp),
   (28672, Sys2Proof.Machine.execVatomAdd),
   (28800, Sys2Proof.Machine.execVatomSub),
   (28928, Sys2Proof.Machine.execVatomMin),
   (29056, Sys2Proof.Machine.execVatomMax),
   (29184, Sys2Proof.Machine.execVatomAnd),
   (29312, Sys2Proof.Machine.execVatomOr),
   (29440, Sys2Proof.Machine.execVatomXor),
   (29568, Sys2Proof.Machine.execVatomXchg),
   (29696, Sys2Proof.Machine.execVatomCas),
   (29824, Sys2Proof.Machine.execVatomInc),
   (29952, Sys2Proof.Machine.execVatomFadd),
   (30080, Sys2Proof.Machine.execVatomFmin),
   (30208, Sys2Proof.Machine.execVatomFmax),
   (30336, Sys2Proof.Machine.execVatomFaddD),
   (30464, Sys2Proof.Machine.execSuminit),
   (30592, Sys2Proof.Machine.execSumget),
   (30720, Sys2Proof.Machine.execSatomAdd),
   (30848, Sys2Proof.Machine.execSatomSub),
   (30976, Sys2Proof.Machine.execSatomMin),
   (31104, Sys2Proof.Machine.execSatomMax),
   (31232, Sys2Proof.Machine.execSatomAnd),
   (31360, Sys2Proof.Machine.execSatomOr),
   (31488, Sys2Proof.Machine.execSatomXor),
   (31616, Sys2Proof.Machine.execSatomXchg),
   (31744, Sys2Proof.Machine.execSatomCas),
   (31872, Sys2Proof.Machine.execSatomInc)]

/-- Meanings by row of the opcode map, part 6. -/
def execRows6 : List (Nat × (Fields → State → Outcome')) :=
  [(32000, Sys2Proof.Machine.execSatomFadd),
   (32128, Sys2Proof.Machine.execSatomFmin),
   (32256, Sys2Proof.Machine.execSatomFmax),
   (32768, Sys2Proof.Machine.execVatomSpAdd),
   (32896, Sys2Proof.Machine.execVatomSpSub),
   (33024, Sys2Proof.Machine.execVatomSpMin),
   (33152, Sys2Proof.Machine.execVatomSpMax),
   (33280, Sys2Proof.Machine.execVatomSpAnd),
   (33408, Sys2Proof.Machine.execVatomSpOr),
   (33536, Sys2Proof.Machine.execVatomSpXor),
   (33664, Sys2Proof.Machine.execVatomSpXchg),
   (33792, Sys2Proof.Machine.execVatomSpCas),
   (33920, Sys2Proof.Machine.execVatomSpInc),
   (34048, Sys2Proof.Machine.execVatomSpFadd),
   (34176, Sys2Proof.Machine.execVatomSpFmin),
   (34304, Sys2Proof.Machine.execVatomSpFmax),
   (34816, Sys2Proof.Machine.execSatomSpAdd),
   (34944, Sys2Proof.Machine.execSatomSpSub),
   (35072, Sys2Proof.Machine.execSatomSpMin),
   (35200, Sys2Proof.Machine.execSatomSpMax),
   (35328, Sys2Proof.Machine.execSatomSpAnd),
   (35456, Sys2Proof.Machine.execSatomSpOr),
   (35584, Sys2Proof.Machine.execSatomSpXor),
   (35712, Sys2Proof.Machine.execSatomSpXchg),
   (35840, Sys2Proof.Machine.execSatomSpCas),
   (35968, Sys2Proof.Machine.execSatomSpInc),
   (36096, Sys2Proof.Machine.execSatomSpFadd),
   (36224, Sys2Proof.Machine.execSatomSpFmin),
   (36352, Sys2Proof.Machine.execSatomSpFmax),
   (36864, Sys2Proof.Machine.execSaddImm),
   (36992, Sys2Proof.Machine.execSsubImm),
   (37120, Sys2Proof.Machine.execSmulImm),
   (37248, Sys2Proof.Machine.execSmulhImm),
   (37376, Sys2Proof.Machine.execSmadImm),
   (37504, Sys2Proof.Machine.execSandImm),
   (37632, Sys2Proof.Machine.execSorImm),
   (37760, Sys2Proof.Machine.execSxorImm),
   (38016, Sys2Proof.Machine.execSshlImm),
   (38144, Sys2Proof.Machine.execSshrImm),
   (38272, Sys2Proof.Machine.execSsraImm),
   (38400, Sys2Proof.Machine.execSminImm),
   (38528, Sys2Proof.Machine.execSmaxImm),
   (38656, Sys2Proof.Machine.execSminuImm),
   (38784, Sys2Proof.Machine.execSmaxuImm)]

/-- Meanings by row of the opcode map, part 7. -/
def execRows7 : List (Nat × (Fields → State → Outcome')) :=
  [(39168, Sys2Proof.Machine.execSbfeImm),
   (39296, Sys2Proof.Machine.execSbfiImm),
   (40960, Sys2Proof.Machine.execVaddImm),
   (41088, Sys2Proof.Machine.execVsubImm),
   (41216, Sys2Proof.Machine.execVmulImm),
   (41344, Sys2Proof.Machine.execVmulhImm),
   (41472, Sys2Proof.Machine.execVmadImm),
   (41600, Sys2Proof.Machine.execVandImm),
   (41728, Sys2Proof.Machine.execVorImm),
   (41856, Sys2Proof.Machine.execVxorImm),
   (42112, Sys2Proof.Machine.execVshlImm),
   (42240, Sys2Proof.Machine.execVshrImm),
   (42368, Sys2Proof.Machine.execVsraImm),
   (42496, Sys2Proof.Machine.execVminImm),
   (42624, Sys2Proof.Machine.execVmaxImm),
   (43264, Sys2Proof.Machine.execVbfeImm),
   (43392, Sys2Proof.Machine.execVbfiImm),
   (43648, Sys2Proof.Machine.execVmovImm),
   (43776, Sys2Proof.Machine.execVprmtImm),
   (43904, Sys2Proof.Machine.execVdot4Imm),
   (44032, Sys2Proof.Machine.execVsadImm),
   (45056, Sys2Proof.Machine.execVshflIdxImm),
   (45568, Sys2Proof.Machine.execVreadlImm),
   (45696, Sys2Proof.Machine.execVwritelImm),
   (49152, Sys2Proof.Machine.execVfaddImm),
   (49280, Sys2Proof.Machine.execVfsubImm),
   (49408, Sys2Proof.Machine.execVfmulImm),
   (49536, Sys2Proof.Machine.execVfmaImm),
   (49664, Sys2Proof.Machine.execVfminImm),
   (49792, Sys2Proof.Machine.execVfmaxImm),
   (50176, Sys2Proof.Machine.execVfscaleImm),
   (52224, Sys2Proof.Machine.execVfaddH2Imm),
   (52352, Sys2Proof.Machine.execVfsubH2Imm),
   (52480, Sys2Proof.Machine.execVfmulH2Imm),
   (52608, Sys2Proof.Machine.execVfmaH2Imm),
   (52736, Sys2Proof.Machine.execVfminH2Imm),
   (52864, Sys2Proof.Machine.execVfmaxH2Imm),
   (53248, Sys2Proof.Machine.execVfaddB2Imm),
   (53376, Sys2Proof.Machine.execVfsubB2Imm),
   (53504, Sys2Proof.Machine.execVfmulB2Imm),
   (53632, Sys2Proof.Machine.execVfmaB2Imm),
   (53760, Sys2Proof.Machine.execVfminB2Imm),
   (53888, Sys2Proof.Machine.execVfmaxB2Imm),
   (55296, Sys2Proof.Machine.execMloadB)]

/-- Meanings by row of the opcode map, part 8. -/
def execRows8 : List (Nat × (Fields → State → Outcome')) :=
  [(55424, Sys2Proof.Machine.execMgatherA),
   (55552, Sys2Proof.Machine.execMmaBf16),
   (55680, Sys2Proof.Machine.execMmaFp16),
   (55808, Sys2Proof.Machine.execMmaE4m3),
   (55936, Sys2Proof.Machine.execMmaE5m2),
   (56064, Sys2Proof.Machine.execMmaInt8),
   (56192, Sys2Proof.Machine.execMmaPx8),
   (56320, Sys2Proof.Machine.execMmaPx5),
   (56448, Sys2Proof.Machine.execMmaMxfp4),
   (56576, Sys2Proof.Machine.execMmaPx3),
   (56704, Sys2Proof.Machine.execMdrainSp),
   (56832, Sys2Proof.Machine.execMdrain),
   (56960, Sys2Proof.Machine.execMzero),
   (57088, Sys2Proof.Machine.execMstatTile),
   (57089, Sys2Proof.Machine.execMstatBank0),
   (57090, Sys2Proof.Machine.execMstatBank1),
   (57344, Sys2Proof.Machine.execTexSmp),
   (57472, Sys2Proof.Machine.execTexSmpLod),
   (57600, Sys2Proof.Machine.execTexSmpGrad),
   (57728, Sys2Proof.Machine.execTexLd),
   (57856, Sys2Proof.Machine.execTexSt),
   (57984, Sys2Proof.Machine.execTexG4),
   (58112, Sys2Proof.Machine.execResLd),
   (58240, Sys2Proof.Machine.execResQ),
   (58368, Sys2Proof.Machine.execRtBox),
   (58496, Sys2Proof.Machine.execRtTri),
   (58624, Sys2Proof.Machine.execWstkPush),
   (58752, Sys2Proof.Machine.execWstkPop),
   (58753, Sys2Proof.Machine.execWstkPeek),
   (58880, Sys2Proof.Machine.execWstkClr),
   (59008, Sys2Proof.Machine.execMeshLoc),
   (59136, Sys2Proof.Machine.execMeshStep),
   (59264, Sys2Proof.Machine.execMeshInterp),
   (59392, Sys2Proof.Machine.execEmitp),
   (59520, Sys2Proof.Machine.execBlendAcq),
   (59648, Sys2Proof.Machine.execBlendRel)]

def execRows : List (Nat × (Fields → State → Outcome')) :=
  execRows1 ++ execRows2 ++ execRows3 ++ execRows4 ++ execRows5 ++ execRows6 ++ execRows7 ++ execRows8

/-- The first meaning of a key. -/
def findExec : List (Nat × (Fields → State → Outcome')) → Nat → Option (Fields → State → Outcome')
  | [], _ => none
  | (k, c) :: l, key => if k = key then some c else findExec l key

/-- The compiled form of `runWord`. -/
def runWordFast (w : BitVec 96) (s : State) : Outcome' :=
  match findExec execRows (wordOp w * 128 + subKey (wordOp w) (wordFields w)) with
  | some c => c (wordFields w) s
  | none => execUnassignedOpcode w s

/-- The meaning of a 96-bit word. -/
noncomputable def runWord (w : BitVec 96) (s : State) : Outcome' := exec (decodeWord w) s

theorem execRows1_eq :
    execRows1 = decodeRows1.map (fun p => (p.1, fun f s => exec (p.2 f) s)) := rfl

theorem execRows2_eq :
    execRows2 = decodeRows2.map (fun p => (p.1, fun f s => exec (p.2 f) s)) := rfl

theorem execRows3_eq :
    execRows3 = decodeRows3.map (fun p => (p.1, fun f s => exec (p.2 f) s)) := rfl

theorem execRows4_eq :
    execRows4 = decodeRows4.map (fun p => (p.1, fun f s => exec (p.2 f) s)) := rfl

theorem execRows5_eq :
    execRows5 = decodeRows5.map (fun p => (p.1, fun f s => exec (p.2 f) s)) := rfl

theorem execRows6_eq :
    execRows6 = decodeRows6.map (fun p => (p.1, fun f s => exec (p.2 f) s)) := rfl

theorem execRows7_eq :
    execRows7 = decodeRows7.map (fun p => (p.1, fun f s => exec (p.2 f) s)) := rfl

theorem execRows8_eq :
    execRows8 = decodeRows8.map (fun p => (p.1, fun f s => exec (p.2 f) s)) := rfl

theorem execRows_eq : execRows = decodeRows.map (fun p => (p.1, fun f s => exec (p.2 f) s)) := by
  simp only [execRows, decodeRows, List.map_append, execRows1_eq, execRows2_eq, execRows3_eq, execRows4_eq, execRows5_eq, execRows6_eq, execRows7_eq, execRows8_eq]

theorem findExec_map (l : List (Nat × (Fields → Instr))) (key : Nat) :
    findExec (l.map (fun p => (p.1, fun f s => exec (p.2 f) s))) key =
      (findCtor l key).map (fun c => fun f s => exec (c f) s) := by
  induction l with
  | nil => rfl
  | cons p l ih =>
    simp only [List.map_cons, findExec, findCtor]
    split
    · rfl
    · exact ih

@[csimp] theorem runWord_eq_runWordFast : @runWord = @runWordFast := by
  funext w s
  simp only [runWord, runWordFast, decodeWord, execRows_eq, findExec_map]
  cases findCtor decodeRows (wordOp w * 128 + subKey (wordOp w) (wordFields w)) <;> rfl

end Sys2Proof.Machine
end

