-- ==== Sys2Proof/Machine/Tick.lean ====
section
/-! DEFINITION. The end of one cycle of a cluster's clock: what the sequencers, the barriers, the context switch, the array
and the reef controllers test and count in every cycle (06 R104; 07 R117-R128; 14 R291, R292; 16 R314-R320; 20 R368, R380;
22 R391, R392, R400). -/
namespace Sys2Proof.Machine

/-- The state after an event. -/
def after (s : State) (e : State → Outcome') : State :=
  match e s with
  | .next t => t
  | _ => s

/-- Repeat an event while it changes the state. -/
def drainEvent (e : State → Outcome') : Nat → State → State
  | 0, s => s
  | fuel + 1, s => let t := after s e; if t = s then s else drainEvent e fuel t

/-- A fetch reads its word through the slices, as an access of the part's region (11 R430). -/
def touchFetch (c : Cx) (s : State) : State :=
  let seg := fetchSeg c.w c.p
  touchRange s seg.asn .fetch c.g.region (seg.base + BitVec.ofNat 64 (12 * c.p.pc.toNat)).toNat 12

/-- A part's next word is fetched and run. A FETCH_BOUNDS after the last member of an open window finds the window open, so
that its restart PC is the window's start (DESIGN CHOICE, log 2). -/
def runNext (c : Cx) (r : PartRef) (s : State) : Outcome' :=
  match fetchWord s c.w c.p with
  | .outside => .next (takeTrap c { cause := 0x0B })
  | .freeze cause va => .next (freezeWave (touchFetch c (c.nextPc.part (fun p => { p with nextIssue := c.cyc + 1 })).commit) c.core c.slot cause
      (partFault c cause 1 4 c.p.exec va 0 none))
  | .word w => runWord w { touchFetch c s with cur := r }

/-! Parts that have not issued (07 R117, R118). -/

/-- A part as one that could issue. -/
def couldIssue (active : Bool) (p : Part) : Part :=
  { p with wait := .ready, stallFor := 0, readyFor := if active && p.wait = .ready then p.readyFor + 1 else 0 }

/-- A part that an attempt leaves stalled in a cycle. -/
def stallsAt (cyc : Nat) (p : Part) : Bool := p.wait != .ready && decide (p.nextIssue ≤ cyc)

/-- At the end of a cycle a part that has not issued knows whether it could: a stalled attempt names its reason, and in the
active context makes the requests of its instruction. A stall on bin room counts its cycles (20 R380). -/
def pollPart (active : Bool) (s : State) (r : PartRef) : State :=
  match partAt s r with
  | none => s
  | some c =>
    if !partFree c.w c.p c.cyc then (c.part (fun p => { p with readyFor := 0, stallFor := 0 })).commit
    else if !(c.p.wait = .ready || c.p.wait = .sync || c.p.wait = .score) then s
    else
      let ready := (c.part (couldIssue active)).commit
      let stalled (d : Cx) : State :=
        if active then
          { (d.part (fun p => { p with readyFor := 0, stallFor := if p.stallFor = 0 then 0 else p.stallFor + 1 })).commit with
            cur := s.cur }
        else (c.part (fun p => { p with wait := d.p.wait })).commit
      match runNext c r s with
      | .next t =>
        match partAt t r with
        | some d => if stallsAt c.cyc d.p then stalled d else ready
        | none => ready
      | _ => ready

/-- The parts of a core, each with whether its context is active. -/
def partsOf (k : Core) (core : Nat) : List (Bool × PartRef) :=
  k.waves.flatMap (fun sw => match sw.2 with
    | none => []
    | some w => w.parts.map (fun p => (waveActive k w, ⟨core, sw.1, lowestLane p.lanes⟩)))

def tickPolls (s : State) (core : Nat) : State :=
  (partsOf (getCore s core) core).foldl (fun s x => pollPart x.1 s x.2) s

/-- A spawn that has been stalled for 1,048,576 cycles raises QUEUE_STALL (20 R380). -/
def tickStalls (s : State) (core : Nat) : State :=
  (partsOf (getCore s core) core).foldl (fun s x => after s (execQueueStall x.2)) s

/-- Parts that wait for a load of which some quads have their data split (07 R120; 25 R417). -/
def tickSplits (s : State) (core : Nat) : State :=
  ((partsOf (getCore s core) core).filter (·.1)).foldl (fun s x => missSplit x.2 s) s

/-! Rejoin entries, width stalls, barriers, traps. -/

/-- A started entry's DEADLINE falls by one (07 R124). -/
def countDown (w : Wave) : Wave :=
  let down (e : RejoinEntry) : RejoinEntry := if e.started && !e.expired && e.deadline != 0 then { e with deadline := e.deadline - 1 } else e
  { w with rejoin := w.rejoin.map down }

/-- A wave's entries: arrivals complete, deadlines that have passed expire, the others count down while the context is active
and the wave is neither halted nor frozen (07 R124, R125; 22 R391). -/
def tickWave (k : Core) (cyc : Nat) (w : Wave) : Wave :=
  let runs := waveActive k w && !w.halted && w.frozen.isNone
  let w1 := settleEntries (waveKernel k w).rejoin cyc runs w
  if runs then countDown w1 else w1

def tickWaves (s : State) (core : Nat) : State :=
  let k := getCore s core
  setCore s core { k with waves := k.waves.map (fun sw => (sw.1, sw.2.map (tickWave k (coreCyc s core)))) }

/-- Parts stalled at a width or a `fuse` fuse, or have no way out (07 R126, R128). -/
def tickShapes (s : State) (core : Nat) : State :=
  let k := getCore s core
  k.waves.foldl (fun s sw =>
    match sw.2 with
    | none => s
    | some w => if waveActive k w && w.parts.any (fun p => p.wait = .width || p.wait = .fuse) then forceFuse s core sw.1 else s) s

/-- Barriers that waves have reached are tested again (20 R368). -/
def tickBarriers (s : State) (core : Nat) : State :=
  (getCore s core).wgs.foldl (fun s g => if (g.2.map (fun x => decide (x.barKind ≠ 0))).getD false then barrierTest s core g.1 else s) s

/-- Waves in which a `kill` has issued end, with every trap of the cycle (09 R182; 22 R392). -/
def tickKills (s : State) (core : Nat) : State :=
  (getCore s core).waves.foldl (fun s sw => if (sw.2.bind (·.killed)).isSome then killWave s core sw.1 else s) s

/-- Traps raised beside co-issuing parts are entered, after a kill or a freeze of the cycle (22 R392). -/
def tickTraps (s : State) (core : Nat) : State :=
  (partsOf (getCore s core) core).foldl (fun s x => resolveTrap s x.2) s

/-! Contexts (22 R400). -/

/-- Idle and quantum counters of a core's active context, and whether another of its priority had a ready part. A part that
has issued in the cycle was ready in it. -/
def tickContexts (s : State) (core : Nat) : State :=
  let k := getCore s core
  match activeCtx k with
  | none => s
  | some a =>
    let busy := ctxReady s core a.region || k.issued.any (fun x => x.1 = coreCyc s core)
    let other := k.ctxs.any (fun c => c.place != .active && c.place != .streamed && prioOf s c.region = prioOf s a.region &&
      ctxReady s core c.region)
    setCore s core (updCtx k a.region (fun c =>
      { c with idle := if busy then 0 else c.idle + 1, quantum := c.quantum + 1, wanted := c.wanted || other }))

/-! The array and the reef controller. -/

/-- Rows whose cycle has come are written and enter, and passes complete (14 R291, R292). -/
def tickArray (s : State) (core : Nat) : State :=
  let k := getCore s core
  if k.array.isEmpty && !k.ballast then s
  else
    let s1 := drainEvent (execTileRowWrite core) (k.rows.length + k.array.length) s
    after s1 (execArrayRowEntry core)

/-- INTERVAL is evaluated, and the core's ramp window goes on (16 R314, R319). -/
def tickReef (s : State) (core : Nat) : State :=
  let s1 := if (getCore s core).ctxs.isEmpty then s else after s (execCadenceEval core)
  if (getCore s1 core).ramp.isNone then s1 else after (after s1 (execRampIntervalDouble core)) (execRampWindowEnd core)

/-- A core's cycle ends. -/
def tickCore (s : State) (core : Nat) : State :=
  let k := getCore s core
  if k.waves.isEmpty && k.ctxs.isEmpty && k.array.isEmpty && k.ramp.isNone then s
  else
    let s1 := tickContexts (tickStalls (tickSplits (tickPolls (tickKills s core) core) core) core) core
    let s2 := tickTraps (tickBarriers (tickShapes (tickWaves s1 core) core) core) core
    tickArray (tickReef s2 core) core

/-! The cluster's clock (16 R316-R320; 29 R426, R427). -/

/-- The cores of a cluster. -/
def coresOfCluster (n : Nat) : List Nat := (List.range 8).map (8 * n + ·)

/-- The ends of a fall and of a cool-down, then credits, charges and the claim of a boundary. -/
def tickPower (s : State) (n : Nat) : State :=
  let s1 := after (after s (execFallStepEnd n)) (execCoolDownEnd n)
  let s2 := (coresOfCluster n).foldl (fun s c => after s (execRampCharge c)) (after s1 (execPermitCredit n))
  after s2 (execSprintClaim (n / 2) (n % 2 = 0) (n % 2 = 1))

/-- Ramp-window cycles above the module's cap, without a grant (R320). Whether the module is above its cap in a cycle is free. -/
def tickOverCap (s : State) (n : Nat) : State :=
  let cs := (coresOfCluster n).filter (fun c => (getCore s c).ramp.isSome)
  if cs.isEmpty || (getCluster s n).clock = .sprint then s
  else
    let s1 := { s with freeCount := s.freeCount + 1 }
    if Config.freeNat s.freeCount % 2 = 0 then s1
    else cs.foldl (fun s c => let k := getCore s c; setCore s c { k with overCap := k.overCap + 1 }) s1

/-- One cycle of a cluster ends: its cores, its clock, then $cyc, and the cycles at or below nominal (R318). -/
def tickCluster (s : State) (n : Nat) : State :=
  let s1 := tickOverCap (tickPower ((coresOfCluster n).foldl tickCore s) n) n
  let c := getCluster s1 n
  let low := c.clock = .nominal || c.clock = .coolDown
  setCluster s1 n { c with cyc := c.cyc + 1, lowCycles := if low then c.lowCycles + 1 else c.lowCycles }

end Sys2Proof.Machine
end

