-- ==== Sys2Proof/Machine/Turn.lean ====
section
/-! DEFINITION. Carrying out one turn of the agenda, and choosing a turn where the agenda names none
(07 R117, R118; log 1). -/
namespace Sys2Proof.Machine

/-- The core of a wave that has issued nothing yet drops its lines of writable pages: the wave's first instruction is an acquire
at .dev (19 R362). -/
def openWave (c : Cx) (r : PartRef) (s : State) : State := setCore s r.core (l1Acquire c.k c.g.asn 4)

/-- The wave has issued its first instruction, where the core's record of issues has changed. -/
def waveBegun (k : Core) (r : PartRef) (t : State) : State :=
  if (getCore t r.core).issued = k.issued then t else updWave t r.core r.slot (fun w => { w with fresh := false })

/-- The first instruction of a wave is tried. -/
def firstIssue (c : Cx) (r : PartRef) (s : State) : Outcome' :=
  match partAt (openWave c r s) r with
  | none => .next s
  | some d =>
    match runNext d r (openWave c r s) with
    | .next t => .next (waveBegun c.k r t)
    | x => x

/-- Issue by a named part, when it is the one that its core's ports take next (R117, R118); otherwise nothing. -/
def issueTurn (r : PartRef) (s : State) : Outcome' :=
  if chooseOn r.core (getCore s r.core) (coreCyc s r.core) = some r then
    match partAt s r with
    | none => .next s
    | some c => if c.w.fresh then firstIssue c r s else runNext c r s
  else .next s

/-- The part that issues when the agenda names nothing: on the first core with one. -/
def choosePart (s : State) : Option PartRef := s.cores.findSome? (fun ck => chooseOn ck.1 ck.2 (coreCyc s ck.1))

/-- A part that a cluster's ports still take in its current cycle. -/
def chooseIn (s : State) (n : Nat) : Option PartRef :=
  (coresOfCluster n).findSome? (fun c => chooseOn c (getCore s c) (coreCyc s c))

/-! Turns other than an issue. -/

/-- The instruction is a device event, not an instruction word. -/
def isEvent (i : Instr) : Bool :=
  match i with
  | .unassignedOpcode _ => false
  | i => i.word?.isNone

/-- A datagram arrives: the row of its kind takes it (01 R11, R18-R23). -/
def arriveTurn (d : Datagram) (s : State) : Outcome' :=
  if s.recovery then execRecoveryReply d s
  else if isUnknown d then execRejectedHostMessage d s
  else if isTeardown d then execTeardown d s
  else match dType d with
    | 0x01 => execLaunch d s
    | 0x03 => execPut d s
    | 0x04 => execGet d s
    | 0x07 => execAttest d s
    | _ => execCtxReset d s

/-- A line leaves a core's L1 (19 R431). -/
def evictLine (core asn line : Nat) (s : State) : State :=
  let k := getCore s core
  setCore s core { k with l1 := k.l1.filter (fun l => !(l.asn = asn && l.line = line)) }

/-- A line leaves its L2 slice (11 R430). -/
def evictL2 (line : Nat) (s : State) : State := { s with l2 := s.l2.filter (fun l => l.line != line) }

/-- A cycle of a cluster ends, once no port of it takes another part; until then the next part issues, and the turn stays on
the agenda (R118). -/
def tickTurn (n : Nat) (s : State) : Outcome' :=
  match chooseIn s n with
  | some r => issueTurn r { s with agenda := .tick n :: s.agenda }
  | none => .next (tickCluster s n)

/-- One turn. -/
def runTurn (t : Turn) (s : State) : Outcome' :=
  match t with
  | .issue p => issueTurn p s
  | .event e => if isEvent e then exec e s else .next s
  | .arrive d => arriveTurn d s
  | .tick n => tickTurn n s
  | .evict core asn line => .next (evictLine core asn line s)
  | .evictL2 line => .next (evictL2 line s)
  | .reach core slot load quads => .next (reachLanes core slot load s (lanesOf (quadLanes quads)))

/-! The events that the module itself has pending, in a fixed order (log 1). -/

/-- Events of one wave: its loads return, its store queue moves, its parts' long waits are seen. -/
def waveEvents (core slot : Nat) (w : Wave) : List (State → Outcome') :=
  w.loads.map (fun ld => execGlobalLoadReturn core slot ld.id 0xFFFF) ++
  (match w.queue with
    | [] => []
    | e :: _ => match e.kind with
      | .eng _ => [execEngAccept core slot]
      | .spawn _ _ _ => [execSpawnAppend core slot]
      | .qclose _ => [execQcloseLeave core slot]
      | _ => [execStoreQueueLeave core slot]) ++
  w.parts.flatMap (fun p =>
    let r : PartRef := ⟨core, slot, lowestLane p.lanes⟩
    (if 64 ≤ p.readyFor && !p.starved then [execIssueStarvation r] else []) ++
    (if 1048576 < p.stallFor then [execQueueStall r] else []))

/-- Events of one core. -/
def coreEvents (core : Nat) (k : Core) : List (State → Outcome') :=
  k.waves.flatMap (fun sw => match sw.2 with
    | some w => waveEvents core sw.1 w
    | none => []) ++
  k.outbound.map (fun o => execHomeSliceApply core o.id) ++
  k.jobs.flatMap (fun j => [execEngChunk core j.1, execEngJobEnd core j.1]) ++
  k.array.flatMap (fun e => [execMloadExecute core e.id, execDrainExecute core e.id, execDrainComplete core e.id]) ++
  k.wgs.flatMap (fun g => [execGbarArrival core g.1, execGbarRelease core g.1, execColourTileWriteback core g.1, execWgPublish core g.1]) ++
  (if k.ctxs.isEmpty then [] else
    [execContextPrioritySwitch core, execContextIdleSwitch core, execContextQuantum core, execCadenceEval core]) ++
  (if k.array.isEmpty then [] else [execTileRowWrite core, execArrayRowEntry core]) ++
  (k.ctxs.filter (fun c => !c.savedWgs.isEmpty)).map (fun c => execContextReturn core c.region.toNat) ++
  (if k.ramp.isSome then [execRampIntervalDouble core, execRampWindowEnd core] else [])

/-- Events of the clusters, the I/O die and the slices; the claim of a charging boundary is made as its cycle ends. -/
def deviceEvents (s : State) : List (State → Outcome') :=
  s.combines.map (fun e => execCombineWindowClose e.id) ++
  (List.range s.bins.length).map execBinTimerExpire ++
  s.batches.map (fun b => execFragmentWgCreate b.id) ++
  s.launches.map (fun l => execLaunchEnd l.acc) ++
  (if s.regions.isEmpty then [] else [execPlaceWorkgroup, execPreempt]) ++
  s.clusters.flatMap (fun c =>
    (if c.2.carder.isEmpty then [] else [execCarderJobStart c.1]) ++
    [execFallStepEnd c.1, execCoolDownEnd c.1, execPermitCredit c.1])

def pendingEvents (s : State) : List (State → Outcome') := s.cores.flatMap (fun ck => coreEvents ck.1 ck.2) ++ deviceEvents s

/-- The first of some events that changes the state. -/
def firstEvent (s : State) : List (State → Outcome') → Option State
  | [] => none
  | e :: l =>
    match e s with
    | .next t => if t = s then firstEvent s l else some t
    | _ => firstEvent s l

/-- The cluster that has counted the fewest cycles, the lowest on a tie. -/
def slowest (s : State) : Nat :=
  (List.range 40).foldl (fun b n => if (getCluster s n).cyc < (getCluster s b).cyc then n else b) 0

/-- What happens where the agenda is empty: a ready part issues; else the first pending event that changes
anything takes place; else a cycle passes. -/
def idleTurn (s : State) : Outcome' :=
  match choosePart s with
  | some p => issueTurn p s
  | none =>
    match firstEvent s (pendingEvents s) with
    | some t => .next t
    | none => .next (tickCluster s (slowest s))

end Sys2Proof.Machine
end

