-- ==== Sys2Proof/Machine/Step.lean ====
section
/-! DEFINITION. One step of the machine: the next turn of the agenda; where there is none, a turn of the module's
own choosing (log 1). And a state in which a given word is the next to issue (log 20). -/
namespace Sys2Proof.Machine

def step (s : State) : Host.Outcome State Fault Refusal :=
  match s.agenda with
  | t :: rest => runTurn t { s with agenda := rest }
  | [] => idleTurn s

/-- The placed program of `withFetchWord`: one word at virtual address 0 of address space 1. -/
def fetchCode : CodeSeg := { asn := 1, base := 0, len := 12 }
def fetchRegion : Rgn := mkRgn 1 0x1000
def fetchKernel : Kernel := { width := 6, tiles := 8, vregs := 256, sregs := 128, gridSync := true, code := fetchCode }
/-- The byte of die 0's memory that holds the word. -/
def fetchByte : Nat := 0x10000

/-- A wave of 64 lanes at the word, fused, all lanes active. -/
def fetchWave : Wave :=
  { serial := 0, wg := 0, index := 0, width := 64, code := fetchCode, limits := ⟨256, 128, 8⟩
    parts := [{ lanes := BitVec.allOnes 64, run := BitVec.allOnes 64, exec := BitVec.allOnes 64 }] }

def fetchGroup : Workgroup :=
  { launch := 0, region := fetchRegion, asn := 1, gx := 1, gy := 1, gz := 1, kernel := fetchKernel, scratch := 4096
    tiles := [0, 1, 2, 3, 4, 5, 6, 7], slots := [0], live := 1 }

/-- Core 0 with that workgroup alone, in barrier slot 0, and its wave in wave slot 0. -/
def fetchCore (k : Core) : Core :=
  { k with waves := kset none [] 0 (some fetchWave), wgs := kset none [] 0 (some fetchGroup)
           ctxs := [{ region := fetchRegion, asn := 1, order := 0, fast := false }], issued := [] }

/-- The state with an instruction word, numbered as spec/opcode_table.json numbers its bits, placed where the next
step fetches: its page mapped for fetches, its wave resident, and its issue next on the agenda. -/
def State.withFetchWord (s : State) (nbits w : Nat) : State :=
  setCore { s with
    leaves := kset 0 s.leaves (leafKey 0 1 0) (BitVec.ofNat 64 (fetchByte + 0xB))
    mem := writeBytes s.mem fetchByte (toBytes 12 (w % 2 ^ nbits))
    memErr := kset 0 s.memErr (fetchByte / 32) 0
    agenda := [.issue ⟨0, 0, 0⟩] } 0 (fetchCore (getCore s 0))

end Sys2Proof.Machine
end

