-- ==== Sys2Proof/Reference.lean ====
section
/-! DEFINITION. The results that the spec gives in arithmetic, written on plain numbers, for the statements to
compare the machine with. No definition of the model uses them. -/
namespace Sys2Proof.Reference

/-- A 32-bit word. -/
abbrev W := BitVec 32

/-- A number, or an integer, modulo 2^32. -/
def nat (n : Nat) : W := BitVec.ofNat 32 n
def int (i : Int) : W := BitVec.ofInt 32 i

def dnat (n : Nat) : BitVec 64 := BitVec.ofNat 64 n
/-- A half of 64 bits, and 64 bits with a half replaced. -/
def half (high : Bool) (x : BitVec 64) : W := nat (if high then x.toNat / 2 ^ 32 else x.toNat)
def putHalf (high : Bool) (x : BitVec 64) (v : W) : BitVec 64 :=
  dnat (if high then x.toNat % 2 ^ 32 + v.toNat * 2 ^ 32 else x.toNat / 2 ^ 32 * 2 ^ 32 + v.toNat)

/-! Integer arithmetic (09 R156-R159; 10 R190-R195). -/

def shl (a b : W) : W := nat (a.toNat * 2 ^ (b.toNat % 32))
def shr (a b : W) : W := nat (a.toNat / 2 ^ (b.toNat % 32))
/-- Copies of the sign bit come in: division rounds towards minus infinity. -/
def sra (a b : W) : W := int (a.toInt / 2 ^ (b.toNat % 32))
def minS (a b : W) : W := int (min a.toInt b.toInt)
def maxS (a b : W) : W := int (max a.toInt b.toInt)
def minU (a b : W) : W := nat (min a.toNat b.toNat)
def maxU (a b : W) : W := nat (max a.toNat b.toNat)
/-- Bits [63:32] of the exact product. -/
def mulHigh (unsigned : Bool) (a b : W) : W :=
  if unsigned then nat (a.toNat * b.toNat / 2 ^ 32) else int (a.toInt * b.toInt / 2 ^ 32)
def mad (a b c : W) : W := nat (a.toNat * b.toNat + c.toNat)
/-- Leading zeros: 32 less the number of digits. -/
def clz (a : W) : W := nat (32 - Nat.size a.toNat)
def popc {w : Nat} (a : BitVec w) : W := nat ((List.range w).countP a.toNat.testBit)

/-- A field descriptor (R159). -/
def pos (b : W) : Nat := b.toNat % 32
def len (b : W) : Nat := min (b.toNat / 2 ^ 8 % 64) (32 - pos b)
/-- A field read, extended with zeros or with its top bit. -/
def fieldOf (sign : Bool) (a b : W) : W :=
  let x : Nat := a.toNat / 2 ^ pos b % 2 ^ len b
  if sign ∧ len b ≠ 0 ∧ 2 ^ (len b - 1) ≤ x then int ((x : Int) - 2 ^ len b) else nat x
/-- C with the field replaced by the low bits of A. -/
def fieldInto (a b c : W) : W :=
  nat (c.toNat % 2 ^ pos b + 2 ^ pos b * (a.toNat % 2 ^ len b) +
    2 ^ (pos b + len b) * (c.toNat / 2 ^ (pos b + len b)))

def abs (a : W) : W := int |a.toInt|
def neg (a : W) : W := int (-a.toInt)
/-- Byte i of a word. -/
def byte (x : W) (i : Nat) : Nat := x.toNat / 2 ^ (8 * i) % 2 ^ 8
/-- Byte i, read as signed or unsigned. -/
def byteInt (unsigned : Bool) (x : W) (i : Nat) : Int :=
  if unsigned ∨ byte x i < 128 then byte x i else (byte x i : Int) - 256
/-- One byte of a permutation (R194). -/
def permByte (a b c : W) (i : Nat) : Nat :=
  let sel := c.toNat / 2 ^ (4 * i) % 16
  let x := if sel % 8 < 4 then byte a (sel % 8) else byte b (sel % 8 - 4)
  if sel < 8 then x else if x < 128 then 0 else 255
def perm (a b c : W) : W := nat (∑ i ∈ Finset.range 4, permByte a b c i * 2 ^ (8 * i))
/-- Four products added to C (R195). -/
def dot4 (ua ub : Bool) (a b c : W) : W := int (c.toInt + ∑ i ∈ Finset.range 4, byteInt ua a i * byteInt ub b i)
def sad4 (a b c : W) : W := int (c.toInt + ∑ i ∈ Finset.range 4, |(byte a i : Int) - byte b i|)

/-- The ten conditions (R161). -/
def holds (cc : Nat) (a b : W) : Bool :=
  match cc with
  | 0 => decide (a = b)
  | 1 => decide (a ≠ b)
  | 2 => decide (a.toInt < b.toInt)
  | 3 => decide (a.toInt ≤ b.toInt)
  | 4 => decide (a.toInt > b.toInt)
  | 5 => decide (a.toInt ≥ b.toInt)
  | 6 => decide (a.toNat < b.toNat)
  | 7 => decide (a.toNat ≤ b.toNat)
  | 8 => decide (a.toNat > b.toNat)
  | _ => decide (a.toNat ≥ b.toNat)

/-! FP32 words by their fields (08 R134; 10 R199, R201). -/

def sign (a : W) : Bool := decide (2 ^ 31 ≤ a.toNat)
def expo (a : W) : Nat := a.toNat / 2 ^ 23 % 2 ^ 8
def frac (a : W) : Nat := a.toNat % 2 ^ 23
def isNan (a : W) : Bool := decide (expo a = 255 ∧ frac a ≠ 0)

/-- The one-hot class. -/
def classOf (a : W) : W :=
  nat (2 ^ (
    if expo a = 255 then (if frac a = 0 then (if sign a then 0 else 7) else if frac a < 2 ^ 22 then 8 else 9)
    else if expo a = 0 then (if frac a = 0 then (if sign a then 3 else 4) else if sign a then 2 else 5)
    else if sign a then 1 else 6))

/-- floor(log2 |A|). -/
def expOf (a : W) : W :=
  if expo a = 255 then (if frac a = 0 then nat 0x7FFFFFFF else nat 0x7FFFFFFE)
  else if expo a = 0 then (if frac a = 0 then nat 0x80000000 else int ((Nat.log 2 (frac a) : Int) - 149))
  else int ((expo a : Int) - 127)

/-- The order of FP32 words that are not NaN, -0 below +0. -/
def rank (a : W) : Int := if sign a then -(a.toNat - 2 ^ 31 : Nat) - 1 else a.toNat

/-- The lesser, or greater, of two words; a NaN gives way. -/
def pick (max : Bool) (a b : W) : W :=
  if isNan a ∧ isNan b then nat 0x7FC00000
  else if isNan a then b
  else if isNan b then a
  else if max then (if rank a < rank b then b else a) else if rank b < rank a then b else a

/-- The lowest one bit, all ones for zero (R163). -/
def lowestOne (m : BitVec 64) : W :=
  match (List.range 64).find? m.toNat.testBit with
  | some i => nat i
  | none => nat 0xFFFFFFFF

end Sys2Proof.Reference
end

