-- ==== Sys2Proof/WellFormed.lean ====
section
/-! DEFINITION. Well-formed instructions: an instruction word that passes the checks of 04 R81 that do not
depend on the kernel's declared counts, and a device event whose indices exist. -/
namespace Sys2Proof
open Machine

/-- A part that can exist: 320 cores, 64 wave slots, 64 lanes (00 R3, 07 R115). -/
def partRefOk (p : PartRef) : Prop := p.core < 320 ∧ p.slot < 64 ∧ p.lane < 64

/-- A function with a readiness bit (01 R13). -/
def funcOk : Func → Bool
  | .cluster n => decide (n < 40)
  | .slice n => decide (n < 80)
  | .hbm n => decide (n < 8)
  | .port n => decide (n < 6)
  | .ccore n => decide (n < 8)

/-- A control-space register that exists. -/
def fwWriteOk : FwWrite → Bool
  | .keySlot k _ => decide (k < 8)
  | .sliceConfig s _ => decide (s < 80)
  | .permits z _ => decide (z < 20)
  | .peerWindow asn w _ => decide (asn < 4096) && decide (w < 4)
  | .addressSpace asn => decide (1 ≤ asn) && decide (asn < 4096)
  | .hostSpace c asn => decide (c < 4096) && decide (asn < 4096)
  | .peerContext p asn _ => decide (p < 64) && decide (asn < 4096)

/-- The static part of R81 for a word of sub-row `k`: RT zero, modifiers permitted, operands of the
classes the opcode accepts. -/
def wordOk (op k : Nat) (f : Fields) : Prop :=
  subKey op f = k ∧ f.rt = 0 ∧ modifiersOk op f = true ∧ operandsOk maxLimits op f = true

/-- The indices of a device event exist; an unassigned word has an unassigned opcode. -/
def eventOk : Instr → Prop
  | .powerOnBoot images => images.length = 8
  | .selftestPass fs => ∀ x ∈ fs, funcOk x = true
  | .selftestFail fs => ∀ x ∈ fs, funcOk x = true
  | .recoveryReply d => 32 ≤ d.bytes.length
  | .launch d => 32 ≤ d.bytes.length
  | .put d => 32 ≤ d.bytes.length
  | .get d => 32 ≤ d.bytes.length
  | .attest d => 32 ≤ d.bytes.length
  | .ctxReset d => 32 ≤ d.bytes.length
  | .teardown d => 32 ≤ d.bytes.length
  | .placeWorkgroup => True
  | .wgPublish core bar => core < 320 ∧ bar < 16
  | .launchEnd _ => True
  | .issueStarvation p => partRefOk p
  | .globalLoadReturn core slot _ _ => core < 320 ∧ slot < 64
  | .missSplit p => partRefOk p
  | .storeQueueLeave core slot => core < 320 ∧ slot < 64
  | .rejoinExpire core slot entry => core < 320 ∧ slot < 64 ∧ entry < 16
  | .forcedFuse core slot => core < 320 ∧ slot < 64
  | .combineWindowClose _ => True
  | .engAccept core slot => core < 320 ∧ slot < 64
  | .engChunk core job => core < 320 ∧ job < 64
  | .engJobEnd core job => core < 320 ∧ job < 64
  | .carderJobStart cluster => cluster < 40
  | .translationChange asn _ _ => asn < 4096
  | .fwRegisterWrite w => fwWriteOk w = true
  | .mloadExecute core _ => core < 320
  | .arrayRowEntry core => core < 320
  | .tileRowWrite core => core < 320
  | .drainExecute core _ => core < 320
  | .drainComplete core _ => core < 320
  | .cadenceEval core => core < 320
  | .sprintClaim zone _ _ => zone < 20
  | .fallStepEnd cluster => cluster < 40
  | .coolDownEnd cluster => cluster < 40
  | .permitCredit cluster => cluster < 40
  | .rampIntervalDouble core => core < 320
  | .rampWindowEnd core => core < 320
  | .rampCharge core => core < 320
  | .fragmentWgCreate _ => True
  | .colourTileWriteback core bar => core < 320 ∧ bar < 16
  | .binTimerExpire _ => True
  | .spawnAppend core slot => core < 320 ∧ slot < 64
  | .qcloseLeave core slot => core < 320 ∧ slot < 64
  | .queueStall p => partRefOk p
  | .gbarArrival core bar => core < 320 ∧ bar < 16
  | .gbarRelease core bar => core < 320 ∧ bar < 16
  | .peerInboundRequest r => r.pctx < 64
  | .peerReply _ _ => True
  | .peerTimeout _ => True
  | .peerCancel pctx _ => pctx < 64
  | .contextPrioritySwitch core => core < 320
  | .contextIdleSwitch core => core < 320
  | .contextQuantum core => core < 320
  | .preempt => True
  | .contextReturn core _ => core < 320
  | .dbgHalt core cmd => core < 320 ∧ bits cmd 0 8 = 1
  | .dbgResume core cmd => core < 320 ∧ bits cmd 0 8 = 2
  | .dbgStep core cmd => core < 320 ∧ bits cmd 0 8 = 3
  | .dbgReleaseWave core cmd => core < 320 ∧ bits cmd 0 8 = 4
  | .dbgReleaseJob core cmd => core < 320 ∧ bits cmd 0 8 = 5
  | .dbgInvalidOp core cmd => core < 320 ∧ (bits cmd 0 8 < 1 ∨ 5 < bits cmd 0 8)
  | .dbgctlWrite core _ => core < 320
  | .unassignedOpcode w => opInfo? (wordOp w) = none
  | .homeSliceApply core _ => core < 320
  | .rejectedHostMessage d => 32 ≤ d.bytes.length
  | .nop _ => True
  | .bra _ => True
  | .braS _ => True
  | .brx _ => True
  | .jmp _ => True
  | .call _ => True
  | .callIndirect _ => True
  | .ret _ => True
  | .rejoin _ => True
  | .fuse _ => True
  | .yield _ => True
  | .exit _ => True
  | .kill _ => True
  | .bpt _ => True
  | .trap _ => True
  | .trapret _ => True
  | .pand _ => True
  | .por _ => True
  | .pxor _ => True
  | .pnot _ => True
  | .mand _ => True
  | .mor _ => True
  | .mxor _ => True
  | .mmov _ => True
  | .mpopc _ => True
  | .mffs _ => True
  | .mexec _ => True
  | .srd _ => True
  | .swrExec _ => True
  | .swrResid _ => True
  | .swrPstat _ => True
  | .scyc _ => True
  | .sadd _ => True
  | .ssub _ => True
  | .smul _ => True
  | .smulh _ => True
  | .smad _ => True
  | .sand _ => True
  | .sor _ => True
  | .sxor _ => True
  | .snot _ => True
  | .sshl _ => True
  | .sshr _ => True
  | .ssra _ => True
  | .smin _ => True
  | .smax _ => True
  | .sminu _ => True
  | .smaxu _ => True
  | .sclz _ => True
  | .spopc _ => True
  | .sbfe _ => True
  | .sbfi _ => True
  | .smov _ => True
  | .sli _ => True
  | .ssel _ => True
  | .scmp _ => True
  | .saddImm _ => True
  | .ssubImm _ => True
  | .smulImm _ => True
  | .smulhImm _ => True
  | .smadImm _ => True
  | .sandImm _ => True
  | .sorImm _ => True
  | .sxorImm _ => True
  | .sshlImm _ => True
  | .sshrImm _ => True
  | .ssraImm _ => True
  | .sminImm _ => True
  | .smaxImm _ => True
  | .sminuImm _ => True
  | .smaxuImm _ => True
  | .sbfeImm _ => True
  | .sbfiImm _ => True
  | .vadd _ => True
  | .vsub _ => True
  | .vmul _ => True
  | .vmulh _ => True
  | .vmad _ => True
  | .vand _ => True
  | .vor _ => True
  | .vxor _ => True
  | .vnot _ => True
  | .vshl _ => True
  | .vshr _ => True
  | .vsra _ => True
  | .vmin _ => True
  | .vmax _ => True
  | .vabs _ => True
  | .vneg _ => True
  | .vclz _ => True
  | .vpopc _ => True
  | .vbfe _ => True
  | .vbfi _ => True
  | .vsel _ => True
  | .vmov _ => True
  | .vprmt _ => True
  | .vdot4 _ => True
  | .vsad _ => True
  | .vcmp _ => True
  | .vcvt _ => True
  | .vpackMx _ => True
  | .vpackPx _ => True
  | .vunpackMx _ => True
  | .vunpackPx _ => True
  | .vretag _ => True
  | .vaddImm _ => True
  | .vsubImm _ => True
  | .vmulImm _ => True
  | .vmulhImm _ => True
  | .vmadImm _ => True
  | .vandImm _ => True
  | .vorImm _ => True
  | .vxorImm _ => True
  | .vshlImm _ => True
  | .vshrImm _ => True
  | .vsraImm _ => True
  | .vminImm _ => True
  | .vmaxImm _ => True
  | .vbfeImm _ => True
  | .vbfiImm _ => True
  | .vmovImm _ => True
  | .vprmtImm _ => True
  | .vdot4Imm _ => True
  | .vsadImm _ => True
  | .vshflIdx _ => True
  | .vshflUp _ => True
  | .vshflDown _ => True
  | .vshflXor _ => True
  | .vshflIdxImm _ => True
  | .vreadl _ => True
  | .vreadlImm _ => True
  | .vwritel _ => True
  | .vwritelImm _ => True
  | .vvoteAny _ => True
  | .vvoteAll _ => True
  | .vvoteBallot _ => True
  | .vredadd _ => True
  | .vredmax _ => True
  | .vscan _ => True
  | .vmatch _ => True
  | .vfadd _ => True
  | .vfsub _ => True
  | .vfmul _ => True
  | .vfma _ => True
  | .vfmin _ => True
  | .vfmax _ => True
  | .vfcmp _ => True
  | .vfclass _ => True
  | .vfscale _ => True
  | .vfexp _ => True
  | .vfrnd _ => True
  | .vrcp _ => True
  | .vrsq _ => True
  | .vsqrt _ => True
  | .vexp2 _ => True
  | .vlog2 _ => True
  | .vsin _ => True
  | .vcos _ => True
  | .vfaddImm _ => True
  | .vfsubImm _ => True
  | .vfmulImm _ => True
  | .vfmaImm _ => True
  | .vfminImm _ => True
  | .vfmaxImm _ => True
  | .vfscaleImm _ => True
  | .vfaddH2 _ => True
  | .vfsubH2 _ => True
  | .vfmulH2 _ => True
  | .vfmaH2 _ => True
  | .vfminH2 _ => True
  | .vfmaxH2 _ => True
  | .vfcmpH2 _ => True
  | .vfaddH2Imm _ => True
  | .vfsubH2Imm _ => True
  | .vfmulH2Imm _ => True
  | .vfmaH2Imm _ => True
  | .vfminH2Imm _ => True
  | .vfmaxH2Imm _ => True
  | .vfaddB2 _ => True
  | .vfsubB2 _ => True
  | .vfmulB2 _ => True
  | .vfmaB2 _ => True
  | .vfminB2 _ => True
  | .vfmaxB2 _ => True
  | .vfcmpB2 _ => True
  | .vfaddB2Imm _ => True
  | .vfsubB2Imm _ => True
  | .vfmulB2Imm _ => True
  | .vfmaB2Imm _ => True
  | .vfminB2Imm _ => True
  | .vfmaxB2Imm _ => True
  | .wbar _ => True
  | .gbar _ => True
  | .barm _ => True
  | .barmImm _ => True
  | .bsig _ => True
  | .bsigImm _ => True
  | .bwait _ => True
  | .bwaitImm _ => True
  | .fwait _ => True
  | .ftest _ => True
  | .fcancel _ => True
  | .hmovToH _ => True
  | .hmovToS _ => True
  | .engCopyIn _ => True
  | .engCopyOut _ => True
  | .engCopy2d _ => True
  | .engCopyCvt _ => True
  | .engFill _ => True
  | .engGatherRows _ => True
  | .engSortKeys _ => True
  | .engSortKv _ => True
  | .engPgreq _ => True
  | .engPutPeer _ => True
  | .engGetPeer _ => True
  | .engReducePeer _ => True
  | .engSumFlush _ => True
  | .engBadFunction _ => True
  | .spawn _ => True
  | .spawnLanes _ => True
  | .qcount _ => True
  | .qclose _ => True
  | .vld _ => True
  | .vldLane _ => True
  | .vst _ => True
  | .vstLane _ => True
  | .vldt _ => True
  | .vldtLane _ => True
  | .vldBlk _ => True
  | .vstBlk _ => True
  | .vprefetch _ => True
  | .vprefetchLane _ => True
  | .vldSp _ => True
  | .vldSpLane _ => True
  | .vstSp _ => True
  | .vstSpLane _ => True
  | .vldtSp _ => True
  | .vldtSpLane _ => True
  | .vldBlkSp _ => True
  | .vstBlkSp _ => True
  | .sld _ => True
  | .sst _ => True
  | .sldc _ => True
  | .sldSp _ => True
  | .sstSp _ => True
  | .cctlInv _ => True
  | .cctlInvall _ => True
  | .cctlInvc _ => True
  | .cctlDemote _ => True
  | .fenceFull _ => True
  | .fenceAcq _ => True
  | .fenceRel _ => True
  | .vatomAdd _ => True
  | .vatomSub _ => True
  | .vatomMin _ => True
  | .vatomMax _ => True
  | .vatomAnd _ => True
  | .vatomOr _ => True
  | .vatomXor _ => True
  | .vatomXchg _ => True
  | .vatomCas _ => True
  | .vatomInc _ => True
  | .vatomFadd _ => True
  | .vatomFmin _ => True
  | .vatomFmax _ => True
  | .vatomFaddD _ => True
  | .suminit _ => True
  | .sumget _ => True
  | .satomAdd _ => True
  | .satomSub _ => True
  | .satomMin _ => True
  | .satomMax _ => True
  | .satomAnd _ => True
  | .satomOr _ => True
  | .satomXor _ => True
  | .satomXchg _ => True
  | .satomCas _ => True
  | .satomInc _ => True
  | .satomFadd _ => True
  | .satomFmin _ => True
  | .satomFmax _ => True
  | .vatomSpAdd _ => True
  | .vatomSpSub _ => True
  | .vatomSpMin _ => True
  | .vatomSpMax _ => True
  | .vatomSpAnd _ => True
  | .vatomSpOr _ => True
  | .vatomSpXor _ => True
  | .vatomSpXchg _ => True
  | .vatomSpCas _ => True
  | .vatomSpInc _ => True
  | .vatomSpFadd _ => True
  | .vatomSpFmin _ => True
  | .vatomSpFmax _ => True
  | .satomSpAdd _ => True
  | .satomSpSub _ => True
  | .satomSpMin _ => True
  | .satomSpMax _ => True
  | .satomSpAnd _ => True
  | .satomSpOr _ => True
  | .satomSpXor _ => True
  | .satomSpXchg _ => True
  | .satomSpCas _ => True
  | .satomSpInc _ => True
  | .satomSpFadd _ => True
  | .satomSpFmin _ => True
  | .satomSpFmax _ => True
  | .mloadB _ => True
  | .mgatherA _ => True
  | .mmaBf16 _ => True
  | .mmaFp16 _ => True
  | .mmaE4m3 _ => True
  | .mmaE5m2 _ => True
  | .mmaInt8 _ => True
  | .mmaPx8 _ => True
  | .mmaPx5 _ => True
  | .mmaMxfp4 _ => True
  | .mmaPx3 _ => True
  | .mdrain _ => True
  | .mdrainSp _ => True
  | .mzero _ => True
  | .mstatTile _ => True
  | .mstatBank0 _ => True
  | .mstatBank1 _ => True
  | .texSmp _ => True
  | .texSmpLod _ => True
  | .texSmpGrad _ => True
  | .texLd _ => True
  | .texSt _ => True
  | .texG4 _ => True
  | .resLd _ => True
  | .resQ _ => True
  | .rtBox _ => True
  | .rtTri _ => True
  | .wstkPush _ => True
  | .wstkPop _ => True
  | .wstkPeek _ => True
  | .wstkClr _ => True
  | .meshLoc _ => True
  | .meshStep _ => True
  | .meshInterp _ => True
  | .emitp _ => True
  | .blendAcq _ => True
  | .blendRel _ => True

/-- A well-formed instruction. -/
def Instr.WellFormed (i : Instr) : Prop :=
  match i.word? with
  | some (op, k, f) => wordOk op k f
  | none => eventOk i

end Sys2Proof
end

