-- ==== Sys2Proof/Safety.lean ====
section
/-! DEFINITION. The terms in which claims about the machine are put: the canonical form of memory, an instruction
that passes the checks all instructions share, what an instruction leaves as it was, and a safe run. -/
namespace Sys2Proof.Machine

/-! Memory. -/

/-- A byte memory is in canonical form: addresses strictly rising, no listed byte equal to what an unlisted
address reads as. -/
def Memory.wf (m : KMap Byte) : Bool := kwf 0 m

/-- Device memory is in canonical form. -/
def State.memOk (s : State) : Prop := Memory.wf s.mem = true

/-- The byte of device memory at a physical byte number. -/
def State.byte (s : State) (key : Nat) : Byte := kget 0 s.mem key

/-! An instruction of the part in focus that issues. -/

/-- A debugger's step ends before the instruction: the open latch window ends with it (22 R405). -/
def Cx.stepEnds (c : Cx) (op : Nat) (f : Fields) : Bool :=
  c.p.stepping && c.p.window.isSome && (f.wb || (windowFor c.p (operandCls op (modField (opInfo op).x f.x)) f 0).isNone)

/-- The part with the latch window in which the instruction issues (04 R76). -/
def Cx.inWindow (c : Cx) (op : Nat) (f : Fields) : Cx :=
  c.part (fun p => { p with window := windowFor p (operandCls op (modField (opInfo op).x f.x)) f c.s.freeCount })

/-- `c` is the part in focus, and the word of opcode `op` and fields `f` passes the checks of 04 R81, finds its
registers free (07 R116), its latches in time (04 R77), its tags right (06 R109) and its width met (07 R126): it issues. -/
def Issues (s : State) (c : Cx) (op : Nat) (f : Fields) : Prop :=
  partAt s s.cur = some c ∧ c.stepEnds op f = false ∧ decodeCheck c op f = none ∧ busy c op f = false ∧
  latchCheck c.p op f c.cyc c.s.freeCount = none ∧ tagsOk (c.inWindow op f) op f = true ∧ widthOf c op f ≤ c.w.width ∧ meetsWidth c.w c.p (widthOf c op f) = true

/-- The value of operand A, B or C (0, 1, 2) in a lane, at the issue. -/
def Cx.operand (c : Cx) (op : Nat) (f : Fields) (which : Nat) (k : OpKind) (l : Nat) : Word :=
  (c.issued op f).opn op f which k l

/-- The tag of such an operand in a quad. -/
def Cx.operandTag (c : Cx) (op : Nat) (f : Fields) (which q : Nat) : Tag := (c.issued op f).opnTag op f which q

/-- Bit l of the source that `mmov` reads (09 R165): a mask register, $exec, a predicate in the lanes that the part
holds, or a pair of s registers. -/
def Cx.sourceBit (c : Cx) (n l : Nat) : Prop :=
  if n = 466 then tbit c.p.exec l = true
  else if 400 ≤ n then tbit (c.readM (n - 400)) l = true
  else if 392 ≤ n then tbit (c.readP (n - 392)) l = true ∧ tbit c.p.lanes l = true
  else if l < 32 then tbit (c.readS (n - 256)) l = true
  else tbit (c.readS (n - 255)) (l - 32) = true

/-! What an instruction leaves as it was. -/

/-- Beyond one core nothing changes: device memory, other cores, launches, messages; the model's own count of free
values aside. -/
def OnlyCore (s t : State) (core : Nat) : Prop :=
  t = { s with cores := t.cores, freeCount := t.freeCount } ∧ ∀ j, j ≠ core → getCore t j = getCore s j

/-- On the core nothing changes but one wave and the record of what issued in the cycle: scratchpad, caches,
futures, jobs, tiles, banks, workgroups, other waves. -/
def OnlyWave (k k' : Core) (slot : Nat) : Prop :=
  k' = { k with waves := k'.waves, wgs := k'.wgs, issued := k'.issued, vecQuads := k'.vecQuads } ∧
  (∀ j, j ≠ slot → getWave k' j = getWave k j) ∧ ∀ b, getWg k' b = getWg k b

/-- Of the wave, only its parts change: vector registers, tags, predicates, $resid, the rejoin stack, the store
queue and the loads in flight stay. -/
def OnlyParts (w w' : Wave) : Prop := w' = { w with parts := w'.parts }

/-- The other parts of the wave stay as they are, when the instruction writes no latch (04 R78). -/
def OtherParts (c d : Cx) (f : Fields) : Prop :=
  f.lw = false → ∀ i, i ≠ c.idx → d.w.parts[i]? = c.w.parts[i]?

/-- The part's lanes, paths, mask and handle registers, $pstat and modes stay; the PC is the next instruction's. -/
def NextInPart (p p' : Part) : Prop :=
  p'.pc = p.pc + 1 ∧ p'.lanes = p.lanes ∧ p'.run = p.run ∧ p'.paths = p.paths ∧ p'.handler = p.handler ∧
  p'.frozen = p.frozen ∧ p'.holds = p.holds ∧ p'.relScope = p.relScope

/-- Scalar, mask and handle registers, $exec and $pstat of the part stay. -/
def PartRegs (p p' : Part) : Prop := p'.s = p.s ∧ p'.m = p.m ∧ p'.h = p.h ∧ p'.exec = p.exec ∧ p'.pstat = p.pstat

/-- Scalar, mask and handle registers and $pstat stay. -/
def SameRegs (p p' : Part) : Prop := p'.s = p.s ∧ p'.m = p.m ∧ p'.h = p.h ∧ p'.pstat = p.pstat

/-- An instruction that issues, where `cond` holds, ends with a next state that differs from the old one in its wave
alone, and the part then stands as `post` says. -/
def ComputesWhen (mk : Fields → Instr) (op : Nat) (cond : Cx → Fields → Prop) (post : Cx → Fields → Cx → Prop) : Prop :=
  ∀ s c f, Issues s c op f → cond c f → ∃ t d, exec (mk f) s = .next t ∧ partAt t s.cur = some d ∧
    OnlyCore s t c.core ∧ OnlyWave c.k d.k c.slot ∧ OtherParts c d f ∧ NextInPart c.p d.p ∧ post c f d

/-- The same under no condition but that the instruction issues. -/
def Computes (mk : Fields → Instr) (op : Nat) (post : Cx → Fields → Cx → Prop) : Prop :=
  ComputesWhen mk op (fun _ _ => True) post

/-- A scalar result: sD takes the value when the guard is true in an active lane (04 R70, 09 R153), and nothing else
of the part changes. -/
def ScalarPost (h : Cx → Fields → Word) (c : Cx) (f : Fields) (d : Cx) : Prop :=
  (∀ n, d.readS n = if n = f.d.toNat - 256 ∧ c.activeLanes f ≠ 0 then h c f else c.readS n) ∧
  d.p.m = c.p.m ∧ d.p.h = c.p.h ∧ d.p.exec = c.p.exec ∧ d.p.pstat = c.p.pstat ∧ OnlyParts c.w d.w

/-- A mask result: mD takes the value when the guard is true in an active lane (09 R163). -/
def MaskPost (h : Cx → Fields → Dword) (c : Cx) (f : Fields) (d : Cx) : Prop :=
  (∀ n, d.readM n = if n = f.d.toNat - 400 ∧ c.activeLanes f ≠ 0 then h c f else c.readM n) ∧
  d.p.s = c.p.s ∧ d.p.h = c.p.h ∧ d.p.exec = c.p.exec ∧ d.p.pstat = c.p.pstat ∧ OnlyParts c.w d.w

/-- A lane takes part: it is active and its guard is true (10 R187). -/
def Cx.takes (c : Cx) (f : Fields) (l : Nat) : Prop := l ∈ lanesOf (c.activeLanes f)

/-- A predicate result: in the lanes that take part pD has the truth of `h`; its other bits and the other predicates
stay (09 R162). p7 is no destination (06 R106). -/
def PredPost (h : Cx → Fields → Nat → Prop) (c : Cx) (f : Fields) (d : Cx) : Prop :=
  (∀ n l, n < 7 → l < 64 → (n = f.d.toNat - 392 ∧ c.takes f l → (tbit (d.readP n) l = true ↔ h c f l)) ∧
    (¬ (n = f.d.toNat - 392 ∧ c.takes f l) → tbit (d.readP n) l = tbit (c.readP n) l)) ∧
  PartRegs c.p d.p ∧ d.w = { c.w with parts := d.w.parts, p := d.w.p }

/-- $exec takes a value in the lanes of the running path, and keeps its other bits (09 R164), when the guard is true
in an active lane. -/
def ExecPost (h : Cx → Fields → Dword) (c : Cx) (f : Fields) (d : Cx) : Prop :=
  d.p.exec = (if c.activeLanes f ≠ 0 then h c f &&& c.p.run else c.p.exec) ∧
  d.p.s = c.p.s ∧ d.p.m = c.p.m ∧ d.p.h = c.p.h ∧ d.p.pstat = c.p.pstat ∧ OnlyParts c.w d.w

/-- Registers `regs` take their values in the lanes that `at_` names, and the tag of each quad with such a lane is
set; other lanes and registers stay (10 R187, R188; 06 R109). -/
def LanesPost (regs : Cx → Fields → List Nat) (at_ : Cx → Fields → Nat → Prop) (h : Cx → Fields → Nat → Nat → Word)
    (tag : Cx → Fields → Nat → Nat → Tag) (c : Cx) (f : Fields) (d : Cx) : Prop :=
  (∀ n l, l < 64 → (n ∈ regs c f ∧ at_ c f l → d.readV n l = h c f n l) ∧
    (¬ (n ∈ regs c f ∧ at_ c f l) → d.readV n l = c.readV n l)) ∧
  (∀ n q, q < 16 → (n ∈ regs c f ∧ (∃ l, at_ c f l ∧ l / 4 = q) → d.readTag n q = tag c f n q) ∧
    (¬ (n ∈ regs c f ∧ ∃ l, at_ c f l ∧ l / 4 = q) → d.readTag n q = c.readTag n q)) ∧
  PartRegs c.p d.p ∧ d.w = { c.w with parts := d.w.parts, v := d.w.v, tags := d.w.tags }

/-- The register D of a vector result; `_` is none (04 R71). -/
def destV (f : Fields) : List Nat := if f.dn then [] else [f.d.toNat]

/-- A vector result: vD of each lane that takes part takes its value (10 R187). -/
def VectorPost (h : Cx → Fields → Nat → Word) (tag : Cx → Fields → Nat → Tag) : Cx → Fields → Cx → Prop :=
  LanesPost (fun _ f => destV f) Cx.takes (fun c f _ l => h c f l) (fun c f _ q => tag c f q)

/-! Control flow (07 R130, R131; 09 R170). -/

/-- An instruction that issues, where `cond` holds, ends with a next state in which only its own part of its wave has
changed, and that part, of the same lanes, stands as `post` says. -/
def MovesWhen (mk : Fields → Instr) (op : Nat) (cond : Cx → Fields → Prop) (post : Cx → Fields → Part → Prop) : Prop :=
  ∀ s c f, Issues s c op f → cond c f → ∃ t d, exec (mk f) s = .next t ∧ partAt t s.cur = some d ∧
    OnlyCore s t c.core ∧ OnlyWave c.k d.k c.slot ∧ OnlyParts c.w d.w ∧
    (∀ i, i ≠ c.idx → d.w.parts[i]? = c.w.parts[i]?) ∧ d.p.lanes = c.p.lanes ∧ post c f d.p

def Moves (mk : Fields → Instr) (op : Nat) (post : Cx → Fields → Part → Prop) : Prop := MovesWhen mk op (fun _ _ => True) post

/-- The paths that wait at a PC and are not parked. -/
def waitsAt (pc : Word) (x : Path) : Bool := x.pc == pc && x.parkedAt == 0

/-- The first path of a list that is not parked runs on, merged with every other such path at its PC; the rest wait
(07 R131). -/
def Resumes (l : List Path) (p : Part) : Prop :=
  ∃ x, l.find? (fun y => y.parkedAt == 0) = some x ∧ p.pc = x.pc ∧
    (∀ i, tbit p.run i = true ↔ ∃ y ∈ l, waitsAt x.pc y = true ∧ tbit y.lanes i = true) ∧
    (∀ i, tbit p.exec i = true ↔ ∃ y ∈ l, waitsAt x.pc y = true ∧ tbit y.active i = true) ∧
    p.paths = l.filter (fun y => !waitsAt x.pc y)

/-- The running path goes on at a PC; where that is a switch point and a path waits, it goes to the end of the list
and the first path runs. -/
def GoesOn (pc : Word) (run exec : Lanes) (paths : List Path) (switch : Prop) (p : Part) : Prop :=
  (paths = [] ∨ ¬ switch → p.pc = pc ∧ p.run = run ∧ p.exec = exec ∧ p.paths = paths) ∧
  (paths ≠ [] → switch → Resumes (paths ++ [⟨pc, run, exec, 0⟩]) p)

/-- A branch of the lanes `take` of the active lanes: none, and the path goes on; all, and the whole path goes; some,
and the others wait at PC + 1. A target not greater than the PC is a switch point. -/
def Branches (q : Part) (target : Word) (take : Lanes) (p : Part) : Prop :=
  if take = 0 then GoesOn (q.pc + 1) q.run q.exec q.paths False p
  else if take = q.exec then GoesOn target q.run q.exec q.paths (target.toNat ≤ q.pc.toNat) p
  else GoesOn target take take (q.paths ++ [⟨q.pc + 1, q.run &&& ~~~take, q.exec &&& ~~~take, 0⟩])
    (target.toNat ≤ q.pc.toNat) p

/-- The wave of the part after an instruction that changed nothing beyond its core's wave. -/
def WaveAfter (s t : State) (c : Cx) (w' : Wave) : Prop :=
  OnlyCore s t c.core ∧ OnlyWave c.k (getCore t c.core) c.slot ∧ getWave (getCore t c.core) c.slot = some w'

/-! Results as functions of the operands A, B and C. -/

def ScalarOf (mk : Fields → Instr) (op : Nat) (h : Fields → Word → Word → Word → Word) : Prop :=
  Computes mk op (ScalarPost (fun c f =>
    h f (c.operand op f 0 .int 0) (c.operand op f 1 .int 0) (c.operand op f 2 .int 0)))

def VectorOf (mk : Fields → Instr) (op : Nat) (k : OpKind) (tag : Fields → Tag) (h : Fields → Word → Word → Word → Word) :
    Prop :=
  Computes mk op (VectorPost
    (fun c f l => h f (c.operand op f 0 k l) (c.operand op f 1 k l) (c.operand op f 2 k l)) (fun _ f _ => tag f))

/-- A comparison of operands A and B, lane by lane. -/
def CompareOf (mk : Fields → Instr) (op : Nat) (k : OpKind) (h : Fields → Word → Word → Prop) : Prop :=
  Computes mk op (PredPost (fun c f l => h f (c.operand op f 0 k l) (c.operand op f 1 k l)))

/-! Floating point: exact values (08 R134, R135). -/

/-- The number that a finite value stands for. -/
def FVal.value : FVal → ℚ
  | .num neg m e => (if neg then -1 else 1) * m * 2 ^ e
  | _ => 0

def FVal.finite : FVal → Prop
  | .num _ _ _ => True
  | _ => False

/-- A latch, and its value in a lane, in an instruction's window. -/
def Cx.latched (c : Cx) (n l : Nat) (v : Word) : Prop :=
  ∃ w x, c.p.window = some w ∧ w.latches.find? (fun x => x.idx = n) = some x ∧ x.vals.find? (fun y => y.1 = l) = some (l, v)

/-- A word is an inline constant's integer in the form that an operand reads: in a packed form, in both elements (04 R74). -/
def constantIn (k : OpKind) (i : Int) (v : Word) : Prop :=
  match k with
  | .int => v.toInt = i
  | .f32 => (f32 v).finite ∧ (f32 v).value = i
  | .f16 => ∀ e < 2, (fp16.decode (elem16 v e)).finite ∧ (fp16.decode (elem16 v e)).value = i
  | .b16 => ∀ e < 2, (bf16.decode (elem16 v e)).finite ∧ (bf16.decode (elem16 v e)).value = i

/-- A source gives a value: a v register its lane's, an s register and an inline constant the same in every lane, a latch
what its window holds for the lane (04 R71, R72, R74, R76). -/
def Cx.gives (c : Cx) (op : Nat) (f : Fields) (k : OpKind) (latch : Bool) (n l : Nat) (v : Word) : Prop :=
  (latch = false → n < 256 → v = c.readV n l) ∧
  (latch = false → 256 ≤ n → n < 384 → v = c.readS (n - 256)) ∧
  (latch = false → 1536 ≤ n → n ≤ 2047 → constantIn k ((n : Int) - 1792) v) ∧
  (latch = true → ∀ x, (c.issued op f).latched n l x → v = x)

/-- The order of values, the infinities at the ends; NaN is not ordered. -/
def FVal.lt : FVal → FVal → Prop
  | .nan, _ => False
  | _, .nan => False
  | .inf s, .inf t => s = true ∧ t = false
  | .inf s, .num _ _ _ => s = true
  | .num _ _ _, .inf t => t = false
  | .num s m e, .num t n d => (FVal.num s m e).value < (FVal.num t n d).value

def FVal.ordered (a b : FVal) : Prop := a ≠ .nan ∧ b ≠ .nan

/-- The eight float conditions (10 R200). -/
def FVal.holds (cc : Nat) (a b : FVal) : Prop :=
  match cc with
  | 0 => FVal.ordered a b ∧ ¬ a.lt b ∧ ¬ b.lt a
  | 1 => ¬ FVal.ordered a b ∨ a.lt b ∨ b.lt a
  | 2 => FVal.ordered a b ∧ a.lt b
  | 3 => FVal.ordered a b ∧ ¬ b.lt a
  | 4 => FVal.ordered a b ∧ b.lt a
  | 5 => FVal.ordered a b ∧ ¬ a.lt b
  | 6 => ¬ FVal.ordered a b
  | _ => FVal.ordered a b

/-- The weight of the last place at a number's magnitude, in a format of m fraction bits and least exponent lo. -/
def ulpOf (m : Nat) (lo : Int) (q : ℚ) : ℚ := 2 ^ max (Int.log 2 |q| - m) lo

/-- `r` is the finite number that a mode of 08 R138 makes of `q`, within its last place: RN at most half a place
away, RZ towards zero, RP upwards, RM downwards. -/
def roundsTo (m : Nat) (lo : Int) (mode : Nat) (q r : ℚ) : Prop :=
  (∃ k : Int, r = k * ulpOf m lo q) ∧
  match mode with
  | 0 => |r - q| ≤ ulpOf m lo q / 2
  | 1 => |r| ≤ |q| ∧ |q| - |r| < ulpOf m lo q
  | 2 => q ≤ r ∧ r - q < ulpOf m lo q
  | _ => r ≤ q ∧ q - r < ulpOf m lo q

/-- A packed instruction: each 16-bit element computed exactly and rounded once into its format (10 R202), the source
bits of A feeding stochastic rounding (08 R142). -/
def PackedOf (mk : Fields → Instr) (op : Nat) (fmt : Fmt) (k : OpKind) (tag : Tag) (mode : Fields → Nat)
    (h : Fields → FVal → FVal → FVal → FVal) : Prop :=
  Computes mk op (VectorPost (fun c f l =>
    let el (e : Nat) : Nat :=
      let a := elem16 (c.operand op f 0 k l) e
      fmt.round (mode f) (c.rs (BitVec.ofNat 32 a) l e) false
        (h f (fmt.decode a) (fmt.decode (elem16 (c.operand op f 1 k l) e)) (fmt.decode (elem16 (c.operand op f 2 k l) e)))
    pack16 (el 0) (el 1)) (fun _ _ _ => tag))

/-- A packed minimum or maximum (10 R199, R202). -/
def PackedPick (mk : Fields → Instr) (op : Nat) (fmt : Fmt) (k : OpKind) (tag : Tag) (max : Bool) : Prop :=
  VectorOf mk op k (fun _ => tag) (fun _ a b _ =>
    pack16 (fmt.select max (elem16 a 0) (elem16 b 0)) (fmt.select max (elem16 a 1) (elem16 b 1)))

/-- A packed comparison: MOD[5:4] chooses element 0, element 1, both or either (10 R202). -/
def PackedTest (mk : Fields → Instr) (op : Nat) (fmt : Fmt) (k : OpKind) : Prop :=
  CompareOf mk op k (fun f a b =>
    let el (e : Nat) : Prop := FVal.holds (f.x.toNat % 16) (fmt.decode (elem16 a e)) (fmt.decode (elem16 b e))
    match f.x.toNat / 2 ^ 4 % 4 with
    | 0 => el 0
    | 1 => el 1
    | 2 => el 0 ∧ el 1
    | _ => el 0 ∨ el 1)

/-! The squarer array (14 R285, R288, R289; 15 R299, R307). -/

/-- The exact value of element i of a line of K elements in the scratchpad, and whether its code has its sign set. -/
def lineElem (fmt k : Nat) (bs : List Byte) (i : Nat) : FVal × Bool :=
  let code (w off j : Nat) : Nat := ofBytes (bs.drop off) / 2 ^ (w * j) % 2 ^ w
  let flt (x : Fmt) : FVal × Bool := (x.decode (code x.w 0 i), (code x.w 0 i).testBit (x.w - 1))
  let px (t w n : Nat) : FVal × Bool :=
    let c := code w (n * (i / 16) + 2) (i % 16)
    (pxValue t (ofBytes ((bs.drop (n * (i / 16))).take 2)) (i % 16) c, c.testBit (w - 1))
  match fmt with
  | 0 => flt bf16
  | 1 => flt fp16
  | 2 => flt e4m3
  | 3 => flt e5m2
  | 4 =>
    let v : Int := if code 8 0 i < 128 then code 8 0 i else (code 8 0 i : Int) - 256
    (.num (decide (v < 0)) v.natAbs 0, decide (v < 0))
  | 5 => px 0x10 8 18
  | 6 => px 0x0F 5 12
  | 7 => (mxValue 0x06 (bs.getD (k / 2 + i / 32) 0).toNat (code 4 0 i), (code 4 0 i).testBit 3)
  | _ => px 0x0E 3 8

/-- The block exponents of a line that are no NaN. -/
def lineScales (fmt k : Nat) (bs : List Byte) : List Nat :=
  (match fmt with
    | 5 => (List.range (k / 16)).map (fun b => (bs.getD (18 * b) 0).toNat)
    | 6 => (List.range (k / 16)).map (fun b => (bs.getD (12 * b) 0).toNat)
    | 7 => (List.range (k / 32)).map (fun b => (bs.getD (k / 2 + b) 0).toNat)
    | _ => (List.range (k / 16)).map (fun b => (bs.getD (8 * b) 0).toNat)).filter (fun e => e ≠ 255)

/-- A line has the scale exponent that R285 gives it. -/
def scaleOf (fmt k : Nat) (bs : List Byte) (f : Int) : Prop :=
  let live : List ℚ := ((List.range k).filter (fun i => !notFinite (lineElem fmt k bs i).1 && !isZeroVal (lineElem fmt k bs i).1)).map
    (fun i => |(lineElem fmt k bs i).1.value|)
  let tops (d : Int) : Prop := (∃ x ∈ live, Int.log 2 x = f + d) ∧ ∀ x ∈ live, Int.log 2 x ≤ f + d
  if live = [] ∨ fmt = 4 then f = 0
  else if fmt ≤ 1 then tops 12
  else if fmt ≤ 3 then tops 7
  else (∃ e ∈ lineScales fmt k bs, f = (e : Int) - 128) ∧ ∀ e ∈ lineScales fmt k bs, (e : Int) - 128 ≤ f

/-- A line's integers are its elements aligned to its scale exponent, each rounded to nearest, a tie to even; its flags are those of
its elements (R285, R288). -/
def alignsTo (l : Line) (k : Nat) (x : Nat → FVal × Bool) : Prop :=
  let y (i : Nat) : ℚ := (x i).1.value * 2 ^ (-l.f)
  let n (i : Nat) : Int := l.ints.getD i 0
  l.ints.length = k ∧ (l.loss = true ↔ ∃ i < k, notFinite (x i).1 = false ∧ (n i : ℚ) ≠ y i) ∧
  ∀ i < k, (notFinite (x i).1 = true → n i = 0) ∧
    (notFinite (x i).1 = false → |(n i : ℚ) - y i| ≤ 1 / 2 ∧ (|(n i : ℚ) - y i| = 1 / 2 → n i % 2 = 0)) ∧
    (i ∈ l.nan ↔ (x i).1 = .nan) ∧ (i ∈ l.zero ↔ isZeroVal (x i).1 = true) ∧ (i ∈ l.neg ↔ (x i).2 = true) ∧
    ∀ s, (i, s) ∈ l.inf ↔ (x i).1 = .inf s

/-- Some product of a row and a column is infinite, with a sign (R289). -/
def infProduct (a b : Line) (s : Bool) : Prop :=
  (∃ x ∈ a.inf, x.1 ∉ b.zero ∧ s = (x.2 != b.neg.contains x.1)) ∨ ∃ x ∈ b.inf, x.1 ∉ a.zero ∧ s = (x.2 != a.neg.contains x.1)

/-- A row and a column have no product that is a NaN: none of a NaN, and none of an infinity and a zero. -/
def noNanProduct (a b : Line) : Prop :=
  a.nan = [] ∧ b.nan = [] ∧ (∀ x ∈ a.inf, x.1 ∉ b.zero) ∧ ∀ x ∈ b.inf, x.1 ∉ a.zero

/-- The sectors of a drain to device memory that a page holds and, under ADD, whose check value is good: row, sector of the row,
and place. -/
def drainPlaces (s : State) (asn dfmt : Nat) (add : Bool) (dest stride rows : Nat) : List (Nat × Nat × Nat) :=
  (List.range rows).flatMap (fun i => (List.range (2 * drainSize dfmt)).filterMap (fun q =>
    match route s asn (if add then .atomic else .store) (Reference.dnat (dest + i * stride + 32 * q)) with
    | .phys key _ => if add && memBadAt s key 32 then none else some (i, q, key)
    | _ => none))

/-! Memory. -/

/-- Like `ComputesWhen`, where besides its wave an instruction may change what `fs` takes over of the state and `fk` of
the core; the part keeps its lanes. -/
def Reaches1 (mk : Fields → Instr) (op : Nat) (cond : Cx → Fields → Prop) (fs : State → State → State)
    (fk : Core → Core → Core) (post : Cx → Fields → Cx → Prop) : Prop :=
  ∀ s c f, Issues s c op f → cond c f → ∃ t d, exec (mk f) s = .next t ∧ partAt t s.cur = some d ∧
    OnlyCore (fs s t) t c.core ∧ OnlyWave (fk c.k d.k) d.k c.slot ∧ OtherParts c d f ∧ d.p.lanes = c.p.lanes ∧ post c f d

def sameState (s _ : State) : State := s
def sameCore (k _ : Core) : Core := k
/-- Of the state, the record of L2 lines and of the combining windows, in which a prefetch is noted; no byte of memory. -/
def slicesOf (s t : State) : State := { s with l2 := t.l2, combines := t.combines, nextCombine := t.nextCombine }
/-- Of the core, the scratchpad with the check values of its sectors. -/
def scratchOf (k k' : Core) : Core := { k with sram := k'.sram, sramErr := k'.sramErr }

/-- Every address passes the form checks of 11 R220, and no range lock covers it (13 R278). -/
def Cx.clear (c : Cx) (l : Addrs) (size align : Nat) : Prop :=
  ∀ x ∈ l, x.2.toNat + size ≤ 2 ^ 57 ∧ (align ≠ 0 → x.2.toNat % align = 0) ∧ lockedGlobal c.k c.g.asn x.2 size = false

/-- No address lies in a peer's window (11 R218). -/
def NoPeer (l : Addrs) : Prop := ∀ x ∈ l, isPeerVa x.2 = false

/-- A load: its lanes are on their way to their owners (11 R221), its registers pending; no register changes yet (12 R246,
R247). `split`, `const` and `l1` say whether it may cause a miss split, reads through the constant cache, and uses the L1. -/
def LoadOf (mk : Fields → Instr) (op : Nat) (size align : Fields → Nat) (addrs : Cx → Fields → Addrs)
    (dst : Fields → LoadDst) (regs : Fields → List Nat) (acq : Fields → Option Nat) (fm : Fields → Nat)
    (split const l1 : Bool) : Prop :=
  Reaches1 mk op (fun c f => c.held = false ∧ c.clear (addrs c f) (size f) (align f) ∧ NoPeer (addrs c f) ∧
      addrs c f ≠ []) sameState
    (fun k k' => { k with nextLoad := k'.nextLoad }) (fun c f d =>
      d.k.nextLoad = c.k.nextLoad + 1 ∧
      d.w = { c.w with
        parts := d.w.parts, seq := c.w.seq + 1
        loads := c.w.loads ++ [{
          id := c.k.nextLoad, seq := c.w.seq, dst := dst f, part := c.p.lanes, regs := regs f, acq := acq f
          lanes := (addrs c f).map (fun x => { lane := x.1, va := x.2 }), mask := maskOf ((addrs c f).map (·.1))
          fm := fm f, size := size f, maySplit := split, const := const, l1 := l1
          cycle := c.cyc, pc := c.p.pc, restart := (c.inWindow op f).p.window.map (·.start) }] } ∧
      PartRegs c.p d.p ∧ d.p.pc = c.p.pc + 1 ∧
      d.p.holds = (if (acq f).isSome then c.k.nextLoad :: c.p.holds else c.p.holds))

/-- What an entry of the store queue records of the instruction that made it (12 R253). -/
def EntryOf (c : Cx) (f : Fields) (own : Option Nat) (addrs : Addrs) (e : QEntry) : Prop :=
  e.seq = c.w.seq ∧ e.part = c.p.lanes ∧ e.lane = lowestLane c.p.lanes ∧ e.mask = maskOf (addrs.map (·.1)) ∧
  e.rel = scopeFor addrs (c.release own) ∧ e.fm = f.x.toNat / 2 ^ 29 ∧ e.pc = c.p.pc

/-- A store: its bytes take their place at the end of the wave's store queue (12 R250, R253); no byte of memory changes
yet. -/
def StoreOf (mk : Fields → Instr) (op : Nat) (size align : Fields → Nat) (addrs : Cx → Fields → Addrs)
    (data : Cx → Fields → Nat → List Byte) : Prop :=
  ComputesWhen mk op (fun c f => c.held = false ∧ c.clear (addrs c f) (size f) (align f)) (fun c f d =>
    PartRegs c.p d.p ∧ (addrs c f = [] → OnlyParts c.w d.w) ∧
    (addrs c f ≠ [] → ∃ e, d.w = { c.w with parts := d.w.parts, queue := c.w.queue ++ [e], seq := c.w.seq + 1 } ∧
      EntryOf c f (storeRel f) (addrs c f) e ∧
      e.kind = .store ((addrs c f).map (fun x => ⟨x.1, x.2, data c f x.1⟩))))

/-- The offsets of a scratchpad access lie in the workgroup's part, aligned, with no lock on them (11 R228). -/
def Cx.within (c : Cx) (l : List (Nat × Int)) (size align : Nat) : Prop :=
  ∀ x ∈ l, 0 ≤ x.2 ∧ x.2 + size ≤ c.g.scratch ∧ (align ≠ 0 → x.2 % align = 0) ∧
    lockedSram c.k (c.g.base + x.2.toNat) size = false

/-- No sector that the offsets touch fails its check value. -/
def Cx.sound (c : Cx) (l : List (Nat × Int)) (size : Nat) : Prop := ∀ x ∈ l, c.spBad x.2 size = false

/-- A byte of the scratchpad lies in none of the ranges. -/
def Cx.untouched (c : Cx) (l : List (Nat × Int)) (size a : Nat) : Prop :=
  ∀ x ∈ l, ¬ (c.g.base + x.2.toNat ≤ a ∧ a < c.g.base + x.2.toNat + size)

/-- An access to the scratchpad that is a release, by its own order or after a `fence.rel`, may be performed: what is older
of the part and the wave has been, at that scope (12 R254, R255). -/
def Cx.mayRelease (c : Cx) (own : Option Nat) : Prop := ∀ scope, c.release own = some scope → c.performed scope = true

def Cx.mayStore (c : Cx) (f : Fields) : Prop := c.held = false ∧ c.mayRelease (storeRel f)

/-- A scratchpad store: each lane's bytes, later lanes over earlier ones; every other byte stays (12 R250). -/
def ScratchStoreOf (mk : Fields → Instr) (op : Nat) (size align : Fields → Nat) (offs : Cx → Fields → List (Nat × Int))
    (data : Cx → Fields → Nat → List Byte) : Prop :=
  Reaches1 mk op (fun c f => c.mayStore f ∧ c.within (offs c f) (size f) (align f)) sameState scratchOf (fun c f d =>
    NextInPart c.p d.p ∧ PartRegs c.p d.p ∧ OnlyParts c.w d.w ∧
    (∀ a, c.untouched (offs c f) (size f) a → kget 0 d.k.sram a = kget 0 c.k.sram a) ∧
    (∀ l₁ l₂ x, offs c f = l₁ ++ x :: l₂ → (∀ i < size f, c.untouched l₂ (size f) (c.g.base + x.2.toNat + i)) →
      ∀ i < size f, kget 0 d.k.sram (c.g.base + x.2.toNat + i) = (data c f x.1).getD i 0))

/-- A vector load from the scratchpad: the value of its bytes in each lane that takes part (12 R247). -/
def ScratchLoadOf (mk : Fields → Instr) (op : Nat) (size : Fields → Nat) (tag : Fields → Tag)
    (offs : Cx → Fields → List (Nat × Int)) (value : Fields → List Byte → Word) : Prop :=
  ComputesWhen mk op (fun c f => c.held = false ∧ c.within (offs c f) (size f) (size f) ∧ c.sound (offs c f) (size f) ∧
      (f.lw = true → bankConflict (c.issued op f) (offs c f) = false)) (fun c f d =>
    (∀ x ∈ offs c f, ∀ n, n ∈ destV f →
      d.readV n x.1 = value f (readBytes c.k.sram (c.g.base + x.2.toNat) (size f)) ∧ d.readTag n (x.1 / 4) = tag f) ∧
    (∀ n l, l < 64 → (n ∉ destV f ∨ ∀ x ∈ offs c f, x.1 ≠ l) → d.readV n l = c.readV n l) ∧
    PartRegs c.p d.p ∧ d.w = { c.w with parts := d.w.parts, v := d.w.v, tags := d.w.tags })

/-- Lanes ascending, each at its word: the old word is the lane's result, the new one replaces it (12 R256). -/
def atomicRun (op : Nat) (u : Bool) (operand : Nat → Word × Word) (base : Nat) :
    KMap Byte → List (Nat × Int) → KMap Byte × List (Nat × Word)
  | m, [] => (m, [])
  | m, x :: xs =>
    let old : Word := BitVec.ofNat 32 (ofBytes (readBytes m (base + x.2.toNat) 4))
    let new := atomicNew op u old (operand x.1).1 (operand x.1).2
    let r := atomicRun op u operand base (writeBytes m (base + x.2.toNat) (toBytes 4 new.toNat)) xs
    (r.1, (x.1, old) :: r.2)

/-- An atomic's order fields let it take effect now: no acquire holds the part, and what a release waits for is done. -/
def Cx.mayAtomic (c : Cx) (f : Fields) : Prop := c.held = false ∧ c.mayRelease (ordRel f)

/-- A vector atomic in the scratchpad (12 R256); it is a switch point (07 R131). -/
def VatomSpOf (mk : Fields → Instr) (opcode op : Nat) : Prop :=
  Reaches1 mk opcode (fun c f => c.mayAtomic f ∧ c.within ((c.issued opcode f).spLanes f) 4 4 ∧
      c.sound ((c.issued opcode f).spLanes f) 4) sameState scratchOf
    (fun c f d =>
      let l := (c.issued opcode f).spLanes f
      let r := atomicRun op (tbit f.x 20) ((c.issued opcode f).atomicOperand f op) c.g.base c.k.sram l
      d.k.sram = r.1 ∧ (∀ y ∈ r.2, ∀ n ∈ destV f, d.readV n y.1 = y.2 ∧ d.readTag n (y.1 / 4) = tagAny) ∧
      (∀ n i, i < 64 → (n ∉ destV f ∨ ∀ y ∈ r.2, y.1 ≠ i) → d.readV n i = c.readV n i) ∧
      d.w = { c.w with parts := d.w.parts, v := d.w.v, tags := d.w.tags } ∧ SameRegs c.p d.p ∧
      GoesOn (c.p.pc + 1) c.p.run c.p.exec c.p.paths True d.p)

/-- A scalar atomic in the scratchpad (12 R257). -/
def SatomSpOf (mk : Fields → Instr) (opcode op : Nat) : Prop :=
  Reaches1 mk opcode (fun c f => c.mayAtomic f ∧ c.within (c.spScalar f) 4 4 ∧ c.sound (c.spScalar f) 4) sameState
    scratchOf (fun c f d =>
      let r := atomicRun op (tbit f.x 20) ((c.issued opcode f).atomicOperand f op) c.g.base c.k.sram (c.spScalar f)
      d.k.sram = r.1 ∧
      (∀ n, d.readS n = match r.2 with
        | y :: _ => if n = f.d.toNat - 256 then y.2 else c.readS n
        | [] => c.readS n) ∧
      OnlyParts c.w d.w ∧ d.p.m = c.p.m ∧ d.p.h = c.p.h ∧ d.p.pstat = c.p.pstat ∧
      GoesOn (c.p.pc + 1) c.p.run c.p.exec c.p.paths True d.p)

/-- An atomic in memory: an entry of the store queue with the operands, and a load in flight that its bank answers
(12 R256, R257); it is a switch point. -/
def AtomicOf (mk : Fields → Instr) (opcode op : Nat) (addrs : Cx → Fields → Addrs) (dst : Fields → LoadDst)
    (regs : Fields → List Nat) : Prop :=
  Reaches1 mk opcode (fun c f => c.held = false ∧ c.clear (addrs c f) 4 4 ∧ addrs c f ≠ []) sameState
    (fun k k' => { k with nextLoad := k'.nextLoad }) (fun c f d => ∃ e ld,
      d.w = { c.w with parts := d.w.parts, queue := c.w.queue ++ [e], loads := c.w.loads ++ [ld], seq := c.w.seq + 1 } ∧
      EntryOf c f (ordRel f) (addrs c f) e ∧
      e.kind = .atomic op (tbit f.x 20) ((addrs c f).map (fun x =>
        ⟨x.1, x.2, ((c.issued opcode f).atomicOperand f op x.1).1, ((c.issued opcode f).atomicOperand f op x.1).2⟩)) ld.id ∧
      ld.id = c.k.nextLoad ∧ d.k.nextLoad = c.k.nextLoad + 1 ∧ ld.dst = dst f ∧ ld.regs = regs f ∧ ld.part = c.p.lanes ∧
      ld.lanes.map (fun y => (y.lane, y.va)) = addrs c f ∧ ld.acq = scopeFor (addrs c f) (ordAcq f) ∧
      d.p.holds = (if (ordAcq f).isSome then ld.id :: c.p.holds else c.p.holds) ∧
      SameRegs c.p d.p ∧ GoesOn (c.p.pc + 1) c.p.run c.p.exec c.p.paths True d.p)

/-! Segments of lanes (10 R211-R216). -/

/-- Lanes in a segment: 4 x 2^SEG with SEG in MOD[2:0]. -/
def segLen (f : Fields) : Nat := 4 * 2 ^ (f.x.toNat % 8)

/-- Lane j lies in lane l's segment of n lanes and takes part. -/
def Cx.peer (c : Cx) (f : Fields) (n l j : Nat) : Prop := j / n = l / n ∧ c.takes f j

/-- What the lanes of l's segment hold of operand A, in lane order, `ident` where a lane does not take part. -/
def Cx.segment (c : Cx) (op : Nat) (k : OpKind) (f : Fields) (n : Nat) (ident : Word) (l : Nat) : List Word :=
  (List.range n).map (fun i =>
    if tbit (c.activeLanes f) (l / n * n + i) then c.operand op f 0 k (l / n * n + i) else ident)

/-- An exchange: lane l receives operand A of the lane that `from_` names; the tag is the source's where the quads read
have one tag, else ANY (10 R211). -/
def ExchangeOf (mk : Fields → Instr) (op : Nat) (n : Cx → Fields → Nat) (from_ : Nat → Nat → Nat → Nat) : Prop :=
  Computes mk op (VectorPost
    (fun c f l => c.operand op f 0 .int
      (l / n c f * n c f + from_ (n c f) (l % n c f) (c.operand op f 1 .int l).toNat))
    (fun c f q => exchangeTag (c.issued op f) op f (c.activeLanes f)
      (fun l => [l / n c f * n c f + from_ (n c f) (l % n c f) (c.operand op f 1 .int l).toNat]) q))

/-- A reduction or scan: lane l's result from its index in the segment and the segment's values. -/
def ReduceWhen (mk : Fields → Instr) (op : Nat) (k : OpKind) (cond : Fields → Prop) (ident : Word)
    (h : Fields → Nat → List Word → Word) : Prop :=
  ComputesWhen mk op (fun _ f => cond f) (VectorPost
    (fun c f l => h f (l % segLen f) (c.segment op k f (segLen f) ident l))
    (fun c f q => exchangeTag (c.issued op f) op f (c.activeLanes f)
      (fun l => (List.range (segLen f)).map (l / segLen f * segLen f + ·)) q))

/-! Blocks (10 R207-R210). -/

/-- The block that lane l packs: the scale, and the element codes (08 R144, R146). -/
def Cx.packed (c : Cx) (mx : Bool) (f : Fields) (l : Nat) : Nat × List Nat :=
  let t := f.x.toNat % 2 ^ 5
  let codes := runCodes t (if mx then 32 else 16) (c.runBits f.a.toNat (valueRun mx t) l)
  (if mx then mxQuant else pxQuant) (f.x.toNat / 2 ^ 5 % 2 ^ 5) (f.x.toNat / 2 ^ 10 % 2 ^ 3)
    (fun j => c.rs (BitVec.ofNat 32 (codes.getD j 0)) l j) (codes.map (runFmt t).decode)

/-- `vpack`: the element stream fills the element run; the scale takes its place, SPOS, in the register after it. -/
def PackOf (mk : Fields → Instr) (op : Nat) (mx : Bool) (width : Nat → Nat) (tag : Tag) : Prop :=
  Computes mk op (LanesPost
    (fun _ f => List.range' f.d.toNat (elemRun (f.x.toNat / 2 ^ 5 % 2 ^ 5) + 1)) Cx.takes
    (fun c f n l =>
      let to_ := f.x.toNat / 2 ^ 5 % 2 ^ 5
      let spos := f.x.toNat / 2 ^ 13 % 4
      if n = f.d.toNat + elemRun to_ then
        if mx then putBits (c.readV n l) (8 * spos) 8 (c.packed mx f l).1
        else putBits (c.readV n l) (16 * spos) 16 (c.packed mx f l).1
      else BitVec.ofNat 32 (joinBits (width to_) (c.packed mx f l).2 / 2 ^ (32 * (n - f.d.toNat))))
    (fun _ f n _ =>
      let to_ := f.x.toNat / 2 ^ 5 % 2 ^ 5
      if n = f.d.toNat + elemRun to_ then tag else BitVec.ofNat 5 to_))

/-- `vunpack`: each element's value, rounded into the format TO, in the value run. -/
def UnpackOf (mk : Fields → Instr) (op : Nat) (mx : Bool) (width : Nat → Nat) (value : Nat → Nat → Nat → Nat → FVal) :
    Prop :=
  Computes mk op (LanesPost
    (fun _ f => List.range' f.d.toNat (valueRun mx (f.x.toNat / 2 ^ 5 % 2 ^ 5))) Cx.takes
    (fun c f n l =>
      let from_ := f.x.toNat % 2 ^ 5
      let to_ := f.x.toNat / 2 ^ 5 % 2 ^ 5
      let spos := f.x.toNat / 2 ^ 13 % 4
      let sreg := (c.readV (f.a.toNat + elemRun from_) l).toNat
      let scale := if mx then sreg / 2 ^ (8 * spos) % 2 ^ 8 else sreg / 2 ^ (16 * spos) % 2 ^ 16
      let codes := splitBits (width from_) (if mx then 32 else 16) (c.runBits f.a.toNat (elemRun from_) l)
      BitVec.ofNat 32 (joinBits (runFmt to_).w (codes.mapIdx (fun j x =>
        (runFmt to_).round (f.x.toNat / 2 ^ 10 % 2 ^ 3) (c.rs (BitVec.ofNat 32 x) l j) false (value from_ scale j x))) /
          2 ^ (32 * (n - f.d.toNat))))
    (fun _ f _ _ => BitVec.ofNat 5 (f.x.toNat / 2 ^ 5 % 2 ^ 5)))

/-! Engine jobs, handles, bobbins and barriers (13; 20 R367-R372). -/

/-- A single-effect instruction does nothing but go on where its guard is true in no active lane (04 R70). -/
def Idle (mk : Fields → Instr) (op : Nat) : Prop :=
  ComputesWhen mk op (fun c f => c.activeLanes f = 0) (fun c _ d => PartRegs c.p d.p ∧ OnlyParts c.w d.w)

/-- The instruction waits: nothing of it takes effect, and the part tries again. -/
def Blocks (s : State) (c : Cx) (op : Nat) (f : Fields) (i : Instr) : Prop :=
  exec i s = .next (stallAt (c.inWindow op f) f .sync)

/-- The instruction traps, precisely, with a cause that names no address. -/
def Traps (s : State) (c : Cx) (op : Nat) (f : Fields) (i : Instr) (cause : Byte) : Prop :=
  exec i s = .next (takeTrap (c.inWindow op f) { cause := cause })

/-- The handle registers of a part: one has changed. -/
def SetsHandle (c d : Cx) (n : Nat) (v : Word) : Prop :=
  (∀ i, d.readH i = if i = n then v else c.readH i) ∧
  d.p.s = c.p.s ∧ d.p.m = c.p.m ∧ d.p.exec = c.p.exec ∧ d.p.pstat = c.p.pstat

/-- Entry i of the future table becomes `x`, the others stay. -/
def SetsFuture (k k' : Core) (i : Nat) (x : Future) : Prop :=
  getFut k' i = x ∧ ∀ j, j ≠ i → getFut k' j = getFut k j

/-- An `eng` with a function (13 R261, R262, R278): where an entry of the table is free and its locks fit, a job with
the eight parameter words is in its slot, its handle in hD, its locks are held, and it stands in the store queue as a
release at its scope, .sys for a job of the ports (13 R267); otherwise it waits. -/
def EngineOf (mk : Fields → Instr) (fn locks : Nat) : Prop :=
  (∀ s c f i, Issues s c 0x0B5 f → c.activeLanes f ≠ 0 → c.held = false → freeFut c.k 0 64 = some i →
    c.k.locks.length + locks ≤ 32 → ∃ t d e, exec (mk f) s = .next t ∧ partAt t s.cur = some d ∧ OnlyCore s t c.core ∧
      OnlyWave { c.k with futs := d.k.futs, jobs := d.k.jobs, locks := d.k.locks } d.k c.slot ∧ OtherParts c d f ∧
      NextInPart c.p d.p ∧
      (let scope := if 0x20 ≤ fn ∧ fn ≤ 0x22 then 5 else f.x.toNat / 128 % 8
       let j : Job := { fn := fn, scope := scope, serial := c.w.serial, slot := c.slot, region := c.g.region, asn := c.g.asn,
                        launch := c.g.launch, wgId := c.g.id, base := c.g.base, scratch := c.g.scratch, pc := c.p.pc,
                        params := (List.range 4).map (fun n => c.readS (f.a.toNat - 256 + n)) ++
                          (List.range 4).map (fun n => c.readS (f.b.toNat - 256 + n)) }
       kget none d.k.jobs i = some j ∧ (∀ n, n ≠ i → kget none d.k.jobs n = kget none c.k.jobs n) ∧
       SetsFuture c.k d.k i
         { gen := (getFut c.k i).gen + 1, phase := 1, owner := c.g.region, serial := c.w.serial, scope := scope } ∧
       d.k.locks = c.k.locks ++ j.locks i ∧ SetsHandle c d (f.d.toNat - 408) (handle 1 i ((getFut c.k i).gen + 1)) ∧
       d.w = { c.w with parts := d.w.parts, queue := c.w.queue ++ [e], seq := c.w.seq + 1 } ∧
       e.kind = .eng i ∧ e.seq = c.w.seq ∧ e.part = c.p.lanes ∧ e.rel = c.release (some scope))) ∧
  (∀ s c f, Issues s c 0x0B5 f → c.activeLanes f ≠ 0 →
    c.held = true ∨ freeFut c.k 0 64 = none ∨ 32 < c.k.locks.length + locks → Blocks s c 0x0B5 f (mk f)) ∧
  Idle mk 0x0B5

/-- An L1 after an acquire at a scope: from .dev on, the lines of writable pages of the address space are gone (12 R254). -/
def Acquires (k k' : Core) (asn scope : Nat) : Prop :=
  ∀ x, x ∈ k'.l1 ↔ x ∈ k.l1 ∧ ¬ (2 ≤ scope ∧ x.asn = asn ∧ x.writable = true)

/-- The scratchpad address of the bobbin that operand A names. -/
def Cx.bobbin (c : Cx) (op : Nat) (f : Fields) : Nat := c.g.base + (c.operand op f 0 .int 0).toNat

/-- A bobbin instruction may act: its sixteen bytes are in the window, aligned and not locked. -/
def Cx.bobbinOk (c : Cx) (op : Nat) (f : Fields) : Prop :=
  c.activeLanes f ≠ 0 ∧ c.held = false ∧ c.within [(lowestLane c.p.lanes, ((c.operand op f 0 .int 0).toNat : Int))] 16 16

/-- Bytes outside sixteen at an address stay. -/
def OtherSram (k k' : Core) (a : Nat) : Prop := ∀ i, i < a ∨ a + 16 ≤ i → kget 0 k'.sram i = kget 0 k.sram i

/-- `barm` (13 R276): TARGET := B, ARRIVED := 0 and word 3 := 0; GEN stays. -/
def ArmOf (mk : Fields → Instr) (op : Nat) : Prop :=
  Reaches1 mk op (fun c f => c.bobbinOk op f ∧ c.mayRelease none) sameState scratchOf (fun c f d =>
    NextInPart c.p d.p ∧ PartRegs c.p d.p ∧ OnlyParts c.w d.w ∧ OtherSram c.k d.k (c.bobbin op f) ∧
    let old := readBytes c.k.sram (c.bobbin op f) 16
    let new := readBytes d.k.sram (c.bobbin op f) 16
    field new 0 3 = (c.operand op f 1 .int 0).toNat ∧ field new 4 7 = 0 ∧ field new 8 11 = field old 8 11 ∧
    field new 12 15 = 0) ∧
  Idle mk op

/-- `bsig` (13 R275, R276): B arrives; each time ARRIVED reaches TARGET it falls by TARGET and GEN rises by 1. -/
def SignalOf (mk : Fields → Instr) (op : Nat) : Prop :=
  Reaches1 mk op (fun c f => c.bobbinOk op f ∧ c.mayRelease (some 1) ∧ anyBad c.k.sramErr (c.bobbin op f) 16 = false)
    sameState scratchOf (fun c f d =>
      NextInPart c.p d.p ∧ PartRegs c.p d.p ∧ OnlyParts c.w d.w ∧ OtherSram c.k d.k (c.bobbin op f) ∧
      let old := readBytes c.k.sram (c.bobbin op f) 16
      let new := readBytes d.k.sram (c.bobbin op f) 16
      let n := (field old 4 7 + (c.operand op f 1 .int 0).toNat) % 2 ^ 32
      field new 0 3 = field old 0 3 ∧ field new 12 15 = field old 12 15 ∧
      (field old 0 3 = 0 → field new 4 7 = n ∧ field new 8 11 = field old 8 11) ∧
      (field old 0 3 ≠ 0 → field new 4 7 = n % field old 0 3 ∧
        field new 8 11 = (field old 8 11 + n / field old 0 3) % 2 ^ 32)) ∧
  (∀ s c f, Issues s c op f → c.bobbinOk op f → ¬ c.mayRelease (some 1) → Blocks s c op f (mk f)) ∧
  Idle mk op

/-- `bwait` (13 R276): it waits while GEN equals B, then goes on as an acquire at .dev. -/
def AwaitOf (mk : Fields → Instr) (op : Nat) : Prop :=
  Reaches1 mk op (fun c f => c.bobbinOk op f ∧ anyBad c.k.sramErr (c.bobbin op f) 16 = false ∧
      field (readBytes c.k.sram (c.bobbin op f) 16) 8 11 ≠ (c.operand op f 1 .int 0).toNat)
    sameState (fun k k' => { k with l1 := k'.l1 }) (fun c _ d =>
      NextInPart c.p d.p ∧ PartRegs c.p d.p ∧ OnlyParts c.w d.w ∧ Acquires c.k d.k c.g.asn 4) ∧
  (∀ s c f, Issues s c op f → c.bobbinOk op f → anyBad c.k.sramErr (c.bobbin op f) 16 = false →
    field (readBytes c.k.sram (c.bobbin op f) 16) 8 11 = (c.operand op f 1 .int 0).toNat → Blocks s c op f (mk f)) ∧
  Idle mk op

/-- The part's workgroup holds its waves as placement leaves them: the part's own wave among its slots, and indices
below sixteen that name one slot each. -/
def Cx.numbered (c : Cx) : Prop :=
  c.slot ∈ c.g.slots ∧
  (∀ i w, i ∈ c.g.slots → getWave c.k i = some w → w.index < 16) ∧
  (∀ i j w v, i ∈ c.g.slots → j ∈ c.g.slots → getWave c.k i = some w → getWave c.k j = some v → w.index = v.index → i = j)

/-- Every other part of the workgroup's waves stands parked at a barrier instruction of this kind, no part or wave is
frozen. -/
def Cx.othersAt (c : Cx) (at_ : Wait) : Prop :=
  c.p.frozen = none ∧ ∀ i w, i ∈ c.g.slots → getWave c.k i = some w → w.frozen = none ∧
    ∀ (j : Nat) p, w.parts[j]? = some p → ¬ (i = c.slot ∧ j = c.idx) → p.wait = at_ ∧ p.frozen = none

/-- A barrier instance of the workgroup in slot `bar` opens (20 R368): GEN rises, and every part that `parked` names goes
on at its next instruction; the other parts, waves and workgroups stay. -/
def Opened (k k' : Core) (bar : Nat) (g : Workgroup) (parked : Part → Prop) : Prop :=
  (∃ g', getWg k' bar = some g' ∧
    g' = { g with gen := g.gen + 1, arrived := 0, live := g'.live, barKind := 0, gbarSent := false, gbarIn := false
                  gbarDue := false, fences := waveMarks k g }) ∧
  (∀ b, b ≠ bar → getWg k' b = getWg k b) ∧ (∀ i, i ∉ g.slots → getWave k' i = getWave k i) ∧
  (∀ i w, i ∈ g.slots → getWave k i = some w → ∃ w', getWave k' i = some w' ∧ w' = { w with parts := w'.parts } ∧
    w'.parts.length = w.parts.length ∧ ∀ (j : Nat) p, w.parts[j]? = some p → ∃ p', w'.parts[j]? = some p' ∧
      (parked p → p'.pc = p.pc + 1 ∧ p'.wait = .ready ∧ p'.lanes = p.lanes ∧ p'.run = p.run ∧ p'.exec = p.exec ∧
        p'.paths = p.paths ∧ SameRegs p p') ∧
      (¬ parked p → p' = p))

/-! Queues (20 R373-R382). -/

/-- The binding of the queue register that A names, in a region that may use it. -/
def Cx.bound (c : Cx) (f : Fields) (b : QBind) : Prop :=
  c.g.kernel.binds.find? (fun x => x.q = f.a.toNat - 424) = some b ∧
  (b.launch = true ∨ (regionGrant c.s c.g.region).l2Ways ≠ 0)

/-- The place that a `spawn` needs: none for a device launch, room in its bin, or for its bin, for node records. -/
def Cx.room (c : Cx) (b : QBind) (n : Nat) : Prop := b.launch = true ∨ binRoom c.s c.g b n = true

/-- A `spawn` (20 R380): its records, four bytes a word from the scratchpad, stand in the store queue as a release at
.dev; hD is the handle of a future of the upper half of the table; a bin, made now where there is none, keeps their places; where
there is no room the part waits. -/
def SpawnOf (mk : Fields → Instr) : Prop :=
  (∀ s c f b i, Issues s c 0x0B6 f → c.activeLanes f ≠ 0 → c.bound f b → c.w.closed.contains b.q = false → c.held = false →
    (let recs := (c.issued 0x0B6 f).spawnRecords 0x0B6 f b
     c.within recs b.recBytes (if b.launch then 64 else 4) ∧ c.sound recs b.recBytes ∧ c.room b recs.length) →
    freeFut c.k 64 128 = some i →
    ∃ t u d e, exec (mk f) s = .next t ∧ partAt u s.cur = some d ∧ OnlyCore s u c.core ∧
      OnlyWave { c.k with futs := d.k.futs } d.k c.slot ∧ OtherParts c d f ∧ NextInPart c.p d.p ∧
      (let recs := (c.issued 0x0B6 f).spawnRecords 0x0B6 f b
       SetsFuture c.k d.k i { gen := (getFut c.k i).gen + 1, phase := 1, owner := c.g.region, serial := c.w.serial,
                              queue := some b.q, launches := if b.launch then List.replicate recs.length (0, none) else [] } ∧
       SetsHandle c d (f.d.toNat - 408) (handle 1 i ((getFut c.k i).gen + 1)) ∧
       d.w = { c.w with parts := d.w.parts, queue := c.w.queue ++ [e], seq := c.w.seq + 1 } ∧
       e.kind = .spawn b.q (recs.flatMap (fun r => (List.range (b.recBytes / 4)).map (fun n =>
         (r.1, Reference.nat (ofBytes (readBytes c.k.sram (c.g.base + (r.2 + ((4 * n : Nat) : Int)).toNat) 4)))))) i ∧
       e.rel = c.release (some 4) ∧ e.seq = c.w.seq ∧ e.part = c.p.lanes ∧
       t = if b.launch then u else
         let v := createBin u c.g b
         let keep (x : Bin) : Bin := { x with reserved := x.reserved + recs.length }
         { v with bins := updateWhere (fun x => x.root = rootOf c.g && x.key = b.key) keep v.bins })) ∧
  (∀ s c f b i, Issues s c 0x0B6 f → c.activeLanes f ≠ 0 → c.bound f b → c.w.closed.contains b.q = false → c.held = false →
    (let recs := (c.issued 0x0B6 f).spawnRecords 0x0B6 f b
     c.within recs b.recBytes 4 ∧ c.sound recs b.recBytes ∧ ¬ c.room b recs.length) → freeFut c.k 64 128 = some i →
    exec (mk f) s = .next (updWave (stallAt (c.inWindow 0x0B6 f) f .sync) c.core c.slot (fun w => updPart w c.lane (fun p =>
      { p with stallFor := max 1 p.stallFor })))) ∧
  (∀ s c f b, Issues s c 0x0B6 f → c.activeLanes f ≠ 0 → c.bound f b → c.w.closed.contains b.q = true →
    Traps s c 0x0B6 f (mk f) 0x13) ∧
  (∀ s c f b, Issues s c 0x0B6 f → c.activeLanes f ≠ 0 → c.bound f b → c.w.closed.contains b.q = false → c.held = true →
    Blocks s c 0x0B6 f (mk f)) ∧
  Idle mk 0x0B6

/-! The matrix array (14; 15). -/

/-- The core with an entry at the end of its array queue, and what is then due at its position done (14 R293); a pass
ends a ramp window (16 R319). -/
def withEntry (k : Core) (e : ArrayEntry) : Core :=
  let k1 : Core := { k with array := k.array ++ [e], nextArray := k.nextArray + 1 }
  settleArray (if isPass e then endRamp k1 else setBallast k1)

/-- An entry of the part: the first row of a pass is gathered from its issue on (14 R291). -/
def Cx.queued (c : Cx) (op : ArrayOp) (fut : Nat) : ArrayEntry :=
  { c.arrayEntry op fut with
    ready := match op with
      | .pass _ _ d base _ _ _ => c.cyc + rowCycles d base 0
      | _ => 0 }

/-- A matrix instruction of a part that may enter the array queue with future i (15 R297). -/
def Cx.entersArray (c : Cx) (f : Fields) (i : Nat) : Prop :=
  c.activeLanes f ≠ 0 ∧ c.held = false ∧ freeFut c.k 64 128 = some i ∧ arrayFull c.k = false

/-- It enters the array queue with a future of its own, whose handle is hD; `prep` is what else it does to the core. -/
def EntersArray (mk : Fields → Instr) (op : Nat) (cond : Cx → Fields → Prop) (scope : Fields → Nat)
    (entry : Cx → Fields → ArrayOp) (prep : Cx → Fields → Core → Core) : Prop :=
  (∀ s c f i, Issues s c op f → c.entersArray f i → cond c f → ∃ t d, exec (mk f) s = .next t ∧ partAt t s.cur = some d ∧
    OnlyCore s t c.core ∧
    OnlyWave (withEntry (prep c f (allocFut c.k i c.g.region c.w.serial (scope f))) (c.queued (entry c f) i)) d.k c.slot ∧
    OtherParts c d f ∧ NextInPart c.p d.p ∧ OnlyParts c.w d.w ∧
    SetsHandle c d (f.d.toNat - 408) (handle 1 i ((getFut c.k i).gen + 1))) ∧
  (∀ s c f, Issues s c op f → c.activeLanes f ≠ 0 → c.held = false → cond c f →
    freeFut c.k 64 128 = none ∨ arrayFull c.k = true → Blocks s c op f (mk f)) ∧
  Idle mk op

/-- The gather descriptor that an `mma` of the part uses. -/
def Cx.descriptor (c : Cx) : Option GatherDesc := kget none c.w.gather (lowestLane c.p.lanes / 16)

/-- A pass of a format (15 R304): with a descriptor and a bank of that format and length, and no lock on its rows, it
enters the queue and gives its tile the result's tag; without a descriptor, or with another format, it traps. -/
def PassOf (mk : Fields → Instr) (op fmt : Nat) : Prop :=
  EntersArray mk op (fun c f => ∃ g, c.descriptor = some g ∧
      (let bank := getBank c.k (f.x.toNat % 2)
       tbit bank.state 0 = true ∧ bank.state.toNat / 2 ^ 8 % 2 ^ 4 = fmt ∧ g.fmt = fmt ∧ g.k = bank.k) ∧
      ∀ a ∈ g.rows, lockedSram c.k (c.g.base + a) (lineBytes fmt g.k) = false) (fun _ => 0)
    (fun c f => .pass (c.physTile (f.a.toNat - 384)) (f.x.toNat % 2) (c.descriptor.getD ⟨0, 0, []⟩) c.g.base 0 0 false)
    (fun c f k => setTile k (c.physTile (f.a.toNat - 384))
      { getTile k (c.physTile (f.a.toNat - 384)) with tag := if fmt = 4 then tagI32 else tagF32 }) ∧
  (∀ s c f, Issues s c op f → c.activeLanes f ≠ 0 → c.held = false →
    (c.descriptor = none → Traps s c op f (mk f) 0x17) ∧
    (∀ g, c.descriptor = some g →
      (let bank := getBank c.k (f.x.toNat % 2)
       ¬ (tbit bank.state 0 = true ∧ bank.state.toNat / 2 ^ 8 % 2 ^ 4 = fmt ∧ g.fmt = fmt ∧ g.k = bank.k)) →
      Traps s c op f (mk f) 0x08))

/-- The start of a drain's destination: the pair, or the offset, in the first registers of A, with OFF (15 R305). -/
def Cx.drainStart (c : Cx) (sp : Bool) (f : Fields) : Int :=
  if sp then (c.readS (f.a.toNat - 256)).toInt + offField f.x else ((c.basePair f + offWord f).toNat : Int)

/-- A drain (15 R305-R307): it stands in the store queue as a release at its scope, .sys to a peer's window (21 R384), and in
the array queue with its destination, stride, rows and bobbin; with ZERO its tile's tag is ANY. -/
def DrainOf (mk : Fields → Instr) (op : Nat) (sp : Bool) : Prop :=
  (∀ s c f i, Issues s c op f → c.entersArray f i →
    (let mm := f.x.toNat / 2 ^ 20
     let stride := (c.readS (f.a.toNat - 256 + 2)).toNat
     let last := (c.readS (f.a.toNat - 256 + 3)).toNat
     let rows := last % 2 ^ 7 + 1
     let bob := if last / 2 ^ 16 = 0xFFFF then none else some (16 * (last / 2 ^ 16))
     let scope := if sp = false ∧ isPeerVa (BitVec.ofNat 64 (c.drainStart sp f).toNat) = true then 5 else mm / 64 % 8
     let tile := c.physTile (f.b.toNat - 384)
     c.drainCheck sp (c.drainStart sp f) (coveredBytes (mm % 8) stride rows) stride bob = none →
     ∃ t d e, exec (mk f) s = .next t ∧ partAt t s.cur = some d ∧ OnlyCore s t c.core ∧ OtherParts c d f ∧ NextInPart c.p d.p ∧
       SetsHandle c d (f.d.toNat - 408) (handle 1 i ((getFut c.k i).gen + 1)) ∧
       d.w = { c.w with parts := d.w.parts, queue := c.w.queue ++ [e], seq := c.w.seq + 1 } ∧
       e.kind = .drain c.k.nextArray ∧ e.rel = c.release (some scope) ∧
       (let k1 := withEntry (allocFut c.k i c.g.region c.w.serial (if sp then 1 else if scope = 5 then 5 else 4))
          { c.queued (.drain tile (mm % 8) (tbit f.x 23) (tbit f.x 24) (tbit f.x 25) scope
              ((if sp then c.g.base else 0) + (c.drainStart sp f).toNat) stride rows bob sp none) i with seq := c.w.seq + 1 }
        OnlyWave (if tbit f.x 25 then setTile k1 tile { getTile k1 tile with tag := tagAny } else k1) d.k c.slot))) ∧
  Idle mk op

/-- The scratchpad offset of row j of a gather (15 R302): 16 x START + 16 x STRIDE x the row's index, a half of a register of
the run A in the part's segment of sixteen lanes. -/
def Cx.gatherRow (c : Cx) (f : Fields) (j : Nat) : Nat :=
  let b := (c.operand 0x1B1 f 1 .int 0).toNat
  let w := (c.readV (f.a.toNat + j / 32) (16 * (lowestLane c.p.lanes / 16) + j % 32 / 2)).toNat
  16 * (b % 2 ^ 15) + w / 2 ^ (16 * (j % 2)) % 2 ^ 16 * 16 * (b / 2 ^ 15 % 2 ^ 15)

/-! Textures, rays, meshes and fragments (17; 18). -/

/-- A record that the resource-record cache holds for the part's address space. -/
def Cx.record (c : Cx) (va : Dword) : Option (List Byte) :=
  (c.k.records.find? (fun r => r.1 = c.g.asn && r.2.1 = va.toNat)).map (fun r => r.2.2)

/-- The resource, and the sampler, of a lane's handle, where the cache holds their records (17 R322-R324). -/
def Cx.resource (c : Cx) (op : Nat) (f : Fields) (l : Nat) : Option Res :=
  (c.record (resourceVa (c.operand op f 0 .int l))).bind parseRes
def Cx.sampler (c : Cx) (op : Nat) (f : Fields) (l : Nat) : Option Samp :=
  (c.record (samplerVa (c.operand op f 0 .int l))).bind parseSamp

/-- The values of a lane whose reads all have their bytes, resident and sound, from addresses that keep 11 R220. -/
def clean (x : List Word × LaneAcc) : Option (List Word) :=
  if x.2 = {} then some x.1 else none

/-- No earlier access of the part holds a read back. -/
def Cx.mayRead (c : Cx) : Prop := c.held = false

/-- An integer is a number rounded to nearest, ties to even. -/
def nearestEven (q : ℚ) (i : Int) : Prop := |(i : ℚ) - q| ≤ 1 / 2 ∧ (|(i : ℚ) - q| = 1 / 2 → i % 2 = 0)

/-- A word is the sum of weighted FP32 words over a power of two, under the IEEE rules and rounded once (17 R329). -/
def sumRounded (shift : Nat) (ws : List (Nat × Word)) (out : Word) : Prop :=
  let inf (neg : Bool) : Prop := ∃ x ∈ ws, x.1 ≠ 0 ∧ f32 x.2 = .inf neg
  let nan : Prop := ∃ x ∈ ws, (f32 x.2).isNan = true ∨ (x.1 = 0 ∧ ∃ neg, f32 x.2 = .inf neg)
  (nan ∨ (inf true ∧ inf false) → out = 0x7FC00000) ∧
  (¬ nan → ∀ neg, inf neg → ¬ inf (!neg) → f32 out = .inf neg) ∧
  ((∀ x ∈ ws, (f32 x.2).finite) →
    let q : ℚ := (ws.map (fun x => (x.1 : ℚ) * (f32 x.2).value)).sum / 2 ^ shift
    (ws.map (·.1)).sum ≤ 2 ^ shift → (f32 out).finite ∧ roundsTo 23 (-149) 0 q (f32 out).value)

/-- The texels of a linear footprint with their weights (17 R329): two on each axis, the second with its weight in 256ths; those of
weight 0 take no part. Component q of each. -/
def Cx.taps (c : Cx) (r : Res) (sm : Samp) (l : Nat) (x y : Int × Nat) (z : List (Int × Nat)) (q : Nat) : List (Nat × Word) :=
  ((z.flatMap (fun k => [(y.1, 256 - y.2), (y.1 + 1, y.2)].flatMap (fun j => [(x.1, 256 - x.2), (x.1 + 1, x.2)].map (fun i =>
    (i.2 * j.2 * k.2, i.1, j.1, k.1))))).filter (fun t => t.1 != 0)).map (fun t =>
      (t.1, (c.texelAt r sm l t.2.1 t.2.2.1 t.2.2.2).1.getD q 0))

/-- Registers D to D + n - 1. -/
def runD (n : Nat) (f : Fields) : List Nat := if f.dn then [] else List.range' f.d.toNat n

/-- A reading instruction of the texture unit (17 R326-R329): with the records of every lane cached and its texels
resident, D to D + n - 1 of each lane take its values. -/
def TexReadOf (mk : Fields → Instr) (op : Nat) (sampled : Bool) (kindOk : Res → Prop) (n : Nat) (tag : Tag)
    (value : Cx → Fields → Res → Samp → Nat → Option (List Word)) : Prop :=
  ∀ (res : Nat → Res) (sam : Nat → Samp) (vals : Nat → List Word), ComputesWhen mk op
    (fun c f => c.mayRead ∧ ∀ l, c.takes f l → c.resource op f l = some (res l) ∧ kindOk (res l) ∧
      (sampled = true → c.sampler op f l = some (sam l)) ∧ value c f (res l) (sam l) l = some (vals l))
    (LanesPost (fun _ f => runD n f) Cx.takes (fun _ f i l => (vals l).getD (i - f.d.toNat) 0) (fun _ _ _ _ => tag))

/-- Coordinate i of a lane: register i of group B. -/
def Cx.coord (c : Cx) (f : Fields) (i l : Nat) : Word := c.readV (f.b.toNat + i) l

/-- The texel that integer coordinates name, where the level has it (17 R327). -/
def Cx.texelOf (c : Cx) (f : Fields) (r : Res) (l : Nat) : Option Dword :=
  let level := f.x.toNat % 16
  let x := (c.coord f 0 l).toNat
  let y := (c.coord f 1 l).toNat
  let z := if r.kind = 1 then 0 else (c.coord f 2 l).toNat
  if level < r.levels ∧ x < r.lw level ∧ y < r.lh level ∧ z < r.ld level then some (r.texel level x y z) else none

/-- The bytes that a read of one page gives now. -/
def okBytes : NowRead → Option (List Byte)
  | .ok bs => some bs
  | _ => none

/-- `tex.ld`: the components of the texel at the integer coordinates, zeros where the level has none (17 R327). -/
def texLdValue (c : Cx) (f : Fields) (r : Res) (_ : Samp) (l : Nat) : Option (List Word) :=
  match c.texelOf f r l with
  | some va => (okBytes ((c.issued 0x1C3 f).readNow va (texelBytes r.fmt))).map (texelComps r.fmt)
  | none => some [0, 0, 0, 0]

/-- `res.ld`: component MOD[1:0] of element B of a buffer, zero beyond its count (17 R327). -/
def resLdValue (c : Cx) (f : Fields) (r : Res) (_ : Samp) (l : Nat) : Option (List Word) :=
  let i := (c.operand 0x1C6 f 1 .int l).toNat
  if i < r.count then (okBytes ((c.issued 0x1C6 f).readNow (Reference.dnat (r.base + i * texelBytes r.fmt))
    (texelBytes r.fmt))).map (fun bs => [(texelComps r.fmt bs).getD (f.x.toNat % 4) 0])
  else some [0]

/-- `res.q`: the property MOD[2:0] of the resource, at level MOD[6:3] (17 R327). -/
def resQValue (_ : Cx) (f : Fields) (r : Res) (_ : Samp) (_ : Nat) : Option (List Word) :=
  let l := f.x.toNat / 8 % 16
  some [Reference.nat (match f.x.toNat % 8 with
    | 0 => max 1 (r.w / 2 ^ l)
    | 1 => max 1 (r.h / 2 ^ l)
    | 2 => if r.kind = 2 then max 1 (r.d / 2 ^ l) else r.d
    | 3 => r.levels
    | 4 => r.fmt
    | 5 => r.kind
    | _ => r.count)]

/-- `tex.smp.lod`: a sample at the level of detail in coordinate 3 (17 R327, R329). -/
def smpLodValue (c : Cx) (f : Fields) (r : Res) (sm : Samp) (l : Nat) : Option (List Word) :=
  clean ((c.issued 0x1C1 f).guardSample l r sm (lodOf r sm (c.coord f 3 l) none) (c.coord f 0 l) (c.coord f 1 l) (c.coord f 2 l))

/-- `tex.smp`: a sample at the level of detail that the differences of the coordinates within the lane's quad give, with
the bias in coordinate 3 (17 R328). -/
def smpValue (c : Cx) (f : Fields) (r : Res) (sm : Samp) (l : Nat) : Option (List Word) :=
  let q := l / 4 * 4
  let diff (i lane n : Nat) : Word := fMul (fSub (c.coord f i lane) (c.coord f i q)) (ofDim n)
  let axes (lane : Nat) : List Word := [diff 0 lane r.w, diff 1 lane r.h] ++ (if r.kind = 2 then [diff 2 lane r.d] else [])
  clean ((c.issued 0x1C0 f).guardSample l r sm (lodOf r sm (lambdaOf (axes (q + 1)) (axes (q + 2))) (some (c.coord f 3 l)))
    (c.coord f 0 l) (c.coord f 1 l) (c.coord f 2 l))

/-- `tex.smp.grad`: a sample at the level of detail that the gradients in register group C give (17 R328). -/
def smpGradValue (c : Cx) (f : Fields) (r : Res) (sm : Samp) (l : Nat) : Option (List Word) :=
  let g (i n : Nat) : Word := fMul (c.readV (fieldC f + i) l) (ofDim n)
  clean ((c.issued 0x1C2 f).guardSample l r sm (lodOf r sm (lambdaOf [g 0 r.w, g 1 r.h] [g 2 r.w, g 3 r.h]) none)
    (c.coord f 0 l) (c.coord f 1 l) (c.coord f 2 l))

/-- `tex.g4`: component MOD[1:0] of the four texels of a footprint at level MOD[5:2] (17 R327). -/
def g4Value (c : Cx) (f : Fields) (r : Res) (sm : Samp) (l : Nat) : Option (List Word) :=
  let level := f.x.toNat / 4 % 16
  let x := (footprint true (c.coord f 0 l) (r.lw level)).1
  let y := (footprint true (c.coord f 1 l) (r.lh level)).1
  let z := if r.kind = 1 then 0 else layerOf (c.coord f 2 l)
  let at' (i j : Int) : Option Word :=
    (clean ((c.issued 0x1C5 f).texelAt r sm level i j z)).map (fun p => p.getD (f.x.toNat % 4) 0)
  if level < r.levels ∧ finite32 (c.coord f 0 l) = true ∧ finite32 (c.coord f 1 l) = true ∧
      (r.kind = 1 ∨ finite32 (c.coord f 2 l) = true) then
    match at' x y, at' (x + 1) y, at' x (y + 1), at' (x + 1) (y + 1) with
    | some a, some b, some p, some q => some [a, b, p, q]
    | _, _, _, _ => none
  else none

/-- The point at t of a ray lies in the box of some bytes, and t in the ray's range; bounds and the end of the range may be
infinite (18 R339, R340). -/
def InBox (ray : RayRec) (bs : List Byte) (t : ℚ) : Prop :=
  let between (i : Nat) (x : ℚ) : Prop := (extOf (wordAt bs i)).le (.fin x) = true ∧ (Ext.fin x).le (extOf (wordAt bs (i + 3))) = true
  ray.tmin ≤ t ∧ (Ext.fin t).le ray.tmax = true ∧ between 0 (ray.o.1 + t * ray.d.1) ∧ between 1 (ray.o.2.1 + t * ray.d.2.1) ∧
  between 2 (ray.o.2.2 + t * ray.d.2.2)

/-- A word is a number rounded to the nearest FP32: an exact zero is +0, a number beyond the largest an infinity. -/
def nearWord (q : ℚ) (w : Word) : Prop :=
  (q = 0 → w = 0) ∧ (|q| < 2 ^ 128 - 2 ^ 103 → (f32 w).finite ∧ roundsTo 23 (-149) 0 q (f32 w).value) ∧
  (2 ^ 128 - 2 ^ 103 ≤ |q| → f32 w = .inf (decide (q < 0)))

/-- A ray test (18 R337-R341): with nodes resident and ray records in the window, D0-D3 of each lane take what its node gives
for its ray, or the miss result for a ray record that is not valid. -/
def RayOf (mk : Fields → Instr) (op size align : Nat) (miss : List Word) (hit : Fields → RayRec → List Byte → List Word) : Prop :=
  ∀ node : Nat → List Byte, ComputesWhen mk op
    (fun c f => c.mayRead ∧ ∀ l, c.takes f l →
      (let va : Dword := c.readV (f.a.toNat + 1) l ++ c.readV f.a.toNat l
       va.toNat + size ≤ 2 ^ 57 ∧ va.toNat % align = 0 ∧ (c.issued op f).readNow va size = .ok (node l)) ∧
      (let o := (c.operand op f 1 .int 0).toInt + 32 * ((c.readV (f.a.toNat + 2) l).toNat : Int)
       c.within [(l, o)] 32 32 ∧ c.sound [(l, o)] 32))
    (LanesPost (fun _ f => runD 4 f) Cx.takes (fun c f i l =>
      let o := (c.operand op f 1 .int 0).toInt + 32 * ((c.readV (f.a.toNat + 2) l).toNat : Int)
      (match parseRay (readBytes c.k.sram (c.g.base + o.toNat) 32) with
        | some ray => hit f ray (node l)
        | none => miss).getD (i - f.d.toNat) 0) (fun _ _ _ _ => tagAny))

/-- The stack area that a stack word names: its offset, levels, and the scratchpad address of a lane's header byte and of
its word at a level (18 R342). -/
def Cx.stackHeader (c : Cx) (w : Word) (l : Nat) : Nat := c.g.base + w.toNat % 2 ^ 24 + l
def Cx.stackWord (c : Cx) (w : Word) (j l : Nat) : Nat := c.g.base + w.toNat % 2 ^ 24 + 64 + 4 * (j * c.w.width + l)
def Cx.stackDepth (c : Cx) (w : Word) (l : Nat) : Nat := (kget 0 c.k.sram (c.stackHeader w l)).toNat % 128

/-- A stack instruction may act: its area is in the window, aligned and not locked, with sound bytes; the lanes are the
wave's and their depths within the levels. -/
def Cx.stackOk (c : Cx) (w : Word) (l : Nat) : Prop :=
  (let n := 64 + 4 * (w.toNat / 2 ^ 24 % 2 ^ 7) * c.w.width
   c.within [(l, ((w.toNat % 2 ^ 24 : Nat) : Int))] n 16 ∧ c.sound [(l, ((w.toNat % 2 ^ 24 : Nat) : Int))] n) ∧
  l < c.w.width ∧ c.stackDepth w l ≤ w.toNat / 2 ^ 24 % 2 ^ 7

/-- Bytes of the scratchpad outside some ranges stay. -/
def SramKeeps (k k' : Core) (ranges : List (Nat × Nat)) : Prop :=
  ∀ a, (∀ r ∈ ranges, a < r.1 ∨ r.1 + r.2 ≤ a) → kget 0 k'.sram a = kget 0 k.sram a

/-- `wstk.pop` and its peeking form (18 R343): the top word, or all ones for an empty stack; a pop lowers DEPTH. -/
def PopOf (mk : Fields → Instr) (peek : Bool) : Prop :=
  Reaches1 mk 0x1CB (fun c f => c.held = false ∧ (peek = false → c.activeLanes f ≠ 0 → c.mayRelease none) ∧
      ∀ l, c.takes f l → c.stackOk (c.operand 0x1CB f 1 .int 0) l) sameState scratchOf (fun c f d =>
      let w := c.operand 0x1CB f 1 .int 0
      NextInPart c.p d.p ∧
      LanesPost (fun _ f => destV f) Cx.takes (fun c _ _ l => if c.stackDepth w l = 0 then 0xFFFFFFFF
        else Reference.nat (ofBytes (readBytes c.k.sram (c.stackWord w (c.stackDepth w l - 1) l) 4))) (fun _ _ _ _ => tagAny) c f d ∧
      SramKeeps c.k d.k (if peek then [] else (lanesOf (c.activeLanes f)).map (fun l => (c.stackHeader w l, 1))) ∧
      (peek = false → ∀ l, c.takes f l → kget 0 d.k.sram (c.stackHeader w l) =
        if c.stackDepth w l = 0 then kget 0 c.k.sram (c.stackHeader w l) else kget 0 c.k.sram (c.stackHeader w l) - 1))

/-- Register i of a lane after a mesh instruction: the run's cell, its t_in, one of D's registers, or as it was. -/
def meshWord (f : Fields) (n : Nat) (out : MeshOut) (i : Nat) (old : Word) : Word :=
  let d := if i ∈ runD n f then out.vals.getD (i - f.d.toNat) 0 else old
  let t := if i = f.a.toNat + 3 then out.tin.getD d else d
  if i = f.a.toNat + 7 then (out.cell.map (BitVec.ofInt 32)).getD t else t

/-- A mesh instruction (18 R344, R348): with the descriptor cached and every cell it reads resident, D to D + n - 1 of each lane
take its values, and the run's t_in and cell their new values, where the lane has such. -/
def MeshOf (mk : Fields → Instr) (op n : Nat) (value : Cx → Fields → MeshDesc → Nat → Option MeshOut) : Prop :=
  ∀ (m : MeshDesc) (out : Nat → MeshOut), ComputesWhen mk op
    (fun c f => c.mayRead ∧
      (let va : Dword := c.readS (f.b.toNat - 255) ++ c.readS (f.b.toNat - 256)
       va.toNat + 64 ≤ 2 ^ 57 ∧ va.toNat % 64 = 0 ∧
       ∃ a b, c.record va = some a ∧ c.record (va + 32) = some b ∧ parseMesh (a ++ b) = some m) ∧
      ∀ l, c.takes f l → value c f m l = some (out l) ∧ (out l).resid = false)
    (fun c f d =>
      (∀ i l, l < 64 → (c.takes f l → d.readV i l = meshWord f n (out l) i (c.readV i l)) ∧
        (¬ c.takes f l → d.readV i l = c.readV i l)) ∧
      PartRegs c.p d.p ∧ d.w = { c.w with parts := d.w.parts, v := d.w.v, tags := d.w.tags })

/-- Face k of a cell is the one of the faces that count with the least value; on equal values with the least global index
(18 R346): `value` gives a face's value, none where it does not count. -/
def Cx.chosenFace (c : Cx) (m : MeshDesc) (cell : Nat) (faces : List (Affine × Int)) (value : Affine → Option ℚ) (k : Nat) (next : Int)
    (least : ℚ) : Prop :=
  (∃ a, faces[k]? = some (a, next) ∧ value a = some least) ∧
  ∀ j b n x, faces[j]? = some (b, n) → j ≠ k → value b = some x → least < x ∨
    (least = x ∧ ∃ g h, c.globalFace m cell k next = .ok g ∧ c.globalFace m cell j n = .ok h ∧ g < h)

/-- What a lane's reads gave, where none stopped. -/
def okOut : Geo MeshOut → Option MeshOut
  | .ok o => some o
  | .error _ => none

/-! Words. -/

/-- The fields of a word whose guard is p7, all other fields zero. -/
def always : Fields :=
  { gn := false, gp := 7, dn := false, d := 0, al := false, a := 0, bl := false, b := 0, x := 0, rt := 0, ri := 0, wb := false
    lw := false, lout := 0, stall := 0 }

/-- The 192 opcode values that 05 R99 lists. -/
def unassigned (op : Nat) : Prop :=
  ∃ r ∈ [(0x01E, 0x01F), (0x038, 0x03F), (0x06D, 0x07F), (0x092, 0x097), (0x09F, 0x09F), (0x0A7, 0x0A7), (0x0B9, 0x0BF),
    (0x0D9, 0x0DF), (0x0FD, 0x0FF), (0x10D, 0x10F), (0x11D, 0x11F), (0x128, 0x128), (0x130, 0x131), (0x134, 0x13F),
    (0x148, 0x148), (0x14E, 0x151), (0x154, 0x154), (0x159, 0x15F), (0x161, 0x163), (0x166, 0x17F), (0x186, 0x187),
    (0x189, 0x197), (0x19E, 0x19F), (0x1A6, 0x1AF), (0x1BF, 0x1BF), (0x1D3, 0x1FF)], r.1 ≤ op ∧ op ≤ r.2

/-! The Carder's key order (13 R280). -/

/-- An FP32 key stands before another: by value with -0 before +0, every NaN behind, NaNs by their significand and then their sign. -/
def floatKeyBefore (a b : Nat) : Prop :=
  let x : Word := BitVec.ofNat 32 a
  let y : Word := BitVec.ofNat 32 b
  match (f32 x).isNan, (f32 y).isNan with
  | false, false => (extOf y).le (extOf x) = false ∨ (extOf x = extOf y ∧ a / 2 ^ 31 = 1 ∧ b / 2 ^ 31 = 0)
  | false, true => True
  | true, false => False
  | true, true => a % 2 ^ 23 < b % 2 ^ 23 ∨ (a % 2 ^ 23 = b % 2 ^ 23 ∧ a / 2 ^ 31 < b / 2 ^ 31)

/-- A key of so many bits stands before another: unsigned, two's complement or FP32, ascending or reversed. -/
def keyBefore (ktype width : Nat) (desc : Bool) (a b : Nat) : Prop :=
  let x := if desc then b else a
  let y := if desc then a else b
  match ktype with
  | 0 => x < y
  | 1 => (BitVec.ofNat width x).toInt < (BitVec.ofNat width y).toInt
  | _ => floatKeyBefore x y

/-! Events: clusters, zones, host messages, contexts, the debugger. -/

/-- One cluster stands as given, the others stay. -/
def OnlyCluster (s t : State) (cl : Nat) (x : Cluster) : Prop :=
  getCluster t cl = x ∧ ∀ n, n ≠ cl → getCluster t n = getCluster s n

/-- One zone's permit register stands as given, the others stay. -/
def OnlyZone (s t : State) (z : Nat) (x : Zone) : Prop := getZone t z = x ∧ ∀ n, n ≠ z → getZone t n = getZone s n

/-- A cluster has no credit due (16 R318). -/
def noCredit (s : State) (cl : Nat) : Prop := (getCluster s cl).lowCycles / 16384 ≤ (getCluster s cl).credited

/-- No credit and no ramp charge is due in a zone: they come before the claims (29 R427). -/
def settledZone (s : State) (z : Nat) : Prop :=
  noCredit s (2 * z) ∧ noCredit s (2 * z + 1) ∧ ∀ i < 16, (getCore s (16 * z + i)).overCap < 8192

/-- A host message is the next of its context, none is held behind it, and port 0 is ready (01 R14, R20-R22). -/
def State.accepts (s : State) (d : Datagram) : Prop :=
  s.booted = true ∧ s.recovery = false ∧ portReady s 0 = true ∧ messageOk d = true ∧ dSeq d = (getHost s (dCtx d)).last + 1 ∧
  (getHost s (dCtx d)).held = []

/-- Of the host contexts, the message's takes its SEQ and its source. -/
def HostAfter (s t : State) (d : Datagram) : Prop :=
  ∀ i, getHost t i = if i = dCtx d then { getHost s i with last := dSeq d, endpoint := some d.src } else getHost s i

/-- The replies sent to a message: type, ADDR, STATUS, payload, under its CTX and SEQ (01 R18, R24). -/
def Replies (s t : State) (d : Datagram) (l : List (Nat × Dword × Word × List Byte)) : Prop :=
  t.sent = s.sent ++ l.map (fun x => { dest := d.src, bytes := message x.1 (dCtx d) (dSeq d) x.2.1 x.2.2.1 x.2.2.2 })

/-- A core switches from a fast-switch context to another resident one (06 R112, R113; 22 R400): that one alone is active, an
open latch window of the one that leaves restarts, and waves keep all else. -/
def Switches (k k' : Core) (a c : Context) : Prop :=
  (∀ x ∈ k'.ctxs, x.place = .active ↔ x.region = c.region) ∧ k'.ctxs.map (·.region) = k.ctxs.map (·.region) ∧
  k' = { k with waves := k'.waves, ctxs := k'.ctxs, banks := k'.banks, floor := k'.floor, interval := k'.interval } ∧
  ∀ i, getWave k' i = (getWave k i).map (fun w =>
    if (getWg k w.wg).map (·.region) = some a.region then { w with parts := w.parts.map switchedPart } else w)

/-- DBGCMD holds the command with its RESULT (22 R404). -/
def Commanded (_ t : State) (core : Nat) (cmd : Dword) (result : Nat) : Prop :=
  (getCore t core).dbgcmd.toNat % 2 ^ 16 = cmd.toNat % 2 ^ 16 ∧ (getCore t core).dbgcmd.toNat / 2 ^ 16 % 2 ^ 16 = result * 2 ^ 8 ∧
  (getCore t core).dbgcmd.toNat / 2 ^ 32 = cmd.toNat / 2 ^ 32

/-- The wave that a command names is now `w`; other waves, other cores and all else stay. -/
def DebugWave (s t : State) (core : Nat) (cmd : Dword) (w : Wave) : Prop :=
  OnlyCore s t core ∧ getWave (getCore t core) (cmdSlot cmd) = some w ∧
  (∀ i, i ≠ cmdSlot cmd → getWave (getCore t core) i = getWave (getCore s core) i) ∧
  getCore t core = { getCore s core with waves := (getCore t core).waves, dbgcmd := (getCore t core).dbgcmd }

/-! A safe run. -/

/-- A step goes on: it answers a next state. -/
def StepGoesOn (s : State) : Prop := ∃ t, step s = .next t

/-- The states that n steps reach. -/
def Reaches : Nat → State → State → Prop
  | 0, s, t => s = t
  | n + 1, s, t => ∃ u, step s = .next u ∧ Reaches n u t

/-- A run is safe when every state that it reaches goes on, with device memory in canonical form. -/
def SafeRun (s : State) : Prop := ∀ n t, Reaches n s t → StepGoesOn t ∧ t.memOk

end Sys2Proof.Machine
end

