-- ==== Sys2Proof/Certificates/Slice0/Obligations.lean ====
section
/-! DEFINITION. The statements for the provers. -/
open Sys2Proof Sys2Proof.Machine

/-! Scalar instructions. -/

/-- Scalar instructions (09 R156-R160): sD takes the result, once for the part: two-source operations modulo 2^32, high
product, multiply-add, one-source operations, bit fields, select. -/
def Obligations.ScalarResults : Prop :=
  ScalarOf .sadd 0x020 (fun _ a b _ => Reference.nat (a.toNat + b.toNat)) ∧
  ScalarOf .ssub 0x021 (fun _ a b _ => Reference.int (a.toInt - b.toInt)) ∧
  ScalarOf .smul 0x022 (fun _ a b _ => Reference.nat (a.toNat * b.toNat)) ∧
  ScalarOf .sand 0x025 (fun _ a b _ => Reference.nat (a.toNat &&& b.toNat)) ∧
  ScalarOf .sor 0x026 (fun _ a b _ => Reference.nat (a.toNat ||| b.toNat)) ∧
  ScalarOf .sxor 0x027 (fun _ a b _ => Reference.nat (a.toNat ^^^ b.toNat)) ∧
  ScalarOf .sshl 0x029 (fun _ a b _ => Reference.shl a b) ∧
  ScalarOf .sshr 0x02A (fun _ a b _ => Reference.shr a b) ∧
  ScalarOf .ssra 0x02B (fun _ a b _ => Reference.sra a b) ∧
  ScalarOf .smin 0x02C (fun _ a b _ => Reference.minS a b) ∧
  ScalarOf .smax 0x02D (fun _ a b _ => Reference.maxS a b) ∧
  ScalarOf .sminu 0x02E (fun _ a b _ => Reference.minU a b) ∧
  ScalarOf .smaxu 0x02F (fun _ a b _ => Reference.maxU a b) ∧
  ScalarOf .saddImm 0x120 (fun f a _ _ => Reference.nat (a.toNat + f.x.toNat)) ∧
  ScalarOf .ssubImm 0x121 (fun f a _ _ => Reference.int (a.toInt - f.x.toInt)) ∧
  ScalarOf .smulImm 0x122 (fun f a _ _ => Reference.nat (a.toNat * f.x.toNat)) ∧
  ScalarOf .sandImm 0x125 (fun f a _ _ => Reference.nat (a.toNat &&& f.x.toNat)) ∧
  ScalarOf .sorImm 0x126 (fun f a _ _ => Reference.nat (a.toNat ||| f.x.toNat)) ∧
  ScalarOf .sxorImm 0x127 (fun f a _ _ => Reference.nat (a.toNat ^^^ f.x.toNat)) ∧
  ScalarOf .sshlImm 0x129 (fun f a _ _ => Reference.shl a f.x) ∧
  ScalarOf .sshrImm 0x12A (fun f a _ _ => Reference.shr a f.x) ∧
  ScalarOf .ssraImm 0x12B (fun f a _ _ => Reference.sra a f.x) ∧
  ScalarOf .sminImm 0x12C (fun f a _ _ => Reference.minS a f.x) ∧
  ScalarOf .smaxImm 0x12D (fun f a _ _ => Reference.maxS a f.x) ∧
  ScalarOf .sminuImm 0x12E (fun f a _ _ => Reference.minU a f.x) ∧
  ScalarOf .smaxuImm 0x12F (fun f a _ _ => Reference.maxU a f.x) ∧
  ScalarOf .smulh 0x023 (fun f a b _ => Reference.mulHigh (tbit f.x 0) a b) ∧
  ScalarOf .smulhImm 0x123 (fun f a _ _ => Reference.mulHigh false a f.x) ∧
  ScalarOf .smad 0x024 (fun _ a b c => Reference.mad a b c) ∧
  ScalarOf .smadImm 0x124 (fun f a b _ => Reference.mad a b f.x) ∧
  ScalarOf .snot 0x028 (fun _ a _ _ => Reference.nat (2 ^ 32 - 1 - a.toNat)) ∧
  ScalarOf .sclz 0x030 (fun _ a _ _ => Reference.clz a) ∧
  ScalarOf .spopc 0x031 (fun _ a _ _ => Reference.popc a) ∧
  ScalarOf .smov 0x034 (fun _ a _ _ => a) ∧
  ScalarOf .sli 0x035 (fun f _ _ _ => f.x) ∧
  ScalarOf .sbfe 0x032 (fun f a b _ => Reference.fieldOf (tbit f.x 0) a b) ∧
  ScalarOf .sbfeImm 0x132 (fun f a _ _ => Reference.fieldOf false a f.x) ∧
  ScalarOf .sbfi 0x033 (fun _ a b c => Reference.fieldInto a b c) ∧
  ScalarOf .sbfiImm 0x133 (fun f a b _ => Reference.fieldInto a b f.x) ∧
  Computes .ssel 0x036 (ScalarPost (fun c f =>
    if tbit (c.readP (fieldC f - 392)) (lowestLane (c.activeLanes f)) then c.operand 0x036 f 0 .int 0
    else c.operand 0x036 f 1 .int 0))

/-- Predicates and masks (09 R161-R163, R165, R166): comparison and logic into a predicate, mask operations, `mexec`, which
reads mA before it writes mD, and `mmov`, which moves bits to a mask register, to a predicate in the lanes the part holds,
or to $exec in the lanes of the running path. -/
def Obligations.PredicatesAndMasks : Prop :=
  Computes .scmp 0x037 (PredPost (fun c f _ =>
    Reference.holds (f.x.toNat % 16) (c.operand 0x037 f 0 .int 0) (c.operand 0x037 f 1 .int 0) = true)) ∧
  Computes .pand 0x010 (PredPost (fun c f l =>
    tbit (c.readP (f.a.toNat - 392)) l = true ∧ tbit (c.readP (f.b.toNat - 392)) l = true)) ∧
  Computes .por 0x011 (PredPost (fun c f l =>
    tbit (c.readP (f.a.toNat - 392)) l = true ∨ tbit (c.readP (f.b.toNat - 392)) l = true)) ∧
  Computes .pxor 0x012 (PredPost (fun c f l =>
    tbit (c.readP (f.a.toNat - 392)) l ≠ tbit (c.readP (f.b.toNat - 392)) l)) ∧
  Computes .pnot 0x013 (PredPost (fun c f l => tbit (c.readP (f.a.toNat - 392)) l = false)) ∧
  Computes .mand 0x014 (MaskPost (fun c f => c.readM (f.a.toNat - 400) &&& c.readM (f.b.toNat - 400))) ∧
  Computes .mor 0x015 (MaskPost (fun c f => c.readM (f.a.toNat - 400) ||| c.readM (f.b.toNat - 400))) ∧
  Computes .mxor 0x016 (MaskPost (fun c f => c.readM (f.a.toNat - 400) ^^^ c.readM (f.b.toNat - 400))) ∧
  Computes .mpopc 0x018 (ScalarPost (fun c f => Reference.popc (c.readM (f.a.toNat - 400)))) ∧
  Computes .mffs 0x019 (ScalarPost (fun c f => Reference.lowestOne (c.readM (f.a.toNat - 400)))) ∧
  Computes .mexec 0x01A (fun c f d =>
    (∀ n, d.readM n = if n = f.d.toNat - 400 ∧ c.activeLanes f ≠ 0 then c.p.exec else c.readM n) ∧
    d.p.exec = (if c.activeLanes f ≠ 0 then (c.p.exec &&& c.readM (f.a.toNat - 400)) &&& c.p.run else c.p.exec) ∧
    d.p.s = c.p.s ∧ d.p.h = c.p.h ∧ d.p.pstat = c.p.pstat ∧ OnlyParts c.w d.w) ∧
  Computes .mmov 0x017 (fun c f d =>
    (∀ n l, n < 8 → l < 64 →
      (n + 400 = f.d.toNat ∧ c.activeLanes f ≠ 0 → (tbit (d.readM n) l = true ↔ c.sourceBit f.a.toNat l)) ∧
      (¬ (n + 400 = f.d.toNat ∧ c.activeLanes f ≠ 0) → d.readM n = c.readM n)) ∧
    (∀ n l, n < 7 → l < 64 →
      (n = f.d.toNat - 392 ∧ f.d.toNat < 400 ∧ c.activeLanes f ≠ 0 ∧ tbit c.p.lanes l = true →
        (tbit (d.readP n) l = true ↔ c.sourceBit f.a.toNat l)) ∧
      (¬ (n = f.d.toNat - 392 ∧ f.d.toNat < 400 ∧ c.activeLanes f ≠ 0 ∧ tbit c.p.lanes l = true) →
        tbit (d.readP n) l = tbit (c.readP n) l)) ∧
    (∀ l, l < 64 →
      (f.d.toNat = 466 ∧ c.activeLanes f ≠ 0 →
        (tbit d.p.exec l = true ↔ c.sourceBit f.a.toNat l ∧ tbit c.p.run l = true)) ∧
      (¬ (f.d.toNat = 466 ∧ c.activeLanes f ≠ 0) → tbit d.p.exec l = tbit c.p.exec l)) ∧
    d.p.s = c.p.s ∧ d.p.h = c.p.h ∧ d.p.pstat = c.p.pstat ∧ d.w = { c.w with parts := d.w.parts, p := d.w.p })

/-! Masks and special registers. -/

/-- Special registers (09 R167, R168; 06 R104, R105): the half that MOD[0] chooses of what a register holds; a write of a half of
$exec within the running path, of $resid once every earlier access of the part has reported its residency, of CODE of
$pstat once every earlier peer access has. -/
def Obligations.SpecialRegisters : Prop :=
  Computes .srd 0x01B (ScalarPost (fun c f =>
    Reference.half (tbit f.x 0) (match f.a.toNat with
      | 456 => Reference.dnat (lowestLane c.p.lanes)
      | 457 => Reference.dnat (lowestLane c.p.lanes / 4)
      | 458 => Reference.dnat c.w.index
      | 459 => Reference.dnat (quadsOf c.p.lanes).toNat
      | 460 => Reference.dnat ((c.w.width * 256 + 4 * popCount (quadsOf c.p.lanes)) % 2 ^ 32)
      | 461 => Reference.dnat c.g.x
      | 462 => Reference.dnat c.g.y
      | 463 => if tbit f.x 15 then Reference.dnat c.g.gx else Reference.dnat c.g.z
      | 464 => Reference.dnat c.g.gy
      | 465 => Reference.dnat c.g.gz
      | 466 => c.p.exec
      | 467 => c.w.resid
      | 468 => Reference.dnat (coreCyc c.s c.core)
      | 469 => Reference.dnat ((c.k.floor * 256 + (if c.k.ballast then 128 else 0) + c.k.interval) % 2 ^ 32)
      | 470 => Reference.dnat c.p.pstat.toNat
      | 471 => Reference.dnat c.g.id
      | 472 => c.g.kernel.dseg
      | _ => 0))) ∧
  Computes .scyc 0x01D (fun c f d =>
    (∀ n, d.readS n =
      if n = f.d.toNat - 255 ∧ c.activeLanes f ≠ 0 then Reference.half true (Reference.dnat (coreCyc c.s c.core))
      else if n = f.d.toNat - 256 ∧ c.activeLanes f ≠ 0 then Reference.half false (Reference.dnat (coreCyc c.s c.core))
      else c.readS n) ∧
    d.p.m = c.p.m ∧ d.p.h = c.p.h ∧ d.p.exec = c.p.exec ∧ d.p.pstat = c.p.pstat ∧ OnlyParts c.w d.w) ∧
  Computes .swrExec 0x01C (ExecPost (fun c f =>
    Reference.putHalf (tbit f.x 0) c.p.exec (c.operand 0x01C f 0 .int 0))) ∧
  ComputesWhen .swrResid 0x01C (fun c _ => c.residencyReported = true) (fun c f d =>
    d.w.resid = (if c.activeLanes f ≠ 0 then Reference.putHalf (tbit f.x 0) c.w.resid (c.operand 0x01C f 0 .int 0)
      else c.w.resid) ∧
    PartRegs c.p d.p ∧ d.w = { c.w with parts := d.w.parts, resid := d.w.resid }) ∧
  ComputesWhen .swrPstat 0x01C (fun c _ => c.peersReported = true) (fun c f d =>
    d.p.pstat.toNat = (if c.activeLanes f ≠ 0 then (c.operand 0x01C f 0 .int 0).toNat % 2 ^ 16 else c.p.pstat.toNat) ∧
    d.p.s = c.p.s ∧ d.p.m = c.p.m ∧ d.p.h = c.p.h ∧ d.p.exec = c.p.exec ∧ OnlyParts c.w d.w)

/-! Vector integer instructions. -/

/-- Vector integer arithmetic (10 R190-R192), and with an immediate for the last operand (05 R98). What an operand of any
instruction reads (04 R71, R72, R74; 05 R98), and what LW = 1 leaves in the latch LOUT (04 R76). That an inline constant stands in
both 16-bit elements of a packed operand is the model's reading (log 53). -/
def Obligations.VectorIntegers : Prop :=
  (∀ (c : Cx) op f k l,
    ((opInfo op).imm ≠ .a → c.gives op f k f.al f.a.toNat l (c.operand op f 0 k l)) ∧
    ((opInfo op).imm ≠ .b → c.gives op f k f.bl f.b.toNat l (c.operand op f 1 k l)) ∧
    ((opInfo op).imm ≠ .c → c.gives op f k (tbit f.x 31) (f.x.toNat / 2 ^ 20 % 2 ^ 11) l (c.operand op f 2 k l)) ∧
    ((opInfo op).imm = .a → c.operand op f 0 k l = f.x) ∧ ((opInfo op).imm = .b → c.operand op f 1 k l = f.x) ∧
    ((opInfo op).imm = .c → c.operand op f 2 k l = f.x)) ∧
  (∀ s c f, Issues s c 0x040 f → f.lw = true → ∃ t d, exec (.vadd f) s = .next t ∧ partAt t s.cur = some d ∧
    ∀ l, c.takes f l → d.latched f.lout.toNat l
      (Reference.nat ((c.operand 0x040 f 0 .int l).toNat + (c.operand 0x040 f 1 .int l).toNat))) ∧
  VectorOf .vadd 0x040 .int (fun _ => tagI32) (fun _ a b _ => Reference.nat (a.toNat + b.toNat)) ∧
  VectorOf .vsub 0x041 .int (fun _ => tagI32) (fun _ a b _ => Reference.int (a.toInt - b.toInt)) ∧
  VectorOf .vmul 0x042 .int (fun _ => tagI32) (fun _ a b _ => Reference.nat (a.toNat * b.toNat)) ∧
  VectorOf .vmulh 0x043 .int (fun f => if tbit f.x 0 then tagU32 else tagI32)
    (fun f a b _ => Reference.mulHigh (tbit f.x 0) a b) ∧
  VectorOf .vmad 0x044 .int (fun _ => tagI32) (fun _ a b c => Reference.mad a b c) ∧
  VectorOf .vand 0x045 .int (fun _ => tagAny) (fun _ a b _ => Reference.nat (a.toNat &&& b.toNat)) ∧
  VectorOf .vor 0x046 .int (fun _ => tagAny) (fun _ a b _ => Reference.nat (a.toNat ||| b.toNat)) ∧
  VectorOf .vxor 0x047 .int (fun _ => tagAny) (fun _ a b _ => Reference.nat (a.toNat ^^^ b.toNat)) ∧
  VectorOf .vnot 0x048 .int (fun _ => tagAny) (fun _ a _ _ => Reference.nat (2 ^ 32 - 1 - a.toNat)) ∧
  VectorOf .vshl 0x049 .int (fun _ => tagAny) (fun _ a b _ => Reference.shl a b) ∧
  VectorOf .vshr 0x04A .int (fun _ => tagAny) (fun _ a b _ => Reference.shr a b) ∧
  VectorOf .vsra 0x04B .int (fun _ => tagAny) (fun _ a b _ => Reference.sra a b) ∧
  VectorOf .vmin 0x04C .int (fun f => if tbit f.x 0 then tagU32 else tagI32)
    (fun f a b _ => if tbit f.x 0 then Reference.minU a b else Reference.minS a b) ∧
  VectorOf .vmax 0x04D .int (fun f => if tbit f.x 0 then tagU32 else tagI32)
    (fun f a b _ => if tbit f.x 0 then Reference.maxU a b else Reference.maxS a b) ∧
  VectorOf .vabs 0x04E .int (fun _ => tagI32) (fun _ a _ _ => Reference.abs a) ∧
  VectorOf .vneg 0x04F .int (fun _ => tagI32) (fun _ a _ _ => Reference.neg a) ∧
  VectorOf .vclz 0x050 .int (fun _ => tagI32) (fun _ a _ _ => Reference.clz a) ∧
  VectorOf .vpopc 0x051 .int (fun _ => tagI32) (fun _ a _ _ => Reference.popc a) ∧
  VectorOf .vaddImm 0x140 .int (fun _ => tagI32) (fun f a _ _ => Reference.nat (a.toNat + f.x.toNat)) ∧
  VectorOf .vsubImm 0x141 .int (fun _ => tagI32) (fun f a _ _ => Reference.int (a.toInt - f.x.toInt)) ∧
  VectorOf .vmulImm 0x142 .int (fun _ => tagI32) (fun f a _ _ => Reference.nat (a.toNat * f.x.toNat)) ∧
  VectorOf .vmulhImm 0x143 .int (fun _ => tagI32) (fun f a _ _ => Reference.mulHigh false a f.x) ∧
  VectorOf .vmadImm 0x144 .int (fun _ => tagI32) (fun f a b _ => Reference.mad a b f.x) ∧
  VectorOf .vandImm 0x145 .int (fun _ => tagAny) (fun f a _ _ => Reference.nat (a.toNat &&& f.x.toNat)) ∧
  VectorOf .vorImm 0x146 .int (fun _ => tagAny) (fun f a _ _ => Reference.nat (a.toNat ||| f.x.toNat)) ∧
  VectorOf .vxorImm 0x147 .int (fun _ => tagAny) (fun f a _ _ => Reference.nat (a.toNat ^^^ f.x.toNat)) ∧
  VectorOf .vshlImm 0x149 .int (fun _ => tagAny) (fun f a _ _ => Reference.shl a f.x) ∧
  VectorOf .vshrImm 0x14A .int (fun _ => tagAny) (fun f a _ _ => Reference.shr a f.x) ∧
  VectorOf .vsraImm 0x14B .int (fun _ => tagAny) (fun f a _ _ => Reference.sra a f.x) ∧
  VectorOf .vminImm 0x14C .int (fun _ => tagI32) (fun f a _ _ => Reference.minS a f.x) ∧
  VectorOf .vmaxImm 0x14D .int (fun _ => tagI32) (fun f a _ _ => Reference.maxS a f.x) ∧
  VectorOf .vmovImm 0x155 .int (fun _ => tagAny) (fun f _ _ _ => f.x)

/-- Bit fields, byte permutations, byte sums, moves, selection and comparison (10 R191, R193-R197, R206). -/
def Obligations.VectorFields : Prop :=
  VectorOf .vbfe 0x052 .int (fun _ => tagAny) (fun f a b _ => Reference.fieldOf (tbit f.x 0) a b) ∧
  VectorOf .vbfeImm 0x152 .int (fun _ => tagAny) (fun f a _ _ => Reference.fieldOf false a f.x) ∧
  VectorOf .vbfi 0x053 .int (fun _ => tagAny) (fun _ a b c => Reference.fieldInto a b c) ∧
  VectorOf .vbfiImm 0x153 .int (fun _ => tagAny) (fun f a b _ => Reference.fieldInto a b f.x) ∧
  VectorOf .vprmt 0x056 .int (fun _ => tagAny) (fun _ a b c => Reference.perm a b c) ∧
  VectorOf .vprmtImm 0x156 .int (fun _ => tagAny) (fun f a b _ => Reference.perm a b f.x) ∧
  VectorOf .vdot4 0x057 .int (fun _ => tagI32) (fun f a b c => Reference.dot4 (tbit f.x 0) (tbit f.x 1) a b c) ∧
  VectorOf .vdot4Imm 0x157 .int (fun _ => tagI32) (fun f a b _ => Reference.dot4 false false a b f.x) ∧
  VectorOf .vsad 0x058 .int (fun _ => tagI32) (fun _ a b c => Reference.sad4 a b c) ∧
  VectorOf .vsadImm 0x158 .int (fun _ => tagI32) (fun f a b _ => Reference.sad4 a b f.x) ∧
  VectorOf .vretag 0x05F .int (fun f => BitVec.ofNat 5 (f.x.toNat % 32)) (fun _ a _ _ => a) ∧
  Computes .vmov 0x055 (VectorPost (fun c f l => c.operand 0x055 f 0 .int l) (fun c f q => c.operandTag 0x055 f 0 q)) ∧
  Computes .vsel 0x054 (VectorPost
    (fun c f l => if tbit (c.readP (fieldC f - 392)) l then c.operand 0x054 f 0 .int l else c.operand 0x054 f 1 .int l)
    (fun c f q => if c.operandTag 0x054 f 0 q = c.operandTag 0x054 f 1 q then c.operandTag 0x054 f 0 q else tagAny)) ∧
  CompareOf .vcmp 0x059 .int (fun f a b => Reference.holds (f.x.toNat % 16) a b = true)

/-! Floating point. -/

/-- Exact operations are exact: the value of a sum, a product and a scaling of finite values; infinities, NaN and the signs of
zeros as in IEEE 754 (08 R135); and the value of a code of every format (08 R134). -/
def Obligations.ExactValues : Prop :=
  (∀ a b : FVal, ∀ mode, a.finite → b.finite → (a.add mode b).finite ∧ (a.add mode b).value = a.value + b.value) ∧
  (∀ a b : FVal, a.finite → b.finite → (a.mul b).finite ∧ (a.mul b).value = a.value * b.value) ∧
  (∀ a : FVal, a.finite → a.neg.finite ∧ a.neg.value = -a.value) ∧
  (∀ (a : FVal) (k : Int), a.finite → -1024 ≤ k → k ≤ 1024 → (a.scale k).finite ∧ (a.scale k).value = a.value * 2 ^ k) ∧
  (∀ a : Word, Reference.isNan a = true ↔ f32 a = .nan) ∧
  (∀ a : Word, Reference.expo a = 255 → Reference.frac a = 0 → f32 a = .inf (Reference.sign a)) ∧
  (∀ a : Word, Reference.expo a < 255 → (f32 a).finite ∧
    (f32 a).value = (if Reference.sign a then -1 else 1) *
      (if Reference.expo a = 0 then (Reference.frac a : ℚ) * 2 ^ (-149 : Int)
       else ((2 ^ 23 + Reference.frac a : Nat) : ℚ) * 2 ^ ((Reference.expo a : Int) - 150))) ∧
  (∀ s m e t n d mode, ((FVal.num s m e).add mode (.num t n d)).value = 0 →
    (FVal.num s m e).add mode (.num t n d) = .num (if m = 0 ∧ n = 0 ∧ s = t then s else decide (mode = 3)) 0 0) ∧
  (∀ a b : FVal, ∀ mode,
    (a.add mode b = .nan ↔ a = .nan ∨ b = .nan ∨ ∃ s, a = .inf s ∧ b = .inf !s) ∧
    ∀ s, a.add mode b = .inf s ↔ (a = .inf s ∧ b ≠ .nan ∧ b ≠ .inf !s) ∨ (b = .inf s ∧ a ≠ .nan ∧ a ≠ .inf !s)) ∧
  (∀ a b : FVal,
    let infZero := fun (x y : FVal) => (∃ s, x = .inf s) ∧ isZeroVal y = true
    (a.mul b = .nan ↔ a = .nan ∨ b = .nan ∨ infZero a b ∨ infZero b a) ∧
    ((∃ s, a.mul b = .inf s) ↔ a.mul b ≠ .nan ∧ ((∃ s, a = .inf s) ∨ ∃ s, b = .inf s)) ∧
    (a.mul b ≠ .nan → (a.mul b).isNeg = (a.isNeg != b.isNeg))) ∧
  (FVal.nan.neg = .nan ∧ ∀ s k, (FVal.inf s).neg = .inf !s ∧ (FVal.inf s).scale k = .inf s ∧ FVal.nan.scale k = .nan) ∧
  (∀ x ∈ ([(fp16, 5), (bf16, 8), (e5m2, 5), (e4m3, 4), (e2m1, 2)] : List (Fmt × Nat)), ∀ code < 2 ^ x.1.w,
    let e : Nat := code / 2 ^ x.1.m % 2 ^ x.2
    let t : Nat := code % 2 ^ x.1.m
    let top := e = 2 ^ x.2 - 1 ∧ (x.1 = fp16 ∨ x.1 = bf16 ∨ x.1 = e5m2)
    (x.1.decode code = .nan ↔ (top ∧ t ≠ 0) ∨ (x.1 = e4m3 ∧ e = 15 ∧ t = 7)) ∧
    (∀ s, x.1.decode code = .inf s ↔ top ∧ t = 0 ∧ s = code.testBit (x.1.w - 1)) ∧
    ((x.1.decode code).finite → (x.1.decode code).isNeg = code.testBit (x.1.w - 1) ∧
      (x.1.decode code).value = (if code.testBit (x.1.w - 1) then -1 else 1) *
        (if e = 0 then (t : ℚ) * 2 ^ (1 - x.1.bias - (x.1.m : Int))
         else ((2 ^ x.1.m + t : Nat) : ℚ) * 2 ^ ((e : Int) - x.1.bias - (x.1.m : Int)))))

/-- Every FP32 rounding gives the canonical NaN for NaN and keeps an infinity; a finite exact value that is not zero
becomes, in modes RN, RZ, RP and RM, a finite number within the last place that the mode asks for, a tie in RN the even code, or
overflows as R140's table says where its rounding with an unbounded exponent passes the largest finite magnitude (08 R138, R140).
The same in every narrower format, saturating, with E2M1's ties (R139). -/
def Obligations.RoundedOnce : Prop :=
  (∀ mode, toF32 mode .nan = 0x7FC00000) ∧
  (∀ mode neg, toF32 mode (.inf neg) = if neg then 0xFF800000 else 0x7F800000) ∧
  (∀ mode neg e, toF32 mode (.num neg 0 e) = if neg then 0x80000000 else 0) ∧
  (∀ (mode : Nat) (v : FVal), mode < 4 → v.finite → v.value ≠ 0 →
    Reference.isNan (toF32 mode v) = false ∧
    ((f32 (toF32 mode v)).finite → |v.value| < 2 ^ 128 → roundsTo 23 (-149) mode v.value (f32 (toF32 mode v)).value) ∧
    (¬ (f32 (toF32 mode v)).finite → (2 ^ 24 - 1 : ℚ) * 2 ^ (104 : Int) < |v.value|)) ∧
  (∀ v : FVal, v.finite → v.value ≠ 0 → (f32 (toF32 0 v)).finite →
    |(f32 (toF32 0 v)).value - v.value| = ulpOf 23 (-149) v.value / 2 → (toF32 0 v).toNat % 2 = 0) ∧
  (∀ (mode : Nat) (v : FVal), mode < 4 → v.finite → v.value ≠ 0 →
    let big : ℚ := (2 ^ 24 - 1) * 2 ^ (104 : Int)
    let past : Prop := match mode with
      | 0 => (2 ^ 25 - 1 : ℚ) * 2 ^ (103 : Int) ≤ |v.value|
      | 1 => False
      | 2 => big < v.value
      | _ => v.value < -big
    (past → toF32 mode v = if v.value < 0 then 0xFF800000 else 0x7F800000) ∧
    (¬ past → big ≤ |v.value| → toF32 mode v = if v.value < 0 then 0xFF7FFFFF else 0x7F7FFFFF)) ∧
  (∀ x ∈ [fp16, bf16, e5m2, e4m3, e2m1], ∀ (mode : Nat) (v : FVal), mode < 4 → v.finite → v.value ≠ 0 →
    let big := (x.decode x.maxCode).value
    let lo : Int := 1 - x.bias - x.m
    let r := x.round mode 0 true v
    (|v.value| ≤ big → (x.decode r).finite ∧ roundsTo x.m lo mode v.value (x.decode r).value ∧
      (mode = 0 → |(x.decode r).value - v.value| = ulpOf x.m lo v.value / 2 → r % 2 = 0)) ∧
    (big ≤ |v.value| → r = (if v.value < 0 then 2 ^ (x.w - 1) else 0) + x.maxCode)) ∧
  (∀ x ∈ [fp16, bf16, e5m2, e4m3, e2m1], ∀ mode h sat neg, x.round mode h sat .nan = x.nan.getD 0 ∧
    x.round mode h true (.inf neg) = (if neg then 2 ^ (x.w - 1) else 0) + x.maxCode ∧
    (x.inf.isSome = true → x.decode (x.round mode h false (.inf neg)) = .inf neg) ∧
    (x = e4m3 → x.round mode h false (.inf neg) = if neg then 0xFF else 0x7F)) ∧
  ([1, 3, 5, 7, 10, 14, 20].map (fun n => e2m1.round 0 0 true (.num false n (-2))) = [0, 2, 2, 4, 4, 6, 6])

/-- FP32 arithmetic (10 R198): the exact operation, rounded once in the mode of MOD[2:0], in the immediate forms RN;
tag F32. -/
def Obligations.FloatArithmetic : Prop :=
  VectorOf .vfadd 0x080 .f32 (fun _ => tagF32)
    (fun f a b _ => toF32 (f.x.toNat % 8) ((f32 a).add (f.x.toNat % 8) (f32 b))) ∧
  VectorOf .vfsub 0x081 .f32 (fun _ => tagF32)
    (fun f a b _ => toF32 (f.x.toNat % 8) ((f32 a).add (f.x.toNat % 8) (f32 b).neg)) ∧
  VectorOf .vfmul 0x082 .f32 (fun _ => tagF32) (fun f a b _ => toF32 (f.x.toNat % 8) ((f32 a).mul (f32 b))) ∧
  VectorOf .vfma 0x083 .f32 (fun _ => tagF32)
    (fun f a b c => toF32 (f.x.toNat % 8) (((f32 a).mul (f32 b)).add (f.x.toNat % 8) (f32 c))) ∧
  VectorOf .vfaddImm 0x180 .f32 (fun _ => tagF32) (fun f a _ _ => toF32 0 ((f32 a).add 0 (f32 f.x))) ∧
  VectorOf .vfsubImm 0x181 .f32 (fun _ => tagF32) (fun f a _ _ => toF32 0 ((f32 a).add 0 (f32 f.x).neg)) ∧
  VectorOf .vfmulImm 0x182 .f32 (fun _ => tagF32) (fun f a _ _ => toF32 0 ((f32 a).mul (f32 f.x))) ∧
  VectorOf .vfmaImm 0x183 .f32 (fun _ => tagF32) (fun f a b _ => toF32 0 (((f32 a).mul (f32 b)).add 0 (f32 f.x))) ∧
  Computes .vfscale 0x088 (VectorPost (fun c f l =>
    toF32 (f.x.toNat % 8) ((f32 (c.operand 0x088 f 0 .f32 l)).scale (c.operand 0x088 f 1 .int l).toInt))
    (fun _ _ _ => tagF32)) ∧
  Computes .vfscaleImm 0x188 (VectorPost (fun c f l =>
    toF32 0 ((f32 (c.operand 0x188 f 0 .f32 l)).scale f.x.toInt)) (fun _ _ _ => tagF32))

/-- Choice, comparison, class, exponent and integral rounding of FP32 (10 R199-R201). -/
def Obligations.FloatInspection : Prop :=
  VectorOf .vfmin 0x084 .f32 (fun _ => tagF32) (fun _ a b _ => Reference.pick false a b) ∧
  VectorOf .vfmax 0x085 .f32 (fun _ => tagF32) (fun _ a b _ => Reference.pick true a b) ∧
  VectorOf .vfminImm 0x184 .f32 (fun _ => tagF32) (fun f a _ _ => Reference.pick false a f.x) ∧
  VectorOf .vfmaxImm 0x185 .f32 (fun _ => tagF32) (fun f a _ _ => Reference.pick true a f.x) ∧
  CompareOf .vfcmp 0x086 .f32 (fun f a b => FVal.holds (f.x.toNat % 16) (f32 a) (f32 b)) ∧
  VectorOf .vfclass 0x087 .f32 (fun _ => tagI32) (fun _ a _ _ => Reference.classOf a) ∧
  VectorOf .vfexp 0x089 .f32 (fun _ => tagI32) (fun _ a _ _ => Reference.expOf a) ∧
  VectorOf .vfrnd 0x08A .f32 (fun _ => tagF32) (fun f a _ _ => fpRound (f.x.toNat % 8) a) ∧
  (∀ mode a, (f32 a = .nan → fpRound mode a = 0x7FC00000) ∧ (∀ s, f32 a = .inf s → fpRound mode a = a)) ∧
  (∀ mode a, mode < 4 → (f32 a).finite → let y := fpRound mode a
    (f32 y).finite ∧ Reference.sign y = Reference.sign a ∧ ∃ n : Int, (f32 y).value = n ∧
      match mode with
      | 0 => |(n : ℚ) - (f32 a).value| ≤ 1 / 2 ∧ (|(n : ℚ) - (f32 a).value| = 1 / 2 → n % 2 = 0)
      | 1 => |(n : ℚ)| ≤ |(f32 a).value| ∧ |(f32 a).value| - |(n : ℚ)| < 1
      | 2 => n = ⌈(f32 a).value⌉
      | _ => n = ⌊(f32 a).value⌋)

/-- The functions of 10 R203 complete, each with its special values: a NaN gives the canonical NaN, the rest as the rule's
table states, and a power of two or an integer its exact result. That the computed value rounds as the exact one is the
model's (log 9). -/
def Obligations.SfuResults : Prop :=
  VectorOf .vrcp 0x08B .f32 (fun _ => tagF32) (fun _ a _ _ => sfuRcp a) ∧
  VectorOf .vrsq 0x08C .f32 (fun _ => tagF32) (fun _ a _ _ => sfuRsq a) ∧
  VectorOf .vsqrt 0x08D .f32 (fun _ => tagF32) (fun _ a _ _ => sfuSqrt a) ∧
  VectorOf .vexp2 0x08E .f32 (fun _ => tagF32) (fun _ a _ _ => sfuExp2 a) ∧
  VectorOf .vlog2 0x08F .f32 (fun _ => tagF32) (fun _ a _ _ => sfuLog2 a) ∧
  VectorOf .vsin 0x090 .f32 (fun _ => tagF32) (fun _ a _ _ => sfuSin a) ∧
  VectorOf .vcos 0x091 .f32 (fun _ => tagF32) (fun _ a _ _ => sfuCos a) ∧
  (∀ a, Reference.isNan a = true → sfuRcp a = 0x7FC00000 ∧ sfuRsq a = 0x7FC00000 ∧ sfuSqrt a = 0x7FC00000 ∧
    sfuExp2 a = 0x7FC00000 ∧ sfuLog2 a = 0x7FC00000 ∧ sfuSin a = 0x7FC00000 ∧ sfuCos a = 0x7FC00000) ∧
  sfuRcp 0x00000000 = 0x7F800000 ∧ sfuRcp 0x80000000 = 0xFF800000 ∧ sfuRcp 0x7F800000 = 0x00000000 ∧
  sfuRcp 0xFF800000 = 0x80000000 ∧
  sfuRsq 0x00000000 = 0x7F800000 ∧ sfuRsq 0x80000000 = 0xFF800000 ∧ sfuRsq 0x7F800000 = 0x00000000 ∧
  sfuSqrt 0x00000000 = 0x00000000 ∧ sfuSqrt 0x80000000 = 0x80000000 ∧ sfuSqrt 0x7F800000 = 0x7F800000 ∧
  sfuExp2 0xFF800000 = 0x00000000 ∧ sfuExp2 0x7F800000 = 0x7F800000 ∧
  sfuLog2 0x00000000 = 0xFF800000 ∧ sfuLog2 0x80000000 = 0xFF800000 ∧ sfuLog2 0x7F800000 = 0x7F800000 ∧
  sfuLog2 0x3F800000 = 0x00000000 ∧
  sfuSin 0x7F800000 = 0x7FC00000 ∧ sfuSin 0xFF800000 = 0x7FC00000 ∧ sfuCos 0x7F800000 = 0x7FC00000 ∧
  sfuCos 0xFF800000 = 0x7FC00000 ∧
  (∀ a, Reference.isNan a = false → Reference.sign a = true → a ≠ 0x80000000 →
    sfuRsq a = 0x7FC00000 ∧ sfuSqrt a = 0x7FC00000 ∧ sfuLog2 a = 0x7FC00000) ∧
  (∀ (a : Word) (k : Int), (f32 a).finite → (f32 a).value = k / 2 →
    sfuSin a = if Reference.sign a then 0x80000000 else 0x00000000) ∧
  (∀ (a : Word) (k : Int), (f32 a).finite → (f32 a).value = 1 / 4 + k / 2 →
    sfuSin a = (if k % 2 = 0 then 0x3F800000 else 0xBF800000) ∧ sfuCos a = 0x00000000) ∧
  (∀ (a : Word) (k : Int), (f32 a).finite → (f32 a).value = k → sfuCos a = 0x3F800000) ∧
  (∀ (a : Word) (k : Int), (f32 a).finite → (f32 a).value = k + 1 / 2 → sfuCos a = 0xBF800000) ∧
  (∀ a : Word, (f32 a).finite → 128 ≤ (f32 a).value → sfuExp2 a = 0x7F800000) ∧
  (∀ a : Word, (f32 a).finite → (f32 a).value ≤ -150 → sfuExp2 a = 0x00000000) ∧
  (∀ (a : Word) (k : Int), (f32 a).finite → (f32 a).value = k → -149 ≤ k → k ≤ 127 →
    (f32 (sfuExp2 a)).finite ∧ (f32 (sfuExp2 a)).value = 2 ^ k) ∧
  (∀ (a : Word) (k : Int), (f32 a).finite → (f32 a).value = 2 ^ k →
    (f32 (sfuLog2 a)).finite ∧ (f32 (sfuLog2 a)).value = k)

/-- A reciprocal, a square root and its reciprocal are rounded to nearest from their exact values; a reciprocal beyond
the largest finite magnitude is an infinity (10 R203). -/
def Obligations.SfuNearest : Prop :=
  (∀ a, (f32 a).finite → (f32 a).value ≠ 0 → (f32 (sfuRcp a)).finite →
    roundsTo 23 (-149) 0 ((f32 a).value)⁻¹ (f32 (sfuRcp a)).value) ∧
  (∀ a, (f32 a).finite → (f32 a).value ≠ 0 → ¬ (f32 (sfuRcp a)).finite →
    sfuRcp a = (if Reference.sign a then 0xFF800000 else 0x7F800000) ∧
    (2 ^ 24 - 1 : ℚ) * 2 ^ (104 : Int) < |((f32 a).value)⁻¹|) ∧
  (∀ a, (f32 a).finite → 0 < (f32 a).value → (f32 (sfuSqrt a)).finite ∧
    |((f32 (sfuSqrt a)).value : ℝ) - Real.sqrt (f32 a).value| ≤ (ulpOf 23 (-149) (f32 (sfuSqrt a)).value : ℝ) / 2) ∧
  (∀ a, (f32 a).finite → 0 < (f32 a).value → (f32 (sfuRsq a)).finite ∧
    |((f32 (sfuRsq a)).value : ℝ) - (Real.sqrt (f32 a).value)⁻¹| ≤ (ulpOf 23 (-149) (f32 (sfuRsq a)).value : ℝ) / 2)

/-- Packed FP16 and BF16 (10 R202). -/
def Obligations.PackedFloat : Prop :=
  PackedOf .vfaddH2 0x098 fp16 .f16 tagF16x2 (fun f => f.x.toNat % 8) (fun f a b _ => a.add (f.x.toNat % 8) b) ∧
  PackedOf .vfsubH2 0x099 fp16 .f16 tagF16x2 (fun f => f.x.toNat % 8) (fun f a b _ => a.add (f.x.toNat % 8) b.neg) ∧
  PackedOf .vfmulH2 0x09A fp16 .f16 tagF16x2 (fun f => f.x.toNat % 8) (fun _ a b _ => a.mul b) ∧
  PackedOf .vfmaH2 0x09B fp16 .f16 tagF16x2 (fun f => f.x.toNat % 8) (fun f a b c => (a.mul b).add (f.x.toNat % 8) c) ∧
  PackedOf .vfaddH2Imm 0x198 fp16 .f16 tagF16x2 (fun _ => 0) (fun _ a b _ => a.add 0 b) ∧
  PackedOf .vfsubH2Imm 0x199 fp16 .f16 tagF16x2 (fun _ => 0) (fun _ a b _ => a.add 0 b.neg) ∧
  PackedOf .vfmulH2Imm 0x19A fp16 .f16 tagF16x2 (fun _ => 0) (fun _ a b _ => a.mul b) ∧
  PackedOf .vfmaH2Imm 0x19B fp16 .f16 tagF16x2 (fun _ => 0) (fun _ a b c => (a.mul b).add 0 c) ∧
  PackedOf .vfaddB2 0x0A0 bf16 .b16 tagB16x2 (fun f => f.x.toNat % 8) (fun f a b _ => a.add (f.x.toNat % 8) b) ∧
  PackedOf .vfsubB2 0x0A1 bf16 .b16 tagB16x2 (fun f => f.x.toNat % 8) (fun f a b _ => a.add (f.x.toNat % 8) b.neg) ∧
  PackedOf .vfmulB2 0x0A2 bf16 .b16 tagB16x2 (fun f => f.x.toNat % 8) (fun _ a b _ => a.mul b) ∧
  PackedOf .vfmaB2 0x0A3 bf16 .b16 tagB16x2 (fun f => f.x.toNat % 8) (fun f a b c => (a.mul b).add (f.x.toNat % 8) c) ∧
  PackedOf .vfaddB2Imm 0x1A0 bf16 .b16 tagB16x2 (fun _ => 0) (fun _ a b _ => a.add 0 b) ∧
  PackedOf .vfsubB2Imm 0x1A1 bf16 .b16 tagB16x2 (fun _ => 0) (fun _ a b _ => a.add 0 b.neg) ∧
  PackedOf .vfmulB2Imm 0x1A2 bf16 .b16 tagB16x2 (fun _ => 0) (fun _ a b _ => a.mul b) ∧
  PackedOf .vfmaB2Imm 0x1A3 bf16 .b16 tagB16x2 (fun _ => 0) (fun _ a b c => (a.mul b).add 0 c) ∧
  PackedPick .vfminH2 0x09C fp16 .f16 tagF16x2 false ∧ PackedPick .vfmaxH2 0x09D fp16 .f16 tagF16x2 true ∧
  PackedPick .vfminH2Imm 0x19C fp16 .f16 tagF16x2 false ∧ PackedPick .vfmaxH2Imm 0x19D fp16 .f16 tagF16x2 true ∧
  PackedPick .vfminB2 0x0A4 bf16 .b16 tagB16x2 false ∧ PackedPick .vfmaxB2 0x0A5 bf16 .b16 tagB16x2 true ∧
  PackedPick .vfminB2Imm 0x1A4 bf16 .b16 tagB16x2 false ∧ PackedPick .vfmaxB2Imm 0x1A5 bf16 .b16 tagB16x2 true ∧
  PackedTest .vfcmpH2 0x09E fp16 .f16 ∧ PackedTest .vfcmpB2 0x0A6 bf16 .b16

/-! Conversion and lane exchange. -/

/-- `vcvt` (10 R205): every element of A that PLACE names, converted; the others of D keep their bits. An inline constant
is first converted to the format FROM (04 R74). The kept bits of a latch destination that holds none are a free value
(log 2). -/
def Obligations.Conversion : Prop :=
  Computes .vcvt 0x05A (VectorPost
    (fun c f l => convertLane (f.x.toNat % 2 ^ 20) (fun x e => c.rs x l e) ((c.issued 0x05A f).convertSource f l)
      (c.readV f.d.toNat l))
    (fun _ f _ => BitVec.ofNat 5 f.x.toNat)) ∧
  (∀ (c : Cx) f l, f.al = true ∨ f.a.toNat < 384 → c.convertSource f l = c.opn 0x05A f 0 .int l) ∧
  (∀ n, 1536 ≤ n → n ≤ 2047 →
    (f32 (constElems fp32 n)).finite ∧ (f32 (constElems fp32 n)).value = (n : ℚ) - 1792) ∧
  constElems e2m1 2047 = 0x77777777 ∧ constElems e4m3 2047 = 0x78787878 ∧
  (∀ x : Word, convertLane (0x07 * 32 + 0x08) (fun _ _ => 0) x 0 = Reference.nat (max 0 x.toInt).toNat) ∧
  (∀ x : Word, convertLane (0x08 * 32 + 0x07) (fun _ _ => 0) x 0 = Reference.nat (min x.toNat (2 ^ 31 - 1))) ∧
  (∀ x d : Word, convertLane (2 * 16384 + 0x07 * 32 + 0x0C) (fun _ _ => 0) x d =
    Reference.nat (d.toNat % 2 ^ 16 + 2 ^ 16 * (min 255 (max 0 x.toInt)).toNat + 2 ^ 24 * (d.toNat / 2 ^ 24))) ∧
  (∀ (x : Word), Reference.isNan x = true → convertLane (0x01 * 32 + 0x07) (fun _ _ => 0) x 0 = 0) ∧
  (∀ (mode : Nat) (x : Word), mode < 4 → (f32 x).finite → |(f32 x).value| < 2 ^ 31 - 1 →
    let y := convertLane (mode * 1024 + 0x01 * 32 + 0x07) (fun _ _ => 0) x 0
    match mode with
    | 0 => |(y.toInt : ℚ) - (f32 x).value| ≤ 1 / 2
    | 1 => |(y.toInt : ℚ)| ≤ |(f32 x).value| ∧ |(f32 x).value| - |(y.toInt : ℚ)| < 1
    | 2 => y.toInt = ⌈(f32 x).value⌉
    | _ => y.toInt = ⌊(f32 x).value⌋) ∧
  (∀ (mode : Nat) (x : Word), mode < 4 → x ≠ 0 →
    let y := f32 (convertLane (mode * 1024 + 0x07 * 32 + 0x01) (fun _ _ => 0) x 0)
    y.finite ∧ roundsTo 23 (-149) mode x.toInt y.value) ∧
  (∀ (mode : Nat) (x : Word), mode < 4 → (f32 x).finite → (f32 x).value ≠ 0 → |(f32 x).value| ≤ 65504 →
    let y := fp16.decode ((convertLane (mode * 1024 + 0x01 * 32 + 0x02) (fun _ _ => 0) x 0).toNat % 2 ^ 16)
    y.finite ∧ roundsTo 10 (-24) mode (f32 x).value y.value)

/-- Block quantisation and its inverse (10 R208-R210); the scale and the elements that a quantiser gives finite values, and the
flag it gives a block that holds a NaN or an infinity (08 R144, R146); the value of an element (08 R143, R145). Elements of an MX
block round as every conversion does. -/
def Obligations.BlockConversion : Prop :=
  PackOf .vpackMx 0x05B true (fun t => (mxFmt t).w) tagE8m0x4 ∧
  PackOf .vpackPx 0x05C false (fun t => pxM t + 1) tagPxScale ∧
  UnpackOf .vunpackMx 0x05D true (fun t => (mxFmt t).w) (fun t s _ x => mxValue t s x) ∧
  UnpackOf .vunpackPx 0x05E false (fun t => pxM t + 1) (fun t s j x => pxValue t s j x) ∧
  (∀ t mode h (xs : List FVal), (∃ x ∈ xs, ¬ x.finite) →
    mxQuant t mode h xs = (0xFF, xs.map (fun _ => 0)) ∧ pxQuant t mode h xs = (0xFF, xs.map (fun _ => 0))) ∧
  (∀ t ∈ [0x06, 0x04, 0x05], ∀ mode h (xs : List FVal), (∀ x ∈ xs, x.finite ∧ |x.value| < 2 ^ 128) → ∃ se : Int,
    mxQuant t mode h xs = ((se + 127).toNat, xs.mapIdx (fun j x =>
      (if t = 0x06 then e2m1 else if t = 0x04 then e4m3 else e5m2).round mode (h j) true (x.scale (-se)))) ∧
    -127 ≤ se ∧ se < 127 ∧ ((∀ x ∈ xs, x.value = 0) → se = -127) ∧
    ∀ a ∈ xs, a.value ≠ 0 → (∀ x ∈ xs, |x.value| ≤ |a.value|) →
      se = max (-127) (Int.log 2 |a.value| - (if t = 0x06 then 2 else if t = 0x04 then 8 else 15))) ∧
  (∀ t ∈ [0x06, 0x04, 0x05], ∀ s code, let e := (mxFmt t).decode code
    (s = 0xFF → mxValue t s code = .nan) ∧
    (s < 0xFF → (e.finite → (mxValue t s code).finite ∧ (mxValue t s code).value = e.value * 2 ^ ((s : Int) - 127)) ∧
      (¬ e.finite → mxValue t s code = e))) ∧
  (∀ x ∈ ([(0x0E, 2), (0x0F, 4), (0x10, 7)] : List (Nat × Nat)), ∀ (mode : Nat) h (xs : List FVal), mode < 4 → xs.length = 16 →
    (∀ x ∈ xs, x.finite ∧ |x.value| < 2 ^ 128) →
    let m : Nat := x.2
    let q := pxQuant x.1 mode h xs
    let e := q.1 % 256
    let d (j : Nat) : Nat := q.1 / 2 ^ (8 + j) % 2
    let v (i : Nat) : ℚ := (xs.getD i (.zero false)).value
    e < 254 ∧ q.1 < 2 ^ 16 ∧ q.2.length = 16 ∧ ((∀ x ∈ xs, x.value = 0) → e = 0) ∧
    (∀ a ∈ xs, a.value ≠ 0 → (∀ x ∈ xs, |x.value| ≤ |a.value|) → (e : Int) = max 0 (Int.log 2 |a.value| - m + 128)) ∧
    (∀ j < 8, d j = 1 ↔ max |v (2 * j)| |v (2 * j + 1)| * 2 ^ (128 - (e : Int)) < 2 ^ m - 1 / 2) ∧
    ∀ i < 16, ∃ n : Int, (let y : ℚ := v i * 2 ^ (127 + (d (i / 2) : Int) - e)
      match mode with
      | 0 => |(n : ℚ) - y| ≤ 1 / 2 ∧ (|(n : ℚ) - y| = 1 / 2 → n % 2 = 0)
      | 1 => |(n : ℚ)| ≤ |y| ∧ |y| - |(n : ℚ)| < 1
      | 2 => n = ⌈y⌉
      | _ => n = ⌊y⌋) ∧
      (let big := min (2 ^ m - 1) n.natAbs
       q.2.getD i 0 = if big = 0 then 0 else (if v i < 0 then 2 ^ m else 0) + big)) ∧
  (∀ x ∈ ([(0x0E, 2), (0x0F, 4), (0x10, 7)] : List (Nat × Nat)), ∀ scale i code, let m : Nat := x.2
    (scale % 256 = 255 → pxValue x.1 scale i code = .nan) ∧
    (scale % 256 ≠ 255 → (pxValue x.1 scale i code).finite ∧ (pxValue x.1 scale i code).value =
      (if code.testBit m then -1 else 1) * (code % 2 ^ m : Nat) * 2 ^ ((scale % 256 : Nat) - 127 - (scale / 2 ^ (8 + i / 2) % 2 : Nat) : Int)))

/-- The shuffles (10 R212), and a lane read or written by number (10 R213). -/
def Obligations.LaneExchange : Prop :=
  ExchangeOf .vshflIdx 0x060 (fun _ f => segLen f) (fun n _ b => b % n) ∧
  ExchangeOf .vshflIdxImm 0x160 (fun c _ => c.w.width) (fun n _ b => b % n) ∧
  ExchangeOf .vshflUp 0x061 (fun _ f => segLen f) (fun _ i b => if b ≤ i then i - b else i) ∧
  ExchangeOf .vshflDown 0x062 (fun _ f => segLen f) (fun n i b => if i + b < n then i + b else i) ∧
  ExchangeOf .vshflXor 0x063 (fun _ f => segLen f) (fun n i b => i ^^^ (b % n)) ∧
  Computes .vreadl 0x064 (ScalarPost (fun c f =>
    c.operand 0x064 f 0 .int ((c.operand 0x064 f 1 .int 0).toNat % c.w.width % 64))) ∧
  Computes .vreadlImm 0x164 (ScalarPost (fun c f => c.operand 0x164 f 0 .int (f.x.toNat % c.w.width % 64))) ∧
  Computes .vwritel 0x065 (LanesPost (fun _ f => destV f)
    (fun c f l => l = (c.operand 0x065 f 1 .int 0).toNat % c.w.width % 64 ∧ c.activeLanes f ≠ 0)
    (fun c f _ _ => c.operand 0x065 f 0 .int 0) (fun _ _ _ _ => tagAny)) ∧
  Computes .vwritelImm 0x165 (LanesPost (fun _ f => destV f)
    (fun c f l => l = f.x.toNat % c.w.width % 64 ∧ c.activeLanes f ≠ 0)
    (fun c f _ _ => c.operand 0x165 f 0 .int 0) (fun _ _ _ _ => tagAny))

/-- Votes and matches over the lanes of a segment that take part (10 R214, R216); sums, maxima and scans over a segment (10 R215;
08 R151), by the type of MOD[4:3]. -/
def Obligations.VotesAndReductions : Prop :=
  Computes .vvoteAny 0x066 (PredPost (fun c f l =>
    ∃ j, c.peer f (segLen f) l j ∧ tbit (c.readP (f.a.toNat - 392)) j = true)) ∧
  Computes .vvoteAll 0x067 (PredPost (fun c f l =>
    ∀ j, c.peer f (segLen f) l j → tbit (c.readP (f.a.toNat - 392)) j = true)) ∧
  Computes .vvoteBallot 0x068 (MaskPost (fun c f => c.activeLanes f &&& c.readP (f.a.toNat - 392))) ∧
  (∀ s c f, Issues s c 0x06C f → ∃ t d, exec (.vmatch f) s = .next t ∧ partAt t s.cur = some d ∧
    OnlyCore s t c.core ∧ OnlyWave c.k d.k c.slot ∧ OtherParts c d f ∧ NextInPart c.p d.p ∧
    ∃ k : Nat → Nat, VectorPost (fun _ _ l => Reference.nat (k l)) (fun _ _ _ => tagI32) c f d ∧
      ∀ l, c.takes f l → c.peer f (segLen f) l (k l) ∧
        c.operand 0x06C f 0 .int (k l) = c.operand 0x06C f 0 .int l ∧
        ∀ j, c.peer f (segLen f) l j → c.operand 0x06C f 0 .int j = c.operand 0x06C f 0 .int l → k l ≤ j) ∧
  ReduceWhen .vredadd 0x069 .int (fun f => f.x.toNat / 8 % 4 ≠ 2) 0
    (fun _ _ l => Reference.nat (l.map BitVec.toNat).sum) ∧
  ReduceWhen .vredadd 0x069 .f32 (fun f => f.x.toNat / 8 % 4 = 2) 0x80000000 (fun _ _ l => floatTree 7 l) ∧
  ReduceWhen .vredmax 0x06A .int (fun f => f.x.toNat / 8 % 4 = 0) 0x80000000
    (fun _ _ l => Reference.int ((l.map BitVec.toInt).foldl max (-2 ^ 31))) ∧
  ReduceWhen .vredmax 0x06A .int (fun f => f.x.toNat / 8 % 4 = 1) 0
    (fun _ _ l => Reference.nat ((l.map BitVec.toNat).foldl max 0)) ∧
  ReduceWhen .vredmax 0x06A .f32 (fun f => f.x.toNat / 8 % 4 = 2) 0xFF800000
    (fun _ _ l => l.tail.foldl (Reference.pick true) (l.headD 0)) ∧
  ReduceWhen .vscan 0x06B .int (fun f => f.x.toNat / 8 % 4 ≠ 2) 0
    (fun f i l => Reference.nat ((l.take (if tbit f.x 5 then i else i + 1)).map BitVec.toNat).sum) ∧
  ReduceWhen .vscan 0x06B .f32 (fun f => f.x.toNat / 8 % 4 = 2) 0x80000000
    (fun f i l => (l.take (if tbit f.x 5 then i else i + 1)).foldl f32Add 0x80000000)

/-! Control flow. -/

/-- Branches (09 R170-R176, R179, R183): where the running path goes, which lanes wait where, and the return index that
`call` saves. -/
def Obligations.ControlFlow : Prop :=
  Moves .bra 0x001 (fun c f p => Branches c.p (c.p.pc + f.x) (c.activeLanes f) p ∧ SameRegs c.p p) ∧
  Moves .brx 0x003 (fun c f p => Branches c.p (c.operand 0x003 f 0 .int 0) (c.activeLanes f) p ∧ SameRegs c.p p) ∧
  Moves .ret 0x007 (fun c f p => Branches c.p (c.operand 0x007 f 0 .int 0) (c.activeLanes f) p ∧ SameRegs c.p p) ∧
  Moves .jmp 0x004 (fun c f p => Branches c.p (c.p.pc + f.x) (if c.activeLanes f = 0 then 0 else c.p.exec) p ∧
    SameRegs c.p p) ∧
  Moves .call 0x005 (fun c f p => Branches c.p (c.p.pc + f.x) (c.activeLanes f) p ∧
    (∀ n, kget 0 p.s n = if n = f.d.toNat - 256 ∧ c.activeLanes f ≠ 0 then c.p.pc + 1 else c.readS n) ∧
    p.m = c.p.m ∧ p.h = c.p.h ∧ p.pstat = c.p.pstat) ∧
  Moves .callIndirect 0x006 (fun c f p => Branches c.p (c.operand 0x006 f 0 .int 0) (c.activeLanes f) p ∧
    (∀ n, kget 0 p.s n = if n = f.d.toNat - 256 ∧ c.activeLanes f ≠ 0 then c.p.pc + 1 else c.readS n) ∧
    p.m = c.p.m ∧ p.h = c.p.h ∧ p.pstat = c.p.pstat) ∧
  Moves .yield 0x00A (fun c _ p => GoesOn (c.p.pc + 1) c.p.run c.p.exec c.p.paths True p ∧ SameRegs c.p p) ∧
  Computes .nop 0x000 (fun c _ d => PartRegs c.p d.p ∧ OnlyParts c.w d.w)

/-- `bra.s` outside handler mode (09 R172; 07 R119, R121, R122): the push of an entry for the part's lanes, then the
split into two parts, or the branch of R170. -/
def Obligations.SplitBranch : Prop :=
  ∀ s c f, Issues s c 0x002 f → c.p.handler = none → c.w.rejoin.length < 16 →
    ∃ t w', exec (.braS f) s = .next t ∧ WaveAfter s t c w' ∧
      w' = { c.w with parts := w'.parts, rejoin := w'.rejoin, token := c.w.token + 1 } ∧
      (∃ e, w'.rejoin = e :: c.w.rejoin ∧ e.lanes = c.p.lanes ∧ e.expect = quadsOf c.p.lanes ∧ e.arrived = 0 ∧
        e.started = false ∧ e.expired = false ∧ e.miss = false ∧ e.token = c.w.token) ∧
      let take := c.activeLanes f
      if take ≠ 0 ∧ take ≠ c.p.exec ∧ c.g.kernel.splitBr = true ∧ c.p.paths = [] ∧ splitFits c take = true then
        ∃ p ∈ w'.parts, ∃ q ∈ w'.parts, SameRegs c.p p ∧ SameRegs c.p q ∧
          p.lanes = take ∧ p.run = take ∧ p.exec = take ∧ p.paths = [] ∧ p.pc = c.p.pc + f.x ∧
          q.lanes = c.p.lanes &&& ~~~take ∧ q.run = q.lanes ∧ q.exec = c.p.exec &&& ~~~take ∧ q.paths = [] ∧
          q.pc = c.p.pc + 1
      else ∃ p ∈ w'.parts, SameRegs c.p p ∧ p.lanes = c.p.lanes ∧ Branches c.p (c.p.pc + f.x) take p

/-- `rejoin` and `fuse` outside handler mode (07 R123-R125, R127, R131; 09 R177, R178). `rejoin` goes on where no entry matches; where
one does, the part has arrived there, the first arrival starting the deadline. The model's reading of R125 (log 41): every matching
arrival is parked to the end of its cycle, also at an EXPIRED entry or under REJOIN 0, and is settled there, entry after entry. An
entry at which every lane has arrived is then gone, and the parts parked there are one part, at the next instruction, or, from an
entry of kind MISS, at the older entry that it matches; at an incomplete entry that has expired, at any under REJOIN 0, and where the
deadline ends, the parts go on unfused. A part at `fuse` waits; when every part of the wave stands at a `fuse`, the wave is one part
again, at the next instruction, and the rejoin stack is free. A part with pending paths parks its running path and runs another; when
every path is parked they are one path, at the parked PC of the lowest lane, and the part then stands there. -/
def Obligations.RejoinAndFuse : Prop :=
  (∀ s c f, Issues s c 0x008 f → c.p.handler = none → c.p.paths = [] → matchEntry c.w c.p.lanes = none →
    ∃ t d, exec (.rejoin f) s = .next t ∧ partAt t s.cur = some d ∧ OnlyCore s t c.core ∧ OnlyWave c.k d.k c.slot ∧
      OnlyParts c.w d.w ∧ NextInPart c.p d.p ∧ PartRegs c.p d.p) ∧
  (∀ s c f e, Issues s c 0x008 f → c.p.handler = none → c.p.paths = [] → matchEntry c.w c.p.lanes = some e →
    ∃ t d, exec (.rejoin f) s = .next t ∧ partAt t s.cur = some d ∧ OnlyCore s t c.core ∧ OnlyWave c.k d.k c.slot ∧
      d.p.wait = .parked e.idx ∧ d.p.pc = c.p.pc ∧ PartRegs c.p d.p ∧
      d.w = { c.w with parts := d.w.parts, rejoin := d.w.rejoin } ∧
      (∃ e' ∈ d.w.rejoin, e'.idx = e.idx ∧ e'.arrived = e.arrived ||| c.p.lanes ∧ e'.started = true ∧
        (e.started = false → e'.rpc = c.p.pc ∧ e'.deadline = BitVec.ofNat 16 c.g.kernel.rejoin) ∧
        (e.started = true → e'.rpc = e.rpc ∧ e'.deadline = e.deadline))) ∧
  (∀ (w : Wave) e rejoin cyc runs, w.rejoin.find? (fun x => x.idx = e.idx) = some e → e.miss = false →
    e.expect &&& quadsOf (liveLanes w) ≠ 0 → liveLanes w &&& quadLanes e.expect &&& ~~~e.arrived = 0 →
    (∀ p ∈ w.parts, p.lanes ≠ 0 ∧ ∀ q ∈ w.parts, lowestLane p.lanes = lowestLane q.lanes → p = q) →
    (∃ p ∈ w.parts, p.wait = .parked e.idx) →
    let w' := settleEntry rejoin cyc runs w e.idx
    w' = { w with parts := w'.parts, rejoin := w'.rejoin } ∧
    w'.rejoin = w.rejoin.filter (fun x => x.idx != e.idx) ∧ (∀ p ∈ w'.parts, p.wait ≠ .parked e.idx) ∧
    ∃ q ∈ w'.parts, q.wait = .ready ∧ cyc < q.nextIssue ∧
      (∀ i, tbit q.lanes i = true ↔ ∃ p ∈ w.parts, p.wait = .parked e.idx ∧ tbit p.lanes i = true) ∧
      (∀ i, tbit q.exec i = true ↔ ∃ p ∈ w.parts, p.wait = .parked e.idx ∧ tbit p.exec i = true) ∧
      ∃ b ∈ w.parts, b.wait = .parked e.idx ∧
        (∀ p ∈ w.parts, p.wait = .parked e.idx → lowestLane b.lanes ≤ lowestLane p.lanes) ∧
        q.pc = b.pc + 1 ∧ SameRegs b q) ∧
  (∀ (w : Wave) e rejoin cyc runs (all : Lanes), w.rejoin.find? (fun x => x.idx = e.idx) = some e → e.miss = true →
    e.expect &&& quadsOf (liveLanes w) ≠ 0 → liveLanes w &&& quadLanes e.expect &&& ~~~e.arrived = 0 →
    (∀ p ∈ w.parts, p.lanes ≠ 0 ∧ ∀ q ∈ w.parts, lowestLane p.lanes = lowestLane q.lanes → p = q) →
    (∃ p ∈ w.parts, p.wait = .parked e.idx) →
    (∀ i, tbit all i = true ↔ ∃ p ∈ w.parts, p.wait = .parked e.idx ∧ tbit p.lanes i = true) →
    let w' := settleEntry rejoin cyc runs w e.idx
    let left := { w with rejoin := w.rejoin.filter (fun x => x.idx != e.idx) }
    ∃ q ∈ w'.parts, q.lanes = all ∧ ∃ b ∈ w.parts, b.wait = .parked e.idx ∧
      (∀ p ∈ w.parts, p.wait = .parked e.idx → lowestLane b.lanes ≤ lowestLane p.lanes) ∧ SameRegs b q ∧
      (matchEntry left all = none → q.wait = .ready ∧ q.pc = b.pc + 1 ∧ w'.rejoin = left.rejoin) ∧
      ∀ o, matchEntry left all = some o → q.wait = .parked o.idx ∧ q.pc = b.pc ∧
        ∃ o' ∈ w'.rejoin, o'.idx = o.idx ∧ o'.arrived = o.arrived ||| all ∧ o'.started = true) ∧
  (∀ (w : Wave) x rejoin cyc runs, w.rejoin.find? (fun y => y.idx = x.idx) = some x →
    let e := { x with expect := x.expect &&& quadsOf (liveLanes w) }
    e.expect ≠ 0 → entryComplete w e = false → x.started = true →
    x.expired = true ∨ rejoin = 0 ∨ (runs = true ∧ x.deadline = 0) → (w.parts.map (fun p => lowestLane p.lanes)).Nodup →
    (x.miss = true → ∀ p ∈ w.parts, p.wait = .parked x.idx → matchEntry w p.lanes = none) →
    settleEntry rejoin cyc runs w x.idx = { w with
      rejoin := w.rejoin.map (fun y => if y.idx = x.idx then { e with expired := true } else y)
      parts := w.parts.map (fun p => if p.wait = .parked x.idx
        then { p with pc := p.pc + 1, wait := .ready, nextIssue := max p.nextIssue (cyc + 1) } else p) }) ∧
  (∀ x ∈ [(Instr.rejoin, 0x008, 1), (.fuse, 0x009, 2)], ∀ s c f, Issues s c x.2.1 f → c.p.handler = none → c.p.paths ≠ [] →
    (∃ y ∈ c.p.paths, y.parkedAt = 0) →
    ∃ t d, exec (x.1 f) s = .next t ∧ partAt t s.cur = some d ∧ OnlyCore s t c.core ∧ OnlyWave c.k d.k c.slot ∧
      OnlyParts c.w d.w ∧ d.p.lanes = c.p.lanes ∧ SameRegs c.p d.p ∧
      Resumes (c.p.paths ++ [⟨c.p.pc, c.p.run, c.p.exec, x.2.2⟩]) d.p) ∧
  (∀ s c f, c.p.handler = none → c.p.paths ≠ [] → c.p.run ≠ 0 →
    let merged := fun (kind : Nat) (q : Part) =>
      let all := c.p.paths ++ [⟨c.p.pc, c.p.run, c.p.exec, kind⟩]
      q.paths = [] ∧ SameRegs c.p q ∧ (∀ i, tbit q.run i = true ↔ ∃ y ∈ all, tbit y.lanes i = true) ∧
      (∀ i, tbit q.exec i = true ↔ ∃ y ∈ all, tbit y.active i = true) ∧
      ∃ b ∈ all, tbit b.lanes (lowestLane q.run) = true ∧ q.pc = b.pc
    (Issues s c 0x009 f → (∀ y ∈ c.p.paths, y.parkedAt = 2) → (∃ i p, i ≠ c.idx ∧ c.w.parts[i]? = some p ∧ p.wait ≠ .fuse) →
      ∃ t d, exec (.fuse f) s = .next t ∧ partAt t s.cur = some d ∧ OnlyCore s t c.core ∧ OnlyParts c.w d.w ∧
        d.p.wait = .fuse ∧ merged 2 d.p) ∧
    (∀ e, Issues s c 0x008 f → (∀ y ∈ c.p.paths, y.parkedAt = 1) → matchEntry c.w c.p.lanes = some e →
      ∃ t d, exec (.rejoin f) s = .next t ∧ partAt t s.cur = some d ∧ OnlyCore s t c.core ∧ d.p.wait = .parked e.idx ∧
        merged 1 d.p)) ∧
  (∀ s c f, Issues s c 0x009 f → c.p.handler = none → c.p.paths = [] →
    (∃ i p, i ≠ c.idx ∧ c.w.parts[i]? = some p ∧ p.wait ≠ .fuse) →
    ∃ t d, exec (.fuse f) s = .next t ∧ partAt t s.cur = some d ∧ OnlyCore s t c.core ∧ OnlyWave c.k d.k c.slot ∧
      OnlyParts c.w d.w ∧ d.p.wait = .fuse ∧ d.p.pc = c.p.pc ∧ PartRegs c.p d.p) ∧
  (∀ s c f, Issues s c 0x009 f → c.p.handler = none → c.p.paths = [] → c.p.frozen = none →
    (∀ i p, i ≠ c.idx → c.w.parts[i]? = some p → p.wait = .fuse ∧ p.frozen = none) →
    ∃ t w' q, exec (.fuse f) s = .next t ∧ WaveAfter s t c w' ∧
      w' = { c.w with parts := w'.parts, rejoin := [] } ∧ w'.parts = [q] ∧ q.wait = .ready ∧ q.lanes = liveLanes c.w ∧
      ∃ b ∈ c.w.parts, (∀ p ∈ c.w.parts, lowestLane b.lanes ≤ lowestLane p.lanes) ∧ q.pc = b.pc + 1 ∧ SameRegs b q)

/-- `exit` and `kill` (09 R180, R181; 07 R129): with no active lane concerned the path goes on; otherwise the lanes
end, the part's last path with all of the part's lanes, and `kill` ends every lane of the wave, at once where the wave has no
other part, else at the end of its cycle (log 21). While paths are pending, those
that a trap has set aside with them, the path ends with its lanes and the first pending path runs; that a handler's last path
ends handler mode so is the model's reading (log 51). What ending lanes leaves of a wave is every other lane. -/
def Obligations.EndingLanes : Prop :=
  (∀ s c f, Issues s c 0x00B f → c.activeLanes f = 0 → c.p.exec ≠ 0 →
    ∃ t d, exec (.exit f) s = .next t ∧ partAt t s.cur = some d ∧ OnlyCore s t c.core ∧ OnlyWave c.k d.k c.slot ∧
      OnlyParts c.w d.w ∧ NextInPart c.p d.p ∧ PartRegs c.p d.p) ∧
  (∀ s c f, Issues s c 0x00B f → c.activeLanes f ≠ 0 → c.activeLanes f ≠ c.p.exec →
    exec (.exit f) s =
      .next (endWaveLanes (c.issued 0x00B f).nextPc.commit c.core c.slot (c.activeLanes f))) ∧
  (∀ s c f l, Issues s c 0x00B f → c.activeLanes f = c.p.exec →
    l = (if c.p.paths = [] then ((c.p.handler.map (·.aside)).getD []) else c.p.paths) → (∃ x ∈ l, x.parkedAt = 0) →
    ∃ p', Resumes l p' ∧ p'.lanes = c.p.lanes ∧ SameRegs c.p p' ∧
      p'.handler = (if c.p.paths = [] then none else c.p.handler) ∧
      exec (.exit f) s = .next (endWaveLanes { c.issued 0x00B f with p := p' }.commit c.core c.slot c.p.run)) ∧
  (∀ s c f, Issues s c 0x00B f → c.activeLanes f = c.p.exec → c.p.paths = [] →
    (∀ h, c.p.handler = some h → h.aside = []) →
    exec (.exit f) s = .next (endWaveLanes (c.issued 0x00B f).commit c.core c.slot c.p.lanes)) ∧
  (∀ s c f, Issues s c 0x00C f → c.activeLanes f ≠ 0 → c.w.parts.length ≤ 1 →
    exec (.kill f) s = .next (killWave (c.issued 0x00C f).commit c.core c.slot)) ∧
  (∀ s c f, Issues s c 0x00C f → c.activeLanes f ≠ 0 → 1 < c.w.parts.length →
    ∃ t d, exec (.kill f) s = .next t ∧ partAt t s.cur = some d ∧ OnlyCore s t c.core ∧ OnlyWave c.k d.k c.slot ∧
      d.w = { c.w with parts := d.w.parts, killed := some c.cyc } ∧ PartRegs c.p d.p ∧ d.p.lanes = c.p.lanes) ∧
  (∀ s core slot w, (getCore s core).waves = [(slot, some w)] → w.killed ≠ none → tickKills s core = killWave s core slot) ∧
  (∀ s core slot w g, getWave (getCore s core) slot = some w → getWg (getCore s core) w.wg = some g →
    ∃ w', getWave (getCore (killWave s core slot) core) slot = some w' ∧ w'.parts = [] ∧ w'.killed = none ∧
      w'.frozen = none ∧ w'.queue = w.queue) ∧
  (∀ s c f, Issues s c 0x00C f → c.activeLanes f = 0 →
    ∃ t d, exec (.kill f) s = .next t ∧ partAt t s.cur = some d ∧ OnlyCore s t c.core ∧ OnlyWave c.k d.k c.slot ∧
      NextInPart c.p d.p ∧ PartRegs c.p d.p) ∧
  (∀ w dead cyc, liveLanes (endLanes w dead cyc) = liveLanes w &&& ~~~dead)

/-! Checks and traps. -/

/-- The opcode values that the map does not assign, and what a fetched word with one of them raises, whatever its other
fields and its guard (05 R99). -/
def Obligations.UnassignedOpcodes : Prop :=
  (∀ op < 512, (opInfo? op).isNone = true ↔ unassigned op) ∧
  ∀ w s c, partAt s s.cur = some c → unassigned (w.toNat / 2 ^ 87) → c.stepEnds (w.toNat / 2 ^ 87) (wordFields w) = false →
    decodeWord w = .unassignedOpcode w ∧ exec (.unassignedOpcode w) s =
      .next (takeTrap (c.inWindow (w.toNat / 2 ^ 87) (wordFields w)) { cause := 0x01 })

/-- An instruction word is checked before it has any effect, in the order of 04 R81: an opcode that is not assigned (or is not in
gang mode) traps with ILLEGAL_OPCODE (05 R99), then RT not zero, then a modifier, then an operand. Then a pending register holds
the instruction back (07 R116, R117), a latch it reads or writes out of turn traps (04 R77), but LATCH_EARLY only where the
instruction issues, a tag outside the accepted set traps with FORMAT_MISMATCH (06 R109), a width beyond the wave's
traps (07 R126), and a part that does not meet the width waits, or in handler mode traps (22 R395). -/
def Obligations.ChecksBeforeIssue : Prop :=
  (∀ i op k f, i.word? = some (op, k, f) → ∀ s c, partAt s s.cur = some c → c.stepEnds op f = false →
    let traps := fun cause : Byte => exec i s = .next (takeTrap (c.inWindow op f) { cause := cause })
    let absent := (opInfo? op).isNone = true ∨ (c.w.code.gang = true ∧ notInGang op = true)
    (absent → traps 0x01) ∧
    (¬ absent → f.rt ≠ 0 → traps 0x02) ∧
    (¬ absent → f.rt = 0 → modifiersOk op f = false → traps 0x03) ∧
    (¬ absent → f.rt = 0 → modifiersOk op f = true → operandsOk c.w.limits op f = false → traps 0x04) ∧
    (¬ absent → f.rt = 0 → modifiersOk op f = true → operandsOk c.w.limits op f = true → decodeCheck c op f = none)) ∧
  (∀ i op k f, i.word? = some (op, k, f) → ∀ s c, partAt s s.cur = some c → c.stepEnds op f = false →
    decodeCheck c op f = none →
    let traps := fun cause : Byte => exec i s = .next (takeTrap (c.inWindow op f) { cause := cause })
    let timely := busy c op f = false ∧ latchCheck c.p op f c.cyc c.s.freeCount = none
    (busy c op f = true → exec i s = .next (stallAt (c.inWindow op f) f .score)) ∧
    (∀ cause, busy c op f = false → latchCheck c.p op f c.cyc c.s.freeCount = some cause → cause ≠ 0x07 → traps cause) ∧
    (busy c op f = false → latchCheck c.p op f c.cyc c.s.freeCount = some 0x07 →
      (tagsOk (c.inWindow op f) op f = false ∨ c.w.width < widthOf c op f → traps 0x07) ∧
      (tagsOk (c.inWindow op f) op f = true → widthOf c op f ≤ c.w.width → meetsWidth c.w c.p (widthOf c op f) = false →
        (c.p.handler ≠ none → traps 0x07) ∧
        (c.p.handler = none → exec i s = .next (stallAt (c.inWindow op f) f .width)))) ∧
    (timely → tagsOk (c.inWindow op f) op f = false → traps 0x08) ∧
    (timely → tagsOk (c.inWindow op f) op f = true → c.w.width < widthOf c op f → traps 0x09) ∧
    (timely → tagsOk (c.inWindow op f) op f = true → widthOf c op f ≤ c.w.width →
      meetsWidth c.w c.p (widthOf c op f) = false →
      (c.p.handler ≠ none → traps 0x1A) ∧
      (c.p.handler = none → exec i s = .next (stallAt (c.inWindow op f) f .width))))

/-- Entering the declared handler (22 R393, R394): the record in the wave's store queue, its fields, s0 and s1 its
address, every lane of the running path active, the pending paths aside. The record as a store of the part is the
model's reading (log 15). -/
def Obligations.HandlerEntry : Prop :=
  ∀ s c i code idx, partAt s s.cur = some c → c.p.handler = none → (i.cause = 0x20 → c.k.catchBpt = false) →
    declaredHandler c.g = some (code, idx) →
    ∃ d e bs, partAt (enterTrap c i) s.cur = some d ∧ OnlyCore s (enterTrap c i) c.core ∧ OnlyWave c.k d.k c.slot ∧
      d.p.pc = BitVec.ofNat 32 idx ∧ d.p.exec = c.p.run ∧ d.p.run = c.p.run ∧ d.p.lanes = c.p.lanes ∧ d.p.paths = [] ∧
      d.p.window = none ∧ d.p.handler = some ⟨c.p.paths, code⟩ ∧ d.p.m = c.p.m ∧ d.p.h = c.p.h ∧
      d.p.pstat = c.p.pstat ∧
      d.w = { c.w with parts := d.w.parts, queue := c.w.queue ++ [e], seq := c.w.seq + 1 } ∧
      (let va := trapVa (((ctxOf c.k c.g.region).map (·.trapBase)).getD 0) c.slot (lowestLane c.p.lanes)
       e.kind = .store [⟨lowestLane c.p.lanes, va, bs⟩] ∧
       ∀ n, d.readS n = if n = 0 then Reference.half false va else if n = 1 then Reference.half true va else c.readS n) ∧
      bs.length = 48 ∧ field bs 0 3 = (c.readS 0).toNat ∧ field bs 4 7 = (c.readS 1).toNat ∧
      field bs 8 15 = c.p.exec.toNat ∧ field bs 16 19 = c.p.pc.toNat ∧
      field bs 20 23 = (if i.skip then c.p.pc + 1 else (c.p.window.map (·.start)).getD c.p.pc).toNat ∧
      field bs 24 24 = i.cause.toNat ∧ field bs 25 25 = 1 ∧ field bs 26 27 = 0 ∧ field bs 28 31 = i.detail.toNat ∧
      field bs 32 39 = i.addr.toNat ∧ field bs 40 47 = (i.lanes.getD c.p.exec).toNat

/-- A trap in handler mode, or with no declared handler, freezes the part (09 R186; 22 R391, R394): its registers,
$exec and PC stay, and RELEASE resumes it at the resume PC; only outside handler mode a record goes to the trap area, and a fault
record of KIND 0 is posted. BREAKPOINT while CATCH is set halts the wave instead, whatever its handlers, the part at its resume PC,
and posts a fault record of KIND 4 (R391, R404; 25 R418). The record as a store of the part is the model's reading (log 15). -/
def Obligations.TrapFreeze : Prop :=
  (∀ s (c : Cx) (i : TrapInfo), partAt s s.cur = some c → i.cause = 0x20 → c.k.catchBpt = true →
    ∃ (d : Cx) (u : State) (r : FaultRec), partAt (enterTrap c i) s.cur = some d ∧ OnlyCore s u c.core ∧
      enterTrap c i = postFault u c.g.region (launchHost s c.g.launch) r ∧
      d.w = { c.w with parts := d.w.parts, halted := true } ∧ (∀ j, j ≠ c.idx → d.w.parts[j]? = c.w.parts[j]?) ∧
      d.p.pc = (if i.skip then c.p.pc + 1 else (c.p.window.map (·.start)).getD c.p.pc) ∧ d.p.cause = 0x20 ∧
      d.p.window = none ∧ d.p.stepping = false ∧ PartRegs c.p d.p ∧ d.p.lanes = c.p.lanes ∧ d.p.run = c.p.run ∧
      d.p.paths = c.p.paths ∧ d.p.handler = c.p.handler ∧ d.p.frozen = c.p.frozen ∧
      r.bytes.length = 64 ∧ field r.bytes 0 0 = 0x20 ∧ field r.bytes 1 1 = 4 ∧ field r.bytes 2 2 = 0 ∧
      field r.bytes 3 3 = c.core / 8 % 2 ^ 8 ∧ field r.bytes 4 4 = c.core % 8 ∧ field r.bytes 5 5 = c.slot % 2 ^ 8 ∧
      field r.bytes 6 7 = (quadsOf c.p.run).toNat ∧ field r.bytes 8 11 = i.detail.toNat ∧ field r.bytes 16 23 = 0 ∧
      field r.bytes 24 31 = c.p.run.toNat ∧ field r.bytes 32 35 = c.p.pc.toNat ∧
      field r.bytes 36 39 = ((c.p.window.map Window.start).getD 0xFFFFFFFF).toNat) ∧
  ∀ s c i, partAt s s.cur = some c → (i.cause = 0x20 → c.k.catchBpt = false) →
    c.p.handler ≠ none ∨ declaredHandler c.g = none →
    ∃ d, partAt (enterTrap c i) s.cur = some d ∧ PartRegs c.p d.p ∧ d.p.pc = c.p.pc ∧ d.p.run = c.p.run ∧
      d.p.paths = c.p.paths ∧ d.p.handler = c.p.handler ∧ d.p.window = none ∧
      (∃ z, d.p.frozen = some z ∧ z.cause = i.cause ∧
        z.resume = if i.skip then c.p.pc + 1 else (c.p.window.map (·.start)).getD c.p.pc) ∧
      (c.p.handler ≠ none → d.w.queue = c.w.queue) ∧
      (c.p.handler = none → ∃ e, d.w.queue = c.w.queue ++ [e] ∧ ∃ l va bs, e.kind = .store [⟨l, va, bs⟩] ∧
        va = trapVa (((ctxOf c.k c.g.region).map (·.trapBase)).getD 0) c.slot (lowestLane c.p.lanes) ∧
        bs.length = 48 ∧ field bs 24 24 = i.cause.toNat ∧ field bs 25 25 = 0) ∧
      ∃ (u : State) (r : FaultRec), OnlyCore s u c.core ∧
        enterTrap c i = postFault u c.g.region (launchHost s c.g.launch) r ∧ r.kind = 0 ∧ r.cause = i.cause

/-- `bpt` and `trap` (09 R184): a trap with IMM in its detail, resuming at PC + 1; with no active lane concerned they
go on. When a trap is entered is the model's reading of 22 R392 (log 21): at once where the wave has no other part and no freeze of
the cycle has stopped it; otherwise it is raised, and entered at the end of the cycle, or, in a wave that the cycle froze, its
record is written, it is marked, and it waits for RELEASE. The instructions that handler mode forbids raise HANDLER_ILLEGAL (22 R395). Returning from a trap (22 R396):
s0, s1, $exec and the PC from the part's record as its loads see it, and the paths set aside return behind the running
path. The record as a store of the part is the model's reading (log 15). -/
def Obligations.TrapEntryAndReturn : Prop :=
  (∀ s c f, Issues s c 0x00D f → c.activeLanes f ≠ 0 →
    exec (.bpt f) s = .next (takeTrap (c.inWindow 0x00D f) { cause := 0x20, detail := f.x, skip := true })) ∧
  (∀ s c f, Issues s c 0x00E f → c.activeLanes f ≠ 0 →
    exec (.trap f) s = .next (takeTrap (c.inWindow 0x00E f) { cause := 0x22, detail := f.x, skip := true })) ∧
  (∀ (c : Cx) i, c.w.parts.length ≤ 1 → c.w.frozen = none → takeTrap c i = enterTrap c i) ∧
  (∀ (c : Cx) i, 1 < c.w.parts.length ∨ c.w.frozen ≠ none →
    takeTrap c i = (c.part (fun p => { p with raised := some i, nextIssue := c.cyc + 1 })).commit) ∧
  (∀ s r c i, partAt s r = some c → c.p.raised = some i → c.w.frozen = none →
    resolveTrap s r = enterTrap (c.part (fun p => { p with raised := none, marked := false })) i) ∧
  (∀ s r c i, partAt s r = some c → c.p.raised = some i → c.w.frozen ≠ none → c.p.marked = false →
    ∃ d, partAt (resolveTrap s r) r = some d ∧ OnlyCore s (resolveTrap s r) c.core ∧ OnlyWave c.k d.k c.slot ∧
      d.p = { c.p with marked := true } ∧
      (c.p.handler ≠ none → d.w.queue = c.w.queue) ∧
      (c.p.handler = none → ∃ e l va bs, d.w.queue = c.w.queue ++ [e] ∧ e.kind = .store [⟨l, va, bs⟩] ∧ bs.length = 48 ∧
        va = trapVa (((ctxOf c.k c.g.region).map (·.trapBase)).getD 0) c.slot (lowestLane c.p.lanes) ∧
        field bs 24 24 = i.cause.toNat ∧ field bs 25 25 = 0)) ∧
  ComputesWhen .bpt 0x00D (fun c f => c.activeLanes f = 0) (fun c _ d => PartRegs c.p d.p ∧ OnlyParts c.w d.w) ∧
  ComputesWhen .trap 0x00E (fun c f => c.activeLanes f = 0) (fun c _ d => PartRegs c.p d.p ∧ OnlyParts c.w d.w) ∧
  (∀ s c f, c.p.handler ≠ none →
    (Issues s c 0x002 f → exec (.braS f) s = .next (takeTrap (c.inWindow 0x002 f) { cause := 0x1A })) ∧
    (Issues s c 0x008 f → exec (.rejoin f) s = .next (takeTrap (c.inWindow 0x008 f) { cause := 0x1A })) ∧
    (Issues s c 0x009 f → exec (.fuse f) s = .next (takeTrap (c.inWindow 0x009 f) { cause := 0x1A })) ∧
    (Issues s c 0x0A8 f → exec (.wbar f) s = .next (takeTrap (c.inWindow 0x0A8 f) { cause := 0x1A })) ∧
    (Issues s c 0x0A9 f → exec (.gbar f) s = .next (takeTrap (c.inWindow 0x0A9 f) { cause := 0x1A })) ∧
    (Issues s c 0x00F f → c.p.paths ≠ [] →
      exec (.trapret f) s = .next (takeTrap (c.inWindow 0x00F f) { cause := 0x19 }))) ∧
  (∀ s c f, c.p.handler = none → Issues s c 0x00F f →
    exec (.trapret f) s = .next (takeTrap (c.inWindow 0x00F f) { cause := 0x19 })) ∧
  MovesWhen .trapret 0x00F
    (fun c f => c.p.handler ≠ none ∧ c.p.paths = [] ∧ (c.issued 0x00F f).readRecord.2 = false)
    (fun c f p => ∀ h, c.p.handler = some h →
      let rec' := (c.issued 0x00F f).readRecord.1
      (∀ n, kget 0 p.s n = if n = 0 then Reference.nat (field rec' 0 3) else if n = 1 then Reference.nat (field rec' 4 7)
        else c.readS n) ∧
      p.exec = Reference.dnat (field rec' 8 15) &&& c.p.run ∧ p.pc = Reference.nat (field rec' 20 23) ∧
      p.handler = none ∧ p.paths = h.aside ∧ p.run = c.p.run ∧ p.m = c.p.m ∧ p.h = c.p.h ∧ p.pstat = c.p.pstat)

/-! Memory. -/

/-- Loads from memory (12 R247-R249, R260): what is in flight when they issue; each lane is translated when it has reached its
owner (11 R221). -/
def Obligations.GlobalLoads : Prop :=
  LoadOf .vld 0x0C0 (fun f => szBytes (mmType f % 8)) (fun f => szBytes (mmType f % 8))
    (fun c f => c.contig f (szBytes (mmType f % 8))) (fun f => .vec (loadReg f) (mmType f % 8) tagAny) destV loadAcq mmFm
    true false true ∧
  LoadOf .vldLane 0x0C6 (fun f => szBytes (mmType f % 8)) (fun f => szBytes (mmType f % 8)) Cx.laneAddrs
    (fun f => .vec (loadReg f) (mmType f % 8) tagAny) destV loadAcq mmFm true false true ∧
  LoadOf .vldt 0x0C2 (fun _ => 4) (fun _ => 4) (fun c f => c.contig f 4)
    (fun f => .vec (loadReg f) 0 (BitVec.ofNat 5 (mmType f))) destV loadAcq mmFm true false true ∧
  LoadOf .vldtLane 0x0C8 (fun _ => 4) (fun _ => 4) Cx.laneAddrs
    (fun f => .vec (loadReg f) 0 (BitVec.ofNat 5 (mmType f))) destV loadAcq mmFm true false true ∧
  LoadOf .vldBlk 0x0C3 (fun f => blkBytes (mmType f % 8)) (fun f => blkAlign (mmType f % 8))
    (fun c f => c.contig f (blkBytes (mmType f % 8))) (fun f => .block f.d.toNat (mmType f % 8) (mmType f / 8 % 2))
    (fun f => blkLoadRegs f (mmType f % 8)) loadAcq mmFm true false true ∧
  LoadOf .sld 0x0D2 (fun f => szBytes (mmType f % 8)) (fun f => szBytes (mmType f % 8)) Cx.scalarAddr
    (fun f => .scalar (f.d.toNat - 256) (mmType f % 8)) (fun f => [f.d.toNat]) loadAcq mmFm false false true ∧
  LoadOf .sldc 0x0D4 (fun _ => 4) (fun _ => 4) Cx.scalarAddr (fun f => .scalar (f.d.toNat - 256) 0)
    (fun f => [f.d.toNat]) (fun _ => none) (fun _ => 0) false true true ∧
  LoadOf .sumget 0x0EF (fun _ => 32) (fun _ => 32) Cx.scalarAddr
    (fun f => .sum (f.d.toNat - 256) (mmType f % 8) (mmType f / 8) (mmFm f))
    (fun f => f.d.toNat :: (if mmFm f = 0 then [] else [400 + mmFm f])) loadAcq (fun _ => 0) false false false

/-- Stores: to memory, into the store queue (12 R249, R250, R253); to the scratchpad, at once (12 R250; 11 R228). -/
def Obligations.Stores : Prop :=
  StoreOf .vst 0x0C1 (fun f => szBytes (mmType f % 8)) (fun f => szBytes (mmType f % 8))
    (fun c f => c.contig f (szBytes (mmType f % 8)))
    (fun c f l => toBytes (szBytes (mmType f % 8)) (c.operand 0x0C1 f 1 .int l).toNat) ∧
  StoreOf .vstLane 0x0C7 (fun f => szBytes (mmType f % 8)) (fun f => szBytes (mmType f % 8)) Cx.laneAddrs
    (fun c f l => toBytes (szBytes (mmType f % 8)) (c.operand 0x0C7 f 1 .int l).toNat) ∧
  StoreOf .sst 0x0D3 (fun f => szBytes (mmType f % 8)) (fun f => szBytes (mmType f % 8)) Cx.scalarAddr
    (fun c f l => toBytes (szBytes (mmType f % 8)) (c.operand 0x0D3 f 1 .int l).toNat) ∧
  StoreOf .vstBlk 0x0C4 (fun f => blkBytes (mmType f % 8)) (fun f => blkAlign (mmType f % 8))
    (fun c f => c.contig f (blkBytes (mmType f % 8))) (fun c f l => blkData f (mmType f % 8) c l) ∧
  ScratchStoreOf .vstSp 0x0CB (fun f => szBytes (mmType f % 8)) (fun f => szBytes (mmType f % 8))
    (fun c f => c.spContig f (szBytes (mmType f % 8)))
    (fun c f l => toBytes (szBytes (mmType f % 8)) (c.operand 0x0CB f 1 .int l).toNat) ∧
  ScratchStoreOf .vstSpLane 0x0D0 (fun f => szBytes (mmType f % 8)) (fun f => szBytes (mmType f % 8))
    (fun c f => (c.issued 0x0D0 f).spLanes f)
    (fun c f l => toBytes (szBytes (mmType f % 8)) (c.operand 0x0D0 f 1 .int l).toNat) ∧
  ScratchStoreOf .vstBlkSp 0x0CE (fun f => blkBytes (mmType f % 8)) (fun f => blkAlign (mmType f % 8))
    (fun c f => c.spContig f (blkBytes (mmType f % 8))) (fun c f l => blkData f (mmType f % 8) c l) ∧
  ScratchStoreOf .sstSp 0x0D8 (fun f => szBytes (mmType f % 8)) (fun f => szBytes (mmType f % 8)) Cx.spScalar
    (fun c f l => toBytes (szBytes (mmType f % 8)) (c.operand 0x0D8 f 1 .int l).toNat)

/-- Loads from the scratchpad (12 R247-R249; 11 R228): bytes are little-endian, extended with the sign for TYPE 2 and
4. The latch that `sld.sp` writes is read from 04 R77 by inference (log 42). -/
def Obligations.ScratchLoads : Prop :=
  (∀ bs : List Byte, extend 0 bs = Reference.nat (ofBytes (bs.take 4)) ∧ extend 1 bs = Reference.nat (ofBytes (bs.take 2)) ∧
    extend 2 bs = ((BitVec.ofNat 16 (ofBytes (bs.take 2))).signExtend 32) ∧
    extend 3 bs = Reference.nat (ofBytes (bs.take 1)) ∧
    extend 4 bs = ((BitVec.ofNat 8 (ofBytes (bs.take 1))).signExtend 32)) ∧
  ScratchLoadOf .vldSp 0x0CA (fun f => szBytes (mmType f % 8)) (fun _ => tagAny)
    (fun c f => c.spContig f (szBytes (mmType f % 8))) (fun f bs => extend (mmType f % 8) bs) ∧
  ScratchLoadOf .vldSpLane 0x0CF (fun f => szBytes (mmType f % 8)) (fun _ => tagAny)
    (fun c f => (c.issued 0x0CF f).spLanes f) (fun f bs => extend (mmType f % 8) bs) ∧
  ScratchLoadOf .vldtSp 0x0CC (fun _ => 4) (fun f => BitVec.ofNat 5 (mmType f)) (fun c f => c.spContig f 4)
    (fun _ bs => extend 0 bs) ∧
  ScratchLoadOf .vldtSpLane 0x0D1 (fun _ => 4) (fun f => BitVec.ofNat 5 (mmType f))
    (fun c f => (c.issued 0x0D1 f).spLanes f) (fun _ bs => extend 0 bs) ∧
  ComputesWhen .vldBlkSp 0x0CD (fun c f => c.held = false ∧
      c.within (c.spContig f (blkBytes (mmType f % 8))) (blkBytes (mmType f % 8)) (blkAlign (mmType f % 8)) ∧
      c.sound (c.spContig f (blkBytes (mmType f % 8))) (blkBytes (mmType f % 8)))
    (LanesPost (fun _ f => List.range' f.d.toNat (if mmType f % 8 < 3 then blkElems (mmType f % 8)
        else blkElems (mmType f % 8) + 1)) Cx.takes
      (fun c f n l => (blkRegs (mmType f % 8) (mmType f / 8 % 2)
        (readBytes c.k.sram (c.g.base + ((c.src .int false f.a.toNat 0 0).toInt + offField f.x +
          (l * blkBytes (mmType f % 8) : Nat)).toNat) (blkBytes (mmType f % 8)))
        (c.readV (f.d.toNat + blkElems (mmType f % 8)) l)).getD (n - f.d.toNat) 0)
      (fun _ _ _ _ => tagAny)) ∧
  ComputesWhen .sldSp 0x0D7 (fun c f => c.held = false ∧
      c.within (c.spScalar f) (szBytes (mmType f % 8)) (szBytes (mmType f % 8)) ∧
      c.sound (c.spScalar f) (szBytes (mmType f % 8)))
    (ScalarPost (fun c f => extend (mmType f % 8) (readBytes c.k.sram
      (c.g.base + ((c.src .int false f.a.toNat 0 0).toInt + offField f.x).toNat) (szBytes (mmType f % 8)))))

/-- Prefetch and cache control, which change no register and no byte of memory (12 R251, R252). Fences (12 R255): a
full fence goes on once older accesses are performed at its scope, an acquire fence once older loads have returned,
dropping lines of writable pages; after a release fence later stores carry its scope. When a part goes on after a
fence is the model's reading (log 16). -/
def Obligations.CachesAndFences : Prop :=
  Reaches1 .vprefetch 0x0C5 (fun c _ => c.held = false) slicesOf (fun k k' => { k with l1 := k'.l1, hints := k'.hints })
    (fun c _ d => NextInPart c.p d.p ∧ PartRegs c.p d.p ∧ OnlyParts c.w d.w) ∧
  Reaches1 .vprefetchLane 0x0C9 (fun c _ => c.held = false) slicesOf (fun k k' => { k with l1 := k'.l1, hints := k'.hints })
    (fun c _ d => NextInPart c.p d.p ∧ PartRegs c.p d.p ∧ OnlyParts c.w d.w) ∧
  Reaches1 .cctlInv 0x0D5 (fun c f => c.held = false ∧ (c.basePair f + offWord f).toNat < 2 ^ 57 ∧ c.activeLanes f ≠ 0) sameState
    (fun k k' => { k with l1 := k'.l1 })
    (fun c f d => NextInPart c.p d.p ∧ PartRegs c.p d.p ∧ OnlyParts c.w d.w ∧
      ∀ x, x ∈ d.k.l1 ↔ x ∈ c.k.l1 ∧ ¬ (x.asn = c.g.asn ∧ x.line = (c.basePair f + offWord f).toNat / 128)) ∧
  Reaches1 .cctlInvall 0x0D5 (fun c f => c.held = false ∧ c.activeLanes f ≠ 0) sameState (fun k k' => { k with l1 := k'.l1 })
    (fun c _ d => NextInPart c.p d.p ∧ PartRegs c.p d.p ∧ OnlyParts c.w d.w ∧
      ∀ x, x ∈ d.k.l1 ↔ x ∈ c.k.l1 ∧ x.asn ≠ c.g.asn) ∧
  Reaches1 .cctlInvc 0x0D5 (fun c f => c.held = false ∧ c.activeLanes f ≠ 0) sameState
    (fun k k' => { k with constCache := k'.constCache, records := k'.records })
    (fun c _ d => NextInPart c.p d.p ∧ PartRegs c.p d.p ∧ OnlyParts c.w d.w ∧ d.k.constCache = [] ∧ d.k.records = []) ∧
  Reaches1 .cctlDemote 0x0D5 (fun c f => c.held = false ∧ (c.basePair f + offWord f).toNat < 2 ^ 57) slicesOf sameCore
    (fun c _ d => NextInPart c.p d.p ∧ PartRegs c.p d.p ∧ OnlyParts c.w d.w) ∧
  (∀ x ∈ [Instr.cctlInv, .cctlInvall, .cctlInvc, .cctlDemote], ∀ s c f, Issues s c 0x0D5 f → c.activeLanes f ≠ 0 →
    c.held = true → Blocks s c 0x0D5 f (x f)) ∧
  Idle .cctlInv 0x0D5 ∧ Idle .cctlInvall 0x0D5 ∧ Idle .cctlInvc 0x0D5 ∧
  ComputesWhen .fenceFull 0x0D6 (fun c f => f.x.toNat % 8 = 0 ∨ c.performed (f.x.toNat % 8) = true)
    (fun c _ d => PartRegs c.p d.p ∧ OnlyParts c.w d.w) ∧
  Reaches1 .fenceAcq 0x0D6 (fun c f => c.activeLanes f ≠ 0 ∧ c.fenced = false ∧
      ∀ ld ∈ c.w.loads, ld.part &&& c.p.lanes = 0) sameState
    (fun k k' => { k with l1 := k'.l1 })
    (fun c f d => NextInPart c.p d.p ∧ PartRegs c.p d.p ∧ OnlyParts c.w d.w ∧
      ∀ x, x ∈ d.k.l1 ↔ x ∈ c.k.l1 ∧ ¬ (2 ≤ f.x.toNat % 8 ∧ x.asn = c.g.asn ∧ x.writable = true)) ∧
  MovesWhen .fenceRel 0x0D6 (fun c f => c.activeLanes f ≠ 0 ∧ c.held = false ∧ f.lw = false)
    (fun c f p => PartRegs c.p p ∧ p.pc = c.p.pc + 1 ∧ p.relScope = c.release (some (f.x.toNat % 8)))

/-- The new word of each atomic operation (12 R256), from the old word, the operand and, for `cas`, the new value; and atomics in
memory (12 R256-R259). -/
def Obligations.GlobalAtomicResults : Prop :=
  (∀ (u : Bool) (old b new : Word),
    atomicNew 0 u old b new = Reference.nat (old.toNat + b.toNat) ∧
    atomicNew 1 u old b new = Reference.int (old.toInt - b.toInt) ∧
    atomicNew 2 u old b new = (if u then Reference.minU old b else Reference.minS old b) ∧
    atomicNew 3 u old b new = (if u then Reference.maxU old b else Reference.maxS old b) ∧
    atomicNew 4 u old b new = Reference.nat (old.toNat &&& b.toNat) ∧
    atomicNew 5 u old b new = Reference.nat (old.toNat ||| b.toNat) ∧
    atomicNew 6 u old b new = Reference.nat (old.toNat ^^^ b.toNat) ∧
    atomicNew 7 u old b new = b ∧
    atomicNew 8 u old b new = (if old = b then new else old) ∧
    atomicNew 9 u old b new = (if b.toNat ≤ old.toNat then 0 else Reference.nat (old.toNat + 1)) ∧
    atomicNew 10 u old b new = toF32 0 ((f32 old).add 0 (f32 b)) ∧
    atomicNew 11 u old b new = Reference.pick false old b ∧
    atomicNew 12 u old b new = Reference.pick true old b) ∧
  (∀ x ∈ [(Instr.vatomAdd, 0x0E0, 0), (.vatomSub, 0x0E1, 1), (.vatomMin, 0x0E2, 2), (.vatomMax, 0x0E3, 3),
      (.vatomAnd, 0x0E4, 4), (.vatomOr, 0x0E5, 5), (.vatomXor, 0x0E6, 6), (.vatomXchg, 0x0E7, 7), (.vatomCas, 0x0E8, 8),
      (.vatomInc, 0x0E9, 9), (.vatomFadd, 0x0EA, 10), (.vatomFmin, 0x0EB, 11), (.vatomFmax, 0x0EC, 12)],
    AtomicOf x.1 x.2.1 x.2.2 Cx.laneAddrs (fun f => .atomV (loadReg f)) destV) ∧
  (∀ x ∈ [(Instr.satomAdd, 0x0F0, 0), (.satomSub, 0x0F1, 1), (.satomMin, 0x0F2, 2), (.satomMax, 0x0F3, 3),
      (.satomAnd, 0x0F4, 4), (.satomOr, 0x0F5, 5), (.satomXor, 0x0F6, 6), (.satomXchg, 0x0F7, 7), (.satomCas, 0x0F8, 8),
      (.satomInc, 0x0F9, 9), (.satomFadd, 0x0FA, 10), (.satomFmin, 0x0FB, 11), (.satomFmax, 0x0FC, 12)],
    AtomicOf x.1 x.2.1 x.2.2 Cx.scalarAddr (fun f => .atomS (f.d.toNat - 256)) (fun f => [f.d.toNat]))

/-- Atomics in the scratchpad (12 R256, R257). -/
def Obligations.ScratchAtomics : Prop :=
  (∀ x ∈ [(Instr.vatomSpAdd, 0x100, 0), (.vatomSpSub, 0x101, 1), (.vatomSpMin, 0x102, 2), (.vatomSpMax, 0x103, 3),
      (.vatomSpAnd, 0x104, 4), (.vatomSpOr, 0x105, 5), (.vatomSpXor, 0x106, 6), (.vatomSpXchg, 0x107, 7),
      (.vatomSpCas, 0x108, 8), (.vatomSpInc, 0x109, 9), (.vatomSpFadd, 0x10A, 10), (.vatomSpFmin, 0x10B, 11),
      (.vatomSpFmax, 0x10C, 12)], VatomSpOf x.1 x.2.1 x.2.2) ∧
  (∀ x ∈ [(Instr.satomSpAdd, 0x110, 0), (.satomSpSub, 0x111, 1), (.satomSpMin, 0x112, 2), (.satomSpMax, 0x113, 3),
      (.satomSpAnd, 0x114, 4), (.satomSpOr, 0x115, 5), (.satomSpXor, 0x116, 6), (.satomSpXchg, 0x117, 7),
      (.satomSpCas, 0x118, 8), (.satomSpInc, 0x119, 9), (.satomSpFadd, 0x11A, 10), (.satomSpFmin, 0x11B, 11),
      (.satomSpFmax, 0x11C, 12)], SatomSpOf x.1 x.2.1 x.2.2)

/-- Deterministic sums (12 R258, R259): a contribution and `suminit` take their place in the store queue. -/
def Obligations.DeterministicSums : Prop :=
  Reaches1 .vatomFaddD 0x0ED (fun c f => c.held = false ∧ c.clear (c.laneAddrs f) 32 32 ∧ c.laneAddrs f ≠ [] ∧
      ordAcq f = none) sameState sameCore (fun c f d => ∃ e,
    d.w = { c.w with parts := d.w.parts, queue := c.w.queue ++ [e], seq := c.w.seq + 1 } ∧
    EntryOf c f (ordRel f) (c.laneAddrs f) e ∧
    e.kind = .contribute (mmType f % 4) ((c.laneAddrs f).map (fun x =>
      ⟨x.1, x.2, c.operand 0x0ED f 1 (sumKind (mmType f % 4)) x.1, 0⟩)) none ∧
    SameRegs c.p d.p ∧ GoesOn (c.p.pc + 1) c.p.run c.p.exec c.p.paths True d.p) ∧
  ComputesWhen .suminit 0x0EE (fun c f => c.held = false ∧ c.clear (c.scalarAddr f) 32 32 ∧ c.activeLanes f ≠ 0 ∧
      ordAcq f = none) (fun c f d => ∃ e,
    d.w = { c.w with parts := d.w.parts, queue := c.w.queue ++ [e], seq := c.w.seq + 1 } ∧
    EntryOf c f (ordRel f) (c.scalarAddr f) e ∧
    e.kind = .sumInit (lowestLane c.p.lanes) (c.basePair f + offWord f)
      (BitVec.ofNat 16 (c.operand 0x0EE f 1 .int 0).toNat) none ∧ PartRegs c.p d.p)

/-! Engines, handles, bobbins, barriers, queues. -/

/-- Issuing an engine job (13 R261-R263, R278); a code without a function takes a slot whose future is complete at
once with BAD_FUNCTION. Which free entry is taken among those never used is the model's choice (log 7). -/
def Obligations.EngineIssue : Prop :=
  EngineOf .engCopyIn 0x00 2 ∧ EngineOf .engCopyOut 0x01 2 ∧ EngineOf .engCopy2d 0x02 2 ∧ EngineOf .engCopyCvt 0x03 2 ∧
  EngineOf .engFill 0x04 1 ∧ EngineOf .engGatherRows 0x05 3 ∧ EngineOf .engSortKeys 0x10 1 ∧ EngineOf .engSortKv 0x11 2 ∧
  EngineOf .engPgreq 0x18 0 ∧ EngineOf .engPutPeer 0x20 1 ∧ EngineOf .engGetPeer 0x21 1 ∧ EngineOf .engReducePeer 0x22 1 ∧
  EngineOf .engSumFlush 0x28 2 ∧
  (∀ s c f i, Issues s c 0x0B5 f → c.activeLanes f ≠ 0 → c.held = false → freeFut c.k 0 64 = some i →
    ∃ t d, exec (.engBadFunction f) s = .next t ∧ partAt t s.cur = some d ∧ OnlyCore s t c.core ∧
      OnlyWave { c.k with futs := d.k.futs, futOrder := c.k.futOrder + 1 } d.k c.slot ∧ OtherParts c d f ∧
      NextInPart c.p d.p ∧ OnlyParts c.w d.w ∧ SetsHandle c d (f.d.toNat - 408) (handle 1 i ((getFut c.k i).gen + 1)) ∧
      SetsFuture c.k d.k i { gen := (getFut c.k i).gen + 1, phase := 2, owner := c.g.region, serial := c.w.serial,
                             scope := f.x.toNat / 128 % 8, status := 0xC0, order := c.k.futOrder + 1 }) ∧
  Idle .engBadFunction 0x0B5

/-- What a handle reads (13 R268): an empty one nothing, one whose generation has passed COMPLETE with STALE, a pending one
PENDING, a complete one its status; and the instructions on handles (13 R270, R271): an `fcancel` of a pending page request waits
for it. -/
def Obligations.Handles : Prop :=
  (∀ k h, readHandle k h = if h.toNat / 2 ^ 30 = 0 then (0, 0, 0)
    else if (getFut k (h.toNat / 2 ^ 16 % 2 ^ 8)).gen.toNat ≠ h.toNat % 2 ^ 16 then (2, 0xC4, 0)
    else if (getFut k (h.toNat / 2 ^ 16 % 2 ^ 8)).phase = 1 then (1, 0, (getFut k (h.toNat / 2 ^ 16 % 2 ^ 8)).bytes)
    else (2, (getFut k (h.toNat / 2 ^ 16 % 2 ^ 8)).status, (getFut k (h.toNat / 2 ^ 16 % 2 ^ 8)).bytes)) ∧
  (∀ s c f, c.activeLanes f ≠ 0 → let h := c.readH (f.a.toNat - 408)
    (h.toNat / 2 ^ 30 = 0 → (Issues s c 0x0B0 f → Traps s c 0x0B0 f (.fwait f) 0x11) ∧
      (Issues s c 0x0B1 f → Traps s c 0x0B1 f (.ftest f) 0x11) ∧ (Issues s c 0x0B2 f → Traps s c 0x0B2 f (.fcancel f) 0x11)) ∧
    (Issues s c 0x0B0 f → (readHandle c.k h).1 = 1 → Blocks s c 0x0B0 f (.fwait f))) ∧
  Reaches1 .fwait 0x0B0 (fun c f => c.activeLanes f ≠ 0 ∧ (readHandle c.k (c.readH (f.a.toNat - 408))).1 = 2) sameState
    (fun k k' => { k with l1 := k'.l1 }) (fun c f d => NextInPart c.p d.p ∧ PartRegs c.p d.p ∧ OnlyParts c.w d.w ∧
      Acquires c.k d.k c.g.asn (handleScope c.k (c.readH (f.a.toNat - 408)))) ∧
  ComputesWhen .ftest 0x0B1 (fun c f => c.activeLanes f = 0 ∨ (c.readH (f.a.toNat - 408)).toNat / 2 ^ 30 ≠ 0)
    (ScalarPost (fun c f => let x := readHandle c.k (c.readH (f.a.toNat - 408))
      Reference.nat (x.1 * 2 ^ 30 + x.2.1.toNat))) ∧
  ComputesWhen .fcancel 0x0B2 (fun c f => c.activeLanes f = 0 ∨ (readHandle c.k (c.readH (f.a.toNat - 408))).1 = 2)
    (ScalarPost (fun c f => (readHandle c.k (c.readH (f.a.toNat - 408))).2.2)) ∧
  ComputesWhen .fcancel 0x0B2 (fun c f => (readHandle c.k (c.readH (f.a.toNat - 408))).1 = 1 ∧
      64 ≤ (c.readH (f.a.toNat - 408)).toNat / 2 ^ 16 % 2 ^ 8) (ScalarPost (fun _ _ => 0)) ∧
  ComputesWhen .fcancel 0x0B2 (fun c f => (readHandle c.k (c.readH (f.a.toNat - 408))).1 = 1 ∧
      (c.readH (f.a.toNat - 408)).toNat / 2 ^ 16 % 2 ^ 8 < 64 ∧
      ∃ j x, kget none c.k.jobs ((c.readH (f.a.toNat - 408)).toNat / 2 ^ 16 % 2 ^ 8) = some j ∧ j.phase = .frozen x)
    (ScalarPost (fun c f => match kget none c.k.jobs ((c.readH (f.a.toNat - 408)).toNat / 2 ^ 16 % 2 ^ 8) with
      | some j => Reference.nat j.done
      | none => 0)) ∧
  (∀ s c f j, Issues s c 0x0B2 f → c.activeLanes f ≠ 0 → (readHandle c.k (c.readH (f.a.toNat - 408))).1 = 1 →
    (let i := (c.readH (f.a.toNat - 408)).toNat / 2 ^ 16 % 2 ^ 8
     i < 64 → kget none c.k.jobs i = some j → (∀ x, j.phase ≠ .frozen x) → j.fn ≠ 0x18 →
     let u := stallAt (c.inWindow 0x0B2 f) f .sync
     exec (.fcancel f) s = .next (setCore u c.core { getCore u c.core with
       jobs := kset none (getCore u c.core).jobs i (some { j with cancel := true }) })) ∧
    (let i := (c.readH (f.a.toNat - 408)).toNat / 2 ^ 16 % 2 ^ 8
     i < 64 → kget none c.k.jobs i = some j → (∀ x, j.phase ≠ .frozen x) → j.fn = 0x18 → Blocks s c 0x0B2 f (.fcancel f))) ∧
  (∀ s c f, Issues s c 0x0B3 f → c.activeLanes f ≠ 0 → let a := (c.operand 0x0B3 f 0 .int 0).toNat
    let ok := a / 2 ^ 24 % 2 ^ 6 = 0 ∧ a / 2 ^ 30 ≠ 3 ∧
      (a / 2 ^ 30 ≠ 0 → a / 2 ^ 16 % 2 ^ 8 < 128 ∧ (getFut c.k (a / 2 ^ 16 % 2 ^ 8)).owner = c.g.region)
    (¬ ok → Traps s c 0x0B3 f (.hmovToH f) 0x11) ∧
    (ok → ∃ t d, exec (.hmovToH f) s = .next t ∧ partAt t s.cur = some d ∧ OnlyCore s t c.core ∧ OnlyWave c.k d.k c.slot ∧
      OtherParts c d f ∧ NextInPart c.p d.p ∧ OnlyParts c.w d.w ∧
      SetsHandle c d (f.d.toNat - 408) (c.operand 0x0B3 f 0 .int 0))) ∧
  Computes .hmovToS 0x0B4 (ScalarPost (fun c f => let h := c.readH (f.a.toNat - 408)
    Reference.nat (h.toNat % 2 ^ 30 + (readHandle c.k h).1 * 2 ^ 30))) ∧
  Idle .fwait 0x0B0 ∧ Idle .hmovToH 0x0B3

/-- Bobbins (13 R274-R276), and what an arrival does to the sixteen bytes of one: ARRIVED and GEN, the first failure's CODE with
ERROR, and a drain's bits. -/
def Obligations.Bobbins : Prop :=
  (∀ (bs : List Byte) n (status : Byte) flags, bs.length = 16 →
    let out := bobbinArrive bs n status flags
    let t := field bs 0 3
    let a := (field bs 4 7 + n) % 2 ^ 32
    let g := field bs 8 11
    let w := field bs 12 15
    let w' := field out 12 15
    out.length = 16 ∧ field out 0 3 = t ∧ (t = 0 → field out 4 7 = a ∧ field out 8 11 = g) ∧
    (t ≠ 0 → field out 4 7 = a % t ∧ field out 8 11 = (g + a / t) % 2 ^ 32) ∧
    w' % 16 = (w % 16) ||| (flags % 16) ∧ w' / 2 ^ 5 % 2 ^ 19 = w / 2 ^ 5 % 2 ^ 19 ∧
    (status ≠ 0 → w / 2 ^ 4 % 2 = 0 → w' / 2 ^ 24 = status.toNat ∧ w' / 2 ^ 4 % 2 = 1) ∧
    (status = 0 ∨ w / 2 ^ 4 % 2 = 1 → w' / 2 ^ 24 = w / 2 ^ 24 ∧ w' / 2 ^ 4 % 2 = w / 2 ^ 4 % 2)) ∧
  ArmOf .barm 0x0AA ∧ ArmOf .barmImm 0x0AB ∧ SignalOf .bsig 0x0AC ∧ SignalOf .bsigImm 0x0AD ∧
  AwaitOf .bwait 0x0AE ∧ AwaitOf .bwaitImm 0x0AF

/-- Barriers (20 R368-R370, R372): a part parks while another part of its workgroup has not arrived; the last arrival
at `wbar` opens the instance, at `gbar` sends the workgroup's message; where parts have arrived at both kinds, each raises
BARRIER_MISMATCH at its own instruction; the end of the last wave that had not arrived opens the instance too; and the message's
and the release's arrival.
That a gbar's message waits for the workgroup's accesses at .dev is the model's reading (log 36). -/
def Obligations.Barriers : Prop :=
  (∀ x ∈ [(Instr.wbar, 0x0A8, Wait.barrier), (.gbar, 0x0A9, .gbar)], ∀ s c f, Issues s c x.2.1 f → c.p.handler = none →
    c.numbered → (x.2.1 = 0x0A9 → c.g.kernel.gridSync = true) →
    (∃ (i : Nat) (w : Wave) (j : Nat) (p : Part), i ∈ c.g.slots ∧ getWave c.k i = some w ∧ w.parts[j]? = some p ∧ ¬ (i = c.slot ∧ j = c.idx) ∧
      p.wait ≠ .barrier ∧ p.wait ≠ .gbar) →
    ∃ t d, exec (x.1 f) s = .next t ∧ partAt t s.cur = some d ∧ OnlyCore s t c.core ∧
      d.k = { c.k with waves := d.k.waves, wgs := d.k.wgs, issued := d.k.issued, vecQuads := d.k.vecQuads } ∧
      (∀ j, j ≠ c.slot → getWave d.k j = getWave c.k j) ∧ (∀ b, b ≠ c.w.wg → getWg d.k b = getWg c.k b) ∧
      d.g = { c.g with live := d.g.live, arrived := d.g.arrived, barKind := d.g.barKind } ∧ OnlyParts c.w d.w ∧
      (∀ i, i ≠ c.idx → d.w.parts[i]? = c.w.parts[i]?) ∧ d.p.wait = x.2.2 ∧ d.p.pc = c.p.pc ∧ d.p.lanes = c.p.lanes ∧
      d.p.paths = c.p.paths ∧ PartRegs c.p d.p) ∧
  (∀ s c f, Issues s c 0x0A8 f → c.p.handler = none → c.numbered → c.othersAt .barrier →
    ∃ t, exec (.wbar f) s = .next t ∧ OnlyCore s t c.core ∧ Opened c.k (getCore t c.core) c.w.wg c.g (fun _ => True)) ∧
  (∀ s c f, Issues s c 0x0A9 f → c.p.handler = none → c.g.kernel.gridSync = true → c.numbered → c.othersAt .gbar →
    ∃ t d, exec (.gbar f) s = .next t ∧ partAt t s.cur = some d ∧ OnlyCore s t c.core ∧ OnlyParts c.w d.w ∧
      d.g = { c.g with live := d.g.live, arrived := d.g.arrived, barKind := 2, gbarSent := true } ∧
      d.p.wait = .gbar ∧ d.p.pc = c.p.pc ∧ PartRegs c.p d.p) ∧
  (∀ s c f, Issues s c 0x0A9 f → c.p.handler = none → c.g.kernel.gridSync = false → Traps s c 0x0A9 f (.gbar f) 0x16) ∧
  (∀ x ∈ [(Instr.wbar, 0x0A8, Wait.barrier), (.gbar, 0x0A9, .gbar)], ∀ s c f, Issues s c x.2.1 f → c.p.handler = none →
    c.numbered → (x.2.1 = 0x0A9 → c.g.kernel.gridSync = true) → c.p.frozen = none →
    (∀ i w, i ∈ c.g.slots → getWave c.k i = some w → w.frozen = none ∧ ∀ (j : Nat) p, w.parts[j]? = some p →
      ¬ (i = c.slot ∧ j = c.idx) → (p.wait = .barrier ∨ p.wait = .gbar) ∧ p.frozen = none) →
    (∃ (i : Nat) (w : Wave) (j : Nat) (p : Part), i ∈ c.g.slots ∧ getWave c.k i = some w ∧ w.parts[j]? = some p ∧ ¬ (i = c.slot ∧ j = c.idx) ∧
      p.wait ≠ x.2.2) →
    ∃ u d, partAt u s.cur = some d ∧ OnlyCore s u c.core ∧ d.p.wait = x.2.2 ∧ d.p.pc = c.p.pc ∧ PartRegs c.p d.p ∧
      d.g = { c.g with live := d.g.live, arrived := 0, barKind := 0 } ∧ (∀ j, j ≠ c.slot → getWave d.k j = getWave c.k j) ∧
      (∀ i, i ≠ c.idx → d.w.parts[i]? = c.w.parts[i]?) ∧
      exec (x.1 f) s = .next (c.g.slots.foldl (fun v sl => match getWave (getCore v c.core) sl with
        | none => v
        | some w => raiseAll v c.core sl (w.parts.map (fun p => lowestLane p.lanes)) 0x15) u)) ∧
  (∀ s core slot lane rest cause, raiseAll s core slot [] cause = s ∧ raiseAll s core slot (lane :: rest) cause =
    raiseAll (match partAt s ⟨core, slot, lane⟩ with
      | some c => takeTrap (c.part (fun p => { p with wait := .ready })) { cause := cause }
      | none => s) core slot rest cause) ∧
  (∀ s core slot w g dead, getWave (getCore s core) slot = some w → getWg (getCore s core) w.wg = some g → s.draws = [] →
    liveLanes w &&& ~~~dead = 0 → slot ∈ g.slots → g.kernel.gridSync = false →
    (∀ i v, i ∈ g.slots → i ≠ slot → getWave (getCore s core) i = some v → v.index < 16 ∧ v.frozen = none ∧
      ∀ p ∈ v.parts, p.wait = .barrier ∧ p.frozen = none) →
    (∃ i v, i ∈ g.slots ∧ i ≠ slot ∧ getWave (getCore s core) i = some v ∧ v.parts ≠ []) →
    ∃ k1, (∀ b, getWg k1 b = getWg (getCore s core) b) ∧ (∀ i, i ≠ slot → getWave k1 i = getWave (getCore s core) i) ∧
      (∃ v, getWave k1 slot = some v ∧ v.parts = []) ∧
      Opened k1 (getCore (endWaveLanes s core slot dead) core) w.wg g (fun _ => True)) ∧
  (∀ s core bar g l i, getWg (getCore s core) bar = some g → g.gbarSent = true → g.gbarIn = false →
    (∀ j w, j ∈ g.slots → getWave (getCore s core) j = some w → w.loads = [] ∧ w.queue = [] ∧
      ∀ o ∈ (getCore s core).outbound, o.serial ≠ w.serial) →
    getLaunch s g.launch = some l → l.leaving = false → l.capstan = some i →
    (let x := getCapstan s i
     (x.arrived + 1 ≠ x.expect → exec (.gbarArrival core bar) s = .next
       (setCapstan (updWg s core bar (fun g => { g with gbarIn := true })) i { x with arrived := x.arrived + 1 })) ∧
     (x.arrived + 1 = x.expect → x.expect ≠ 0 → ∃ t, exec (.gbarArrival core bar) s = .next t ∧
       t = { s with cores := t.cores, capstans := t.capstans } ∧
       getCapstan t i = { x with arrived := 0, gen := x.gen + 1 } ∧ ∀ j, j ≠ i → getCapstan t j = getCapstan s j))) ∧
  (∀ s core bar g, getWg (getCore s core) bar = some g → g.gbarDue = true →
    ∃ t, exec (.gbarRelease core bar) s = .next t ∧ OnlyCore s t core ∧ Acquires (getCore s core) (getCore t core) g.asn 4 ∧
      Opened (getCore s core) (getCore t core) bar g (fun p => p.wait = .barrier ∨ p.wait = .gbar))

/-- Queue instructions (20 R379-R382) and what their entries of the store queue do when they leave it; a bin's place and making
(R375), the node waves that records and closing producers launch (R376), and the future of a device launch (03 R47). Records in
order of arrival are the model's reading (log 36). -/
def Obligations.Queues : Prop :=
  (∀ s g b n, binRoom s g b n = true ↔ match getBin s (rootOf g) b.key with
    | some x => x.reserved + n ≤ x.cap
    | none => (imageOfKernel s g.kernel).isSome = true ∧
        ∃ sl, binSlice s g.region (rootOf g) b.key ((b.cap * b.recBytes + 127) / 128) = some sl) ∧
  (∀ s rgn root key n sl, let h := homesOf s 0 ++ homesOf s 1
    let fits (sl : Nat) : Prop := pinnedLines s rgn sl + n ≤ 1024 * grantedWays s rgn
    binSlice s rgn root key n = some sl ↔ ∃ i < h.length, h[(key + root + i) % h.length]? = some sl ∧ fits sl ∧
      ∀ j < i, ∀ x, h[(key + root + j) % h.length]? = some x → ¬ fits x) ∧
  (∀ s g b x, getBin s (rootOf g) b.key = some x → createBin s g b = s) ∧
  (∀ s g b sl u k, getBin s (rootOf g) b.key = none →
    binSlice s g.region (rootOf g) b.key ((b.cap * b.recBytes + 127) / 128) = some sl → nodeKernel s g.kernel b.key = some (u, k) →
    ∃ t x, createBin s g b = t ∧ t = { u with bins := u.bins ++ [x], l2 := t.l2 } ∧
      x = { root := rootOf g, key := b.key, region := g.region, slice := sl, recBytes := b.recBytes, cap := b.cap, timer := b.timer,
            kernel := k, records := [], reserved := 0, serial := 0, restarted := 0 }) ∧
  (∀ s root key x, getBin s root key = some x → tornDown s root = false →
    let w := 2 ^ x.kernel.width
    let n := if openProducer s root key then x.records.length / w else (x.records.length + w - 1) / w
    ∃ t, binTest root s key = t ∧
      t.nodes = s.nodes ++ (List.range n).map (fun i =>
        ⟨root, key, x.serial + Reference.nat i, (x.records.drop (w * i)).take w, x.kernel⟩) ∧
      t = { s with nodes := t.nodes, bins := updateWhere (fun y => y.root = root && y.key = key) (fun _ =>
        { x with records := x.records.drop (w * n), reserved := x.reserved - min x.records.length (w * n),
                 serial := x.serial + Reference.nat n, restarted := if n = 0 then x.restarted else binCyc s x }) s.bins }) ∧
  (∀ s root, creelTest s root = ((s.bins.filter (fun b => b.root = root)).map (·.key)).foldl (binTest root) s) ∧
  (∀ s core fut root b recs, ∃ u, appendRecords s core fut root b recs = binTest root u b.key ∧
    u = { s with bins := u.bins, cores := u.cores } ∧ (∀ n, n ≠ core → getCore u n = getCore s n) ∧
    u.bins = updateWhere (fun y => y.root = root && y.key = b.key) (fun y => { y with
      records := y.records ++ recs, restarted := if y.records = [] then binCyc s y else y.restarted }) s.bins ∧
    (let k := getCore s core
     let k' := getCore u core
     k' = { k with futs := k'.futs, futOrder := k.futOrder + 1 } ∧
     SetsFuture k k' fut { getFut k fut with phase := 2, status := 0, bytes := Reference.nat (recs.length * b.recBytes),
                                             order := k.futOrder + 1 })) ∧
  (∀ s core fut g recs, ∃ u, u = { s with cores := u.cores } ∧ (∀ n, n ≠ core → getCore u n = getCore s n) ∧
    (let k := getCore s core
     getCore u core = { k with futs := (getCore u core).futs } ∧
     SetsFuture k (getCore u core) fut { getFut k fut with
       launches := (List.range recs.length).map (fun i => (s.accepted + i, none)) } ∧
     handLaunches s core fut g recs = (List.range recs.length).foldl (fun v i => (acceptLaunch v
       { asn := g.asn, parent := some g.region, fut := some (core, fut, (getFut k fut).gen, i) } (recs.getD i [])).1) u)) ∧
  (∀ s core i gen idx st, let f := getFut (getCore s core) i
    let l := f.launches.mapIdx (fun j x => if j = idx then (x.1, some st) else x)
    f.gen = gen → f.phase = 1 → let t := launchResult s (some (core, i, gen, idx)) st
    OnlyCore s t core ∧ ((∃ x ∈ l, x.2 = none) → getFut (getCore t core) i = { f with launches := l }) ∧
    ((∀ x ∈ l, x.2 ≠ none) → ∃ o, getFut (getCore t core) i =
      { f with launches := l, phase := 2, bytes := 0, order := o, status := ((l.filterMap (·.2)).filter (· != 0)).headD 0 })) ∧
  SpawnOf .spawn ∧ SpawnOf .spawnLanes ∧
  ComputesWhen .qcount 0x0B7 (fun c f => c.activeLanes f = 0 ∨ ∃ b, c.bound f b) (ScalarPost (fun c f =>
    match c.g.kernel.binds.find? (fun x => x.q = f.a.toNat - 424) with
    | none => 0
    | some b => Reference.nat (if b.launch then
        ((c.k.futs.filter (fun e => e.2.phase = 1 && e.2.serial = c.w.serial && e.2.queue = some b.q)).map
          (fun e => e.2.launches.length)).sum
      else match getBin c.s (rootOf c.g) b.key with
        | some x => x.records.length
        | none => 0))) ∧
  ComputesWhen .qclose 0x0B8 (fun c f => c.activeLanes f ≠ 0 ∧ ∃ b, c.bound f b ∧ c.w.closed.contains b.q = false)
    (fun c f d => ∃ e, d.w = { c.w with parts := d.w.parts, closed := c.w.closed ++ [f.a.toNat - 424],
                                        queue := c.w.queue ++ [e], seq := c.w.seq + 1 } ∧
      e.kind = .qclose (f.a.toNat - 424) ∧ PartRegs c.p d.p) ∧
  ComputesWhen .qclose 0x0B8 (fun c f => c.activeLanes f = 0 ∨ ∃ b, c.bound f b ∧ c.w.closed.contains b.q = true)
    (fun c _ d => PartRegs c.p d.p ∧ OnlyParts c.w d.w) ∧
  (∀ x ∈ [(Instr.spawn, 0x0B6), (.spawnLanes, 0x0B6), (.qcount, 0x0B7), (.qclose, 0x0B8)], ∀ s c f, Issues s c x.2 f →
    c.activeLanes f ≠ 0 → (∀ b, ¬ c.bound f b) → Traps s c x.2 f (x.1 f) 0x12) ∧
  (∀ s core slot w p g e q data fut b, queueHead s core slot = some (w, p, g, e) → e.kind = .spawn q data fut →
    g.kernel.binds.find? (fun x => x.q = q) = some b →
    exec (.spawnAppend core slot) s = .next (if b.launch then
      handLaunches (popQueue s core slot) core fut g (cutRecords 64 data)
      else appendRecords (popQueue s core slot) core fut (rootOf g) b (cutRecords b.recBytes data))) ∧
  (∀ s core slot w p g e q, queueHead s core slot = some (w, p, g, e) → e.kind = .qclose q →
    exec (.qcloseLeave core slot) s = .next (creelTest (updWave (popQueue s core slot) core slot
      (fun w => { w with closed := w.closed ++ [32 + q] })) (rootOf g))) ∧
  (∀ s p c, partAt s p = some c → 1048576 < c.p.stallFor → exec (.queueStall p) s =
    .next (takeTrap (c.part (fun p => { p with stallFor := 0, wait := .ready })) { cause := 0x14 }))

/-! The matrix array. -/

/-- Matrix instructions (15 R300-R310). -/
def Obligations.MatrixInstructions : Prop :=
  EntersArray .mloadB 0x1B0
    (fun c f => c.within [(lowestLane c.p.lanes, (c.src .int false f.a.toNat 0 0).toInt + offField f.x)]
      (64 * lineBytes (f.x.toNat / 2 ^ 20 % 16) (16 * (f.x.toNat / 2 ^ 25 % 64 + 1))) 16)
    (fun _ => 1)
    (fun c f => .load (f.x.toNat / 2 ^ 24 % 2) (f.x.toNat / 2 ^ 20 % 16) (16 * (f.x.toNat / 2 ^ 25 % 64 + 1))
      (c.g.base + ((c.src .int false f.a.toNat 0 0).toInt + offField f.x).toNat))
    (fun c f k => setBank k (f.x.toNat / 2 ^ 24 % 2) { getBank k (f.x.toNat / 2 ^ 24 % 2) with
      state := Reference.dnat (((c.src .int false f.a.toNat 0 0).toInt + offField f.x).toNat * 2 ^ 32 +
        f.x.toNat / 2 ^ 20 % 16 * 2 ^ 8 + 3)
      k := 16 * (f.x.toNat / 2 ^ 25 % 64 + 1) }) ∧
  ComputesWhen .mgatherA 0x1B1 (fun c f => c.activeLanes f ≠ 0 ∧ ∀ j ≤ f.x.toNat / 2 ^ 10 % 128,
      c.gatherRow f j + lineBytes (f.x.toNat % 16) (16 * (f.x.toNat / 16 % 64 + 1)) ≤ c.g.scratch)
    (fun c f d => PartRegs c.p d.p ∧ d.w = { c.w with parts := d.w.parts, gather := d.w.gather } ∧
      ∀ i, kget none d.w.gather i = if i = lowestLane c.p.lanes / 16 then
          some ⟨f.x.toNat % 16, 16 * (f.x.toNat / 16 % 64 + 1),
            (List.range (f.x.toNat / 2 ^ 10 % 128 + 1)).map (c.gatherRow f)⟩
        else kget none c.w.gather i) ∧
  Idle .mgatherA 0x1B1 ∧
  PassOf .mmaBf16 0x1B2 0 ∧ PassOf .mmaFp16 0x1B3 1 ∧ PassOf .mmaE4m3 0x1B4 2 ∧ PassOf .mmaE5m2 0x1B5 3 ∧
  PassOf .mmaInt8 0x1B6 4 ∧ PassOf .mmaPx8 0x1B7 5 ∧ PassOf .mmaPx5 0x1B8 6 ∧ PassOf .mmaMxfp4 0x1B9 7 ∧
  PassOf .mmaPx3 0x1BA 8 ∧
  DrainOf .mdrainSp 0x1BB true ∧ DrainOf .mdrain 0x1BC false ∧
  (∀ s c f, Issues s c 0x1BD f → c.activeLanes f ≠ 0 → arrayFull c.k = false →
    ∃ t d, exec (.mzero f) s = .next t ∧ partAt t s.cur = some d ∧ OnlyCore s t c.core ∧
      (let tile := c.physTile (f.d.toNat - 384)
       OnlyWave (withEntry (setTile c.k tile { getTile c.k tile with tag := tagAny }) (c.arrayEntry (.zero tile) 0)) d.k c.slot) ∧
      OtherParts c d f ∧ NextInPart c.p d.p ∧ PartRegs c.p d.p ∧ OnlyParts c.w d.w) ∧
  Idle .mzero 0x1BD ∧
  ComputesWhen .mstatTile 0x1BE (fun c f => c.activeLanes f = 0 ∨ (arrayFull c.k = false ∧
      ∀ e ∈ c.k.array, changesTile (c.physTile (f.a.toNat - 384)) e = false))
    (VectorPost (fun c f _ => (getTile c.k (c.physTile (f.a.toNat - 384))).status) (fun _ _ _ => tagU32)) ∧
  ComputesWhen .mstatBank0 0x1BE (fun c f => c.activeLanes f = 0 ∨ (arrayFull c.k = false ∧
      ∀ e ∈ c.k.array, loadsBank 0 e = false))
    (VectorPost (fun c _ _ => Reference.nat (getBank c.k 0).state.toNat) (fun _ _ _ => tagU32)) ∧
  ComputesWhen .mstatBank1 0x1BE (fun c f => c.activeLanes f = 0 ∨ (arrayFull c.k = false ∧
      ∀ e ∈ c.k.array, loadsBank 1 e = false))
    (VectorPost (fun c _ _ => Reference.nat (getBank c.k 1).state.toNat) (fun _ _ _ => tagU32)) ∧
  (∀ (k : Core) e tile, k.array = [] → e.op = .zero tile → (withEntry k e).array = [] ∧
    getTile (withEntry k e) tile = { getTile k tile with elems := [], status := 0, ecc := [] }) ∧
  (∀ (k : Core) e tile dfmt add xsat zero scope dest stride rows bob sp, k.array = [] →
    e.op = .drain tile dfmt add xsat zero scope dest stride rows bob sp none →
    ∃ e', (withEntry k e).array = [e'] ∧ e'.id = e.id ∧ e'.op = .drain tile dfmt add xsat zero scope dest stride rows bob sp
      (some (readTile (getTile k tile) rows dfmt)))

/-- What the squarers compute (14 R286, R289): twice the sum of products is the difference of squares, so each element
takes the old value plus the exact dot product, rounded once, or modulo 2^32 in an I32 tile; NaN and infinity as the rows of
R289's table say, in their order. A line's elements are aligned as R285 says, with the flags of R288. -/
def Obligations.MatrixProduct : Prop :=
  (∀ fmt k bs, (makeLine fmt k bs).square = ((makeLine fmt k bs).ints.map (fun x => x * x)).sum) ∧
  (∀ (a b : Line) (old : Word), a.ints.length = b.ints.length → a.square = (a.ints.map (fun x => x * x)).sum →
    b.square = (b.ints.map (fun x => x * x)).sum →
    let dot : Int := (List.zipWith (fun x y => x * y) a.ints b.ints).sum
    cellUpdate 4 a b old = Reference.int (old.toInt + dot) ∧
    ∀ fmt, fmt ≠ 4 → f32 old ≠ .nan → noNanProduct a b →
      let has (s : Bool) : Prop := infProduct a b s ∨ f32 old = .inf s
      (has true → has false → cellUpdate fmt a b old = 0x7FC00000) ∧
      (has true → ¬ has false → cellUpdate fmt a b old = 0xFF800000) ∧
      (has false → ¬ has true → cellUpdate fmt a b old = 0x7F800000) ∧
      (¬ has true → ¬ has false → cellUpdate fmt a b old = if dot = 0 then old
        else toF32 0 ((f32 old).add 0 (.num (decide (dot < 0)) dot.natAbs (a.f + b.f))))) ∧
  (∀ (a b : Line) (old : Word) fmt, fmt ≠ 4 → f32 old = .nan ∨ ¬ noNanProduct a b → cellUpdate fmt a b old = 0x7FC00000) ∧
  (∀ fmt k bs, fmt ≤ 8 → k % 16 = 0 → (fmt = 7 → k % 32 = 0) → bs.length = lineBytes fmt k →
    alignsTo (makeLine fmt k bs) k (lineElem fmt k bs) ∧ scaleOf fmt k bs (makeLine fmt k bs).f)

/-- What the array does by itself (14 R291-R296; 15 R300, R307, R308): a load, a row's entry, a row's write, a pass's
end, a drain's update and its completion. The model's reading of what falls due when (log 24), and of when a row's gather
begins (log 47). -/
def Obligations.ArrayEvents : Prop :=
  (∀ s core id e b fmt kk src, (getCore s core).array.find? (fun e => e.id = id) = some e → e.op = .load b fmt kk src →
    (∀ x ∈ earlierThan (getCore s core) id, passesBank b x = false ∧ loadsBank b x = false) →
    ∃ t k', exec (.mloadExecute core id) s = .next t ∧ OnlyCore s t core ∧
      let k := getCore s core
      let rb := lineBytes fmt kk
      getCore t core = (if (k.array.filter (fun x => x.id != id)).any holdsPlace then k' else startRamp k' (coreCyc s core)) ∧
      k' = { k with banks := k'.banks, array := k.array.filter (fun x => x.id != id), ballast := k'.ballast,
                    futs := k'.futs, futOrder := k.futOrder + 1 } ∧
      (getBank k' b).cols = (List.range 64).map (fun n => makeLine fmt kk (readBytes k.sram (src + n * rb) rb)) ∧
      (getBank k' b).bad = anyBad k.sramErr src (64 * rb) ∧ (∀ j, j ≠ b → getBank k' j = getBank k j) ∧
      (getFut k' e.fut).phase = 2 ∧ (getFut k' e.fut).bytes = Reference.nat (64 * rb) ∧
      (getFut k' e.fut).status = (if anyBad k.sramErr src (64 * rb) then 0x45 else 0) ∧
      ∀ j, j ≠ e.fut → getFut k' j = getFut k j) ∧
  (∀ s core, (getCore s core).nextSlot ≤ coreCyc s core →
    ∃ t, exec (.arrayRowEntry core) s = .next t ∧ OnlyCore s t core ∧
      let k := getCore s core
      let k' := getCore t core
      match (nextPass k).filter (fun e => decide (e.ready ≤ coreCyc s core)) with
      | none => k' = (if k.ballast then { k with nextSlot := coreCyc s core + k.interval } else k)
      | some e => ∀ tile b g base entered written check, e.op = .pass tile b g base entered written check →
        let a := base + g.rows.getD entered 0
        let rb := lineBytes g.fmt g.k
        let next (x : ArrayEntry) : ArrayEntry :=
          { x with op := .pass tile b g base (entered + 1) written check
                   ready := coreCyc s core + rowCycles g base (entered + 1) }
        k' = { k with nextSlot := coreCyc s core + k.interval, rows := k'.rows, array := k'.array } ∧
        k'.array = updateWhere (fun x => x.id = e.id) next k.array ∧
        k'.rows = k.rows ++ [⟨e.id, entered, coreCyc s core + 138,
          if anyBad k.sramErr a rb then none else some (makeLine g.fmt g.k (readBytes k.sram a rb))⟩]) ∧
  (∀ s core r e tile b g base entered written check,
    let k := getCore s core
    let cyc := coreCyc s core
    (∀ x ∈ k.array, ∀ tile b g base entered written check, x.op = .pass tile b g base entered written check →
      ¬ (written = g.rows.length ∧ x.doneAt ≤ cyc)) →
    k.rows.find? (fun r => decide (r.due ≤ cyc)) = some r → k.array.find? (fun e => e.id = r.entry) = some e →
    e.op = .pass tile b g base entered written check → (∀ x ∈ earlierThan k e.id, dueOnTile tile x = false) →
    ∃ t, exec (.tileRowWrite core) s = .next t ∧ OnlyCore s t core ∧
      let k' := getCore t core
      let x := writeRow g.fmt (getBank k b) (getTile k tile) r
      let next (y : ArrayEntry) : ArrayEntry :=
        { y with op := .pass tile b g base entered (written + 1) (check || x.2), doneAt := cyc + 1 }
      k' = { k with tiles := k'.tiles, rows := k'.rows, array := k'.array } ∧
      k'.rows = k.rows.filter (fun y => !(y.entry = r.entry && y.row = r.row)) ∧
      k'.array = updateWhere (fun y => y.id = e.id) next k.array ∧
      getTile k' tile = x.1 ∧ ∀ j, j ≠ tile → getTile k' j = getTile k j) ∧
  (∀ fmt (bank : Bank) (tile : Tile) (r : ArrayRow),
    let x := writeRow fmt bank tile r
    let bad : Word := if fmt = 4 then 0 else 0x7FC00000
    (∀ i n, n < 64 → kget 0 x.1.elems (i * 64 + n) =
      if i = r.row then match r.line with
        | some line => if bank.bad = true ∨ n ∈ bank.parity ∨ i * 64 + n ∈ tile.ecc then bad
            else cellUpdate fmt line (bank.cols.getD n {}) (kget 0 tile.elems (i * 64 + n))
        | none => bad
      else kget 0 tile.elems (i * 64 + n)) ∧
    x.1.tag = tile.tag ∧ (∀ i, i ∈ x.1.ecc ↔ i ∈ tile.ecc ∧ i / 64 ≠ r.row) ∧ (x.2 = true ↔ bank.bad = true ∨ r.line = none) ∧
    (∀ i, tbit x.1.status i = true ↔ tbit tile.status i = true ∨ (i = 0 ∧ bank.parity ≠ []) ∨ (i = 1 ∧ ∃ j ∈ tile.ecc, j / 64 = r.row) ∨
      (i = 2 ∧ x.2 = true) ∨ (i = 3 ∧ ((∃ c ∈ bank.cols, c.loss = true) ∨ ∃ l, r.line = some l ∧ l.loss = true)))) ∧
  (∀ s core e tile b g base entered check,
    let k := getCore s core
    k.array.find? (fun e => match e.op with
      | .pass _ _ d _ _ written _ => decide (written = d.rows.length) && decide (e.doneAt ≤ coreCyc s core)
      | _ => false) = some e → e.op = .pass tile b g base entered g.rows.length check →
    ∃ t, exec (.tileRowWrite core) s = .next t ∧ OnlyCore s t core ∧
      let k1 := completePass k e
      getCore t core = (if k1.array.any holdsPlace then k1 else startRamp k1 (coreCyc s core)) ∧
      ∃ k2, k1 = settleArray k2 ∧ k2 = { k with tiles := k2.tiles, futs := k2.futs, futOrder := k.futOrder + 1,
                                                array := k.array.filter (fun x => x.id != e.id), ballast := k2.ballast } ∧
        (let x := getTile k tile
         getTile k2 tile = { x with status := (getTile k2 tile).status } ∧
         (getTile k2 tile).status.toNat = x.status.toNat % 2 ^ 16 + 2 ^ 16 * min 65535 (x.status.toNat / 2 ^ 16 + 1)) ∧
        (∀ j, j ≠ tile → getTile k2 j = getTile k j) ∧
        (getFut k2 e.fut).phase = 2 ∧ (getFut k2 e.fut).status = (if check then 0x45 else 0) ∧
        (getFut k2 e.fut).bytes = Reference.nat (lineBytes g.fmt g.k * g.rows.length) ∧
        ∀ j, j ≠ e.fut → getFut k2 j = getFut k j) ∧
  (∀ (k : Core) (e : ArrayEntry) tile, (∀ x ∈ earlierThan k e.id, dueOnTile tile x = false) →
    let k' := settleOne k e
    let x := getTile k tile
    let empty (y : Tile) : Prop := (∀ n, kget 0 y.elems n = 0) ∧ y.status = 0 ∧ y.ecc = [] ∧ y.tag = x.tag
    (e.op = .zero tile → k' = { k with tiles := k'.tiles, ballast := k'.ballast, array := k.array.filter (fun y => y.id != e.id) } ∧
      empty (getTile k' tile) ∧ ∀ j, j ≠ tile → getTile k' j = getTile k j) ∧
    (∀ dfmt add xsat zero scope dest stride rows bob sp,
      e.op = .drain tile dfmt add xsat zero scope dest stride rows bob sp none →
      let met := ∃ i < rows, ∃ n < 64, i * 64 + n ∈ x.ecc
      let bad : Word := if dfmt = 5 then 0 else 0x7FC00000
      ∃ st : Word, (∀ i, tbit st i = true ↔ tbit x.status i = true ∨ (i = 1 ∧ met)) ∧
        k' = { k with tiles := k'.tiles, array := updateWhere (fun y => y.id = e.id) (fun y =>
          { y with op := .drain tile dfmt add xsat zero scope dest stride rows bob sp (some ((List.range rows).map (fun i =>
                     (List.range 64).map (fun n => if i * 64 + n ∈ x.ecc then bad else kget 0 x.elems (i * 64 + n)))))
                   bits := st.toNat % 16 }) k.array } ∧
        (zero = true → empty (getTile k' tile)) ∧ (zero = false → getTile k' tile = { x with status := st }) ∧
        ∀ j, j ≠ tile → getTile k' j = getTile k j)) ∧
  (∀ s core id e tile dfmt add xsat zero scope dest stride rows bob sp image,
    let s1 := setCore s core (settleArray (getCore s core))
    let k := getCore s1 core
    k.array.find? (fun e => e.id = id) = some e →
    e.op = .drain tile dfmt add xsat zero scope dest stride rows bob sp (some image) → e.result = none →
    e.peer = none → drainReleased k e scope = true → (sp = true ∨ isPeerVa (BitVec.ofNat 64 dest) = false) →
    (sp = false → drainDenied s1 e.asn add dest (coveredBytes dfmt stride rows) = none) →
    let r := drainAll core e.asn sp dfmt add xsat dest stride image
      (if sp then s1 else touchRange s1 e.asn .store e.region dest (coveredBytes dfmt stride rows))
    let status : Byte := if r.failed then 0x45 else 0
    let ends (x : ArrayEntry) : ArrayEntry :=
      { x with result := some (r.written, status), bits := if r.failed then e.bits ||| 4 else e.bits, peer := none }
    let none' (x : ArrayEntry) : ArrayEntry := { ends x with result := some (r.written, 0xC3) }
    (r.absent = false → exec (.drainExecute core id) s = .next (setCore r.s core (updEntry (getCore r.s core) id ends))) ∧
    (r.absent = true → exec (.drainExecute core id) s = .next (updSerial (setCore r.s core (updEntry (getCore r.s core) id none'))
      core e.slot e.serial (fun w => { w with resid := w.resid ||| Reference.dnat (2 ^ e.lane) })))) ∧
  (∀ s core id e tile dfmt add xsat zero scope dest stride rows bob image c va,
    let s1 := setCore s core (settleArray (getCore s core))
    let k := getCore s1 core
    k.array.find? (fun e => e.id = id) = some e → e.id = id →
    e.op = .drain tile dfmt add xsat zero scope dest stride rows bob false (some image) → e.result = none →
    e.peer = none → drainReleased k e scope = true → isPeerVa (BitVec.ofNat 64 dest) = false →
    drainDenied s1 e.asn add dest (coveredBytes dfmt stride rows) = some (c, va) →
    ∃ t, exec (.drainExecute core id) s = .next t ∧
      (∃ x, (getCore t core).array.find? (fun e => e.id = id) = some x ∧ x = { e with result := some (0, c), peer := none }) ∧
      ∀ w, getWave k e.slot = some w → w.serial = e.serial → w.frozen = none →
        ∃ w', getWave (getCore t core) e.slot = some w' ∧ w'.frozen = some c) ∧
  (∀ s asn add dest n,
    let denied (p : Nat × Nat) (c : Byte) : Prop := route s asn (if add then .atomic else .store) (Reference.dnat p.1) = .denied c
    (drainDenied s asn add dest n = none ↔ ∀ p ∈ pieces dest n, ∀ c, ¬ denied p c) ∧
    ∀ c va, drainDenied s asn add dest n = some (c, va) → ∃ p ∈ pieces dest n, va = Reference.dnat p.1 ∧ denied p c) ∧
  (∀ s core asn dfmt add xsat dest stride image, dfmt ≤ 5 →
    let places := drainPlaces s asn dfmt add dest stride image.length
    let es := drainSize dfmt
    (∀ i < image.length, ∀ q < 2 * es, ∀ key leaf,
      route s asn (if add then .atomic else .store) (Reference.dnat (dest + i * stride + 32 * q)) = .phys key leaf → key % 32 = 0) →
    (places.map (·.2.2)).Nodup →
    let r := drainAll core asn false dfmt add xsat dest stride image s
    r.written = 32 * places.length ∧
    (r.absent = false ↔ ∀ i < image.length, ∀ q < 2 * es, ∃ key leaf,
      route s asn (if add then .atomic else .store) (Reference.dnat (dest + i * stride + 32 * q)) = .phys key leaf) ∧
    (r.failed = true ↔ add = true ∧ ∃ i < image.length, ∃ q < 2 * es, ∃ key leaf,
      route s asn .atomic (Reference.dnat (dest + i * stride + 32 * q)) = .phys key leaf ∧ memBadAt s key 32 = true) ∧
    (∀ x ∈ places, ∀ j < 32 / es, ofBytes (memRead r.s (x.2.2 + j * es) es) =
      drainValue dfmt add xsat ((image.getD x.1 []).getD (x.2.1 * (32 / es) + j) 0) (ofBytes (memRead s (x.2.2 + j * es) es))) ∧
    ∀ a, (∀ x ∈ places, a < x.2.2 ∨ x.2.2 + 32 ≤ a) → r.s.byte a = s.byte a) ∧
  (∀ add xsat (t : Word) old,
    (∀ n < 5, let x := [fp32, fp16, bf16, e4m3, e5m2].getD n fp32
      drainValue n add xsat t old = if add then x.round 0 0 false ((x.decode old).add 0 (f32 t))
        else x.round 0 0 (decide (3 ≤ n) != xsat) (f32 t)) ∧
    drainValue 5 add xsat t old = if add then (t.toNat + old) % 2 ^ 32 else t.toNat) ∧
  (∀ s core id e tile dfmt add xsat zero scope dest stride rows bob sp image n st,
    let k := getCore s core
    k.array.find? (fun e => e.id = id) = some e → e.op = .drain tile dfmt add xsat zero scope dest stride rows bob sp image →
    e.result = some (n, st) → ∃ t, exec (.drainComplete core id) s = .next t ∧ OnlyCore s t core ∧
      let k' := getCore t core
      k' = { k with array := k.array.filter (fun x => x.id != id), futs := k'.futs, futOrder := k.futOrder + 1, l1 := k'.l1,
                    sram := k'.sram, sramErr := k'.sramErr, ballast := k'.ballast } ∧
      (getFut k' e.fut).phase = 2 ∧ (getFut k' e.fut).status = st ∧ (getFut k' e.fut).bytes = Reference.nat n ∧
      (bob = none → k'.sram = k.sram) ∧
      ∀ b, bob = some b → k'.sram = writeBytes k.sram (e.base + b) (bobbinArrive (readBytes k.sram (e.base + b) 16) n st e.bits))

/-! Textures, rays, meshes, fragments. -/

/-- Texture and resource instructions (17 R326-R330): what they read, where records are cached and texels resident.
The model's choices: a lane's bytes are read one access after the other as the core finds them, and those that must be fetched
are kept for the part until its instruction has all (log 13); a result for a coordinate that is not finite is free (log 2); an
array's layer is the floor of its coordinate (log 11). What `tex.smp` and its like name is filtered as R329 says: the footprint,
the address modes of R324, the weights, the level and its clamp (R328), and the join of two levels. -/
def Obligations.Textures : Prop :=
  TexReadOf .texLd 0x1C3 false (fun r => r.kind ≠ 0) 4 tagAny texLdValue ∧
  TexReadOf .resLd 0x1C6 false (fun r => r.kind = 0) 1 tagAny resLdValue ∧
  TexReadOf .resQ 0x1C7 false (fun _ => True) 1 tagI32 resQValue ∧
  TexReadOf .texSmpLod 0x1C1 true (fun r => r.kind ≠ 0) 4 tagAny smpLodValue ∧
  TexReadOf .texSmp 0x1C0 true (fun r => r.kind ≠ 0) 4 tagAny smpValue ∧
  TexReadOf .texSmpGrad 0x1C2 true (fun r => r.kind ≠ 0) 4 tagAny smpGradValue ∧
  TexReadOf .texG4 0x1C5 true (fun r => r.kind ≠ 0) 4 tagAny g4Value ∧
  (∀ res : Nat → Res, ComputesWhen .texSt 0x1C4 (fun c f => c.held = false ∧ ∀ l, c.takes f l →
      c.resource 0x1C4 f l = some (res l) ∧ (res l).kind ≠ 0 ∧ (res l).writable = true ∧
      ∀ va, c.texelOf f (res l) l = some va → va.toNat + texelBytes (res l).fmt ≤ 2 ^ 57)
    (fun c f d =>
      let ws : List LaneWrite := (lanesOf (c.activeLanes f)).filterMap (fun l => (c.texelOf f (res l) l).map (fun va =>
        ⟨l, va, storeTexel (res l).fmt ((List.range 4).map (fun i =>
          let x := c.readV (fieldC f + i) l
          if (res l).fmt ≤ 2 then toF32 0 (f32 x) else x))⟩))
      PartRegs c.p d.p ∧ (ws = [] → OnlyParts c.w d.w) ∧
      (ws ≠ [] → ∃ e, d.w = { c.w with parts := d.w.parts, queue := c.w.queue ++ [e], seq := c.w.seq + 1 } ∧
        e.kind = .store ws ∧ e.rel = scopeFor (ws.map (fun x => (x.lane, x.va))) (c.release none) ∧ e.seq = c.w.seq))) ∧
  (∀ b : Nat, b ≤ 255 → roundsTo 23 (-149) 0 ((b : ℚ) / 255) (f32 (unorm8 b)).value) ∧
  (∀ (u : Word) (n : Nat), (f32 u).finite →
    (footprint false u n).1 = ⌊(f32 u).value * n⌋ ∧ (footprint true u n).2 < 256 ∧
    nearestEven (256 * ((f32 u).value * n - 1 / 2)) ((footprint true u n).1 * 256 + (footprint true u n).2)) ∧
  (∀ n : Nat, 0 < n → ∀ (i : Int) (j : Nat),
    (addrMode 0 n i = some j ↔ j < n ∧ (i - j) % n = 0) ∧
    (addrMode 1 n i = some j ↔ j < n ∧ ∀ k : Nat, k < n → |i - j| ≤ |i - k|) ∧
    (addrMode 2 n i = some j ↔ j < n ∧ i = j)) ∧
  (∀ shift ws, ws ≠ [] → sumRounded shift ws (joinTerms shift ws)) ∧
  (∀ (c : Cx) (r : Res) (sm : Samp) l x y z,
    (∀ i j k, addrMode sm.au (r.lw l) x = some i → addrMode sm.av (r.lh l) y = some j →
      (if r.kind = 1 then k = 0 else addrMode sm.aw (r.ld l) z = some k) →
      c.texelAt r sm l x y z = c.fetchTexel r.fmt (r.texel l i j k)) ∧
    (addrMode sm.au (r.lw l) x = none ∨ addrMode sm.av (r.lh l) y = none ∨ (r.kind ≠ 1 ∧ addrMode sm.aw (r.ld l) z = none) →
      c.texelAt r sm l x y z = ([0, 0, 0, 0], {}))) ∧
  (∀ (c : Cx) (r : Res) (sm : Samp) l (u v w : Word),
    let layer : Int := if r.kind = 3 then ⌊(f32 w).value⌋ else 0
    let out (q : Nat) : Word := (c.filterLevel r sm l u v w).1.getD q 0
    (f32 u).finite → (f32 v).finite → (r.kind ≠ 1 → (f32 w).finite) →
    (sm.linear = false ∨ r.fmt = 5 → c.filterLevel r sm l u v w = c.texelAt r sm l (footprint false u (r.lw l)).1
      (footprint false v (r.lh l)).1 (if r.kind = 2 then ⌊(f32 w).value * r.ld l⌋ else layer)) ∧
    (sm.linear = true → r.fmt ≠ 5 → ∀ q < 4,
      (r.kind ≠ 2 → sumRounded 16 (c.taps r sm l (footprint true u (r.lw l)) (footprint true v (r.lh l)) [(layer, 1)] q) (out q)) ∧
      (r.kind = 2 → let fz := footprint true w (r.ld l)
        sumRounded 24 (c.taps r sm l (footprint true u (r.lw l)) (footprint true v (r.lh l)) [(fz.1, 256 - fz.2), (fz.1 + 1, fz.2)] q)
          (out q)))) ∧
  (∀ (c : Cx) (r : Res) (sm : Samp) lod u v w, 0 < r.levels → (f32 lod).finite → 0 ≤ (f32 lod).value → (f32 lod).value ≤ r.levels - 1 →
    let x := (f32 lod).value
    let level (l : Nat) := c.filterLevel r sm l u v w
    (sm.mip = 0 → c.sampleAt r sm lod u v w = level 0) ∧
    (sm.mip = 1 → ∀ l : Nat, nearestEven x l → c.sampleAt r sm lod u v w = level l) ∧
    (sm.mip = 2 → r.fmt ≠ 5 → ∀ (l f : Nat), (l : Int) = ⌊x⌋ → nearestEven (256 * (x - l)) f →
      (l + 1 = r.levels → c.sampleAt r sm lod u v w = level l) ∧
      (l + 1 < r.levels → ∀ q < 4, sumRounded 8 [(256 - f, (level l).1.getD q 0), (f, (level (l + 1)).1.getD q 0)]
        ((c.sampleAt r sm lod u v w).1.getD q 0)))) ∧
  (∀ (r : Res) (sm : Samp) lam bias, 0 < r.levels → r.levels ≤ 16 →
    let l2 := f32Add (match bias with
      | some b => f32Add lam b
      | none => lam) sm.bias
    ((f32 l2).isNan = true → lodOf r sm lam bias = sm.minLod) ∧
    ((f32 l2).finite → (f32 sm.minLod).finite → (f32 sm.maxLod).finite → (f32 (lodOf r sm lam bias)).finite ∧
      (f32 (lodOf r sm lam bias)).value = min (max (f32 l2).value (f32 sm.minLod).value) (min (f32 sm.maxLod).value (r.levels - 1))))

/-- Ray tests (18 R337-R341): a box is hit exactly where some point of the ray's range lies in it, and the first such
point is rounded toward minus infinity (no entry of a valid ray other than 0 is nearer to 0 than 2^-300); a triangle's
hits are exactly the solutions of the ray against it, and of two triangles the nearer is given, on a tie triangle 0; and the
traversal stacks (18 R342, R343). The model's choices: node bytes come through the part's
read buffer (log 13); an exact zero is +0 (log 34). -/
def Obligations.Rays : Prop :=
  RayOf .rtBox 0x1C8 128 128 [0x7F800000, 0x7F800000, 0x7F800000, 0x7F800000] (fun _ ray bs =>
    (List.range 4).map (fun j => boxHit ray ((bs.drop (32 * j)).take 32))) ∧
  RayOf .rtTri 0x1C9 96 32 [0x7F800000, 0xFFFFFFFF, 0, 0] (fun f ray bs => triNode (f.x.toNat % 2 = 1) ray bs) ∧
  (∀ ray bs, (∃ i < 6, (f32 (wordAt bs i)).isNan = true) ∨ (∃ i < 3, (extOf (wordAt bs i)).le (extOf (wordAt bs (i + 3))) = false) →
    boxHit ray bs = 0x7F800000) ∧
  (∀ ray bs, (∀ i < 6, (f32 (wordAt bs i)).isNan = false) → (∀ i < 3, (extOf (wordAt bs i)).le (extOf (wordAt bs (i + 3))) = true) →
    (boxHit ray bs ≠ 0x7F800000 ↔ ∃ t : ℚ, InBox ray bs t) ∧
    ∀ t : ℚ, InBox ray bs t → (∀ u, InBox ray bs u → t ≤ u) →
      (t = 0 → boxHit ray bs = 0) ∧
      (2 ^ (-300 : Int) ≤ |t| → |t| < 2 ^ 128 → (f32 (boxHit ray bs)).finite →
        roundsTo 23 (-149) 3 t (f32 (boxHit ray bs)).value)) ∧
  (∀ ray cull bs t b1 b2 back,
    let v (i : Nat) : ℚ := (f32 (wordAt bs i)).value
    let e1 : Vec3 := (v 3 - v 0, v 4 - v 1, v 5 - v 2)
    let e2 : Vec3 := (v 6 - v 0, v 7 - v 1, v 8 - v 2)
    triHit ray cull bs = some (t, b1, b2, back) ↔
      (∀ i < 9, (f32 (wordAt bs i)).finite) ∧ e1.dot (ray.d.cross e2) ≠ 0 ∧
      0 ≤ b1 ∧ 0 ≤ b2 ∧ b1 + b2 ≤ 1 ∧ ray.tmin ≤ t ∧ (Ext.fin t).le ray.tmax = true ∧
      (back = true ↔ 0 < (e1.cross e2).dot ray.d) ∧ (cull = true → back = false) ∧
      ray.o.1 + t * ray.d.1 = v 0 + b1 * e1.1 + b2 * e2.1 ∧
      ray.o.2.1 + t * ray.d.2.1 = v 1 + b1 * e1.2.1 + b2 * e2.2.1 ∧
      ray.o.2.2 + t * ray.d.2.2 = v 2 + b1 * e1.2.2 + b2 * e2.2.2) ∧
  (∀ ray cull bs,
    let hit (k : Nat) := triHit ray cull (if k = 0 then bs.take 48 else bs.drop 48)
    (hit 0 = none → hit 1 = none → triNode cull ray bs = [0x7F800000, 0xFFFFFFFF, 0, 0]) ∧
    ∀ k < 2, ∀ t b1 b2 back, hit k = some (t, b1, b2, back) →
      (∀ u x y z, hit (1 - k) = some (u, x, y, z) → t < u ∨ (t = u ∧ k = 0)) →
      ∃ w0 w2 w3, triNode cull ray bs = [w0, Reference.nat (k + if back then 2 else 0), w2, w3] ∧
        nearWord t w0 ∧ nearWord b1 w2 ∧ nearWord b2 w3) ∧
  Reaches1 .wstkPush 0x1CA (fun c f => c.held = false ∧ (c.activeLanes f ≠ 0 → c.mayRelease none) ∧
      ∀ l, c.takes f l → c.stackOk (c.operand 0x1CA f 1 .int 0) l) sameState scratchOf (fun c f d =>
      let w := c.operand 0x1CA f 1 .int 0
      NextInPart c.p d.p ∧ PartRegs c.p d.p ∧ OnlyParts c.w d.w ∧
      SramKeeps c.k d.k ((lanesOf (c.activeLanes f)).flatMap (fun l =>
        [(c.stackHeader w l, 1), (c.stackWord w (c.stackDepth w l) l, 4)])) ∧
      ∀ l, c.takes f l →
        (c.stackDepth w l < w.toNat / 2 ^ 24 % 2 ^ 7 →
          kget 0 d.k.sram (c.stackHeader w l) = kget 0 c.k.sram (c.stackHeader w l) + 1 ∧
          readBytes d.k.sram (c.stackWord w (c.stackDepth w l) l) 4 = toBytes 4 (c.operand 0x1CA f 0 .int l).toNat) ∧
        (c.stackDepth w l = w.toNat / 2 ^ 24 % 2 ^ 7 →
          kget 0 d.k.sram (c.stackHeader w l) = BitVec.ofNat 8 (128 + c.stackDepth w l))) ∧
  PopOf .wstkPop false ∧ PopOf .wstkPeek true ∧
  Reaches1 .wstkClr 0x1CC (fun c f => c.held = false ∧ c.activeLanes f ≠ 0 ∧ c.mayRelease none ∧
      (let w := c.operand 0x1CC f 0 .int 0
       c.within [(lowestLane c.p.lanes, ((w.toNat % 2 ^ 24 : Nat) : Int))] (64 + 4 * (w.toNat / 2 ^ 24 % 2 ^ 7) * c.w.width) 16))
    sameState scratchOf (fun c f d =>
      let a := c.stackHeader (c.operand 0x1CC f 0 .int 0) 0
      NextInPart c.p d.p ∧ PartRegs c.p d.p ∧ OnlyParts c.w d.w ∧ SramKeeps c.k d.k [(a, 64)] ∧
      ∀ i < 64, kget 0 d.k.sram (a + i) = 0) ∧
  ComputesWhen .wstkClr 0x1CC (fun c f => c.held = false ∧ c.activeLanes f = 0) (fun c _ d => PartRegs c.p d.p ∧ OnlyParts c.w d.w)

/-- Mesh instructions (18 R344-R351); a tetrahedron's field is the affine function that takes the vertices' values at
its vertices, and a face's outside measure is zero at the vertices of the face and negative at the fourth. `mesh.step` leaves by
the face of least exact t, on a tie of least global index (R346, R349), `mesh.loc` by the face of greatest outside measure, one face
at a time (R350); and `mesh.interp` (R351). The model's choices: records come through the part's read buffer (log 13), a cell is
bad by its own records and an exact zero is +0 (log 35). -/
def Obligations.Meshes : Prop :=
  MeshOf .meshLoc 0x1CD 4 (fun c f m l =>
    let run := c.meshRun f.a.toNat l
    if run.finite = true then okOut ((c.issued 0x1CD f).locLane m run)
    else some { vals := [Reference.nat (256 * 2 + 15), 0, 0, c.readV (f.a.toNat + 7) l] }) ∧
  MeshOf .meshStep 0x1CE 4 (fun c f m l => okOut ((c.issued 0x1CE f).stepLane m (c.meshRun f.a.toNat l))) ∧
  MeshOf .meshInterp 0x1CF 1 (fun c f m l => okOut ((c.issued 0x1CF f).interpLane m
    [c.readV f.a.toNat l, c.readV (f.a.toNat + 1) l, c.readV (f.a.toNat + 2) l] (c.readV (f.a.toNat + 3) l).toInt)) ∧
  (∀ m rec' (vs : List (List Byte)) fs g, vs.length = 4 → fs.length = 4 → tetOf m rec' vs fs = some g →
    let p (i : Nat) : Vec3 := vecOf (wordAt (vs.getD i []) 0) (wordAt (vs.getD i []) 1) (wordAt (vs.getD i []) 2)
    g.faces.length = 4 ∧ ∀ i < 4, g.f.at' (p i) = (f32 (fs.getD i 0)).value ∧
      ∀ j < 4, ∀ x, g.faces[j]? = some x → x.1.at' (p i) = if i = j then -1 else 0) ∧
  (∀ (c : Cx) (m : MeshDesc) cell face (nb : Int),
    let per := if m.poly then 8 else 4
    let own := per * cell + face
    (nb < 0 → c.globalFace m cell face nb = .ok own) ∧
    ∀ r, 0 ≤ nb → c.cellRecord m nb.toNat = .ok r →
      let back := if m.poly then (List.range (min 8 (r.getD 188 0).toNat)).map (fun j => (wordAt r (32 + j)).toInt)
        else (List.range 4).map (fun j => (wordAt r (4 + j)).toInt)
      ((cell : Int) ∉ back → c.globalFace m cell face nb = .ok own) ∧
      ∀ i : Nat, back[i]? = some (cell : Int) → (∀ j < i, back[j]? ≠ some (cell : Int)) →
        c.globalFace m cell face nb = .ok (min own (per * nb.toNat + i))) ∧
  (∀ (c : Cx) (m : MeshDesc) (r : MeshRun),
    let gives (status : Nat) (d1 : Word) : Prop := c.stepLane m r = .ok { vals := [Reference.nat (256 * status + 15), d1, 0, 0] }
    (r.cell = -1 → gives 1 r.tin) ∧ (r.cell < -1 ∨ (m.ncells : Int) ≤ r.cell → gives 3 0) ∧
    ∀ cell : Nat, r.cell = cell → cell < m.ncells → (c.readCell m cell = .ok none → gives 3 0) ∧
      ∀ g, c.readCell m cell = .ok (some g) →
        (r.finite = false ∨ (∀ x ∈ g.faces, x.1.2.dot r.d ≤ 0) → gives 2 0x7F800000) ∧
        ∀ k next tk, r.finite = true → c.chosenFace m cell g.faces (fun a => if 0 < a.2.dot r.d then some (-(a.at' r.o) / a.2.dot r.d) else none)
            k next tk →
          ∃ wk tout d2 d3, c.stepLane m r = .ok ⟨[Reference.nat ((if next = -1 then 256 else 0) + k), tout, d2, d3], some tout, some next,
              false⟩ ∧
            nearWord tk wk ∧ ((f32 wk).finite → (f32 r.tin).finite → (f32 tout).value = max (f32 r.tin).value (f32 wk).value) ∧
            (wk = 0x7F800000 → (f32 r.tin).finite → tout = 0x7F800000 ∧ d3 = 0x7FC00000) ∧
            (f32 wk = .inf true → (f32 r.tin).finite → (f32 tout).value = (f32 r.tin).value) ∧
            ((f32 r.tin).finite → nearWord (g.f.at' (r.point (f32 r.tin).value)) d2) ∧
            (wk ≠ 0x7F800000 → (f32 tout).finite → nearWord (g.f.at' (r.point (f32 tout).value)) d3)) ∧
  (∀ (c : Cx) (m : MeshDesc) (r : MeshRun),
    c.locLane m r = c.locWalk m r (m.stepMax + 1) (if 0 ≤ r.cell ∧ r.cell < m.ncells then r.cell.toNat else 0) 0 15 ∧
    ∀ fuel cell n face,
      let now := c.locWalk m r (fuel + 1) cell n face
      let gives (status f n : Nat) : Prop := now = .ok { vals := [Reference.nat (256 * status + f), Reference.nat n, 0, Reference.nat cell] }
      (c.readCell m cell = .ok none → gives 3 face n) ∧
      (∀ x, c.readCell m cell = .error (.absent x) →
        now = .ok { vals := [Reference.nat (256 * 4 + face), Reference.nat n, 0, Reference.nat x], resid := true }) ∧
      ∀ g, c.readCell m cell = .ok (some g) → (f32 r.tin).finite →
        let p := r.point (f32 r.tin).value
        let crossed (a : Affine) : Option ℚ := if 0 < a.at' p ∨ (a.at' p = 0 ∧ 0 < a.2.dot r.d) then some (-(a.at' p)) else none
        ((∀ x ∈ g.faces, crossed x.1 = none) → ∃ d2, nearWord (g.f.at' p) d2 ∧
          now = .ok { vals := [Reference.nat face, Reference.nat n, d2, Reference.nat cell], cell := some (cell : Int) }) ∧
        (n = m.stepMax → (∃ x ∈ g.faces, crossed x.1 ≠ none) → gives 5 face n) ∧
        ∀ k next x, n ≠ m.stepMax → c.chosenFace m cell g.faces crossed k next x →
          (next < 0 → now = .ok { vals := [Reference.nat (256 + k), Reference.nat (n + 1), 0, Reference.nat cell], cell := some (-1) }) ∧
          (0 ≤ next → now = c.locWalk m r fuel next.toNat (n + 1) k)) ∧
  (∀ (c : Cx) (m : MeshDesc) p (cell : Int),
    (cell < 0 ∨ (m.ncells : Int) ≤ cell ∨ (∃ x ∈ p, ¬ (f32 x).finite) ∨ c.readCell m cell.toNat = .ok none →
      c.interpLane m p cell = .ok { vals := [0x7FC00000] }) ∧
    ∀ x y z g, p = [x, y, z] → 0 ≤ cell → cell < m.ncells → (∀ v ∈ p, (f32 v).finite) → c.readCell m cell.toNat = .ok (some g) →
      ∃ w, c.interpLane m p cell = .ok { vals := [w] } ∧ nearWord (g.f.at' ((f32 x).value, (f32 y).value, (f32 z).value)) w)

/-- `emitp` into a draw in use with room for its triangles (17 R332-R334), and ordered blend (17 R336). The model's
choices: what a draw holds from its first `emitp` on (log 32), and lanes without a fragment (log 33). -/
def Obligations.Fragments : Prop :=
  (∀ s c f x, Issues s c 0x1D0 f → c.mayRead → c.activeLanes f ≠ 0 → (c.operand 0x1D0 f 1 .int 0).toNat < 2 ^ 8 →
    getDraw s c.g.asn (c.operand 0x1D0 f 1 .int 0).toNat = some x →
    (let all := c.triangles f x.width x.height
     let ts := all.filter (·.draws)
     (ts.map Tri.cost).sum ≤ x.free →
     ∃ t d, exec (.emitp f) s = .next t ∧ partAt t s.cur = some d ∧
       OnlyCore { s with draws := t.draws, groups := t.groups } t c.core ∧ OnlyWave c.k d.k c.slot ∧ OtherParts c d f ∧
       NextInPart c.p d.p ∧ PartRegs c.p d.p ∧ OnlyParts c.w d.w ∧
       getDraw t c.g.asn x.d = some { x.join c.g.launch with tris := x.tris ++ ts } ∧
       ∀ a g, groupCount t a g = groupCount s a g +
         if a = c.g.launch ∧ g = c.g.id * 16 + c.w.index then all.length else 0)) ∧
  ComputesWhen .emitp 0x1D0 (fun c f => c.mayRead ∧ c.activeLanes f = 0) (fun c _ d => PartRegs c.p d.p ∧ OnlyParts c.w d.w) ∧
  (∀ x ∈ [(Instr.blendAcq, 0x1D1), (.blendRel, 0x1D2)],
    ComputesWhen x.1 x.2 (fun c f => c.p.handler = none ∧ c.activeLanes f = 0) (fun c _ d => PartRegs c.p d.p ∧ OnlyParts c.w d.w)) ∧
  (∀ s c f, Issues s c 0x1D1 f → c.p.handler = none → c.activeLanes f ≠ 0 →
    (c.isFragment = false ∨ (∃ y ∈ c.sections f, y.hold ≠ 0) → Traps s c 0x1D1 f (.blendAcq f) 0x18) ∧
    (c.isFragment = true → (∀ y ∈ c.sections f, y.hold = 0) → (∃ y ∈ c.sections f, blockedBy (c.issued 0x1D1 f).wgWaves y = true) →
      Blocks s c 0x1D1 f (.blendAcq f))) ∧
  (∀ s c f, Issues s c 0x1D2 f → c.p.handler = none → c.activeLanes f ≠ 0 →
    (c.isFragment = false ∨ (c.sections f).length ≠ popCount (c.activeLanes f) ∨ (∃ y ∈ c.sections f, y.hold ≠ 1) →
      Traps s c 0x1D2 f (.blendRel f) 0x18) ∧
    (c.isFragment = true → (c.sections f).length = popCount (c.activeLanes f) → (∀ y ∈ c.sections f, y.hold = 1) →
      c.performed 1 = false → Blocks s c 0x1D2 f (.blendRel f))) ∧
  ComputesWhen .blendAcq 0x1D1 (fun c f => c.p.handler = none ∧ c.activeLanes f ≠ 0 ∧ c.isFragment = true ∧
      (∀ y ∈ c.sections f, y.hold = 0) ∧ ∀ y ∈ c.sections f, blockedBy (c.issued 0x1D1 f).wgWaves y = false)
    (fun c f d => PartRegs c.p d.p ∧ d.w = { c.w with parts := d.w.parts, fragments := d.w.fragments } ∧
      d.w.fragments = c.w.fragments.map (fun y => if tbit (c.activeLanes f) y.lane then { y with hold := 1 } else y)) ∧
  ComputesWhen .blendRel 0x1D2 (fun c f => c.p.handler = none ∧ c.activeLanes f ≠ 0 ∧ c.isFragment = true ∧
      (c.sections f).length = popCount (c.activeLanes f) ∧ (∀ y ∈ c.sections f, y.hold = 1) ∧ c.performed 1 = true)
    (fun c f d => PartRegs c.p d.p ∧ d.w = { c.w with parts := d.w.parts, fragments := d.w.fragments } ∧
      d.w.fragments = c.w.fragments.map (fun y => if tbit (c.activeLanes f) y.lane then { y with hold := 2 } else y))

/-! What the memory system and the sequencer do of their own accord. -/

/-- Loads reach their owners, are performed and return; stores leave their queue and reach memory; a combining entry closes
(11 R221, R229, R233, R234; 12 R247, R250, R253, R256; 19 R355, R356; 21 R384). The model's choice: one event applies one lane
(log 14). -/
def Obligations.MemoryEvents : Prop :=
  (∀ core slot lane asn region ld (a : Arrival) (p : Nat × Nat),
    let va : Dword := BitVec.ofNat 64 p.1
    let r := arrivePiece core slot lane asn region ld a p
    let with' := fun (key : Option Nat) (missed : Bool) => a.phys ++ [{ va := p.1, n := p.2, key := key, missed := missed }]
    (∀ l, heldLine (getCore a.s core) asn ld va = some l → r = { a with phys := with' (some (l.key + p.1 % 128)) false }) ∧
    (∀ l, heldLine (getCore a.s core) asn ld va = none → ld.l1 = true → probe a.s core asn region va = some l →
      r = { a with s := r.s, phys := with' (some (l.key + p.1 % 128)) false } ∧ OnlyCore a.s r.s core) ∧
    (heldLine (getCore a.s core) asn ld va = none → ld.l1 = false ∨ probe a.s core asn region va = none →
      (∀ key leaf, route a.s asn ld.dst.access va = .phys key leaf →
        ∃ missed, r = { a with s := r.s, phys := with' (some key) missed } ∧
          (missed = true ↔ l2Present a.s (key / 128) region = false ∨
            ∃ q ∈ a.phys ++ ld.lanes.flatMap (·.phys), q.missed = true ∧ ∃ n, q.key = some n ∧ n / 128 = key / 128)) ∧
      (route a.s asn ld.dst.access va = .absent → r = { a with phys := with' none false, flagged := true }) ∧
      (∀ cause, route a.s asn ld.dst.access va = .denied cause → a.failed = none → r = { a with failed := some (cause, va) }))) ∧
  (∀ s (k : Core) w asn ld (l : LoadLane), l.arrived = true → ld.dst.isSum = false → ld.const = false →
    k.l1 = [] → k.outbound = [] → w.queue = [] → (∀ x ∈ w.loads, ld.seq ≤ x.seq) →
    (performPieces s k w asn ld l).waits = false ∧
    ∀ p, p.data = none → (p.key = none → pieceBytes s k w asn ld p = List.replicate p.n 0) ∧
      ∀ key, p.key = some key → pieceBytes s k w asn ld p = (List.range p.n).map (fun i => s.byte (key + i))) ∧
  (∀ s (k : Core) w seq asn (va : Dword) key e lane b, w.queue = [e] → e.seq < seq → e.kind = .store [⟨lane, va, [b]⟩] →
    physByte s asn va = some key → ∀ va', coreByte s k w seq asn va' key = b) ∧
  (∀ s core slot id quads w g ld l xs ys, getWave (getCore s core) slot = some w → getWg (getCore s core) w.wg = some g →
    w.loads.find? (fun x => x.id = id) = some ld → ld.settled = true → ld.lanes = xs ++ l :: ys →
    (∀ x ∈ ld.lanes, x.arrived = true) → l.lane < 64 → tbit (quadLanes quads) l.lane = true →
    (∀ x ∈ xs ++ ys, x.lane ≠ l.lane ∧ tbit (quadLanes quads) x.lane = false ∧
      ∀ p ∈ x.phys, ∀ q ∈ l.phys, p.va / 128 ≠ q.va / 128) →
    laneReady ld (coreCyc s core) l = true →
    ∃ t w', exec (.globalLoadReturn core slot id quads) s = .next t ∧ OnlyCore s t core ∧
      getWave (getCore t core) slot = some w' ∧ w' = { deliver w ld l (laneValue ld l) with loads := w'.loads } ∧
      (xs ++ ys = [] → w'.loads = w.loads.filter (fun x => x.id != id)) ∧
      (xs ++ ys ≠ [] → ∃ ld' ∈ w'.loads, ld'.id = id ∧ ld'.lanes = xs ++ ys)) ∧
  (∀ s core slot k w g e, queueHead s core slot = some (k, w, g, e) →
    (match e.kind with
      | .store _ | .atomic _ _ _ _ | .contribute _ _ _ | .sumInit _ _ _ _ => True
      | _ => False) →
    ((∀ x ∈ k.waves, ∀ v, x.2 = some v → ∀ ld ∈ v.loads, waitsFor s g.asn e ld = false) → drainAhead k w.serial e = false →
      ∃ t, exec (.storeQueueLeave core slot) s = .next t ∧ OnlyCore s t core ∧
        (let k' := getCore t core
         k' = { k with waves := k'.waves, l1 := k'.l1, nextOut := k.nextOut + 1, outbound := k.outbound ++
           [{ id := k.nextOut, slot := slot, serial := w.serial, entry := e, asn := g.asn, region := g.region,
              launch := g.launch, wgId := g.id }] } ∧
         (e.isStore = false → k'.l1 = k.l1) ∧ getWave k' slot = some { w with queue := w.queue.drop 1 } ∧
         ∀ i, i ≠ slot → getWave k' i = getWave k i)) ∧
    (mustWait (fixBefore s core slot g.asn e) core slot g.asn e = true ∨ drainAhead k w.serial e = true →
      exec (.storeQueueLeave core slot) s = .next (fixBefore s core slot g.asn e))) ∧
  (∀ s core slot k w g e id, queueHead s core slot = some (k, w, g, e) → e.kind = .drain id →
    exec (.storeQueueLeave core slot) s = .next (popQueue s core slot)) ∧
  (∀ s core id o x xs key leaf, (getCore s core).outbound.find? (fun o => o.id = id) = some o → o.entry.kind = .store (x :: xs) →
    o.failed = [] → isPeerVa x.va = false → x.bytes ≠ [] → pieces x.va.toNat x.bytes.length = [(x.va.toNat, x.bytes.length)] →
    route s o.asn .store x.va = .phys key leaf → outReady s (getCore s core) o x.va x.bytes.length = true →
    ∃ t, exec (.homeSliceApply core id) s = .next t ∧
      t = { s with mem := t.mem, memErr := clearBad s.memErr key x.bytes.length, l2 := t.l2, cores := t.cores,
                   combines := t.combines } ∧
      ∀ a, t.byte a = if key ≤ a ∧ a < key + x.bytes.length then x.bytes.getD (a - key) 0 else s.byte a) ∧
  (∀ s core id o op u x xs ld key leaf, (getCore s core).outbound.find? (fun o => o.id = id) = some o →
    o.entry.kind = .atomic op u (x :: xs) ld → o.failed = [] → isPeerVa x.va = false → x.va.toNat % 4 = 0 →
    route s o.asn .atomic x.va = .phys key leaf → memBadAt s key 4 = false → outReady s (getCore s core) o x.va 4 = true →
    ∃ t, exec (.homeSliceApply core id) s = .next t ∧
      t = { s with mem := t.mem, memErr := clearBad s.memErr key 4, l2 := t.l2, cores := t.cores, combines := t.combines } ∧
      (let old : Word := Reference.nat (ofBytes (memRead s key 4))
       memRead t key 4 = toBytes 4 (atomicNew op u old x.operand x.new).toNat) ∧
      ∀ a, a < key ∨ key + 4 ≤ a → t.byte a = s.byte a) ∧
  (∀ s id e, s.combines.find? (fun e => e.id = id) = some e → ∃ t, exec (.combineWindowClose id) s = .next t ∧
    t = { s with cores := t.cores, l2 := t.l2, combines := s.combines.filter (fun x => x.id != id) })

/-- A translation change that firmware may make (11 R222, R235, R239-R241): the new leaf is in force, no core keeps a line of the
pages it replaces, frames mapped for the first time are zero, EPOCH rises by 1 and LASTVA names the address; one that it may not
make changes nothing; and the registers that control firmware writes (11 R219, R232; 02 R31; 16 R315; 21 R383). The model's
choices: every mapping is a translation change (log 23), the frames that firmware gives out (nextFree, frameAt, mapPage), a space's
record before its first page (openSpace), and an image that loses a page mapped anew (log 6), and a host context's address space as
a binding that firmware writes (log 4). -/
def Obligations.FirmwareWrites : Prop :=
  (∀ s asn (va leaf : Dword), mayChange (openSpace s asn) asn va leaf = false → exec (.translationChange asn va leaf) s = .next s) ∧
  (∀ s0 s asn (va leaf : Dword), s = openSpace s0 asn → mayChange s asn va leaf = true →
    ∃ t, exec (.translationChange asn va leaf) s0 = .next t ∧ leafOf t asn va = cleanLeaf leaf ∧
      t = { s with leaves := t.leaves, mem := t.mem, memErr := t.memErr, framesUsed := t.framesUsed, l2 := t.l2,
                   cores := t.cores, combines := t.combines, mapped := t.mapped } ∧
      (∀ m, m ∈ t.mapped ↔ m ∈ s.mapped ∧ (m.asn = asn → ∀ e ∈ leavesAt s (vaOwner va) asn (vaOffset va / 4096) (cleanLeaf leaf),
        meets (m.codeBase.toNat, m.codeLen) (leafVa (vaOwner va) e.1, leafSpan e.2) = false ∧
        meets (m.dseg.toNat, m.dataLen) (leafVa (vaOwner va) e.1, leafSpan e.2) = false)) ∧
      (s.combines = [] → ∀ e ∈ leavesAt s (vaOwner va) asn (vaOffset va / 4096) (cleanLeaf leaf), ∀ c, ∀ x ∈ (getCore t c).l1,
        ¬ (x.asn = asn ∧ meets (x.line * 128, 128) (leafVa (vaOwner va) e.1, leafSpan e.2) = true)) ∧
      (let rv : Dword := BitVec.ofNat 64 recordVa
       let key := physOf (leafOf t asn rv) rv
       let page := vaOffset va / 4096
       let span := pageSpan ((cleanLeaf leaf).toNat / 2 ^ 10 % 4)
       let z := if tbit (cleanLeaf leaf) 0 then zeroFrames s (framesOf (vaOwner va) (page / span * span) (cleanLeaf leaf)) else s
       tbit (leafOf t asn rv) 0 = true →
         ofBytes (memRead t key 8) = (ofBytes (memRead z key 8) + 1) % 2 ^ 64 ∧
         ofBytes (memRead t (key + 8) 8) = va.toNat ∧ ∀ a, a < key ∨ key + 16 ≤ a → t.byte a = z.byte a)) ∧
  (∀ s frames a, (zeroFrames s frames).byte a =
    if frames.any (meets (a, 1)) = true ∧
      s.framesUsed.any (fun u => meets (u.1 * 2 ^ 52 + u.2.1 * 4096, u.2.2 * 4096) (a, 1)) = false then 0 else s.byte a) ∧
  (∀ s k digest, exec (.fwRegisterWrite (.keySlot k digest)) s = .next { s with keySlots := kset 0 s.keySlots k digest }) ∧
  (∀ s n value, exec (.fwRegisterWrite (.sliceConfig n value)) s =
    .next { s with combineWin := kset 32 s.combineWin n (BitVec.ofNat 8 value.toNat) }) ∧
  (∀ s z value, ∃ t, exec (.fwRegisterWrite (.permits z value)) s = .next t ∧ t = { s with zones := t.zones } ∧
    (getZone t z).grant = min 64 (value.toNat / 2 ^ 7 % 2 ^ 7) ∧ (getZone t z).pool = min (getZone s z).pool (getZone t z).grant ∧
    ∀ y, y ≠ z → getZone t y = getZone s y) ∧
  (∀ s asn j value, ∃ t, exec (.fwRegisterWrite (.peerWindow asn j value)) s = .next t ∧
    t = { s with peerWindows := t.peerWindows } ∧
    ∀ i, kget 0 t.peerWindows i = if i = 4 * asn + j then value &&& 0x80000FF700000FFF else kget 0 s.peerWindows i) ∧
  (∀ s asn, leafOf s asn (BitVec.ofNat 64 recordVa) = 0 → 1 ≤ asn → asn < 4096 →
    exec (.fwRegisterWrite (.addressSpace asn)) s = .next (mapPage s asn recordVa 0x3 [])) ∧
  (∀ s asn, leafOf s asn (BitVec.ofNat 64 recordVa) ≠ 0 ∨ asn = 0 ∨ 4096 ≤ asn →
    exec (.fwRegisterWrite (.addressSpace asn)) s = .next s ∧ openSpace s asn = s) ∧
  (∀ s die n, nextFree s die = some n → n < 50331648 ∧ frameFree s die n = true ∧
    savesClear s [(die * 2 ^ 52 + frameAt n * 4096, 4096)] = true) ∧
  (∀ s asn va flags n, nextFree s (if va / 2 ^ 54 = 2 then va / 4096 % 2 else va / 2 ^ 54) = some n →
    (mapPage s asn va flags []).leaves = (changeLeaf { s with nextFrame := n + 1 } asn (BitVec.ofNat 64 va)
      (BitVec.ofNat 64 (frameAt n * 4096 + flags))).leaves) ∧
  (∀ s ctx asn, ∃ t, exec (.fwRegisterWrite (.hostSpace ctx asn)) s = .next t ∧ t = { s with host := t.host } ∧
    ∀ i, getHost t i = if i = ctx then { getHost s ctx with asn := asn } else getHost s i) ∧
  (∀ s p asn rcb, exec (.fwRegisterWrite (.peerContext p asn rcb)) s =
    .next { s with pctxs := (p, asn, rcb) :: s.pctxs.filter (fun x => x.1 != p) })

/-- Splitting on a miss, a deadline's end, forced fusion and its deadlock, starvation (07 R118, R120, R124, R126,
R128). What one cycle counts, and the end of a cycle, are the model's (log 41). -/
def Obligations.ShapeEvents : Prop :=
  (∀ s p, issuesDone s p.core = false → exec (.missSplit p) s = .next s) ∧
  (∀ s p c ld, partAt s p = some c → issuesDone s p.core = true → c.p.raised = none → c.g.kernel.splitMiss = true → 2 ≤ popCount (quadsOf c.p.lanes) → c.p.paths = [] →
    c.p.window = none → c.p.wait = .score → c.p.frozen = none → c.w.halted = false →
    (∀ h, c.p.handler = some h → h.aside = []) → splitLoad s c = some ld →
    c.w.rejoin.length < 16 →
    ∃ t w', exec (.missSplit p) s = .next t ∧ WaveAfter s t c w' ∧
      w' = { c.w with parts := w'.parts, rejoin := w'.rejoin, token := c.w.token + 1, loads := w'.loads } ∧
      (∃ e, w'.rejoin = e :: c.w.rejoin ∧ e.lanes = c.p.lanes ∧ e.expect = quadsOf c.p.lanes ∧ e.arrived = 0 ∧ e.miss = true) ∧
      let go := c.p.lanes &&& quadLanes (readyQuads c.p ld)
      ∃ q ∈ w'.parts, ∃ r ∈ w'.parts, SameRegs c.p q ∧ SameRegs c.p r ∧ q.pc = c.p.pc ∧ r.pc = c.p.pc ∧
        q.lanes = go ∧ q.exec = c.p.exec &&& go ∧ q.wait = .ready ∧ c.cyc < q.nextIssue ∧
        r.lanes = c.p.lanes &&& ~~~go ∧ r.exec = c.p.exec &&& (c.p.lanes &&& ~~~go) ∧ r.wait = .score) ∧
  (∀ s core slot w e, getWave (getCore s core) slot = some w → w.rejoin.find? (fun x => x.idx = e.idx) = some e →
    issuesDone s core = true → waveActive (getCore s core) w = true → w.halted = false → w.frozen = none →
    e.started = true → e.deadline = 0 → e.miss = false → e.expect &&& quadsOf (liveLanes w) ≠ 0 →
    entryComplete w { e with expect := e.expect &&& quadsOf (liveLanes w) } = false →
    (w.parts.map (fun p => lowestLane p.lanes)).Nodup →
    ∃ t w', exec (.rejoinExpire core slot e.idx) s = .next t ∧ OnlyCore s t core ∧
      OnlyWave (getCore s core) (getCore t core) slot ∧ getWave (getCore t core) slot = some w' ∧
      w' = { w with parts := w'.parts, rejoin := w.rejoin.map (fun x => if x.idx = e.idx
        then { e with expect := e.expect &&& quadsOf (liveLanes w), expired := true } else x) } ∧
      w'.parts.length = w.parts.length ∧ ∀ (j : Nat) p, w.parts[j]? = some p → ∃ p', w'.parts[j]? = some p' ∧
        (p.wait ≠ .parked e.idx → p' = p) ∧
        (p.wait = .parked e.idx → p'.pc = p.pc + 1 ∧ p'.wait = .ready ∧ p'.lanes = p.lanes ∧ p'.exec = p.exec ∧ SameRegs p p')) ∧
  (∀ s core slot w, getWave (getCore s core) slot = some w → w.frozen = none → w.halted = false →
    (∀ key, fuseGroup w = some key →
      let sel := fun (p : Part) => p.wait = .width ∧ p.frozen = none ∧ (p.pc, (matchEntry w p.lanes).map (·.idx)) = key
      ∃ t w', exec (.forcedFuse core slot) s = .next t ∧ OnlyCore s t core ∧
        OnlyWave (getCore s core) (getCore t core) slot ∧ getWave (getCore t core) slot = some w' ∧ OnlyParts w w' ∧
        ∃ q ∈ w'.parts, q.wait = .ready ∧ q.pc = key.1 ∧
          (∀ i, tbit q.lanes i = true ↔ ∃ p ∈ w.parts, sel p ∧ tbit p.lanes i = true) ∧
          (∀ i, tbit q.exec i = true ↔ ∃ p ∈ w.parts, sel p ∧ tbit p.exec i = true)) ∧
    (fuseGroup w = none → allStalled w = true → exec (.forcedFuse core slot) s =
      .next (raiseAll s core slot (w.parts.map (fun p => lowestLane p.lanes)) 0x0A))) ∧
  (∀ s p c, partAt s p = some c → 64 ≤ c.p.readyFor → ∃ t d, exec (.issueStarvation p) s = .next t ∧
    partAt t p = some d ∧ OnlyCore s t c.core ∧ OnlyWave c.k d.k c.slot ∧ OnlyParts c.w d.w ∧ d.p = { c.p with starved := true })

/-! Engine jobs at their engines. -/

/-- Engine jobs at their engines (13 R262, R265, R266, R272, R279, R280): acceptance, a chunk, the end; a page request with its
ends; and the Carder's sort in each of its orders. The model's choices: a Carder job sorts its whole input in one event (log 22); whether firmware can provide a
frame is free (log 2). -/
def Obligations.EngineEvents : Prop :=
  (∀ s core slot k w g e i j, queueHead s core slot = some (k, w, g, e) → e.kind = .eng i → engReleased k e = true →
    getJob s core i = some j →
    ∃ t w', exec (.engAccept core slot) s = .next t ∧ t = { s with cores := t.cores, clusters := t.clusters } ∧
      (∀ n, n ≠ core → getCore t n = getCore s n) ∧ getWave (getCore t core) slot = some w' ∧
      w' = { w with queue := w.queue.drop 1 } ∧
      getJob t core i = some { j with phase := match acceptStatus j with
        | some st => .ending st
        | none => .running } ∧
      (getCluster t (core / 8)).carder = (getCluster s (core / 8)).carder ++
        (if acceptStatus j = none ∧ (j.fn = 0x10 ∨ j.fn = 0x11) then [(core, i)] else [])) ∧
  (∀ j : Job, j.fn = 0x00 →
    let va := (j.pair 0).toNat
    let bob := j.par 4 / 2 ^ 16
    let good := j.par 4 % 2 ^ 16 = 0 ∧ j.par 5 = 0 ∧ j.par 6 = 0 ∧ j.par 7 = 0 ∧ j.par 3 % 4 = 0 ∧
      (bob = 0xFFFF ∨ 16 * bob + 16 ≤ j.scratch) ∧ isPeerVa (j.pair 0) = false
    (¬ good → acceptStatus j = some 0xC1) ∧ (good → j.par 3 = 0 → acceptStatus j = some 0) ∧
    (good → j.par 3 ≠ 0 → va % 4 = 0 → va + j.par 3 ≤ 2 ^ 57 → j.par 2 % 4 = 0 → j.par 2 + j.par 3 ≤ j.scratch →
      acceptStatus j = none)) ∧
  (∀ s core i (j j1 : Job) bs, getJob s core i = some j → j.phase = .running → j.peer = none → j.cancel = false →
    j.fn ∈ [0x00, 0x01, 0x02, 0x03, 0x04, 0x05, 0x10, 0x11] → (0x10 ≤ j.fn → j.sorted.isSome = true) →
    withRow s core j = .ok j1 →
    (let p := j1.position
     let dst := (j1.destRow p.1).add p.2.1
     let s1 := touchPlace (touchSource s j1 p.1 p.2.1 p.2.2) j1 .store dst p.2.2
     sourceRun s1 core j1 p.1 p.2.1 p.2.2 = (bs, none) → (∀ n < bs.length, ∃ b, engMayWrite s1 j1.asn (dst.add n) = .ok b) →
     exec (.engChunk core i) s = .next (advanceJob (putBytes s1 core j1.asn dst bs) core i j1 p.2.2 true))) ∧
  (∀ s core (j : Job), j.fn ≠ 0x05 ∨ j.position.2.1 ≠ 0 → withRow s core j = .ok j) ∧
  (∀ s core (j : Job) r n ix, j.fn = 0x05 → j.position = (r, 0, n) →
    readRun s core j.asn (.sram (j.base + j.par 4 + 4 * r)) 4 = (ix, none) →
    withRow s core j = if j.par 3 ≤ ofBytes ix then .error (.status 0xC1) else .ok { j with row := some (ofBytes ix) }) ∧
  (∀ s core i j, getJob s core i = some j → j.phase = .running → j.peer = none → j.cancel = true → j.fn ≠ 0x18 →
    exec (.engChunk core i) s = .next (setJob s core i { j with phase := .ending 0xC2 })) ∧
  (∀ j : Job, j.fn = 0x00 → j.done < j.par 3 →
    j.position = (0, j.done, min (j.par 3 - j.done) (512 - j.done % 512))) ∧
  (∀ s core (j : Job) off n, (∀ i < n, ∃ key leaf, route s j.asn .load (j.pair 0 + BitVec.ofNat 64 off + BitVec.ofNat 64 i) = .phys key leaf ∧
      memBadAt s key 1 = false) → j.fn = 0x00 →
    ∃ bs, sourceRun s core j 0 off n = (bs, none) ∧ bs.length = n ∧ ∀ i < n, ∀ key leaf,
      route s j.asn .load (j.pair 0 + BitVec.ofNat 64 off + BitVec.ofNat 64 i) = .phys key leaf → bs.getD i 0 = s.byte key) ∧
  (∀ s core i (j : Job) n, j.total ≤ j.done + n →
    advanceJob s core i j n true = setJob s core i { j with done := j.done + n, phase := .ending (if j.mismatch then 0xC5 else 0) }) ∧
  (∀ s core i (j : Job) n, j.done + n < j.total → j.bob = none →
    advanceJob s core i j n true = setJob s core i { j with done := j.done + n, counted := j.done + n }) ∧
  (∀ s core i j st, getJob s core i = some j → j.phase = .ending st →
    ∃ t, exec (.engJobEnd core i) s = .next t ∧ t = { s with cores := t.cores, clusters := t.clusters } ∧
      (∀ n, n ≠ core → getCore t n = getCore s n) ∧
      (let k := getCore s core
       let k' := getCore t core
       k' = { k with futs := k'.futs, futOrder := k.futOrder + 1, locks := k.locks.filter (fun x => x.slot != i),
                     jobs := k'.jobs, l1 := k'.l1, sram := k'.sram, sramErr := k'.sramErr } ∧
       (∀ n, kget none k'.jobs n = if n = i then none else kget none k.jobs n) ∧
       (getFut k' i).phase = 2 ∧ (getFut k' i).status = st ∧ (getFut k' i).bytes = Reference.nat j.done ∧
       (∀ n, n ≠ i → getFut k' n = getFut k n) ∧ (j.bob = none → k'.sram = k.sram) ∧
       (∀ b, j.bob = some b → j.bobOk = true → (st ≠ 0 ∨ j.counted < j.total) →
         k'.sram = writeBytes k.sram (j.base + b)
           (bobbinArrive (readBytes k.sram (j.base + b) 16) (j.total - j.counted) st 0)))) ∧
  (∀ s core i j, getJob s core i = some j → j.phase = .running → j.fn = 0x18 →
    (let va := (j.pair 0).toNat
     let r := requestPages j.asn (j.par 2 / 4096 + 2) va (va + j.par 2) s
     exec (.engJobEnd core i) s = .next (finishJob r.1 core i j r.2))) ∧
  (∀ s asn n (va : Dword) stop, vaOwner va < 3 → tbit (leafOf s asn va) 5 = false → (leafOf s asn va).toNat / 2 % 16 ≠ 0 →
    va.toNat < stop → stop ≤ (va.toNat / leafSpan (leafOf s asn va) + 1) * leafSpan (leafOf s asn va) →
    (tbit (leafOf s asn va) 0 = true → requestPages asn (n + 2) va.toNat stop s = (s, 0)) ∧
    (tbit (leafOf s asn va) 0 = false →
      let s1 := { s with freeCount := s.freeCount + 1 }
      (mayChange s asn va (leafOf s asn va ||| 1) = true ∧
        requestPages asn (n + 2) va.toNat stop s = (changeLeaf s1 asn va (leafOf s asn va ||| 1), 0)) ∨
      requestPages asn (n + 2) va.toNat stop s = (s1, 0xC6))) ∧
  (∀ s cluster core i l j ks vs, (getCluster s cluster).carder = (core, i) :: l → getJob s core i = some j →
    j.phase = .running → j.sorted = none → j.cancel = false →
    readRun s core j.asn (.mem (j.pair 0)) (j.par 4 * j.keySize) = (ks, none) →
    (j.fn = 0x11 → readRun s core j.asn (.mem (j.pair 2)) (j.par 4 * 4) = (vs, none)) → (j.fn ≠ 0x11 → vs = []) →
    (let touch (s : State) (x : Span) : State :=
       touchRange s j.asn .load j.region (x.base % ((2 ^ 64 : Nat) : Int)).toNat x.len
     exec (.carderJobStart cluster) s =
       .next (setJob (j.spans.foldl touch s) core i { j with sorted := some (sortArrays j ks vs) }))) ∧
  (∀ s asn n (va : Dword) stop, vaOwner va < 3 → va.toNat < stop →
    (tbit (leafOf s asn va) 5 = true → requestPages asn (n + 1) va.toNat stop s = (s, 0x44)) ∧
    (tbit (leafOf s asn va) 5 = false → (leafOf s asn va).toNat / 2 % 16 = 0 → requestPages asn (n + 1) va.toNat stop s = (s, 0xC6))) ∧
  (∀ (j : Job) ks vs,
    let n := j.par 4
    let w := if j.par 5 % 2 = 1 then 8 else 4
    let ktype := j.par 5 / 2 % 4
    let keys (bs : List Byte) := (cutInto w n bs).map ofBytes
    let out := sortArrays j ks vs
    j.fn = 0x10 ∨ j.fn = 0x11 → ktype ≤ 2 → (w = 8 → ktype ≠ 2) → n ≤ 65536 → ks.length = w * n →
    (keys out).Pairwise (fun a b => ¬ keyBefore ktype (8 * w) ((j.par 5).testBit 3) b a) ∧
    (j.fn = 0x10 → out.length = w * n ∧ ∀ x, (keys out).filter (· = x) = (keys ks).filter (· = x)) ∧
    (j.fn = 0x11 → vs.length = 4 * n → out.length = (w + 4) * n ∧
      ∀ x, ((keys out).zip (cutInto 4 n (out.drop (w * n)))).filter (fun p => p.1 = x) =
        ((keys ks).zip (cutInto 4 n vs)).filter (fun p => p.1 = x)))

/-! Power. -/

/-- Cadence, sprints and ramp windows (16 R314, R316-R320). The estimate of R314 is bounded only as the rule bounds it
(log 25). -/
def Obligations.PowerEvents : Prop :=
  (∀ s core, (getCore s core).ramp = none → coreCyc s core % 1024 = 0 → (getCore s core).lastEval < coreCyc s core →
    ∃ t want, exec (.cadenceEval core) s = .next t ∧ OnlyCore s t core ∧
      (let k := getCore s core
       k.floor ≤ want ∧ want ≤ max k.floor 64 ∧ (atFloor s k (coreCyc s core) = true → want = k.floor) ∧
       getCore t core = { k with interval := if k.interval ≤ want then want else max want ((k.interval + 1) / 2),
                                 lastEval := coreCyc s core, vecQuads := 0 })) ∧
  (∀ s cl, (getCluster s cl).credited < (getCluster s cl).lowCycles / 16384 →
    ∃ t, exec (.permitCredit cl) s = .next t ∧ t = { s with clusters := t.clusters, zones := t.zones } ∧
      (let c := getCluster s cl
       let z := getZone s (cl / 2)
       OnlyCluster s t cl { c with credited := c.credited + 1 } ∧
       OnlyZone s t (cl / 2) { z with pool := if z.pool < z.grant then z.pool + 1 else z.pool })) ∧
  (∀ s z x, x = 2 * z ∨ x = 2 * z + 1 → settledZone s z → atBoundary (getCluster s x) = true →
    (getCluster s x).clock = .nominal ∨ (getCluster s x).clock = .sprint →
    ∃ t, exec (.sprintClaim z (decide (x = 2 * z)) (decide (x = 2 * z + 1))) s = .next t ∧
      t = { s with clusters := t.clusters, zones := t.zones, cores := t.cores } ∧
      (let c := getCluster s x
       let c' := getCluster t x
       let zn := getZone s z
       let p := claimOf s x
       (∀ n, n ≠ x → getCluster t n = getCluster s n) ∧ c'.nextClaim = (c.cyc / 8192 + 1) * 8192 ∧
       (p ≠ 0 ∧ 1 ≤ zn.pool ∧ zn.grant < zn.pool + p →
         c' = { c with clock := .sprint, nextClaim := c'.nextClaim } ∧ OnlyZone s t z { zn with pool := zn.pool - 1 }) ∧
       (¬ (p ≠ 0 ∧ 1 ≤ zn.pool ∧ zn.grant < zn.pool + p) → t.zones = s.zones ∧
         (c.clock = .nominal → c' = { c with nextClaim := c'.nextClaim }) ∧
         (c.clock = .sprint →
           c' = { c with clock := .falling, clockEnd := c.cyc + 2048, noCool := decide (p = 0), nextClaim := c'.nextClaim })))) ∧
  (∀ s z, settledZone s z →
    (∀ x ∈ [2 * z, 2 * z + 1], atBoundary (getCluster s x) = true ∧ 0 < claimOf s x ∧
      (getCluster s x).clock = .nominal ∧ (getZone s z).grant < 1 + claimOf s x) → (getZone s z).pool = 1 →
    ∃ t, exec (.sprintClaim z true true) s = .next t ∧
      (let winner := if (getZone s z).last then 2 * z else 2 * z + 1
       ∀ x ∈ [2 * z, 2 * z + 1], (getCluster t x).clock = if x = winner then .sprint else .nominal) ∧
      OnlyZone s t z { getZone s z with pool := 0, last := !(getZone s z).last }) ∧
  (∀ s cl, (getCluster s cl).clock = .falling → (getCluster s cl).clockEnd ≤ (getCluster s cl).cyc →
    ∃ t, exec (.fallStepEnd cl) s = .next t ∧ t = { s with clusters := t.clusters } ∧
      (let c := getCluster s cl
       OnlyCluster s t cl (if c.noCool then { c with clock := .nominal, noCool := false }
         else { c with clock := .coolDown, clockEnd := c.cyc + 262144 + 16384 * c.debt, debt := 0 }))) ∧
  (∀ s cl, (getCluster s cl).clock = .coolDown → (getCluster s cl).clockEnd ≤ (getCluster s cl).cyc →
    ∃ t, exec (.coolDownEnd cl) s = .next t ∧ t = { s with clusters := t.clusters } ∧
      OnlyCluster s t cl { getCluster s cl with
        clock := .nominal
        nextClaim := if (getCluster s cl).nextClaim = (getCluster s cl).cyc then ((getCluster s cl).cyc / 8192 + 1) * 8192
          else (getCluster s cl).nextClaim }) ∧
  (∀ s core r, (getCore s core).ramp = some r → let k := getCore s core
    let cyc := coreCyc s core
    (r.start + 10240 * (r.doubled + 1) ≤ cyc → ∃ t, exec (.rampIntervalDouble core) s = .next t ∧ OnlyCore s t core ∧
      getCore t core = { k with interval := min 64 (2 * k.interval), ramp := some { r with doubled := r.doubled + 1 } }) ∧
    (r.start + 64000 ≤ cyc → ∃ t, exec (.rampWindowEnd core) s = .next t ∧ OnlyCore s t core ∧
      getCore t core = { k with ramp := none, ballast := k.array.any isPass })) ∧
  (∀ s core, noCredit s (2 * (core / 16)) → noCredit s (2 * (core / 16) + 1) →
    ((getCore s core).overCap < 8192 → exec (.rampCharge core) s = .next s) ∧
    (8192 ≤ (getCore s core).overCap →
      ∃ t, exec (.rampCharge core) s = .next t ∧ t = { s with cores := t.cores, clusters := t.clusters, zones := t.zones } ∧
        getCore t core = { getCore s core with overCap := (getCore s core).overCap - 8192 } ∧
        (∀ n, n ≠ core → getCore t n = getCore s n) ∧
        (let c := getCluster s (core / 8)
         let z := getZone s (core / 16)
         if 0 < z.pool then t.clusters = s.clusters ∧ OnlyZone s t (core / 16) { z with pool := z.pool - 1 }
         else t.zones = s.zones ∧ OnlyCluster s t (core / 8) { c with debt := c.debt + 1 })))

/-! Bring-up and the host. -/

/-- Bring-up (01 R9-R15): what the boot ROMs find, a self-test's result, and the READY message. The model's readings:
which image gives the version in force, and that self-tests alone set READY bits (log 39). -/
def Obligations.BringUp : Prop :=
  (∀ s images, s.booted = false → ∃ t, exec (.powerOnBoot images) s = .next t ∧
    (let causes := (List.range 8).map (fun n => imageCause (images.getD n []))
     t = { s with booted := true, bringUp := t.bringUp, recovery := t.recovery, ccause := causes, fail2 := t.fail2,
                  digests := t.digests, svn := t.svn, sent := t.sent, host := t.host } ∧
     (t.recovery = true ↔ ∀ c ∈ causes, c ≠ 0) ∧ (t.bringUp = none ↔ t.recovery = true) ∧
     (∀ n, t.bringUp = some n → causes[n]? = some 0 ∧ (∀ m < n, causes[m]? ≠ some 0) ∧
       t.svn = Reference.nat (field (images.getD n []) 4 7)) ∧
     (∀ i < 64, tbit t.fail2 i = true ↔ 32 ≤ i ∧ i < 40 ∧ causes[i - 32]? ≠ some 0) ∧
     (t.recovery = false → t.sent = s.sent) ∧
     (t.recovery = true → ∃ m, t.sent = s.sent ++ [m] ∧ m.bytes.drop 32 = List.replicate 24 0 ++ bringUpRecord t))) ∧
  (∀ s images, s.booted = true → exec (.powerOnBoot images) s =
    exec (.powerOnBoot images) { State.reset with agenda := s.agenda, freeCount := s.freeCount, sent := s.sent }) ∧
  (∀ img, field img 0 3 ≠ 0x4A574649 ∨ field img 12 15 ≠ 0 ∨ field img 48 63 ≠ 0 → imageCause img = 0x52) ∧
  (∀ s fs, fs ≠ [] → (∀ f ∈ fs, testRuns s f = true) →
    (∃ t m, exec (.selftestPass fs) s = .next t ∧
      t = { s with ready0 := t.ready0, ready1 := t.ready1, ready2 := t.ready2, homes := t.homes, host := t.host, sent := t.sent } ∧
      (∀ f, funcExists f = true → (readyBit t f = true ↔ readyBit s f = true ∨ f ∈ fs)) ∧
      t.sent = s.sent ++ [m] ∧ m.bytes.drop 32 = readyWords t ++ bringUpRecord t ∧
      ∀ i, getHost t i = if i = 0 then { getHost s 0 with count := (getHost s 0).count + 1 } else getHost s i) ∧
    (∃ t, exec (.selftestFail fs) s = .next t ∧
      t = { s with fail0 := t.fail0, fail1 := t.fail1, fail2 := t.fail2, first := t.first, firstCause := t.firstCause,
                   homes := t.homes } ∧
      (∀ f, funcExists f = true → (failBit t f = true ↔ failBit s f = true ∨ f ∈ fs)) ∧
      (s.first ≠ 0 → t.first = s.first ∧ t.firstCause = s.firstCause) ∧
      (s.first = 0 → t.firstCause = 0x54 ∧ (∃ f ∈ fs, t.first = Reference.nat (funcDetail f)) ∧
        ∀ f ∈ fs, t.first.toNat ≤ funcDetail f))) ∧
  (∀ s d, s.booted = true → s.recovery = true → ∃ t m, exec (.recoveryReply d) s = .next t ∧
    t = { s with host := t.host, sent := s.sent ++ [m] } ∧ m.bytes.drop 32 = List.replicate 24 0 ++ bringUpRecord s)

/-- Messages of the host (01 R17-R25; 03 R44, R48, R50; 23 R412), in order within their context. The model's readings
of faulting addresses, of the order of a rejected launch's answers and of acceptance numbers (log 38, 28); the module's identity key
and certificate stand for what the spec keeps outside the machine (log 46). -/
def Obligations.HostMessages : Prop :=
  (∀ s d key leaf, s.accepts d → dType d = 0x03 → let va := (dAddr d).toNat
    let asn := (getHost s (dCtx d)).asn
    0 < dLen d → va % 4 = 0 → dLen d % 4 = 0 → dLen d ≤ 8192 → va + dLen d ≤ 2 ^ 57 → pieces va (dLen d) = [(va, dLen d)] →
    vaOwner (dAddr d) < 3 → route s asn .store (dAddr d) = .phys key leaf →
    ∃ t, exec (.put d) s = .next t ∧ HostAfter s t d ∧
      t = { s with mem := t.mem, memErr := clearBad s.memErr key (dLen d), l2 := t.l2, cores := t.cores,
                   combines := t.combines, host := t.host, sent := t.sent } ∧
      (∀ a, t.byte a = if key ≤ a ∧ a < key + dLen d then (dPayload d).getD (a - key) 0 else s.byte a) ∧
      Replies s t d (if dFlags d = 1 then [(0x0A, dAddr d, 0, [])] else [])) ∧
  (∀ s d key leaf, s.accepts d → dType d = 0x04 → let va := (dAddr d).toNat
    let asn := (getHost s (dCtx d)).asn
    let n := field (dPayload d) 0 3
    0 < n → va % 4 = 0 → n % 4 = 0 → n ≤ 8192 → va + n ≤ 2 ^ 57 → pieces va n = [(va, n)] →
    vaOwner (dAddr d) < 3 → route s asn .load (dAddr d) = .phys key leaf → memBadAt s key n = false →
    ∃ t, exec (.get d) s = .next t ∧ HostAfter s t d ∧ t = { s with host := t.host, sent := t.sent } ∧
      Replies s t d ((0x05, dAddr d, 0, (List.range n).map (fun i => s.byte (key + i))) ::
        if dFlags d = 1 then [(0x0A, dAddr d, 0, [])] else [])) ∧
  (∀ s d, s.accepts d → dType d = 0x07 → ∃ t p, exec (.attest d) s = .next t ∧ HostAfter s t d ∧
    t = { s with host := t.host, sent := t.sent } ∧
    Replies s t d ((0x08, 0, 0, p) :: if dFlags d = 1 then [(0x0A, dAddr d, 0, [])] else []) ∧
    p.take 32 = dPayload d ∧ (p.drop 32).take 24 = readyWords s ∧ field (p.drop 56) 0 3 = s.svn.toNat ∧
    (p.drop 64).take 32 = sha256 (s.digests.flatMap (fun x => x.getD (List.replicate 32 0))) ∧
    (let cert := certificate s
     let body := p.take (p.length - 64)
     let g := ecdsaSign (identityKey (firmwareDigest s)) (sha256 body)
     p.length = 160 + (cert.length + 3) / 4 * 4 ∧ field (p.drop 56) 4 7 = cert.length % 2 ^ 32 ∧
     (p.drop 96).take cert.length = cert ∧ p.drop (p.length - 64) = bytesBE 32 g.1 ++ bytesBE 32 g.2)) ∧
  (∀ s d, s.booted = true → s.recovery = false → portReady s 0 = true → messageOk d = true → dType d = 0x0B →
    ∃ t, exec (.ctxReset d) s = .next t ∧ t = { s with host := t.host, sent := t.sent } ∧
      (∀ i, getHost t i = if i = dCtx d then
        { getHost s i with last := dSeq d, held := [], count := 0, endpoint := some d.src } else getHost s i) ∧
      Replies s t d (if dFlags d = 1 then [(0x0A, dAddr d, 0, [])] else [])) ∧
  (∀ s d, s.booted = true → s.recovery = false → portReady s 0 = true → isUnknown d = true → ∃ t p, exec (.rejectedHostMessage d) s = .next t ∧
    t = { s with sent := t.sent } ∧ Replies s t d [(0x06, dAddr d, 0x50, p)] ∧ field p 0 0 = 0x50) ∧
  (∀ s d, s.accepts d → dType d = 0x01 →
    (let o : Origin := { asn := (getHost s (dCtx d)).asn, host := some (dCtx d) }
     let r := acceptLaunch (takeLast s d) o (dPayload d)
     let u := applyHeld (dCtx d) 65 (answerAck r.1 d (Reference.nat r.2.toNat))
     (isTeardown d = false → exec (.launch d) s = .next u) ∧ (isTeardown d = true → exec (.teardown d) s = .next u))) ∧
  (∀ s o bytes, (launchRec bytes).formOk = false → (launchRec bytes).doneOk = true → ∀ key,
    doneRoute s o.asn (launchRec bytes).doneVa = .ok key → o.parent = none → o.fut = none →
    (acceptLaunch s o bytes).2 = 0x80 ∧ (acceptLaunch s o bytes).1.launches = s.launches ∧
    memRead (acceptLaunch s o bytes).1 key 16 = doneBytes 0 0xFFFFFFFF 2 0x80 dBadField) ∧
  (∀ s o bytes s1 read s2 c, acceptEarly { s with accepted := s.accepted + 1 } o (launchRec bytes) = (s1, .go read) →
    checkRest s1 o (launchRec bytes) read = (s2, .ok c) →
    (let r := launchRec bytes
     let t := (acceptLaunch s o bytes).1
     (acceptLaunch s o bytes).2 = 0 ∧ ∃ l, t.launches = s2.launches ++ [l] ∧ l.acc = s.accepted ∧
       l.region = mkRgn o.asn r.rcb ∧ l.kernel = c ∧ (l.gx, l.gy, l.gz) = (r.gx, r.gy, r.gz) ∧ l.args = r.args ∧
       l.done = r.doneVa ∧ l.next = 0 ∧ l.published = [] ∧ l.ended = false ∧
       ∀ g, getRegion t l.region = some g → ∃ g', getRegion s2 l.region = some g' ∧ g.queue = g'.queue ++ [s.accepted])) ∧
  (∀ s o bytes s1, acceptEarly { s with accepted := s.accepted + 1 } o (launchRec bytes) = (s1, .teardown) →
    (acceptLaunch s o bytes).2 = 0 ∧ ∀ l ∈ tornLaunches s1 (mkRgn o.asn (launchRec bytes).rcb),
      (let t := (acceptLaunch s o bytes).1
       (∀ g, getRegion t l.region = some g → l.acc ∉ g.queue) ∧
       ∃ x, getLaunch t l.acc = some x ∧ (x.ended = true ∨ x.dropped = some 0xC7)))

/-! Workgroups, contexts, the debugger, peers. -/

/-- Placement and retirement (03 R54, R62; 17 R335; 20 R376; 23 R410, R411): a workgroup placed, published, and with
its launch ended; fragment workgroups; a bin's timer. The model's choices: the order of queues within a round is free
(log 29), where a workgroup's window lies (windowPlan, log 19), what is left of a workgroup whose domain is torn down (log 30), a
fragment workgroup's tile (log 33), and the frames that firmware gives out (nextFree, frameAt, mapPage, log 6). -/
def Obligations.Scheduling : Prop :=
  (∀ s r a l core bar, s.regions = [r] → r.chain = [r.rcb] → r.inForce.isSome = true → s.nodes = [] →
    r.queue.head? = some a → getLaunch s a = some l → l.region = r.rcb → l.kernel.gridSync = false → depsMet s l l.next = true →
    findCore s r.rcb r.now r.pointer (demandOf l.kernel l.waves) = some (core, bar) →
    ∃ t g, exec .placeWorkgroup s = .next t ∧ getWg (getCore t core) bar = some g ∧ g.launch = a ∧ g.region = r.rcb ∧
      g.id = l.next ∧ g.x = l.next % l.gx ∧ g.y = l.next / l.gx % l.gy ∧ g.z = l.next / l.gx / l.gy ∧
      (windowPlan (getCore s core) r.rcb l.kernel.scratch).map (·.2) = some g.base ∧
      g.scratch = l.kernel.scratch ∧ g.kernel = l.kernel ∧ g.slots.length = l.waves ∧
      (∀ i w, i < l.waves → g.slots[i]?.bind (getWave (getCore t core)) = some w →
        w.index = i ∧ w.width = 2 ^ l.kernel.width ∧ w.wg = bar ∧ ∃ p, w.parts = [p] ∧ p.pc = Reference.nat l.kernel.entry ∧
          p.lanes = lowLanes w.width ∧ p.run = lowLanes w.width ∧ p.exec = lowLanes (min w.width (l.lanes - i * w.width)) ∧
          kget 0 p.s 0 = Reference.half false l.args ∧ kget 0 p.s 1 = Reference.half true l.args) ∧
      (getLaunch t a).map (·.next) = some (l.next + 1)) ∧
  (∀ s core bar g l key, getWg (getCore s core) bar = some g → g.kind = .plain → wgDone s core g = true →
    getLaunch s g.launch = some l → l.dropped ≠ some 0xC7 → doneRoute s l.asn l.done = .ok key →
    ∃ t, exec (.wgPublish core bar) s = .next t ∧ getWg (getCore t core) bar = none ∧
      (getLaunch t g.launch).map (·.published) = some (l.published ++ [g.id]) ∧
      memRead t key 4 = toBytes 4 ((ofBytes (memRead s key 4) + 1) % 2 ^ 32) ∧
      ∀ a, a < key ∨ key + 4 ≤ a → t.byte a = s.byte a) ∧
  (∀ s core bar g r n, getWg (getCore s core) bar = some g → wgDone s core g = true →
    (g.kind = .node r n → tornDown s g.launch = false → exec (.wgPublish core bar) s = .next (freeWg s core bar)) ∧
    (tornDown s g.launch = true → exec (.wgPublish core bar) s = .next (advanceTeardowns (freeWg s core bar)))) ∧
  (∀ s acc l, getLaunch s acc = some l → l.ended = false → l.dropped ≠ some 0xC7 → l.capstan = none → nodesDone s acc = true →
    l.published.length = (if l.dropped.isSome then l.next else l.gx * l.gy * l.gz) →
    ∃ t, exec (.launchEnd acc) s = .next t ∧ (getLaunch t acc).map (·.ended) = some true ∧
      (∀ b ∈ t.bins, b.root ≠ acc) ∧ (∀ i, (getCapstan t i).launch ≠ some acc) ∧
      ∀ key, l.dropped = none → doneRoute s l.asn l.done = .ok key →
        memRead t key 16 = doneBytes l.published.length 0xFFFFFFFF 1 0 0 ∧
        ∀ a, a < key ∨ key + 16 ≤ a → t.byte a = s.byte a) ∧
  (∀ s id b u, s.batches.find? (fun x => x.id = id) = some b → b.running = false → placeBatch s b = some u →
    exec (.fragmentWgCreate id) s = .next u ∧
    (b.asked = false → b.peerRows ≠ [] → ∃ l, getLaunch s b.launch = some l ∧ u = askTile s l.region b) ∧
    (b.asked = true ∨ b.peerRows = [] → (∀ x ∈ b.image, x.2.length ≤ 32 * b.texel) →
      b.peers = [] ∧
      (∀ x ∈ s.batches, x.id = id → ∃ y ∈ u.batches, y = { x with running := true, waiting := y.waiting }) ∧
      ∃ core bar g, getWg (getCore u core) bar = some g ∧ g.kind = .fragment b.id ∧
        ∀ row ∈ b.rows, match b.image.find? (fun x => x.1 = row.1) with
          | some x => readBytes (getCore u core).sram (g.base + row.1 * 32 * b.texel) x.2.length = x.2
          | none => readBytes (getCore u core).sram (g.base + row.1 * 32 * b.texel) row.2.2 =
              (readRow u b.asn row.2.1 row.2.2).map (·.1))) ∧
  (∀ s id b core bar g u, s.batches.find? (fun x => x.id = id) = some b → b.running = true →
    batchWg s b.id = some (core, bar, g) → nextFragment s b = some u →
    exec (.fragmentWgCreate id) s = .next u ∧ ∃ g', getWg (getCore u core) bar = some g' ∧ g'.started = g.started + 1) ∧
  (∀ s core bar g id b, getWg (getCore s core) bar = some g → g.kind = .fragment id →
    s.batches.find? (fun x => x.id = id) = some b → fragmentsDone s core g b = true →
    (b.sent = false → b.peerRows = [] → b.peers = [] →
      ∃ t, exec (.colourTileWriteback core bar) s = .next t ∧ getWg (getCore t core) bar = none ∧
        t.batches = s.batches.filter (fun x => x.id != id) ∧ t.mem = (copyTileOut s core g.base g.region b).mem) ∧
    (b.sent = true → b.peers ≠ [] → exec (.colourTileWriteback core bar) s = .next s) ∧
    (b.sent = true → b.peers = [] → ∃ t, exec (.colourTileWriteback core bar) s = .next t ∧
      getWg (getCore t core) bar = none ∧ t.batches = s.batches.filter (fun x => x.id != id) ∧ t.mem = s.mem)) ∧
  (∀ s i b, s.bins[i]? = some b → b.records ≠ [] → tornDown s b.root = false → b.restarted + b.timer ≤ binCyc s b →
    ∃ t, exec (.binTimerExpire i) s = .next t ∧ t = { s with nodes := t.nodes, bins := t.bins } ∧
      (let n := min b.records.length (2 ^ b.kernel.width)
       let b' : Bin := { b with records := b.records.drop n, reserved := b.reserved - n, serial := b.serial + 1,
                                restarted := binCyc s b }
       t.nodes = s.nodes ++ [⟨b.root, b.key, b.serial, b.records.take n, b.kernel⟩] ∧
       t.bins = s.bins.map (fun x => if x.root = b.root ∧ x.key = b.key then b' else x)))

/-- Contexts sharing a core (06 R112-R114; 22 R400-R403): a switch by priority, after 512 idle cycles, or at the end
of a quantum, at the switch point; a context that is not of the fast-switch class streams out; room made for a waiting
queue; a grid-sync launch leaves and returns as a whole. The model's readings of streaming (log 31). -/
def Obligations.ContextEvents : Prop :=
  (∀ s core a c (e : Instr), activeCtx (getCore s core) = some a →
    (∀ x ∈ (getCore s core).ctxs, x.place = .active → x.region = a.region) →
    (let near := rotateFrom (getCore s core) a.order
     let ready := fun x : Context => ctxReady s core x.region
     (e = .contextPrioritySwitch core ∧
       topOf s (near.filter (fun x => decide (prioOf s a.region < prioOf s x.region) && ready x)) = some c) ∨
     (e = .contextIdleSwitch core ∧ 512 ≤ a.idle ∧ topOf s (near.filter ready) = some c) ∨
     (e = .contextQuantum core ∧ 65536 ≤ a.quantum ∧ a.wanted = true ∧
       (near.filter (fun x => prioOf s x.region = prioOf s a.region)).head? = some c)) →
    (a.fast = true → atSwitchPoint (getCore s core) a.region = true →
      ∃ t, exec e s = .next t ∧ OnlyCore s t core ∧ Switches (getCore s core) (getCore t core) a c) ∧
    (atSwitchPoint (getCore s core) a.region = false → exec e s = .next s) ∧
    (a.fast = false → leaveReady s a.region core = true → c.region ≠ a.region → ∃ t a' c', exec e s = .next t ∧ ctxOf (getCore t core) a.region = some a' ∧ a'.place = .streamed ∧
        activeCtx (getCore t core) = some c' ∧ c'.region = c.region)) ∧
  (∀ s core a, activeCtx (getCore s core) = some a → a.quantum < 65536 → exec (.contextQuantum core) s = .next s) ∧
  (∀ s core rgn c, (leavingCtxs s).find? (fun x => leaveReady s x.2 x.1) = some (core, rgn) →
    ctxOf (getCore s core) rgn = some c →
    ∃ t c', exec .preempt s = .next t ∧ ctxOf (getCore t core) rgn = some c' ∧ c'.place = .streamed) ∧
  (∀ s r core v, (leavingCtxs s).find? (fun x => leaveReady s x.2 x.1) = none →
    (sortBy (fun a b => decide (b.budget.prio < a.budget.prio)) (s.regions.filter (waitsForRoom s))).findSome?
      (fun r => (preemptCore s r).map (fun n => (r, n))) = some (r, core) → victim s core r.budget.prio = some v →
    (v.fast = false ∨ v.place ≠ .active ∨ tryPlace (setCore s core (leaveActive (getCore s core))) r = none →
      (leaveReady s v.region core = false → ∃ t, exec .preempt s = .next t ∧ t = { s with launches := t.launches }) ∧
      (leaveReady s v.region core = true → ∃ t c', exec .preempt s = .next t ∧
        ctxOf (getCore t core) v.region = some c' ∧ c'.place = .streamed)) ∧
    (∀ u, v.fast = true → v.place = .active → tryPlace (setCore s core (leaveActive (getCore s core))) r = some u →
      exec .preempt s = .next (if atSwitchPoint (getCore s core) v.region then u else s))) ∧
  (∀ s core rgn c, ctxOf (getCore s core) rgn = some c →
    let t := streamOut s core rgn
    OnlyCore { s with nextFrame := t.nextFrame } t core ∧ ∃ c', ctxOf (getCore t core) rgn = some c' ∧ c'.place = .streamed ∧
      (c.saveArea.isSome = true ∨ (nextFrames s 0 saveFrames).isSome = true → c'.saveArea.isSome = true) ∧
      c'.savedWaves = c.savedWaves ++ (ctxWaves (getCore s core) rgn).map (fun x => (x.1, { x.2 with parts := x.2.parts.map switchedPart })) ∧
      ∀ x ∈ ctxWaves (getCore s core) rgn, getWave (getCore t core) x.1 = none) ∧
  (∀ s core c u, ctxOf (getCore s core) c.region = some c → c.savedWgs ≠ [] → gridsOf s (c.savedWgs.map (·.2)) = [] →
    betterWaits s core (prioOf s c.region) c.region = false → streamIn s core c = some u →
    (c.savedWaves.map (·.1)).Nodup →
    exec (.contextReturn core c.region.toNat) s = .next u ∧ OnlyCore s u core ∧
      (∃ c', ctxOf (getCore u core) c.region = some c' ∧ c'.place ≠ .streamed ∧ c'.savedWaves = [] ∧ c'.savedWgs = []) ∧
      ∀ x ∈ c.savedWaves, getWave (getCore u core) x.1 = some x.2) ∧
  (∀ s core c l, ctxOf (getCore s core) c.region = some c → gridsOf s (c.savedWgs.map (·.2)) ≠ [] → l ∈ s.launches →
    l.leaving = true → l.ended = false → l.region = c.region → coresHolding s l ≠ [] →
    exec (.contextReturn core c.region.toNat) s = .next s)

/-- The debugger (22 R404, R405): each command's effect and RESULT. RESULT where a command meets nothing to act on is
the model's reading (log 37). -/
def Obligations.Debugger : Prop :=
  (∀ s core cmd w, cmdWave s core cmd = some w → w.frozen = none →
    (cmdOp cmd = 1 → w.halted = false → ∃ t w', exec (.dbgHalt core cmd) s = .next t ∧ Commanded s t core cmd 0 ∧
      DebugWave s t core cmd w' ∧ w' = { w with halted := true, parts := w'.parts } ∧ w'.parts = w.parts.map (fun p =>
        if p.raised.isSome then { p with stepping := false }
        else { p with pc := (p.window.map (·.start)).getD p.pc, window := none, stepping := false })) ∧
    (cmdOp cmd = 2 → w.halted = true → ∃ t w', exec (.dbgResume core cmd) s = .next t ∧ Commanded s t core cmd 0 ∧
      DebugWave s t core cmd w' ∧ w' = { w with halted := false, parts := w.parts.map (fun p =>
        { p with stepping := false, nextIssue := max p.nextIssue (coreCyc s core + 1) }) }) ∧
    (∀ p i, cmdOp cmd = 3 → w.halted = true → w.parts[i]? = some p → lowestLane p.lanes = cmdArg cmd → p.frozen = none →
      p.stepping = false → (∀ j q, j ≠ i → w.parts[j]? = some q → lowestLane q.lanes ≠ cmdArg cmd) →
      ∃ t w' q, exec (.dbgStep core cmd) s = .next t ∧ Commanded s t core cmd 0 ∧ DebugWave s t core cmd w' ∧
        w' = { w with parts := w.parts.set i q } ∧
        (p.wait = .ready ∨ p.wait = .score ∨ p.wait = .sync →
          q = { p with stepping := true, nextIssue := max p.nextIssue (coreCyc s core + 1) }) ∧
        (p.wait = .width →
          q = { p with stepping := true, wait := .ready, nextIssue := max p.nextIssue (coreCyc s core + 1) }) ∧
        ((∃ e, p.wait = .parked e) ∨ p.wait = .fuse ∨ p.wait = .barrier ∨ p.wait = .gbar → q = { p with cause := 0x21 }))) ∧
  (∀ s core cmd, cmdWave s core cmd = none →
    (cmdOp cmd = 1 → ∃ t, exec (.dbgHalt core cmd) s = .next t ∧ Commanded s t core cmd 1) ∧
    (cmdOp cmd = 2 → ∃ t, exec (.dbgResume core cmd) s = .next t ∧ Commanded s t core cmd 1) ∧
    (cmdOp cmd = 3 → ∃ t, exec (.dbgStep core cmd) s = .next t ∧ Commanded s t core cmd 1) ∧
    (cmdOp cmd = 4 → ∃ t, exec (.dbgReleaseWave core cmd) s = .next t ∧ Commanded s t core cmd 1)) ∧
  (∀ s core cmd w, cmdOp cmd = 4 → cmdWave s core cmd = some w →
    (w.frozen = none → (∀ p ∈ w.parts, p.frozen = none) →
      ∃ t, exec (.dbgReleaseWave core cmd) s = .next t ∧ Commanded s t core cmd 2) ∧
    (w.frozen.isSome = true → (∀ p ∈ w.parts, p.frozen = none ∧ p.raised = none) →
      ∃ t w', exec (.dbgReleaseWave core cmd) s = .next t ∧ Commanded s t core cmd 0 ∧ DebugWave s t core cmd w' ∧
        w' = { w with frozen := none, parts := w.parts.map (fun p => { p with nextIssue := max p.nextIssue (coreCyc s core + 1) }) })) ∧
  (∀ s core slot lane c z, partAt s ⟨core, slot, lane⟩ = some c → c.p.frozen = some z →
    ∃ d, partAt (releasePart core slot s lane) ⟨core, slot, lane⟩ = some d ∧
      (c.p.handler.isSome = true → d.p = { c.p with frozen := none, pc := z.resume }) ∧
      (c.p.handler = none → c.readRecord.2 = false →
        d.p = { c.p with frozen := none, pc := Reference.nat (field c.readRecord.1 20 23),
                         exec := Reference.dnat (field c.readRecord.1 8 15) &&& c.p.run })) ∧
  (∀ s core cmd j cause, cmdOp cmd = 5 → 64 ≤ cmdSlot cmd → getJob s core (cmdSlot cmd - 64) = some j → j.phase = .frozen cause →
    exec (.dbgReleaseJob core cmd) s =
      .next (finishCommand core cmd (finishJob s core (cmdSlot cmd - 64) j cause, 0))) ∧
  (∀ s core cmd, cmdOp cmd = 5 → cmdSlot cmd < 64 ∨ getJob s core (cmdSlot cmd - 64) = none →
    ∃ t, exec (.dbgReleaseJob core cmd) s = .next t ∧ Commanded s t core cmd 1) ∧
  (∀ s core cmd, cmdOp cmd = 0 ∨ 5 < cmdOp cmd → ∃ t, exec (.dbgInvalidOp core cmd) s = .next t ∧ Commanded s t core cmd 2 ∧
    OnlyCore s t core ∧ getCore t core = { getCore s core with dbgcmd := (getCore t core).dbgcmd }) ∧
  (∀ s core value, ∃ t, exec (.dbgctlWrite core value) s = .next t ∧ OnlyCore s t core ∧
    getCore t core = { getCore s core with catchBpt := tbit value 0 })

/-- Peer modules (21 R383-R387): an inbound request applied, or failed at the target, a chunk of a job at its first failing
byte; a reply, a timeout, a cancel. The record at the target is the model's reading (log 40). -/
def Obligations.Peers : Prop :=
  (∀ s (r : PeerRequest) asn rcb key n, portReady s r.port = true → s.peerCancelled.contains (r.pctx, r.id) = false → s.frozenPairs.contains r.pctx = false →
    s.pctxs.find? (fun x => x.1 = r.pctx) = some (r.pctx, asn, rcb) → r.owner < 3 → r.offset < 2 ^ 54 → 0 < n →
    (∀ i < n, ∃ leaf, route s asn (peerShape r.op).2.2 (Reference.dnat (r.owner * 2 ^ 54 + r.offset + i)) = .phys (key + i) leaf ∧
      memBadAt s (key + i) 1 = false) →
    ∃ t, exec (.peerInboundRequest r) s = .next t ∧
      (r.op = .load n → t = { s with l2 := t.l2, peerApplied := s.peerApplied ++ [(r.pctx, r.id)],
                                     peerSent := s.peerSent ++ [.answer r.pctx r.id (.ok (memRead s key n))] }) ∧
      (∀ bs, r.op = .store bs → n = bs.length →
        t = { s with mem := t.mem, memErr := clearBad s.memErr key n, l2 := t.l2, cores := t.cores, combines := t.combines,
                     peerApplied := s.peerApplied ++ [(r.pctx, r.id)],
                     peerSent := s.peerSent ++ [.answer r.pctx r.id (.ok [])] } ∧
        ∀ a, t.byte a = if key ≤ a ∧ a < key + n then bs.getD (a - key) 0 else s.byte a) ∧
      (∀ op u x y, r.op = .atomic op u x y → n = 4 → r.offset % 4 = 0 →
        t.peerSent = s.peerSent ++ [.answer r.pctx r.id (.ok (memRead s key 4))] ∧
        memRead t key 4 = toBytes 4 (atomicNew op u (Reference.nat (ofBytes (memRead s key 4))) x y).toNat ∧
        ∀ a, a < key ∨ key + 4 ≤ a → t.byte a = s.byte a) ∧
      (∀ bs c, r.op = .put bs → n < bs.length →
        r.owner * 2 ^ 54 + r.offset + bs.length ≤ 2 ^ 57 →
        route s asn .store (Reference.dnat (r.owner * 2 ^ 54 + r.offset + n)) = .denied c →
        t.peerSent = s.peerSent ++ [.answer r.pctx r.id (.fault n n [])] ∧ t.frozenPairs = r.pctx :: s.frozenPairs)) ∧
  (∀ s (r : PeerRequest), portReady s r.port = true → s.peerCancelled.contains (r.pctx, r.id) = false → s.frozenPairs.contains r.pctx = false →
    s.pctxs.find? (fun x => x.1 = r.pctx) = none → ∃ t, exec (.peerInboundRequest r) s = .next t ∧
      t = { s with frozenPairs := r.pctx :: s.frozenPairs, peerSent := s.peerSent ++ [.answer r.pctx r.id (.fault 0 0 [])] }) ∧
  (∀ s (r : PeerRequest), portReady s r.port = true → s.peerCancelled.contains (r.pctx, r.id) = false → s.frozenPairs.contains r.pctx = true →
    exec (.peerInboundRequest r) s = .next { s with peerSent := s.peerSent ++ [.answer r.pctx r.id (.fault 0 0 [])] }) ∧
  (∀ s (r : PeerRequest), portReady s r.port = true → s.peerCancelled.contains (r.pctx, r.id) = true → ∃ t, exec (.peerInboundRequest r) s = .next t ∧
    t = { s with peerCancelled := s.peerCancelled.filter (fun x => x != (r.pctx, r.id)) }) ∧
  (∀ s (r : PeerRequest), portReady s r.port = false → exec (.peerInboundRequest r) s = .next s) ∧
  (∀ s d, s.booted = true → s.recovery = false → portReady s 0 = false → receive d s = s) ∧
  (∀ s id r x, s.peers.find? (fun r => r.id = id) = some r →
    (let u := { s with peers := s.peers.filter (fun r => r.id != id) }
     exec (.peerReply id x) s = .next (match x with
       | .ok data => takePeer u r data false
       | .mismatch => takePeer u r [] true
       | .fault off done data => failPeer u r 0x47 off done data))) ∧
  (∀ s core slot load lane w ld l bs flag, getWave (getCore s core) slot = some w →
    w.loads.find? (fun x => x.id = load) = some ld → l ∈ ld.lanes → l.lane = lane → lane < 64 →
    ∃ w' ld', getWave (getCore (fixPeerLane s core slot load lane bs flag) core) slot = some w' ∧
      w' = { w with loads := w'.loads, parts := w'.parts } ∧ (ld.fm = 0 → w'.parts = w.parts) ∧
      ld' ∈ w'.loads ∧ ld'.id = load ∧ { l with fixed := some bs, peer := none } ∈ ld'.lanes ∧
      ld'.flagged = if flag then ld.flagged ||| Reference.dnat (2 ^ lane) else ld.flagged) ∧
  (∀ s core slot serial part lane cause w, getWave (getCore s core) slot = some w → w.serial = serial →
    ∃ w', getWave (getCore (flagPeer s core slot serial part lane cause) core) slot = some w' ∧
      w' = { w with resid := w.resid ||| Reference.dnat (2 ^ lane), parts := w'.parts } ∧
      w'.parts = w.parts.map (fun p => if part &&& p.lanes ≠ 0 then { p with pstat := BitVec.ofNat 16 cause.toNat } else p)) ∧
  (∀ s id r, s.peers.find? (fun r => r.id = id) = some r →
    exec (.peerTimeout id) s = .next (failPeer { s with peers := s.peers.filter (fun r => r.id != id),
                                                        peerSent := s.peerSent ++ [.cancel r.port r.module id] } r 0x48 0 0 [])) ∧
  (∀ s pctx id, s.peerCancelled.contains (pctx, id) = false →
    exec (.peerCancel pctx id) s = .next (if s.peerApplied.contains (pctx, id) then s
      else { s with peerCancelled := s.peerCancelled ++ [(pctx, id)] }))

/-! The machine as a whole. -/

/-- Words that the spec writes out, and what they decode to (04 R68; 09; 10; 12; 13; 15; 18; 20). -/
def Obligations.WordsDecode : Prop :=
  ∀ x ∈ ([(0x1BB8C488, 0x13940000, 0x00030000, .scmp { always with d := 393, a := 258, b := 1832, x := 6 }),
      (0x00900000, 0x00007FFF, 0xFFF78000, .bra { always with gp := 2, x := 0xFFFFFFEF }),
      (0x06B80000, 0x00000000, 0x00128000, .bpt { always with x := 0x25 }),
      (0x41B80100, 0x08018010, 0x00000000, .vfma { always with d := 2, a := 1, b := 3, x := 0x00200000 }),
      (0x63380300, 0x10000000, 0x00000000, .vldLane { always with d := 6, a := 2 }),
      (0x69388308, 0x00000B00, 0x00000000, .sld { always with d := 262, a := 256, x := 0x16000000 }),
      (0x69980008, 0x00850900, 0x01000000, .sst { always with gp := 3, a := 256, b := 266, x := 0x12000200 }),
      (0x68380000, 0x10008000, 0x00000000, .vstSpLane { always with a := 2, b := 1 }),
      (0x6B380000, 0x00000000, 0x00020000, .fenceFull { always with x := 4 }),
      (0x76E80000, 0x20008000, 0x00000000, .vatomFaddD { always with gn := true, gp := 5, a := 4, b := 1 }),
      (0x77B88308, 0x20000000, 0x00000000, .sumget { always with d := 262, a := 260 }),
      (0xD8B80000, 0x40880000, 0xFE380000, .mgatherA { always with a := 8, b := 272, x := 0x0001FC70 }),
      (0xD938CD8C, 0x00000000, 0x00000000, .mmaBf16 { always with d := 411, a := 384 }),
      (0xDE38CE88, 0x60C00840, 0xA0800000, .mdrain { always with d := 413, a := 268, b := 384, x := 0x10814100 }),
      (0xE7880180, 0x80820000, 0x00000000, .meshInterp { always with gp := 1, d := 3, a := 16, b := 260 })] :
      List (Nat × Nat × Nat × Instr)),
    decodeTableWord 96 (x.1 * 2 ^ 64 + x.2.1 * 2 ^ 32 + x.2.2.1) = some x.2.2.2

/-- Decoding and encoding agree (04 R68-R73, R82-R86; 05 R88-R98): an encoded well-formed instruction decodes to itself,
with whatever follows left over; every word of 96 bits is the encoding of what it decodes to; fewer bytes than a
word are none. -/
def Obligations.DecodeEncode : Prop :=
  (∀ i bs rest, i.WellFormed → encode i = some bs → decode (bs ++ rest) = .ok (i, rest)) ∧
  (∀ i, i.WellFormed → isEvent i = false → ∃ bs, encode i = some bs ∧ bs.length = 12) ∧
  (∀ w, encodeWord (decodeWord w) = some w) ∧
  (∀ bs : List Byte, bs.length < 12 → decode bs = .error .truncated)

/-- A step runs the decoded instruction (04 R64-R66; 07 R117, R118): the twelve bytes at the part's PC. The part is the one that
its core's ports take next, and a cycle ends only when they take no more; a wave's first instruction is an acquire at .dev (19
R362). Which core or cluster moves is named by the agenda, the model's own (log 1). -/
def Obligations.StepRunsDecoded : Prop :=
  (∀ s p rest c w i tail, s.agenda = .issue p :: rest → (let s1 := { s with agenda := rest }
    chooseOn p.core (getCore s p.core) (coreCyc s p.core) = some p ∧ partAt s1 p = some c ∧ c.w.fresh = false ∧
    fetchWord s1 c.w c.p = .word w) → decode (toBytes 12 w.toNat ++ tail) = .ok (i, tail) →
    step s = exec i { touchFetch c { s with agenda := rest } with cur := p }) ∧
  (∀ c s, touchFetch c s = { s with l2 := (touchFetch c s).l2 }) ∧
  (∀ s p rest c d w i tail t, s.agenda = .issue p :: rest → (let s1 := { s with agenda := rest }
    let s2 := openWave c p s1
    chooseOn p.core (getCore s p.core) (coreCyc s p.core) = some p ∧ partAt s1 p = some c ∧ c.w.fresh = true ∧
    partAt s2 p = some d ∧ fetchWord s2 d.w d.p = .word w ∧ decode (toBytes 12 w.toNat ++ tail) = .ok (i, tail) ∧
    exec i { touchFetch d s2 with cur := p } = .next t →
    OnlyCore s1 s2 p.core ∧ getCore s2 p.core =
      { getCore s p.core with l1 := (getCore s p.core).l1.filter (fun l => !(l.asn = c.g.asn && l.writable)) } ∧
    ∃ u, step s = .next u ∧ ((getCore t p.core).issued = (getCore s p.core).issued → u = t) ∧
      ((getCore t p.core).issued ≠ (getCore s p.core).issued → OnlyCore t u p.core ∧
        getWave (getCore u p.core) p.slot = (getWave (getCore t p.core) p.slot).map (fun w => { w with fresh := false })))) ∧
  (∀ s p rest c, s.agenda = .issue p :: rest → (let s1 := { s with agenda := rest }
    chooseOn p.core (getCore s p.core) (coreCyc s p.core) = some p ∧ partAt s1 p = some c ∧ c.w.fresh = false ∧
    fetchWord s1 c.w c.p = .outside) → step s = .next (takeTrap c { cause := 0x0B })) ∧
  (∀ s p rest, s.agenda = .issue p :: rest → chooseOn p.core (getCore s p.core) (coreCyc s p.core) ≠ some p →
    step s = .next { s with agenda := rest }) ∧
  (∀ s n p rest c w i tail, s.agenda = .tick n :: rest → chooseIn s n = some p →
    partAt s p = some c → c.w.fresh = false → fetchWord s c.w c.p = .word w →
    decode (toBytes 12 w.toNat ++ tail) = .ok (i, tail) → step s = exec i { touchFetch c s with cur := p }) ∧
  (∀ s n rest, s.agenda = .tick n :: rest → (∀ core ∈ coresOfCluster n, issuesDone s core = true) →
    step s = .next (tickCluster { s with agenda := rest } n)) ∧
  (∀ core k cyc r, chooseOn core k cyc = some r → ∃ slot w p, (slot, some w) ∈ k.waves ∧ p ∈ w.parts ∧
    r = ⟨core, slot, lowestLane p.lanes⟩ ∧ partReady k w p cyc = true ∧ portFree k slot w p cyc = true ∧
    ∀ slot' w' p', (slot', some w') ∈ k.waves → p' ∈ w'.parts → partReady k w' p' cyc = true → portFree k slot' w' p' cyc = true →
      rankLess (partRank (slot', w', p')) (partRank (slot, w, p)) = false) ∧
  (∀ (s : State) w p, (fetchSeg w p).len / 12 ≤ p.pc.toNat → fetchWord s w p = .outside) ∧
  (∀ (s : State) w p, let seg := fetchSeg w p
    let va := seg.base + Reference.dnat (12 * p.pc.toNat)
    p.pc.toNat < seg.len / 12 → ∀ key : Nat → Nat,
    (∀ i < 12, ∃ leaf, route s seg.asn .fetch (va + Reference.dnat i) = .phys (key i) leaf ∧ memBadAt s (key i) 1 = false) →
    fetchWord s w p = .word (BitVec.ofNat 96 (ofBytes ((List.range 12).map (fun i => s.byte (key i)))))) ∧
  (∀ s e rest, s.agenda = .event e :: rest → isEvent e = true → step s = exec e { s with agenda := rest })

/-- Every state has a next one, and every step keeps device memory in its canonical form. Which turn a step takes is
named by the agenda, the model's own (log 1). -/
def Obligations.EveryStep : Prop :=
  (∀ s t, s.memOk → step s = .next t → t.memOk) ∧
  (∀ s, ∃ t, step s = .next t)

/-- The module after reset (01 R9, R13; 11 R223; 16 R315, R318; 20 R371; 21 R383): nothing ready, memory in canonical
form, the registers at the values that the spec gives. Where the spec states no reset value the model's stands (log
44, 45). -/
def Obligations.ResetState : Prop :=
  State.reset.memOk ∧ State.reset.ready0 = 0 ∧ State.reset.ready1 = 0 ∧ State.reset.ready2 = 0 ∧
  (∀ z, getZone State.reset z = { last := false, grant := 64, pool := 64 }) ∧
  (∀ i, getCapstan State.reset i = { gen := 0, expect := 0, arrived := 0, launch := none }) ∧
  (∀ i, kget 0 State.reset.peerWindows i = 0) ∧ (∀ asn va, leafOf State.reset asn va = 0) ∧
  (∀ core, (getCore State.reset core).waves = [] ∧ (getCore State.reset core).catchBpt = false) ∧
  (∀ ctx, (getHost State.reset ctx).last = 0xFFFFFFFF ∧ (getHost State.reset ctx).held = [])
end

