-- ==== Sys2Proof/Laws/KMap.lean ====
section
/-! SUPPORT. Sparse maps: reading after writing, and the canonical form. -/
namespace Sys2Proof.Machine

variable {α : Type}

@[simp] theorem kget_nil (d : α) (k : Nat) : kget d [] k = d := rfl

theorem kget_cons (d : α) (k' : Nat) (v : α) (m : KMap α) (k : Nat) :
    kget d ((k', v) :: m) k = if k' = k then v else kget d m k := rfl

@[simp] theorem kget_kput_self (d : α) (m : KMap α) (k : Nat) (v : α) : kget d (kput m k v) k = v := by
  induction m with
  | nil => simp [kput, kget]
  | cons e m ih =>
    unfold kput
    split
    · simp [kget]
    · split
      · simp [kget]
      · simp_all [kget]

theorem kget_kput_ne (d : α) (m : KMap α) {k j : Nat} (v : α) (h : j ≠ k) : kget d (kput m k v) j = kget d m j := by
  induction m with
  | nil => simp [kput, kget, Ne.symm h]
  | cons e m ih =>
    unfold kput
    split
    · subst_vars; simp [kget, Ne.symm h]
    · split
      · simp [kget, Ne.symm h]
      · simp [kget, ih]

@[simp] theorem kget_kdel_self (d : α) (m : KMap α) (k : Nat) : kget d (kdel m k) k = d := by
  induction m with
  | nil => rfl
  | cons e m ih =>
    unfold kdel at *
    obtain ⟨k', v⟩ := e
    by_cases h : k' = k
    · simpa [h] using ih
    · simp [h, kget_cons, ih]

theorem kget_kdel_ne (d : α) (m : KMap α) {k j : Nat} (h : j ≠ k) : kget d (kdel m k) j = kget d m j := by
  induction m with
  | nil => rfl
  | cons e m ih =>
    unfold kdel at *
    obtain ⟨k', v⟩ := e
    by_cases h' : k' = k
    · simpa [h', kget_cons, Ne.symm h] using ih
    · simp [h', kget_cons, ih]

/-- Reading the key just written. -/
@[simp] theorem kget_kset_self [DecidableEq α] (d : α) (m : KMap α) (k : Nat) (v : α) : kget d (kset d m k v) k = v := by
  unfold kset
  split
  · simp_all
  · simp

/-- Reading any other key. -/
theorem kget_kset_ne [DecidableEq α] (d : α) (m : KMap α) {k j : Nat} (v : α) (h : j ≠ k) :
    kget d (kset d m k v) j = kget d m j := by
  unfold kset
  split
  · exact kget_kdel_ne d m h
  · exact kget_kput_ne d m v h

/-- Reading after a write, in one line. -/
theorem kget_kset [DecidableEq α] (d : α) (m : KMap α) (k j : Nat) (v : α) :
    kget d (kset d m k v) j = if j = k then v else kget d m j := by
  split
  · subst_vars; simp
  · next h => exact kget_kset_ne d m v h

/-! The canonical form. -/

theorem kwfFrom_mono [DecidableEq α] (d : α) {m : KMap α} {lo hi : Nat} (h : kwfFrom d hi m = true) (hl : lo ≤ hi) :
    kwfFrom d lo m = true := by
  cases m with
  | nil => rfl
  | cons e m =>
    simp only [kwfFrom, Bool.and_eq_true, decide_eq_true_eq] at *
    exact ⟨⟨le_trans hl h.1.1, h.1.2⟩, h.2⟩

theorem kwfFrom_kput [DecidableEq α] (d : α) {m : KMap α} {lo k : Nat} {v : α} (h : kwfFrom d lo m = true) (hk : lo ≤ k)
    (hv : v ≠ d) : kwfFrom d lo (kput m k v) = true := by
  induction m generalizing lo with
  | nil => simp [kput, kwfFrom, hk, hv]
  | cons e m ih =>
    obtain ⟨k', v'⟩ := e
    simp only [kwfFrom, Bool.and_eq_true, decide_eq_true_eq] at h
    unfold kput
    split
    · subst_vars; simp [kwfFrom, hk, hv, h.2]
    · next hne =>
      split
      · next hlt =>
        have := kwfFrom_mono d h.2 (Nat.le_refl _)
        simp [kwfFrom, hk, hv, h.1.2, h.2]; omega
      · have : k' + 1 ≤ k := by omega
        simp [kwfFrom, h.1.1, h.1.2, ih h.2 this]

theorem kwfFrom_filter [DecidableEq α] (d : α) (p : Nat × α → Bool) {m : KMap α} {lo : Nat} (h : kwfFrom d lo m = true) :
    kwfFrom d lo (m.filter p) = true := by
  induction m generalizing lo with
  | nil => rfl
  | cons e m ih =>
    simp only [kwfFrom, Bool.and_eq_true, decide_eq_true_eq] at h
    by_cases hp : p e = true
    · simp [hp, kwfFrom, h.1.1, h.1.2, ih h.2]
    · simpa [hp] using kwfFrom_mono d (ih h.2) (by omega)

/-- A write keeps the canonical form. -/
theorem kwf_kset [DecidableEq α] (d : α) {m : KMap α} (h : kwf d m = true) (k : Nat) (v : α) : kwf d (kset d m k v) = true := by
  unfold kset
  split
  · exact kwfFrom_filter d _ h
  · next hv => exact kwfFrom_kput d h (Nat.zero_le _) hv

theorem kwf_filter [DecidableEq α] (d : α) {m : KMap α} (h : kwf d m = true) (p : Nat × α → Bool) :
    kwf d (m.filter p) = true := kwfFrom_filter d p h

/-- Bytes written one after another keep the canonical form. -/
theorem kwf_writeBytes {m : KMap Byte} (h : kwf 0 m = true) (key : Nat) (bs : List Byte) :
    kwf 0 (writeBytes m key bs) = true := by
  induction bs generalizing m key with
  | nil => exact h
  | cons b bs ih => exact ih (kwf_kset 0 h key b) (key + 1)

/-- A byte outside a written range reads as before. -/
theorem kget_writeBytes_out (m : KMap Byte) (key j : Nat) (bs : List Byte) (h : j < key ∨ key + bs.length ≤ j) :
    kget 0 (writeBytes m key bs) j = kget 0 m j := by
  induction bs generalizing m key with
  | nil => rfl
  | cons b bs ih =>
    simp only [List.length_cons] at h
    have hj : j ≠ key := by omega
    rw [writeBytes, ih _ _ (by omega), kget_kset_ne _ _ _ hj]

/-- A byte inside a written range reads what was written. -/
theorem kget_writeBytes_in (m : KMap Byte) (key i : Nat) (bs : List Byte) (h : i < bs.length) :
    kget 0 (writeBytes m key bs) (key + i) = bs[i] := by
  induction bs generalizing m key i with
  | nil => simp at h
  | cons b bs ih =>
    cases i with
    | zero => rw [writeBytes, Nat.add_zero, kget_writeBytes_out _ _ _ _ (by omega)]; simp
    | succ i =>
      have hl : i < bs.length := by simpa using h
      have := ih (kset 0 m key b) (key + 1) i hl
      rw [writeBytes, show key + (i + 1) = key + 1 + i by omega, this]; simp

/-- Reading back what was written. -/
theorem readBytes_writeBytes (m : KMap Byte) (key : Nat) (bs : List Byte) :
    readBytes (writeBytes m key bs) key bs.length = bs := by
  apply List.ext_getElem
  · simp [readBytes]
  · intro i h1 h2
    simpa [readBytes] using kget_writeBytes_in m key i bs h2

end Sys2Proof.Machine
end

