-- ==== Sys2Proof/Laws/Issue.lean ====
section
/-! SUPPORT. What `runPart` does with an instruction that issues, and the part that stands after it. -/
namespace Sys2Proof.Machine

/-! Cores and waves of an updated state. -/

@[simp] theorem getCore_setCore_self (s : State) (n : Nat) (k : Core) : getCore (setCore s n k) n = k := by
  simp [getCore, setCore]

theorem getCore_setCore_ne (s : State) {n j : Nat} (k : Core) (h : j ≠ n) : getCore (setCore s n k) j = getCore s j := by
  simp [getCore, setCore, kget_kset_ne _ _ _ h]

@[simp] theorem getWave_setWave_self (k : Core) (n : Nat) (w : Wave) : getWave (setWave k n w) n = some w := by
  simp [getWave, setWave]

theorem getWave_setWave_ne (k : Core) {n j : Nat} (w : Wave) (h : j ≠ n) : getWave (setWave k n w) j = getWave k j := by
  simp [getWave, setWave, kget_kset_ne _ _ _ h]

@[simp] theorem getWave_setWg (k : Core) (b n : Nat) (g : Workgroup) : getWave (setWg k b g) n = getWave k n := rfl
@[simp] theorem getWg_setWave (k : Core) (b n : Nat) (w : Wave) : getWg (setWave k n w) b = getWg k b := rfl

@[simp] theorem getWg_setWg_self (k : Core) (n : Nat) (g : Workgroup) : getWg (setWg k n g) n = some g := by
  simp [getWg, setWg]

theorem getWg_setWg_ne (k : Core) {n j : Nat} (g : Workgroup) (h : j ≠ n) : getWg (setWg k n g) j = getWg k j := by
  simp [getWg, setWg, kget_kset_ne _ _ _ h]

/-! The part in focus. -/

/-- What the part in focus is: its place, its wave, its workgroup. -/
theorem partAt_some {s : State} {r : PartRef} {c : Cx} (h : partAt s r = some c) :
    c.s = s ∧ c.core = r.core ∧ c.slot = r.slot ∧ c.k = getCore s r.core ∧ getWave c.k r.slot = some c.w ∧
    getWg c.k c.w.wg = some c.g ∧ c.w.parts.findIdx? (fun p => lowestLane p.lanes = r.lane) = some c.idx ∧
    c.p = c.w.parts.getD c.idx {} := by
  unfold partAt at h
  cases hw : getWave (getCore s r.core) r.slot with
  | none => simp [hw] at h
  | some w =>
    cases hi : w.parts.findIdx? (fun p => lowestLane p.lanes = r.lane) with
    | none => simp [hw, hi] at h
    | some i =>
      cases hg : getWg (getCore s r.core) w.wg with
      | none => simp [hw, hi, hg] at h
      | some g =>
        simp only [hw, hi, hg, Option.some.injEq] at h
        subst h
        exact ⟨rfl, rfl, rfl, rfl, hw, hg, hi, rfl⟩

/-- The place of the part among the wave's parts. -/
theorem partAt_idx {s : State} {r : PartRef} {c : Cx} (h : partAt s r = some c) :
    c.idx < c.w.parts.length ∧ c.w.parts[c.idx]? = some c.p ∧ lowestLane c.p.lanes = r.lane ∧
    ∀ j, j < c.idx → ∀ p : Part, c.w.parts[j]? = some p → lowestLane p.lanes ≠ r.lane := by
  obtain ⟨_, _, _, _, _, _, hi, hp⟩ := partAt_some h
  rw [List.findIdx?_eq_some_iff_getElem] at hi
  obtain ⟨hl, h1, h2⟩ := hi
  have hpe : c.p = c.w.parts[c.idx] := by rw [hp, List.getD_eq_getElem?_getD, List.getElem?_eq_getElem hl]; rfl
  refine ⟨hl, by rw [hpe, List.getElem?_eq_getElem hl], by rw [hpe]; simpa using h1, ?_⟩
  intro j hj p hpj
  have hjl : j < c.w.parts.length := by omega
  rw [List.getElem?_eq_getElem hjl, Option.some.injEq] at hpj
  subst hpj
  simpa using h2 j hj

/-- `d` stands where `c` stood: the same core, slot, place, workgroup and lanes. -/
structure SameSpot (c d : Cx) : Prop where
  core : d.core = c.core
  slot : d.slot = c.slot
  idx : d.idx = c.idx
  wg : d.w.wg = c.w.wg
  g : d.g = c.g
  lanes : d.p.lanes = c.p.lanes
  count : d.w.parts.length = c.w.parts.length
  others : ∀ (j : Nat) (p q : Part), d.w.parts[j]? = some p → c.w.parts[j]? = some q → p.lanes = q.lanes

theorem SameSpot.refl (c : Cx) : SameSpot c c :=
  ⟨rfl, rfl, rfl, rfl, rfl, rfl, rfl, fun j p q hp hq => by rw [hp] at hq; cases hq; rfl⟩

/-- A change of registers, of the core or of the state leaves the part where it is. -/
theorem SameSpot.of_eq {c d : Cx} (h1 : d.core = c.core) (h2 : d.slot = c.slot) (h3 : d.idx = c.idx)
    (h4 : d.w.wg = c.w.wg) (h5 : d.g = c.g) (h6 : d.p.lanes = c.p.lanes) (h7 : d.w.parts = c.w.parts) : SameSpot c d :=
  ⟨h1, h2, h3, h4, h5, h6, by rw [h7], fun j p q hp hq => by rw [h7, hq] at hp; cases hp; rfl⟩

/-- The wave and the core that a part put back leaves. -/
def Cx.waveAfter (d : Cx) : Wave := { d.w with parts := d.w.parts.set d.idx d.p }
def Cx.coreAfter (d : Cx) : Core := setWave (setWg d.k d.w.wg d.g) d.slot d.waveAfter

theorem commit_eq (d : Cx) : d.commit = setCore d.s d.core d.coreAfter := rfl

/-- The part in focus after it was put back. -/
theorem partAt_commit {s : State} {r : PartRef} {c d : Cx} (h : partAt s r = some c) (hs : SameSpot c d) :
    partAt d.commit r = some ⟨d.commit, d.core, d.slot, d.idx, d.coreAfter, d.waveAfter, d.p, d.g⟩ := by
  obtain ⟨_, hc, hsl, _, _, _, _, _⟩ := partAt_some h
  obtain ⟨hl, hpi, hlow, hbef⟩ := partAt_idx h
  have hcore : d.core = r.core := hs.core.trans hc
  have hslot : d.slot = r.slot := hs.slot.trans hsl
  have hidx : d.idx < d.w.parts.length := by rw [hs.idx, hs.count]; exact hl
  have hf : d.waveAfter.parts.findIdx? (fun p => lowestLane p.lanes = r.lane) = some d.idx := by
    rw [List.findIdx?_eq_some_iff_getElem]
    refine ⟨by simpa [Cx.waveAfter] using hidx, by simp [Cx.waveAfter, hs.lanes, hlow], ?_⟩
    intro j hj
    have hne : d.idx ≠ j := by omega
    have hjd : j < d.w.parts.length := by omega
    have hjc : j < c.w.parts.length := by rw [← hs.count]; exact hjd
    have hq := hbef j (by rw [← hs.idx]; exact hj) _ (List.getElem?_eq_getElem hjc)
    have he := hs.others j _ _ (List.getElem?_eq_getElem hjd) (List.getElem?_eq_getElem hjc)
    simpa [Cx.waveAfter, List.getElem_set, hne, he] using hq
  have hcg : getCore d.commit r.core = d.coreAfter := by rw [commit_eq, hcore]; simp
  have hw : getWave d.coreAfter r.slot = some d.waveAfter := by simp [Cx.coreAfter, hslot]
  have hg : getWg d.coreAfter d.waveAfter.wg = some d.g := by simp [Cx.coreAfter, Cx.waveAfter]
  unfold partAt
  have hp : d.waveAfter.parts.getD d.idx {} = d.p := by
    simp [Cx.waveAfter, List.getD_eq_getElem?_getD, hidx]
  simp only [hcg, hw, hf, hg, hp, hcore, hslot]

/-! From `runPart` to the effect. -/

/-- The state after an instruction's own effect `d`, its PC advanced (04 R65, R78). -/
def Cx.retire (d : Cx) (f : Fields) : State :=
  (if f.lw then { d with w := restartShared d.w d.idx d.qmask } else d).emptied.nextPc.commit

theorem issue_of_issues {s : State} {c : Cx} {op : Nat} {f : Fields} (h : Issues s c op f) (body : Cx → Effect) :
    runPart op f s body = .next (applyEffect (c.inWindow op f) f (nameAccess op (body (c.issued op f)))) := by
  obtain ⟨hp, hst, hd, hb, hla, ht, hw, hm⟩ := h
  unfold runPart
  rw [hp]
  unfold issue
  simp only [Cx.stepEnds] at hst
  simp only [hst, Bool.false_eq_true, if_false, hd, hb, hla]
  have ht' : tagsOk (c.part fun p => { p with window := windowFor p (operandCls op (modField (opInfo op).x f.x)) f c.s.freeCount }) op f = true := ht
  simp only [ownEffect, ht', Bool.not_true, Bool.false_eq_true, if_false, not_lt.mpr hw, hm]
  rfl

theorem runPart_next {s : State} {c d : Cx} {op : Nat} {f : Fields} (h : Issues s c op f) {body : Cx → Effect}
    (hb : body (c.issued op f) = .next d) : runPart op f s body = .next (d.retire f) := by
  rw [issue_of_issues h, hb]
  rfl

theorem runPart_at {s : State} {c d : Cx} {op : Nat} {f : Fields} (h : Issues s c op f) {body : Cx → Effect}
    (hb : body (c.issued op f) = .at d) : runPart op f s body = .next d.emptied.commit := by
  rw [issue_of_issues h, hb]
  rfl

theorem runPart_thenDo {s : State} {c d : Cx} {op : Nat} {f : Fields} (h : Issues s c op f) {body : Cx → Effect}
    {g : State → State} (hb : body (c.issued op f) = .thenDo d g) : runPart op f s body = .next (g d.emptied.nextPc.commit) := by
  rw [issue_of_issues h, hb]
  rfl

theorem runPart_whole {s t : State} {c : Cx} {op : Nat} {f : Fields} (h : Issues s c op f) {body : Cx → Effect}
    (hb : body (c.issued op f) = .whole t) : runPart op f s body = .next t := by
  rw [issue_of_issues h, hb]
  rfl

theorem runPart_trap {s : State} {c : Cx} {op : Nat} {f : Fields} (h : Issues s c op f) {body : Cx → Effect}
    {i : TrapInfo} (hb : body (c.issued op f) = .trap i) :
    runPart op f s body = .next (takeTrap (c.inWindow op f)
      { i with access := if i.access != 0 then i.access else if i.lanes.isSome then accessOf op else 0 }) := by
  rw [issue_of_issues h, hb]
  rfl

theorem runPart_stall {s : State} {c : Cx} {op : Nat} {f : Fields} (h : Issues s c op f) {body : Cx → Effect}
    {w : Wait} (hb : body (c.issued op f) = .stall w) : runPart op f s body = .next (stallAt (c.inWindow op f) f w) := by
  rw [issue_of_issues h, hb]
  rfl

/-! The part with its issue booked. -/

@[simp] theorem issued_core (c : Cx) (op : Nat) (f : Fields) : (c.issued op f).core = c.core := rfl
@[simp] theorem issued_slot (c : Cx) (op : Nat) (f : Fields) : (c.issued op f).slot = c.slot := rfl
@[simp] theorem issued_idx (c : Cx) (op : Nat) (f : Fields) : (c.issued op f).idx = c.idx := rfl
@[simp] theorem issued_w (c : Cx) (op : Nat) (f : Fields) : (c.issued op f).w = c.w := rfl
@[simp] theorem issued_g (c : Cx) (op : Nat) (f : Fields) : (c.issued op f).g = c.g := rfl
@[simp] theorem issued_lanes (c : Cx) (op : Nat) (f : Fields) : (c.issued op f).p.lanes = c.p.lanes := rfl
@[simp] theorem issued_pc (c : Cx) (op : Nat) (f : Fields) : (c.issued op f).p.pc = c.p.pc := rfl
@[simp] theorem issued_run (c : Cx) (op : Nat) (f : Fields) : (c.issued op f).p.run = c.p.run := rfl
@[simp] theorem issued_exec (c : Cx) (op : Nat) (f : Fields) : (c.issued op f).p.exec = c.p.exec := rfl
@[simp] theorem issued_paths (c : Cx) (op : Nat) (f : Fields) : (c.issued op f).p.paths = c.p.paths := rfl
@[simp] theorem issued_s (c : Cx) (op : Nat) (f : Fields) : (c.issued op f).p.s = c.p.s := rfl
@[simp] theorem issued_m (c : Cx) (op : Nat) (f : Fields) : (c.issued op f).p.m = c.p.m := rfl
@[simp] theorem issued_h (c : Cx) (op : Nat) (f : Fields) : (c.issued op f).p.h = c.p.h := rfl
@[simp] theorem issued_pstat (c : Cx) (op : Nat) (f : Fields) : (c.issued op f).p.pstat = c.p.pstat := rfl
@[simp] theorem issued_handler (c : Cx) (op : Nat) (f : Fields) : (c.issued op f).p.handler = c.p.handler := rfl
@[simp] theorem issued_frozen (c : Cx) (op : Nat) (f : Fields) : (c.issued op f).p.frozen = c.p.frozen := rfl
@[simp] theorem issued_holds (c : Cx) (op : Nat) (f : Fields) : (c.issued op f).p.holds = c.p.holds := rfl
@[simp] theorem issued_relScope (c : Cx) (op : Nat) (f : Fields) : (c.issued op f).p.relScope = c.p.relScope := rfl
@[simp] theorem issued_activeLanes (c : Cx) (op : Nat) (f : Fields) : (c.issued op f).activeLanes f = c.activeLanes f := rfl

theorem issued_s_of (c : Cx) (op : Nat) (f : Fields) :
    (c.issued op f).s = { c.s with freeCount := (c.issued op f).s.freeCount } := by
  unfold Cx.issued
  by_cases h : f.wb <;> simp [h]

theorem issued_k_of (c : Cx) (op : Nat) (f : Fields) :
    (c.issued op f).k = { c.k with issued := (c.issued op f).k.issued, vecQuads := (c.issued op f).k.vecQuads } := rfl

/-! Retiring an effect that touches only the wave and the issue record. -/

/-- What an effect may have done so far: registers of the wave and of the part, the issue record. -/
structure WaveOnly (c d : Cx) : Prop where
  core : d.core = c.core
  slot : d.slot = c.slot
  idx : d.idx = c.idx
  g : d.g = c.g
  wg : d.w.wg = c.w.wg
  parts : d.w.parts = c.w.parts
  lanes : d.p.lanes = c.p.lanes
  state : d.s = { c.s with freeCount := d.s.freeCount }
  cor : d.k = { c.k with issued := d.k.issued, vecQuads := d.k.vecQuads }

theorem WaveOnly.issued (c : Cx) (op : Nat) (f : Fields) : WaveOnly c (c.issued op f) :=
  ⟨rfl, rfl, rfl, rfl, rfl, rfl, rfl, issued_s_of c op f, issued_k_of c op f⟩

theorem WaveOnly.trans {a b c : Cx} (h : WaveOnly a b) (h' : WaveOnly b c) : WaveOnly a c :=
  ⟨h'.core.trans h.core, h'.slot.trans h.slot, h'.idx.trans h.idx, h'.g.trans h.g, h'.wg.trans h.wg,
    h'.parts.trans h.parts, h'.lanes.trans h.lanes, by rw [h'.state, h.state], by rw [h'.cor, h.cor]⟩

theorem WaveOnly.part (c : Cx) (h : Part → Part) (hl : (h c.p).lanes = c.p.lanes) : WaveOnly c (c.part h) :=
  ⟨rfl, rfl, rfl, rfl, rfl, rfl, hl, rfl, rfl⟩

theorem WaveOnly.wave (c : Cx) (w : Wave) (hg : w.wg = c.w.wg) (hp : w.parts = c.w.parts) : WaveOnly c { c with w := w } :=
  ⟨rfl, rfl, rfl, rfl, hg, hp, rfl, rfl, rfl⟩

theorem WaveOnly.writeS (c : Cx) (n : Nat) (v : Word) : WaveOnly c (c.writeS n v) := WaveOnly.part c _ rfl
theorem WaveOnly.writeM (c : Cx) (n : Nat) (v : Dword) : WaveOnly c (c.writeM n v) := WaveOnly.part c _ rfl
theorem WaveOnly.writeH (c : Cx) (n : Nat) (v : Word) : WaveOnly c (c.writeH n v) := WaveOnly.part c _ rfl
theorem WaveOnly.setExec (c : Cx) (v : Lanes) : WaveOnly c (c.setExec v) := WaveOnly.part c _ rfl
theorem WaveOnly.writeP (c : Cx) (n : Nat) (v : Lanes) : WaveOnly c (c.writeP n v) := by
  unfold Cx.writeP
  split
  · exact ⟨rfl, rfl, rfl, rfl, rfl, rfl, rfl, rfl, rfl⟩
  · exact WaveOnly.wave c _ rfl rfl
theorem WaveOnly.writeV (c : Cx) (n : Nat) (vals : List (Nat × Word)) (tag : Nat → Tag) : WaveOnly c (c.writeV n vals tag) :=
  WaveOnly.wave c _ rfl rfl
theorem WaveOnly.writeLatch (c : Cx) (f : Fields) (u : Unit') (vals : List (Nat × Word)) (tag : Nat → Tag) :
    WaveOnly c (c.writeLatch f u vals tag) := by
  unfold Cx.writeLatch
  split
  · exact WaveOnly.part c _ rfl
  · exact ⟨rfl, rfl, rfl, rfl, rfl, rfl, rfl, rfl, rfl⟩
theorem WaveOnly.putV (c : Cx) (op : Nat) (f : Fields) (vals : List (Nat × Word)) (tag : Nat → Tag) :
    WaveOnly c (c.putV op f vals tag) := by
  unfold Cx.putV
  split
  · exact WaveOnly.writeLatch ..
  · exact (WaveOnly.writeLatch ..).trans (WaveOnly.writeV ..)
theorem WaveOnly.putS (c : Cx) (op : Nat) (f : Fields) (v : Word) : WaveOnly c (c.putS op f v) :=
  (WaveOnly.writeLatch ..).trans (WaveOnly.writeS ..)
theorem WaveOnly.putP (c : Cx) (f : Fields) (lanes val : Lanes) : WaveOnly c (c.putP f lanes val) := WaveOnly.writeP ..

/-- The part that stands after such an effect: its own registers, and the wave's, are those of the effect. -/
theorem retire_spec {s : State} {r : PartRef} {c d : Cx} {f : Fields} (h : partAt s r = some c) (hd : WaveOnly c d) :
    ∃ e, partAt (d.retire f) r = some e ∧ OnlyCore s (d.retire f) c.core ∧ OnlyWave c.k e.k c.slot ∧ OtherParts c e f ∧
      e.p = { d.p with pc := d.p.pc + 1, buffer := [] } ∧ e.w = { d.w with parts := e.w.parts } := by
  obtain ⟨hcs, hcc, hcsl, hck, hcw, hcg, _, _⟩ := partAt_some h
  obtain ⟨hl, _, _, _⟩ := partAt_idx h
  let d' : Cx := (if f.lw then { d with w := restartShared d.w d.idx d.qmask } else d).emptied.nextPc
  have hret : d.retire f = d'.commit := rfl
  have h'core : d'.core = c.core := by simp only [d']; split <;> exact hd.core
  have h'slot : d'.slot = c.slot := by simp only [d']; split <;> exact hd.slot
  have h'idx : d'.idx = c.idx := by simp only [d']; split <;> exact hd.idx
  have h'g : d'.g = c.g := by simp only [d']; split <;> exact hd.g
  have h'wg : d'.w.wg = c.w.wg := by simp only [d']; split <;> exact hd.wg
  have h'p : d'.p = { d.p with pc := d.p.pc + 1, buffer := [] } := by simp only [d']; split <;> rfl
  have h's : d'.s = { s with freeCount := d.s.freeCount } := by
    have : d'.s = d.s := by simp only [d']; split <;> rfl
    rw [this, ← hcs]; exact hd.state
  have h'k : d'.k = { c.k with issued := d.k.issued, vecQuads := d.k.vecQuads } := by
    have : d'.k = d.k := by simp only [d']; split <;> rfl
    rw [this]; exact hd.cor
  have h'w : d'.w = { d.w with parts := d'.w.parts } := by simp only [d']; split <;> rfl
  have hpl : ∀ (j : Nat) (p q : Part), d'.w.parts[j]? = some p → c.w.parts[j]? = some q → p.lanes = q.lanes := by
    intro j p q hp hq
    simp only [d'] at hp
    split at hp
    · simp only [Cx.emptied, Cx.nextPc, Cx.part, restartShared, List.getElem?_mapIdx, hd.parts, hq, Option.map_some, Option.some.injEq] at hp
      subst hp
      split
      · rfl
      · split
        · split <;> rfl
        · rfl
    · simp only [Cx.emptied, Cx.nextPc, Cx.part, hd.parts] at hp
      rw [hq] at hp; cases hp; rfl
  have hlen : d'.w.parts.length = c.w.parts.length := by
    simp only [d']; split
    · simp [Cx.emptied, Cx.nextPc, Cx.part, restartShared, hd.parts]
    · simp [Cx.emptied, Cx.nextPc, Cx.part, hd.parts]
  have hspot : SameSpot c d' := ⟨h'core, h'slot, h'idx, h'wg, h'g, by rw [h'p]; exact hd.lanes, hlen, hpl⟩
  have hpa := partAt_commit h hspot
  have hre : d.retire f = setCore { s with freeCount := d.s.freeCount } c.core d'.coreAfter := by
    rw [hret, commit_eq, h's, h'core]
  have hka : d'.coreAfter = setWave (setWg { c.k with issued := d.k.issued, vecQuads := d.k.vecQuads } c.w.wg c.g) c.slot d'.waveAfter := by
    rw [Cx.coreAfter, h'k, h'wg, h'g, h'slot]
  rw [← hret] at hpa
  refine ⟨_, hpa, ⟨by rw [hre]; rfl, ?_⟩, ⟨?_, ?_, ?_⟩, ?_, h'p, ?_⟩
  · intro j hj
    rw [hre, getCore_setCore_ne _ _ hj]; rfl
  · dsimp only; rw [hka]; rfl
  · intro j hj
    dsimp only; rw [hka, getWave_setWave_ne _ _ hj, getWave_setWg]; rfl
  · intro b
    dsimp only; rw [hka, getWg_setWave]
    by_cases hb : b = c.w.wg
    · subst hb
      rw [getWg_setWg_self]; exact hcg.symm
    · rw [getWg_setWg_ne _ _ hb]; rfl
  · intro hlw i hi
    have hpp : d'.w.parts = c.w.parts := by
      have : d' = d.emptied.nextPc := by simp only [d', hlw]; rfl
      rw [this]; exact hd.parts
    simp only [Cx.waveAfter]
    rw [hpp, h'idx, List.getElem?_set_ne (Ne.symm hi)]
  · have : ({ d'.w with parts := d'.waveAfter.parts } : Wave) = { d.w with parts := d'.waveAfter.parts } := by rw [h'w]
    exact this

end Sys2Proof.Machine
end

