-- ==== Sys2Proof/Laws/Loader.lean ====
section
/-! SUPPORT. The portable form's coarsening factor (02 R36). -/
namespace Sys2Proof.Laws
open Sys2Proof.Machine

/-- A workgroup of at most 1,024 threads starts at most 1,024 lanes, in whole waves. -/
theorem portableShape_lanes : ∀ t ≤ 1024, (portableShape t 1).2 * 2 ^ (portableShape t 1).1 ≤ 1024 := by decide +kernel

/-- The coarsening factor of a workgroup that a launch may have is 1 (02 R36; 03 R48). -/
theorem portableFactor_one {vregs t : Nat} (h1 : 1 ≤ t) (ht : t ≤ 1024) (hv : vregs ≤ 256) :
    portableFactor vregs t 64 (ceilDiv t 1024) = some 1 := by
  have hc : ceilDiv t 1024 = 1 := by
    unfold ceilDiv
    rw [if_neg (by decide)]
    omega
  have h : (portableShape t 1).2 * 2 ^ (portableShape t 1).1 * 4 * vregs ≤ 1572864 :=
    (Nat.mul_le_mul (Nat.mul_le_mul_right 4 (portableShape_lanes t ht)) hv).trans (by decide)
  simp [hc, portableFactor, h]

end Sys2Proof.Laws
end

