-- ==== Sys2Proof/Laws/State.lean ====
section
/-! SUPPORT. What each update of the state, of a core, or of the issuing part leaves as it was, field by field. -/
namespace Sys2Proof.Machine

/-! Updates of the state. -/

@[simp] theorem setCore_cur (s : State) (n : Nat) (x : Core) : (setCore s n x).cur = s.cur := rfl
@[simp] theorem setCore_agenda (s : State) (n : Nat) (x : Core) : (setCore s n x).agenda = s.agenda := rfl
@[simp] theorem setCore_freeCount (s : State) (n : Nat) (x : Core) : (setCore s n x).freeCount = s.freeCount := rfl
@[simp] theorem setCore_ready0 (s : State) (n : Nat) (x : Core) : (setCore s n x).ready0 = s.ready0 := rfl
@[simp] theorem setCore_ready1 (s : State) (n : Nat) (x : Core) : (setCore s n x).ready1 = s.ready1 := rfl
@[simp] theorem setCore_ready2 (s : State) (n : Nat) (x : Core) : (setCore s n x).ready2 = s.ready2 := rfl
@[simp] theorem setCore_ccause (s : State) (n : Nat) (x : Core) : (setCore s n x).ccause = s.ccause := rfl
@[simp] theorem setCore_fail0 (s : State) (n : Nat) (x : Core) : (setCore s n x).fail0 = s.fail0 := rfl
@[simp] theorem setCore_fail1 (s : State) (n : Nat) (x : Core) : (setCore s n x).fail1 = s.fail1 := rfl
@[simp] theorem setCore_fail2 (s : State) (n : Nat) (x : Core) : (setCore s n x).fail2 = s.fail2 := rfl
@[simp] theorem setCore_first (s : State) (n : Nat) (x : Core) : (setCore s n x).first = s.first := rfl
@[simp] theorem setCore_firstCause (s : State) (n : Nat) (x : Core) : (setCore s n x).firstCause = s.firstCause := rfl
@[simp] theorem setCore_recovery (s : State) (n : Nat) (x : Core) : (setCore s n x).recovery = s.recovery := rfl
@[simp] theorem setCore_booted (s : State) (n : Nat) (x : Core) : (setCore s n x).booted = s.booted := rfl
@[simp] theorem setCore_bringUp (s : State) (n : Nat) (x : Core) : (setCore s n x).bringUp = s.bringUp := rfl
@[simp] theorem setCore_digests (s : State) (n : Nat) (x : Core) : (setCore s n x).digests = s.digests := rfl
@[simp] theorem setCore_svn (s : State) (n : Nat) (x : Core) : (setCore s n x).svn = s.svn := rfl
@[simp] theorem setCore_homes (s : State) (n : Nat) (x : Core) : (setCore s n x).homes = s.homes := rfl
@[simp] theorem setCore_host (s : State) (n : Nat) (x : Core) : (setCore s n x).host = s.host := rfl
@[simp] theorem setCore_sent (s : State) (n : Nat) (x : Core) : (setCore s n x).sent = s.sent := rfl
@[simp] theorem setCore_keySlots (s : State) (n : Nat) (x : Core) : (setCore s n x).keySlots = s.keySlots := rfl
@[simp] theorem setCore_combineWin (s : State) (n : Nat) (x : Core) : (setCore s n x).combineWin = s.combineWin := rfl
@[simp] theorem setCore_zones (s : State) (n : Nat) (x : Core) : (setCore s n x).zones = s.zones := rfl
@[simp] theorem setCore_capstans (s : State) (n : Nat) (x : Core) : (setCore s n x).capstans = s.capstans := rfl
@[simp] theorem setCore_peerWindows (s : State) (n : Nat) (x : Core) : (setCore s n x).peerWindows = s.peerWindows := rfl
@[simp] theorem setCore_pctxs (s : State) (n : Nat) (x : Core) : (setCore s n x).pctxs = s.pctxs := rfl
@[simp] theorem setCore_leaves (s : State) (n : Nat) (x : Core) : (setCore s n x).leaves = s.leaves := rfl
@[simp] theorem setCore_mem (s : State) (n : Nat) (x : Core) : (setCore s n x).mem = s.mem := rfl
@[simp] theorem setCore_memErr (s : State) (n : Nat) (x : Core) : (setCore s n x).memErr = s.memErr := rfl
@[simp] theorem setCore_framesUsed (s : State) (n : Nat) (x : Core) : (setCore s n x).framesUsed = s.framesUsed := rfl
@[simp] theorem setCore_l2 (s : State) (n : Nat) (x : Core) : (setCore s n x).l2 = s.l2 := rfl
@[simp] theorem setCore_combines (s : State) (n : Nat) (x : Core) : (setCore s n x).combines = s.combines := rfl
@[simp] theorem setCore_nextCombine (s : State) (n : Nat) (x : Core) : (setCore s n x).nextCombine = s.nextCombine := rfl
@[simp] theorem setCore_clusters (s : State) (n : Nat) (x : Core) : (setCore s n x).clusters = s.clusters := rfl
@[simp] theorem setCore_serial (s : State) (n : Nat) (x : Core) : (setCore s n x).serial = s.serial := rfl
@[simp] theorem setCore_accepted (s : State) (n : Nat) (x : Core) : (setCore s n x).accepted = s.accepted := rfl
@[simp] theorem setCore_regions (s : State) (n : Nat) (x : Core) : (setCore s n x).regions = s.regions := rfl
@[simp] theorem setCore_launches (s : State) (n : Nat) (x : Core) : (setCore s n x).launches = s.launches := rfl
@[simp] theorem setCore_teardowns (s : State) (n : Nat) (x : Core) : (setCore s n x).teardowns = s.teardowns := rfl
@[simp] theorem setCore_treeCharged (s : State) (n : Nat) (x : Core) : (setCore s n x).treeCharged = s.treeCharged := rfl
@[simp] theorem setCore_loaded (s : State) (n : Nat) (x : Core) : (setCore s n x).loaded = s.loaded := rfl
@[simp] theorem setCore_mapped (s : State) (n : Nat) (x : Core) : (setCore s n x).mapped = s.mapped := rfl
@[simp] theorem setCore_nextFrame (s : State) (n : Nat) (x : Core) : (setCore s n x).nextFrame = s.nextFrame := rfl
@[simp] theorem setCore_nextPage (s : State) (n : Nat) (x : Core) : (setCore s n x).nextPage = s.nextPage := rfl
@[simp] theorem setCore_bins (s : State) (n : Nat) (x : Core) : (setCore s n x).bins = s.bins := rfl
@[simp] theorem setCore_nodes (s : State) (n : Nat) (x : Core) : (setCore s n x).nodes = s.nodes := rfl
@[simp] theorem setCore_draws (s : State) (n : Nat) (x : Core) : (setCore s n x).draws = s.draws := rfl
@[simp] theorem setCore_groups (s : State) (n : Nat) (x : Core) : (setCore s n x).groups = s.groups := rfl
@[simp] theorem setCore_batches (s : State) (n : Nat) (x : Core) : (setCore s n x).batches = s.batches := rfl
@[simp] theorem setCore_nextBatch (s : State) (n : Nat) (x : Core) : (setCore s n x).nextBatch = s.nextBatch := rfl
@[simp] theorem setCore_peers (s : State) (n : Nat) (x : Core) : (setCore s n x).peers = s.peers := rfl
@[simp] theorem setCore_nextPeer (s : State) (n : Nat) (x : Core) : (setCore s n x).nextPeer = s.nextPeer := rfl
@[simp] theorem setCore_peerSent (s : State) (n : Nat) (x : Core) : (setCore s n x).peerSent = s.peerSent := rfl
@[simp] theorem setCore_frozenPairs (s : State) (n : Nat) (x : Core) : (setCore s n x).frozenPairs = s.frozenPairs := rfl
@[simp] theorem setCore_peerApplied (s : State) (n : Nat) (x : Core) : (setCore s n x).peerApplied = s.peerApplied := rfl
@[simp] theorem setCore_peerCancelled (s : State) (n : Nat) (x : Core) : (setCore s n x).peerCancelled = s.peerCancelled := rfl

@[simp] theorem setCluster_cur (s : State) (n : Nat) (x : Cluster) : (setCluster s n x).cur = s.cur := rfl
@[simp] theorem setCluster_agenda (s : State) (n : Nat) (x : Cluster) : (setCluster s n x).agenda = s.agenda := rfl
@[simp] theorem setCluster_freeCount (s : State) (n : Nat) (x : Cluster) : (setCluster s n x).freeCount = s.freeCount := rfl
@[simp] theorem setCluster_ready0 (s : State) (n : Nat) (x : Cluster) : (setCluster s n x).ready0 = s.ready0 := rfl
@[simp] theorem setCluster_ready1 (s : State) (n : Nat) (x : Cluster) : (setCluster s n x).ready1 = s.ready1 := rfl
@[simp] theorem setCluster_ready2 (s : State) (n : Nat) (x : Cluster) : (setCluster s n x).ready2 = s.ready2 := rfl
@[simp] theorem setCluster_ccause (s : State) (n : Nat) (x : Cluster) : (setCluster s n x).ccause = s.ccause := rfl
@[simp] theorem setCluster_fail0 (s : State) (n : Nat) (x : Cluster) : (setCluster s n x).fail0 = s.fail0 := rfl
@[simp] theorem setCluster_fail1 (s : State) (n : Nat) (x : Cluster) : (setCluster s n x).fail1 = s.fail1 := rfl
@[simp] theorem setCluster_fail2 (s : State) (n : Nat) (x : Cluster) : (setCluster s n x).fail2 = s.fail2 := rfl
@[simp] theorem setCluster_first (s : State) (n : Nat) (x : Cluster) : (setCluster s n x).first = s.first := rfl
@[simp] theorem setCluster_firstCause (s : State) (n : Nat) (x : Cluster) : (setCluster s n x).firstCause = s.firstCause := rfl
@[simp] theorem setCluster_recovery (s : State) (n : Nat) (x : Cluster) : (setCluster s n x).recovery = s.recovery := rfl
@[simp] theorem setCluster_booted (s : State) (n : Nat) (x : Cluster) : (setCluster s n x).booted = s.booted := rfl
@[simp] theorem setCluster_bringUp (s : State) (n : Nat) (x : Cluster) : (setCluster s n x).bringUp = s.bringUp := rfl
@[simp] theorem setCluster_digests (s : State) (n : Nat) (x : Cluster) : (setCluster s n x).digests = s.digests := rfl
@[simp] theorem setCluster_svn (s : State) (n : Nat) (x : Cluster) : (setCluster s n x).svn = s.svn := rfl
@[simp] theorem setCluster_homes (s : State) (n : Nat) (x : Cluster) : (setCluster s n x).homes = s.homes := rfl
@[simp] theorem setCluster_host (s : State) (n : Nat) (x : Cluster) : (setCluster s n x).host = s.host := rfl
@[simp] theorem setCluster_sent (s : State) (n : Nat) (x : Cluster) : (setCluster s n x).sent = s.sent := rfl
@[simp] theorem setCluster_keySlots (s : State) (n : Nat) (x : Cluster) : (setCluster s n x).keySlots = s.keySlots := rfl
@[simp] theorem setCluster_combineWin (s : State) (n : Nat) (x : Cluster) : (setCluster s n x).combineWin = s.combineWin := rfl
@[simp] theorem setCluster_zones (s : State) (n : Nat) (x : Cluster) : (setCluster s n x).zones = s.zones := rfl
@[simp] theorem setCluster_capstans (s : State) (n : Nat) (x : Cluster) : (setCluster s n x).capstans = s.capstans := rfl
@[simp] theorem setCluster_peerWindows (s : State) (n : Nat) (x : Cluster) : (setCluster s n x).peerWindows = s.peerWindows := rfl
@[simp] theorem setCluster_pctxs (s : State) (n : Nat) (x : Cluster) : (setCluster s n x).pctxs = s.pctxs := rfl
@[simp] theorem setCluster_leaves (s : State) (n : Nat) (x : Cluster) : (setCluster s n x).leaves = s.leaves := rfl
@[simp] theorem setCluster_mem (s : State) (n : Nat) (x : Cluster) : (setCluster s n x).mem = s.mem := rfl
@[simp] theorem setCluster_memErr (s : State) (n : Nat) (x : Cluster) : (setCluster s n x).memErr = s.memErr := rfl
@[simp] theorem setCluster_framesUsed (s : State) (n : Nat) (x : Cluster) : (setCluster s n x).framesUsed = s.framesUsed := rfl
@[simp] theorem setCluster_l2 (s : State) (n : Nat) (x : Cluster) : (setCluster s n x).l2 = s.l2 := rfl
@[simp] theorem setCluster_combines (s : State) (n : Nat) (x : Cluster) : (setCluster s n x).combines = s.combines := rfl
@[simp] theorem setCluster_nextCombine (s : State) (n : Nat) (x : Cluster) : (setCluster s n x).nextCombine = s.nextCombine := rfl
@[simp] theorem setCluster_cores (s : State) (n : Nat) (x : Cluster) : (setCluster s n x).cores = s.cores := rfl
@[simp] theorem setCluster_serial (s : State) (n : Nat) (x : Cluster) : (setCluster s n x).serial = s.serial := rfl
@[simp] theorem setCluster_accepted (s : State) (n : Nat) (x : Cluster) : (setCluster s n x).accepted = s.accepted := rfl
@[simp] theorem setCluster_regions (s : State) (n : Nat) (x : Cluster) : (setCluster s n x).regions = s.regions := rfl
@[simp] theorem setCluster_launches (s : State) (n : Nat) (x : Cluster) : (setCluster s n x).launches = s.launches := rfl
@[simp] theorem setCluster_teardowns (s : State) (n : Nat) (x : Cluster) : (setCluster s n x).teardowns = s.teardowns := rfl
@[simp] theorem setCluster_treeCharged (s : State) (n : Nat) (x : Cluster) : (setCluster s n x).treeCharged = s.treeCharged := rfl
@[simp] theorem setCluster_loaded (s : State) (n : Nat) (x : Cluster) : (setCluster s n x).loaded = s.loaded := rfl
@[simp] theorem setCluster_mapped (s : State) (n : Nat) (x : Cluster) : (setCluster s n x).mapped = s.mapped := rfl
@[simp] theorem setCluster_nextFrame (s : State) (n : Nat) (x : Cluster) : (setCluster s n x).nextFrame = s.nextFrame := rfl
@[simp] theorem setCluster_nextPage (s : State) (n : Nat) (x : Cluster) : (setCluster s n x).nextPage = s.nextPage := rfl
@[simp] theorem setCluster_bins (s : State) (n : Nat) (x : Cluster) : (setCluster s n x).bins = s.bins := rfl
@[simp] theorem setCluster_nodes (s : State) (n : Nat) (x : Cluster) : (setCluster s n x).nodes = s.nodes := rfl
@[simp] theorem setCluster_draws (s : State) (n : Nat) (x : Cluster) : (setCluster s n x).draws = s.draws := rfl
@[simp] theorem setCluster_groups (s : State) (n : Nat) (x : Cluster) : (setCluster s n x).groups = s.groups := rfl
@[simp] theorem setCluster_batches (s : State) (n : Nat) (x : Cluster) : (setCluster s n x).batches = s.batches := rfl
@[simp] theorem setCluster_nextBatch (s : State) (n : Nat) (x : Cluster) : (setCluster s n x).nextBatch = s.nextBatch := rfl
@[simp] theorem setCluster_peers (s : State) (n : Nat) (x : Cluster) : (setCluster s n x).peers = s.peers := rfl
@[simp] theorem setCluster_nextPeer (s : State) (n : Nat) (x : Cluster) : (setCluster s n x).nextPeer = s.nextPeer := rfl
@[simp] theorem setCluster_peerSent (s : State) (n : Nat) (x : Cluster) : (setCluster s n x).peerSent = s.peerSent := rfl
@[simp] theorem setCluster_frozenPairs (s : State) (n : Nat) (x : Cluster) : (setCluster s n x).frozenPairs = s.frozenPairs := rfl
@[simp] theorem setCluster_peerApplied (s : State) (n : Nat) (x : Cluster) : (setCluster s n x).peerApplied = s.peerApplied := rfl
@[simp] theorem setCluster_peerCancelled (s : State) (n : Nat) (x : Cluster) : (setCluster s n x).peerCancelled = s.peerCancelled := rfl

@[simp] theorem setHost_cur (s : State) (n : Nat) (x : HostCtx) : (setHost s n x).cur = s.cur := rfl
@[simp] theorem setHost_agenda (s : State) (n : Nat) (x : HostCtx) : (setHost s n x).agenda = s.agenda := rfl
@[simp] theorem setHost_freeCount (s : State) (n : Nat) (x : HostCtx) : (setHost s n x).freeCount = s.freeCount := rfl
@[simp] theorem setHost_ready0 (s : State) (n : Nat) (x : HostCtx) : (setHost s n x).ready0 = s.ready0 := rfl
@[simp] theorem setHost_ready1 (s : State) (n : Nat) (x : HostCtx) : (setHost s n x).ready1 = s.ready1 := rfl
@[simp] theorem setHost_ready2 (s : State) (n : Nat) (x : HostCtx) : (setHost s n x).ready2 = s.ready2 := rfl
@[simp] theorem setHost_ccause (s : State) (n : Nat) (x : HostCtx) : (setHost s n x).ccause = s.ccause := rfl
@[simp] theorem setHost_fail0 (s : State) (n : Nat) (x : HostCtx) : (setHost s n x).fail0 = s.fail0 := rfl
@[simp] theorem setHost_fail1 (s : State) (n : Nat) (x : HostCtx) : (setHost s n x).fail1 = s.fail1 := rfl
@[simp] theorem setHost_fail2 (s : State) (n : Nat) (x : HostCtx) : (setHost s n x).fail2 = s.fail2 := rfl
@[simp] theorem setHost_first (s : State) (n : Nat) (x : HostCtx) : (setHost s n x).first = s.first := rfl
@[simp] theorem setHost_firstCause (s : State) (n : Nat) (x : HostCtx) : (setHost s n x).firstCause = s.firstCause := rfl
@[simp] theorem setHost_recovery (s : State) (n : Nat) (x : HostCtx) : (setHost s n x).recovery = s.recovery := rfl
@[simp] theorem setHost_booted (s : State) (n : Nat) (x : HostCtx) : (setHost s n x).booted = s.booted := rfl
@[simp] theorem setHost_bringUp (s : State) (n : Nat) (x : HostCtx) : (setHost s n x).bringUp = s.bringUp := rfl
@[simp] theorem setHost_digests (s : State) (n : Nat) (x : HostCtx) : (setHost s n x).digests = s.digests := rfl
@[simp] theorem setHost_svn (s : State) (n : Nat) (x : HostCtx) : (setHost s n x).svn = s.svn := rfl
@[simp] theorem setHost_homes (s : State) (n : Nat) (x : HostCtx) : (setHost s n x).homes = s.homes := rfl
@[simp] theorem setHost_sent (s : State) (n : Nat) (x : HostCtx) : (setHost s n x).sent = s.sent := rfl
@[simp] theorem setHost_keySlots (s : State) (n : Nat) (x : HostCtx) : (setHost s n x).keySlots = s.keySlots := rfl
@[simp] theorem setHost_combineWin (s : State) (n : Nat) (x : HostCtx) : (setHost s n x).combineWin = s.combineWin := rfl
@[simp] theorem setHost_zones (s : State) (n : Nat) (x : HostCtx) : (setHost s n x).zones = s.zones := rfl
@[simp] theorem setHost_capstans (s : State) (n : Nat) (x : HostCtx) : (setHost s n x).capstans = s.capstans := rfl
@[simp] theorem setHost_peerWindows (s : State) (n : Nat) (x : HostCtx) : (setHost s n x).peerWindows = s.peerWindows := rfl
@[simp] theorem setHost_pctxs (s : State) (n : Nat) (x : HostCtx) : (setHost s n x).pctxs = s.pctxs := rfl
@[simp] theorem setHost_leaves (s : State) (n : Nat) (x : HostCtx) : (setHost s n x).leaves = s.leaves := rfl
@[simp] theorem setHost_mem (s : State) (n : Nat) (x : HostCtx) : (setHost s n x).mem = s.mem := rfl
@[simp] theorem setHost_memErr (s : State) (n : Nat) (x : HostCtx) : (setHost s n x).memErr = s.memErr := rfl
@[simp] theorem setHost_framesUsed (s : State) (n : Nat) (x : HostCtx) : (setHost s n x).framesUsed = s.framesUsed := rfl
@[simp] theorem setHost_l2 (s : State) (n : Nat) (x : HostCtx) : (setHost s n x).l2 = s.l2 := rfl
@[simp] theorem setHost_combines (s : State) (n : Nat) (x : HostCtx) : (setHost s n x).combines = s.combines := rfl
@[simp] theorem setHost_nextCombine (s : State) (n : Nat) (x : HostCtx) : (setHost s n x).nextCombine = s.nextCombine := rfl
@[simp] theorem setHost_clusters (s : State) (n : Nat) (x : HostCtx) : (setHost s n x).clusters = s.clusters := rfl
@[simp] theorem setHost_cores (s : State) (n : Nat) (x : HostCtx) : (setHost s n x).cores = s.cores := rfl
@[simp] theorem setHost_serial (s : State) (n : Nat) (x : HostCtx) : (setHost s n x).serial = s.serial := rfl
@[simp] theorem setHost_accepted (s : State) (n : Nat) (x : HostCtx) : (setHost s n x).accepted = s.accepted := rfl
@[simp] theorem setHost_regions (s : State) (n : Nat) (x : HostCtx) : (setHost s n x).regions = s.regions := rfl
@[simp] theorem setHost_launches (s : State) (n : Nat) (x : HostCtx) : (setHost s n x).launches = s.launches := rfl
@[simp] theorem setHost_teardowns (s : State) (n : Nat) (x : HostCtx) : (setHost s n x).teardowns = s.teardowns := rfl
@[simp] theorem setHost_treeCharged (s : State) (n : Nat) (x : HostCtx) : (setHost s n x).treeCharged = s.treeCharged := rfl
@[simp] theorem setHost_loaded (s : State) (n : Nat) (x : HostCtx) : (setHost s n x).loaded = s.loaded := rfl
@[simp] theorem setHost_mapped (s : State) (n : Nat) (x : HostCtx) : (setHost s n x).mapped = s.mapped := rfl
@[simp] theorem setHost_nextFrame (s : State) (n : Nat) (x : HostCtx) : (setHost s n x).nextFrame = s.nextFrame := rfl
@[simp] theorem setHost_nextPage (s : State) (n : Nat) (x : HostCtx) : (setHost s n x).nextPage = s.nextPage := rfl
@[simp] theorem setHost_bins (s : State) (n : Nat) (x : HostCtx) : (setHost s n x).bins = s.bins := rfl
@[simp] theorem setHost_nodes (s : State) (n : Nat) (x : HostCtx) : (setHost s n x).nodes = s.nodes := rfl
@[simp] theorem setHost_draws (s : State) (n : Nat) (x : HostCtx) : (setHost s n x).draws = s.draws := rfl
@[simp] theorem setHost_groups (s : State) (n : Nat) (x : HostCtx) : (setHost s n x).groups = s.groups := rfl
@[simp] theorem setHost_batches (s : State) (n : Nat) (x : HostCtx) : (setHost s n x).batches = s.batches := rfl
@[simp] theorem setHost_nextBatch (s : State) (n : Nat) (x : HostCtx) : (setHost s n x).nextBatch = s.nextBatch := rfl
@[simp] theorem setHost_peers (s : State) (n : Nat) (x : HostCtx) : (setHost s n x).peers = s.peers := rfl
@[simp] theorem setHost_nextPeer (s : State) (n : Nat) (x : HostCtx) : (setHost s n x).nextPeer = s.nextPeer := rfl
@[simp] theorem setHost_peerSent (s : State) (n : Nat) (x : HostCtx) : (setHost s n x).peerSent = s.peerSent := rfl
@[simp] theorem setHost_frozenPairs (s : State) (n : Nat) (x : HostCtx) : (setHost s n x).frozenPairs = s.frozenPairs := rfl
@[simp] theorem setHost_peerApplied (s : State) (n : Nat) (x : HostCtx) : (setHost s n x).peerApplied = s.peerApplied := rfl
@[simp] theorem setHost_peerCancelled (s : State) (n : Nat) (x : HostCtx) : (setHost s n x).peerCancelled = s.peerCancelled := rfl

@[simp] theorem setZone_cur (s : State) (n : Nat) (x : Zone) : (setZone s n x).cur = s.cur := rfl
@[simp] theorem setZone_agenda (s : State) (n : Nat) (x : Zone) : (setZone s n x).agenda = s.agenda := rfl
@[simp] theorem setZone_freeCount (s : State) (n : Nat) (x : Zone) : (setZone s n x).freeCount = s.freeCount := rfl
@[simp] theorem setZone_ready0 (s : State) (n : Nat) (x : Zone) : (setZone s n x).ready0 = s.ready0 := rfl
@[simp] theorem setZone_ready1 (s : State) (n : Nat) (x : Zone) : (setZone s n x).ready1 = s.ready1 := rfl
@[simp] theorem setZone_ready2 (s : State) (n : Nat) (x : Zone) : (setZone s n x).ready2 = s.ready2 := rfl
@[simp] theorem setZone_ccause (s : State) (n : Nat) (x : Zone) : (setZone s n x).ccause = s.ccause := rfl
@[simp] theorem setZone_fail0 (s : State) (n : Nat) (x : Zone) : (setZone s n x).fail0 = s.fail0 := rfl
@[simp] theorem setZone_fail1 (s : State) (n : Nat) (x : Zone) : (setZone s n x).fail1 = s.fail1 := rfl
@[simp] theorem setZone_fail2 (s : State) (n : Nat) (x : Zone) : (setZone s n x).fail2 = s.fail2 := rfl
@[simp] theorem setZone_first (s : State) (n : Nat) (x : Zone) : (setZone s n x).first = s.first := rfl
@[simp] theorem setZone_firstCause (s : State) (n : Nat) (x : Zone) : (setZone s n x).firstCause = s.firstCause := rfl
@[simp] theorem setZone_recovery (s : State) (n : Nat) (x : Zone) : (setZone s n x).recovery = s.recovery := rfl
@[simp] theorem setZone_booted (s : State) (n : Nat) (x : Zone) : (setZone s n x).booted = s.booted := rfl
@[simp] theorem setZone_bringUp (s : State) (n : Nat) (x : Zone) : (setZone s n x).bringUp = s.bringUp := rfl
@[simp] theorem setZone_digests (s : State) (n : Nat) (x : Zone) : (setZone s n x).digests = s.digests := rfl
@[simp] theorem setZone_svn (s : State) (n : Nat) (x : Zone) : (setZone s n x).svn = s.svn := rfl
@[simp] theorem setZone_homes (s : State) (n : Nat) (x : Zone) : (setZone s n x).homes = s.homes := rfl
@[simp] theorem setZone_host (s : State) (n : Nat) (x : Zone) : (setZone s n x).host = s.host := rfl
@[simp] theorem setZone_sent (s : State) (n : Nat) (x : Zone) : (setZone s n x).sent = s.sent := rfl
@[simp] theorem setZone_keySlots (s : State) (n : Nat) (x : Zone) : (setZone s n x).keySlots = s.keySlots := rfl
@[simp] theorem setZone_combineWin (s : State) (n : Nat) (x : Zone) : (setZone s n x).combineWin = s.combineWin := rfl
@[simp] theorem setZone_capstans (s : State) (n : Nat) (x : Zone) : (setZone s n x).capstans = s.capstans := rfl
@[simp] theorem setZone_peerWindows (s : State) (n : Nat) (x : Zone) : (setZone s n x).peerWindows = s.peerWindows := rfl
@[simp] theorem setZone_pctxs (s : State) (n : Nat) (x : Zone) : (setZone s n x).pctxs = s.pctxs := rfl
@[simp] theorem setZone_leaves (s : State) (n : Nat) (x : Zone) : (setZone s n x).leaves = s.leaves := rfl
@[simp] theorem setZone_mem (s : State) (n : Nat) (x : Zone) : (setZone s n x).mem = s.mem := rfl
@[simp] theorem setZone_memErr (s : State) (n : Nat) (x : Zone) : (setZone s n x).memErr = s.memErr := rfl
@[simp] theorem setZone_framesUsed (s : State) (n : Nat) (x : Zone) : (setZone s n x).framesUsed = s.framesUsed := rfl
@[simp] theorem setZone_l2 (s : State) (n : Nat) (x : Zone) : (setZone s n x).l2 = s.l2 := rfl
@[simp] theorem setZone_combines (s : State) (n : Nat) (x : Zone) : (setZone s n x).combines = s.combines := rfl
@[simp] theorem setZone_nextCombine (s : State) (n : Nat) (x : Zone) : (setZone s n x).nextCombine = s.nextCombine := rfl
@[simp] theorem setZone_clusters (s : State) (n : Nat) (x : Zone) : (setZone s n x).clusters = s.clusters := rfl
@[simp] theorem setZone_cores (s : State) (n : Nat) (x : Zone) : (setZone s n x).cores = s.cores := rfl
@[simp] theorem setZone_serial (s : State) (n : Nat) (x : Zone) : (setZone s n x).serial = s.serial := rfl
@[simp] theorem setZone_accepted (s : State) (n : Nat) (x : Zone) : (setZone s n x).accepted = s.accepted := rfl
@[simp] theorem setZone_regions (s : State) (n : Nat) (x : Zone) : (setZone s n x).regions = s.regions := rfl
@[simp] theorem setZone_launches (s : State) (n : Nat) (x : Zone) : (setZone s n x).launches = s.launches := rfl
@[simp] theorem setZone_teardowns (s : State) (n : Nat) (x : Zone) : (setZone s n x).teardowns = s.teardowns := rfl
@[simp] theorem setZone_treeCharged (s : State) (n : Nat) (x : Zone) : (setZone s n x).treeCharged = s.treeCharged := rfl
@[simp] theorem setZone_loaded (s : State) (n : Nat) (x : Zone) : (setZone s n x).loaded = s.loaded := rfl
@[simp] theorem setZone_mapped (s : State) (n : Nat) (x : Zone) : (setZone s n x).mapped = s.mapped := rfl
@[simp] theorem setZone_nextFrame (s : State) (n : Nat) (x : Zone) : (setZone s n x).nextFrame = s.nextFrame := rfl
@[simp] theorem setZone_nextPage (s : State) (n : Nat) (x : Zone) : (setZone s n x).nextPage = s.nextPage := rfl
@[simp] theorem setZone_bins (s : State) (n : Nat) (x : Zone) : (setZone s n x).bins = s.bins := rfl
@[simp] theorem setZone_nodes (s : State) (n : Nat) (x : Zone) : (setZone s n x).nodes = s.nodes := rfl
@[simp] theorem setZone_draws (s : State) (n : Nat) (x : Zone) : (setZone s n x).draws = s.draws := rfl
@[simp] theorem setZone_groups (s : State) (n : Nat) (x : Zone) : (setZone s n x).groups = s.groups := rfl
@[simp] theorem setZone_batches (s : State) (n : Nat) (x : Zone) : (setZone s n x).batches = s.batches := rfl
@[simp] theorem setZone_nextBatch (s : State) (n : Nat) (x : Zone) : (setZone s n x).nextBatch = s.nextBatch := rfl
@[simp] theorem setZone_peers (s : State) (n : Nat) (x : Zone) : (setZone s n x).peers = s.peers := rfl
@[simp] theorem setZone_nextPeer (s : State) (n : Nat) (x : Zone) : (setZone s n x).nextPeer = s.nextPeer := rfl
@[simp] theorem setZone_peerSent (s : State) (n : Nat) (x : Zone) : (setZone s n x).peerSent = s.peerSent := rfl
@[simp] theorem setZone_frozenPairs (s : State) (n : Nat) (x : Zone) : (setZone s n x).frozenPairs = s.frozenPairs := rfl
@[simp] theorem setZone_peerApplied (s : State) (n : Nat) (x : Zone) : (setZone s n x).peerApplied = s.peerApplied := rfl
@[simp] theorem setZone_peerCancelled (s : State) (n : Nat) (x : Zone) : (setZone s n x).peerCancelled = s.peerCancelled := rfl

@[simp] theorem setCapstan_cur (s : State) (n : Nat) (x : Capstan) : (setCapstan s n x).cur = s.cur := rfl
@[simp] theorem setCapstan_agenda (s : State) (n : Nat) (x : Capstan) : (setCapstan s n x).agenda = s.agenda := rfl
@[simp] theorem setCapstan_freeCount (s : State) (n : Nat) (x : Capstan) : (setCapstan s n x).freeCount = s.freeCount := rfl
@[simp] theorem setCapstan_ready0 (s : State) (n : Nat) (x : Capstan) : (setCapstan s n x).ready0 = s.ready0 := rfl
@[simp] theorem setCapstan_ready1 (s : State) (n : Nat) (x : Capstan) : (setCapstan s n x).ready1 = s.ready1 := rfl
@[simp] theorem setCapstan_ready2 (s : State) (n : Nat) (x : Capstan) : (setCapstan s n x).ready2 = s.ready2 := rfl
@[simp] theorem setCapstan_ccause (s : State) (n : Nat) (x : Capstan) : (setCapstan s n x).ccause = s.ccause := rfl
@[simp] theorem setCapstan_fail0 (s : State) (n : Nat) (x : Capstan) : (setCapstan s n x).fail0 = s.fail0 := rfl
@[simp] theorem setCapstan_fail1 (s : State) (n : Nat) (x : Capstan) : (setCapstan s n x).fail1 = s.fail1 := rfl
@[simp] theorem setCapstan_fail2 (s : State) (n : Nat) (x : Capstan) : (setCapstan s n x).fail2 = s.fail2 := rfl
@[simp] theorem setCapstan_first (s : State) (n : Nat) (x : Capstan) : (setCapstan s n x).first = s.first := rfl
@[simp] theorem setCapstan_firstCause (s : State) (n : Nat) (x : Capstan) : (setCapstan s n x).firstCause = s.firstCause := rfl
@[simp] theorem setCapstan_recovery (s : State) (n : Nat) (x : Capstan) : (setCapstan s n x).recovery = s.recovery := rfl
@[simp] theorem setCapstan_booted (s : State) (n : Nat) (x : Capstan) : (setCapstan s n x).booted = s.booted := rfl
@[simp] theorem setCapstan_bringUp (s : State) (n : Nat) (x : Capstan) : (setCapstan s n x).bringUp = s.bringUp := rfl
@[simp] theorem setCapstan_digests (s : State) (n : Nat) (x : Capstan) : (setCapstan s n x).digests = s.digests := rfl
@[simp] theorem setCapstan_svn (s : State) (n : Nat) (x : Capstan) : (setCapstan s n x).svn = s.svn := rfl
@[simp] theorem setCapstan_homes (s : State) (n : Nat) (x : Capstan) : (setCapstan s n x).homes = s.homes := rfl
@[simp] theorem setCapstan_host (s : State) (n : Nat) (x : Capstan) : (setCapstan s n x).host = s.host := rfl
@[simp] theorem setCapstan_sent (s : State) (n : Nat) (x : Capstan) : (setCapstan s n x).sent = s.sent := rfl
@[simp] theorem setCapstan_keySlots (s : State) (n : Nat) (x : Capstan) : (setCapstan s n x).keySlots = s.keySlots := rfl
@[simp] theorem setCapstan_combineWin (s : State) (n : Nat) (x : Capstan) : (setCapstan s n x).combineWin = s.combineWin := rfl
@[simp] theorem setCapstan_zones (s : State) (n : Nat) (x : Capstan) : (setCapstan s n x).zones = s.zones := rfl
@[simp] theorem setCapstan_peerWindows (s : State) (n : Nat) (x : Capstan) : (setCapstan s n x).peerWindows = s.peerWindows := rfl
@[simp] theorem setCapstan_pctxs (s : State) (n : Nat) (x : Capstan) : (setCapstan s n x).pctxs = s.pctxs := rfl
@[simp] theorem setCapstan_leaves (s : State) (n : Nat) (x : Capstan) : (setCapstan s n x).leaves = s.leaves := rfl
@[simp] theorem setCapstan_mem (s : State) (n : Nat) (x : Capstan) : (setCapstan s n x).mem = s.mem := rfl
@[simp] theorem setCapstan_memErr (s : State) (n : Nat) (x : Capstan) : (setCapstan s n x).memErr = s.memErr := rfl
@[simp] theorem setCapstan_framesUsed (s : State) (n : Nat) (x : Capstan) : (setCapstan s n x).framesUsed = s.framesUsed := rfl
@[simp] theorem setCapstan_l2 (s : State) (n : Nat) (x : Capstan) : (setCapstan s n x).l2 = s.l2 := rfl
@[simp] theorem setCapstan_combines (s : State) (n : Nat) (x : Capstan) : (setCapstan s n x).combines = s.combines := rfl
@[simp] theorem setCapstan_nextCombine (s : State) (n : Nat) (x : Capstan) : (setCapstan s n x).nextCombine = s.nextCombine := rfl
@[simp] theorem setCapstan_clusters (s : State) (n : Nat) (x : Capstan) : (setCapstan s n x).clusters = s.clusters := rfl
@[simp] theorem setCapstan_cores (s : State) (n : Nat) (x : Capstan) : (setCapstan s n x).cores = s.cores := rfl
@[simp] theorem setCapstan_serial (s : State) (n : Nat) (x : Capstan) : (setCapstan s n x).serial = s.serial := rfl
@[simp] theorem setCapstan_accepted (s : State) (n : Nat) (x : Capstan) : (setCapstan s n x).accepted = s.accepted := rfl
@[simp] theorem setCapstan_regions (s : State) (n : Nat) (x : Capstan) : (setCapstan s n x).regions = s.regions := rfl
@[simp] theorem setCapstan_launches (s : State) (n : Nat) (x : Capstan) : (setCapstan s n x).launches = s.launches := rfl
@[simp] theorem setCapstan_teardowns (s : State) (n : Nat) (x : Capstan) : (setCapstan s n x).teardowns = s.teardowns := rfl
@[simp] theorem setCapstan_treeCharged (s : State) (n : Nat) (x : Capstan) : (setCapstan s n x).treeCharged = s.treeCharged := rfl
@[simp] theorem setCapstan_loaded (s : State) (n : Nat) (x : Capstan) : (setCapstan s n x).loaded = s.loaded := rfl
@[simp] theorem setCapstan_mapped (s : State) (n : Nat) (x : Capstan) : (setCapstan s n x).mapped = s.mapped := rfl
@[simp] theorem setCapstan_nextFrame (s : State) (n : Nat) (x : Capstan) : (setCapstan s n x).nextFrame = s.nextFrame := rfl
@[simp] theorem setCapstan_nextPage (s : State) (n : Nat) (x : Capstan) : (setCapstan s n x).nextPage = s.nextPage := rfl
@[simp] theorem setCapstan_bins (s : State) (n : Nat) (x : Capstan) : (setCapstan s n x).bins = s.bins := rfl
@[simp] theorem setCapstan_nodes (s : State) (n : Nat) (x : Capstan) : (setCapstan s n x).nodes = s.nodes := rfl
@[simp] theorem setCapstan_draws (s : State) (n : Nat) (x : Capstan) : (setCapstan s n x).draws = s.draws := rfl
@[simp] theorem setCapstan_groups (s : State) (n : Nat) (x : Capstan) : (setCapstan s n x).groups = s.groups := rfl
@[simp] theorem setCapstan_batches (s : State) (n : Nat) (x : Capstan) : (setCapstan s n x).batches = s.batches := rfl
@[simp] theorem setCapstan_nextBatch (s : State) (n : Nat) (x : Capstan) : (setCapstan s n x).nextBatch = s.nextBatch := rfl
@[simp] theorem setCapstan_peers (s : State) (n : Nat) (x : Capstan) : (setCapstan s n x).peers = s.peers := rfl
@[simp] theorem setCapstan_nextPeer (s : State) (n : Nat) (x : Capstan) : (setCapstan s n x).nextPeer = s.nextPeer := rfl
@[simp] theorem setCapstan_peerSent (s : State) (n : Nat) (x : Capstan) : (setCapstan s n x).peerSent = s.peerSent := rfl
@[simp] theorem setCapstan_frozenPairs (s : State) (n : Nat) (x : Capstan) : (setCapstan s n x).frozenPairs = s.frozenPairs := rfl
@[simp] theorem setCapstan_peerApplied (s : State) (n : Nat) (x : Capstan) : (setCapstan s n x).peerApplied = s.peerApplied := rfl
@[simp] theorem setCapstan_peerCancelled (s : State) (n : Nat) (x : Capstan) : (setCapstan s n x).peerCancelled = s.peerCancelled := rfl

@[simp] theorem setDraw_cur (s : State) (x : Draw) : (setDraw s x).cur = s.cur := rfl
@[simp] theorem setDraw_agenda (s : State) (x : Draw) : (setDraw s x).agenda = s.agenda := rfl
@[simp] theorem setDraw_freeCount (s : State) (x : Draw) : (setDraw s x).freeCount = s.freeCount := rfl
@[simp] theorem setDraw_ready0 (s : State) (x : Draw) : (setDraw s x).ready0 = s.ready0 := rfl
@[simp] theorem setDraw_ready1 (s : State) (x : Draw) : (setDraw s x).ready1 = s.ready1 := rfl
@[simp] theorem setDraw_ready2 (s : State) (x : Draw) : (setDraw s x).ready2 = s.ready2 := rfl
@[simp] theorem setDraw_ccause (s : State) (x : Draw) : (setDraw s x).ccause = s.ccause := rfl
@[simp] theorem setDraw_fail0 (s : State) (x : Draw) : (setDraw s x).fail0 = s.fail0 := rfl
@[simp] theorem setDraw_fail1 (s : State) (x : Draw) : (setDraw s x).fail1 = s.fail1 := rfl
@[simp] theorem setDraw_fail2 (s : State) (x : Draw) : (setDraw s x).fail2 = s.fail2 := rfl
@[simp] theorem setDraw_first (s : State) (x : Draw) : (setDraw s x).first = s.first := rfl
@[simp] theorem setDraw_firstCause (s : State) (x : Draw) : (setDraw s x).firstCause = s.firstCause := rfl
@[simp] theorem setDraw_recovery (s : State) (x : Draw) : (setDraw s x).recovery = s.recovery := rfl
@[simp] theorem setDraw_booted (s : State) (x : Draw) : (setDraw s x).booted = s.booted := rfl
@[simp] theorem setDraw_bringUp (s : State) (x : Draw) : (setDraw s x).bringUp = s.bringUp := rfl
@[simp] theorem setDraw_digests (s : State) (x : Draw) : (setDraw s x).digests = s.digests := rfl
@[simp] theorem setDraw_svn (s : State) (x : Draw) : (setDraw s x).svn = s.svn := rfl
@[simp] theorem setDraw_homes (s : State) (x : Draw) : (setDraw s x).homes = s.homes := rfl
@[simp] theorem setDraw_host (s : State) (x : Draw) : (setDraw s x).host = s.host := rfl
@[simp] theorem setDraw_sent (s : State) (x : Draw) : (setDraw s x).sent = s.sent := rfl
@[simp] theorem setDraw_keySlots (s : State) (x : Draw) : (setDraw s x).keySlots = s.keySlots := rfl
@[simp] theorem setDraw_combineWin (s : State) (x : Draw) : (setDraw s x).combineWin = s.combineWin := rfl
@[simp] theorem setDraw_zones (s : State) (x : Draw) : (setDraw s x).zones = s.zones := rfl
@[simp] theorem setDraw_capstans (s : State) (x : Draw) : (setDraw s x).capstans = s.capstans := rfl
@[simp] theorem setDraw_peerWindows (s : State) (x : Draw) : (setDraw s x).peerWindows = s.peerWindows := rfl
@[simp] theorem setDraw_pctxs (s : State) (x : Draw) : (setDraw s x).pctxs = s.pctxs := rfl
@[simp] theorem setDraw_leaves (s : State) (x : Draw) : (setDraw s x).leaves = s.leaves := rfl
@[simp] theorem setDraw_mem (s : State) (x : Draw) : (setDraw s x).mem = s.mem := rfl
@[simp] theorem setDraw_memErr (s : State) (x : Draw) : (setDraw s x).memErr = s.memErr := rfl
@[simp] theorem setDraw_framesUsed (s : State) (x : Draw) : (setDraw s x).framesUsed = s.framesUsed := rfl
@[simp] theorem setDraw_l2 (s : State) (x : Draw) : (setDraw s x).l2 = s.l2 := rfl
@[simp] theorem setDraw_combines (s : State) (x : Draw) : (setDraw s x).combines = s.combines := rfl
@[simp] theorem setDraw_nextCombine (s : State) (x : Draw) : (setDraw s x).nextCombine = s.nextCombine := rfl
@[simp] theorem setDraw_clusters (s : State) (x : Draw) : (setDraw s x).clusters = s.clusters := rfl
@[simp] theorem setDraw_cores (s : State) (x : Draw) : (setDraw s x).cores = s.cores := rfl
@[simp] theorem setDraw_serial (s : State) (x : Draw) : (setDraw s x).serial = s.serial := rfl
@[simp] theorem setDraw_accepted (s : State) (x : Draw) : (setDraw s x).accepted = s.accepted := rfl
@[simp] theorem setDraw_regions (s : State) (x : Draw) : (setDraw s x).regions = s.regions := rfl
@[simp] theorem setDraw_launches (s : State) (x : Draw) : (setDraw s x).launches = s.launches := rfl
@[simp] theorem setDraw_teardowns (s : State) (x : Draw) : (setDraw s x).teardowns = s.teardowns := rfl
@[simp] theorem setDraw_treeCharged (s : State) (x : Draw) : (setDraw s x).treeCharged = s.treeCharged := rfl
@[simp] theorem setDraw_loaded (s : State) (x : Draw) : (setDraw s x).loaded = s.loaded := rfl
@[simp] theorem setDraw_mapped (s : State) (x : Draw) : (setDraw s x).mapped = s.mapped := rfl
@[simp] theorem setDraw_nextFrame (s : State) (x : Draw) : (setDraw s x).nextFrame = s.nextFrame := rfl
@[simp] theorem setDraw_nextPage (s : State) (x : Draw) : (setDraw s x).nextPage = s.nextPage := rfl
@[simp] theorem setDraw_bins (s : State) (x : Draw) : (setDraw s x).bins = s.bins := rfl
@[simp] theorem setDraw_nodes (s : State) (x : Draw) : (setDraw s x).nodes = s.nodes := rfl
@[simp] theorem setDraw_groups (s : State) (x : Draw) : (setDraw s x).groups = s.groups := rfl
@[simp] theorem setDraw_batches (s : State) (x : Draw) : (setDraw s x).batches = s.batches := rfl
@[simp] theorem setDraw_nextBatch (s : State) (x : Draw) : (setDraw s x).nextBatch = s.nextBatch := rfl
@[simp] theorem setDraw_peers (s : State) (x : Draw) : (setDraw s x).peers = s.peers := rfl
@[simp] theorem setDraw_nextPeer (s : State) (x : Draw) : (setDraw s x).nextPeer = s.nextPeer := rfl
@[simp] theorem setDraw_peerSent (s : State) (x : Draw) : (setDraw s x).peerSent = s.peerSent := rfl
@[simp] theorem setDraw_frozenPairs (s : State) (x : Draw) : (setDraw s x).frozenPairs = s.frozenPairs := rfl
@[simp] theorem setDraw_peerApplied (s : State) (x : Draw) : (setDraw s x).peerApplied = s.peerApplied := rfl
@[simp] theorem setDraw_peerCancelled (s : State) (x : Draw) : (setDraw s x).peerCancelled = s.peerCancelled := rfl

@[simp] theorem updRegion_cur (s : State) (r : Rgn) (g : Region → Region) : (updRegion s r g).cur = s.cur := rfl
@[simp] theorem updRegion_agenda (s : State) (r : Rgn) (g : Region → Region) : (updRegion s r g).agenda = s.agenda := rfl
@[simp] theorem updRegion_freeCount (s : State) (r : Rgn) (g : Region → Region) : (updRegion s r g).freeCount = s.freeCount := rfl
@[simp] theorem updRegion_ready0 (s : State) (r : Rgn) (g : Region → Region) : (updRegion s r g).ready0 = s.ready0 := rfl
@[simp] theorem updRegion_ready1 (s : State) (r : Rgn) (g : Region → Region) : (updRegion s r g).ready1 = s.ready1 := rfl
@[simp] theorem updRegion_ready2 (s : State) (r : Rgn) (g : Region → Region) : (updRegion s r g).ready2 = s.ready2 := rfl
@[simp] theorem updRegion_ccause (s : State) (r : Rgn) (g : Region → Region) : (updRegion s r g).ccause = s.ccause := rfl
@[simp] theorem updRegion_fail0 (s : State) (r : Rgn) (g : Region → Region) : (updRegion s r g).fail0 = s.fail0 := rfl
@[simp] theorem updRegion_fail1 (s : State) (r : Rgn) (g : Region → Region) : (updRegion s r g).fail1 = s.fail1 := rfl
@[simp] theorem updRegion_fail2 (s : State) (r : Rgn) (g : Region → Region) : (updRegion s r g).fail2 = s.fail2 := rfl
@[simp] theorem updRegion_first (s : State) (r : Rgn) (g : Region → Region) : (updRegion s r g).first = s.first := rfl
@[simp] theorem updRegion_firstCause (s : State) (r : Rgn) (g : Region → Region) : (updRegion s r g).firstCause = s.firstCause := rfl
@[simp] theorem updRegion_recovery (s : State) (r : Rgn) (g : Region → Region) : (updRegion s r g).recovery = s.recovery := rfl
@[simp] theorem updRegion_booted (s : State) (r : Rgn) (g : Region → Region) : (updRegion s r g).booted = s.booted := rfl
@[simp] theorem updRegion_bringUp (s : State) (r : Rgn) (g : Region → Region) : (updRegion s r g).bringUp = s.bringUp := rfl
@[simp] theorem updRegion_digests (s : State) (r : Rgn) (g : Region → Region) : (updRegion s r g).digests = s.digests := rfl
@[simp] theorem updRegion_svn (s : State) (r : Rgn) (g : Region → Region) : (updRegion s r g).svn = s.svn := rfl
@[simp] theorem updRegion_homes (s : State) (r : Rgn) (g : Region → Region) : (updRegion s r g).homes = s.homes := rfl
@[simp] theorem updRegion_host (s : State) (r : Rgn) (g : Region → Region) : (updRegion s r g).host = s.host := rfl
@[simp] theorem updRegion_sent (s : State) (r : Rgn) (g : Region → Region) : (updRegion s r g).sent = s.sent := rfl
@[simp] theorem updRegion_keySlots (s : State) (r : Rgn) (g : Region → Region) : (updRegion s r g).keySlots = s.keySlots := rfl
@[simp] theorem updRegion_combineWin (s : State) (r : Rgn) (g : Region → Region) : (updRegion s r g).combineWin = s.combineWin := rfl
@[simp] theorem updRegion_zones (s : State) (r : Rgn) (g : Region → Region) : (updRegion s r g).zones = s.zones := rfl
@[simp] theorem updRegion_capstans (s : State) (r : Rgn) (g : Region → Region) : (updRegion s r g).capstans = s.capstans := rfl
@[simp] theorem updRegion_peerWindows (s : State) (r : Rgn) (g : Region → Region) : (updRegion s r g).peerWindows = s.peerWindows := rfl
@[simp] theorem updRegion_pctxs (s : State) (r : Rgn) (g : Region → Region) : (updRegion s r g).pctxs = s.pctxs := rfl
@[simp] theorem updRegion_leaves (s : State) (r : Rgn) (g : Region → Region) : (updRegion s r g).leaves = s.leaves := rfl
@[simp] theorem updRegion_mem (s : State) (r : Rgn) (g : Region → Region) : (updRegion s r g).mem = s.mem := rfl
@[simp] theorem updRegion_memErr (s : State) (r : Rgn) (g : Region → Region) : (updRegion s r g).memErr = s.memErr := rfl
@[simp] theorem updRegion_framesUsed (s : State) (r : Rgn) (g : Region → Region) : (updRegion s r g).framesUsed = s.framesUsed := rfl
@[simp] theorem updRegion_l2 (s : State) (r : Rgn) (g : Region → Region) : (updRegion s r g).l2 = s.l2 := rfl
@[simp] theorem updRegion_combines (s : State) (r : Rgn) (g : Region → Region) : (updRegion s r g).combines = s.combines := rfl
@[simp] theorem updRegion_nextCombine (s : State) (r : Rgn) (g : Region → Region) : (updRegion s r g).nextCombine = s.nextCombine := rfl
@[simp] theorem updRegion_clusters (s : State) (r : Rgn) (g : Region → Region) : (updRegion s r g).clusters = s.clusters := rfl
@[simp] theorem updRegion_cores (s : State) (r : Rgn) (g : Region → Region) : (updRegion s r g).cores = s.cores := rfl
@[simp] theorem updRegion_serial (s : State) (r : Rgn) (g : Region → Region) : (updRegion s r g).serial = s.serial := rfl
@[simp] theorem updRegion_accepted (s : State) (r : Rgn) (g : Region → Region) : (updRegion s r g).accepted = s.accepted := rfl
@[simp] theorem updRegion_launches (s : State) (r : Rgn) (g : Region → Region) : (updRegion s r g).launches = s.launches := rfl
@[simp] theorem updRegion_teardowns (s : State) (r : Rgn) (g : Region → Region) : (updRegion s r g).teardowns = s.teardowns := rfl
@[simp] theorem updRegion_treeCharged (s : State) (r : Rgn) (g : Region → Region) : (updRegion s r g).treeCharged = s.treeCharged := rfl
@[simp] theorem updRegion_loaded (s : State) (r : Rgn) (g : Region → Region) : (updRegion s r g).loaded = s.loaded := rfl
@[simp] theorem updRegion_mapped (s : State) (r : Rgn) (g : Region → Region) : (updRegion s r g).mapped = s.mapped := rfl
@[simp] theorem updRegion_nextFrame (s : State) (r : Rgn) (g : Region → Region) : (updRegion s r g).nextFrame = s.nextFrame := rfl
@[simp] theorem updRegion_nextPage (s : State) (r : Rgn) (g : Region → Region) : (updRegion s r g).nextPage = s.nextPage := rfl
@[simp] theorem updRegion_bins (s : State) (r : Rgn) (g : Region → Region) : (updRegion s r g).bins = s.bins := rfl
@[simp] theorem updRegion_nodes (s : State) (r : Rgn) (g : Region → Region) : (updRegion s r g).nodes = s.nodes := rfl
@[simp] theorem updRegion_draws (s : State) (r : Rgn) (g : Region → Region) : (updRegion s r g).draws = s.draws := rfl
@[simp] theorem updRegion_groups (s : State) (r : Rgn) (g : Region → Region) : (updRegion s r g).groups = s.groups := rfl
@[simp] theorem updRegion_batches (s : State) (r : Rgn) (g : Region → Region) : (updRegion s r g).batches = s.batches := rfl
@[simp] theorem updRegion_nextBatch (s : State) (r : Rgn) (g : Region → Region) : (updRegion s r g).nextBatch = s.nextBatch := rfl
@[simp] theorem updRegion_peers (s : State) (r : Rgn) (g : Region → Region) : (updRegion s r g).peers = s.peers := rfl
@[simp] theorem updRegion_nextPeer (s : State) (r : Rgn) (g : Region → Region) : (updRegion s r g).nextPeer = s.nextPeer := rfl
@[simp] theorem updRegion_peerSent (s : State) (r : Rgn) (g : Region → Region) : (updRegion s r g).peerSent = s.peerSent := rfl
@[simp] theorem updRegion_frozenPairs (s : State) (r : Rgn) (g : Region → Region) : (updRegion s r g).frozenPairs = s.frozenPairs := rfl
@[simp] theorem updRegion_peerApplied (s : State) (r : Rgn) (g : Region → Region) : (updRegion s r g).peerApplied = s.peerApplied := rfl
@[simp] theorem updRegion_peerCancelled (s : State) (r : Rgn) (g : Region → Region) : (updRegion s r g).peerCancelled = s.peerCancelled := rfl

@[simp] theorem updLaunch_cur (s : State) (n : Nat) (g : Launch → Launch) : (updLaunch s n g).cur = s.cur := rfl
@[simp] theorem updLaunch_agenda (s : State) (n : Nat) (g : Launch → Launch) : (updLaunch s n g).agenda = s.agenda := rfl
@[simp] theorem updLaunch_freeCount (s : State) (n : Nat) (g : Launch → Launch) : (updLaunch s n g).freeCount = s.freeCount := rfl
@[simp] theorem updLaunch_ready0 (s : State) (n : Nat) (g : Launch → Launch) : (updLaunch s n g).ready0 = s.ready0 := rfl
@[simp] theorem updLaunch_ready1 (s : State) (n : Nat) (g : Launch → Launch) : (updLaunch s n g).ready1 = s.ready1 := rfl
@[simp] theorem updLaunch_ready2 (s : State) (n : Nat) (g : Launch → Launch) : (updLaunch s n g).ready2 = s.ready2 := rfl
@[simp] theorem updLaunch_ccause (s : State) (n : Nat) (g : Launch → Launch) : (updLaunch s n g).ccause = s.ccause := rfl
@[simp] theorem updLaunch_fail0 (s : State) (n : Nat) (g : Launch → Launch) : (updLaunch s n g).fail0 = s.fail0 := rfl
@[simp] theorem updLaunch_fail1 (s : State) (n : Nat) (g : Launch → Launch) : (updLaunch s n g).fail1 = s.fail1 := rfl
@[simp] theorem updLaunch_fail2 (s : State) (n : Nat) (g : Launch → Launch) : (updLaunch s n g).fail2 = s.fail2 := rfl
@[simp] theorem updLaunch_first (s : State) (n : Nat) (g : Launch → Launch) : (updLaunch s n g).first = s.first := rfl
@[simp] theorem updLaunch_firstCause (s : State) (n : Nat) (g : Launch → Launch) : (updLaunch s n g).firstCause = s.firstCause := rfl
@[simp] theorem updLaunch_recovery (s : State) (n : Nat) (g : Launch → Launch) : (updLaunch s n g).recovery = s.recovery := rfl
@[simp] theorem updLaunch_booted (s : State) (n : Nat) (g : Launch → Launch) : (updLaunch s n g).booted = s.booted := rfl
@[simp] theorem updLaunch_bringUp (s : State) (n : Nat) (g : Launch → Launch) : (updLaunch s n g).bringUp = s.bringUp := rfl
@[simp] theorem updLaunch_digests (s : State) (n : Nat) (g : Launch → Launch) : (updLaunch s n g).digests = s.digests := rfl
@[simp] theorem updLaunch_svn (s : State) (n : Nat) (g : Launch → Launch) : (updLaunch s n g).svn = s.svn := rfl
@[simp] theorem updLaunch_homes (s : State) (n : Nat) (g : Launch → Launch) : (updLaunch s n g).homes = s.homes := rfl
@[simp] theorem updLaunch_host (s : State) (n : Nat) (g : Launch → Launch) : (updLaunch s n g).host = s.host := rfl
@[simp] theorem updLaunch_sent (s : State) (n : Nat) (g : Launch → Launch) : (updLaunch s n g).sent = s.sent := rfl
@[simp] theorem updLaunch_keySlots (s : State) (n : Nat) (g : Launch → Launch) : (updLaunch s n g).keySlots = s.keySlots := rfl
@[simp] theorem updLaunch_combineWin (s : State) (n : Nat) (g : Launch → Launch) : (updLaunch s n g).combineWin = s.combineWin := rfl
@[simp] theorem updLaunch_zones (s : State) (n : Nat) (g : Launch → Launch) : (updLaunch s n g).zones = s.zones := rfl
@[simp] theorem updLaunch_capstans (s : State) (n : Nat) (g : Launch → Launch) : (updLaunch s n g).capstans = s.capstans := rfl
@[simp] theorem updLaunch_peerWindows (s : State) (n : Nat) (g : Launch → Launch) : (updLaunch s n g).peerWindows = s.peerWindows := rfl
@[simp] theorem updLaunch_pctxs (s : State) (n : Nat) (g : Launch → Launch) : (updLaunch s n g).pctxs = s.pctxs := rfl
@[simp] theorem updLaunch_leaves (s : State) (n : Nat) (g : Launch → Launch) : (updLaunch s n g).leaves = s.leaves := rfl
@[simp] theorem updLaunch_mem (s : State) (n : Nat) (g : Launch → Launch) : (updLaunch s n g).mem = s.mem := rfl
@[simp] theorem updLaunch_memErr (s : State) (n : Nat) (g : Launch → Launch) : (updLaunch s n g).memErr = s.memErr := rfl
@[simp] theorem updLaunch_framesUsed (s : State) (n : Nat) (g : Launch → Launch) : (updLaunch s n g).framesUsed = s.framesUsed := rfl
@[simp] theorem updLaunch_l2 (s : State) (n : Nat) (g : Launch → Launch) : (updLaunch s n g).l2 = s.l2 := rfl
@[simp] theorem updLaunch_combines (s : State) (n : Nat) (g : Launch → Launch) : (updLaunch s n g).combines = s.combines := rfl
@[simp] theorem updLaunch_nextCombine (s : State) (n : Nat) (g : Launch → Launch) : (updLaunch s n g).nextCombine = s.nextCombine := rfl
@[simp] theorem updLaunch_clusters (s : State) (n : Nat) (g : Launch → Launch) : (updLaunch s n g).clusters = s.clusters := rfl
@[simp] theorem updLaunch_cores (s : State) (n : Nat) (g : Launch → Launch) : (updLaunch s n g).cores = s.cores := rfl
@[simp] theorem updLaunch_serial (s : State) (n : Nat) (g : Launch → Launch) : (updLaunch s n g).serial = s.serial := rfl
@[simp] theorem updLaunch_accepted (s : State) (n : Nat) (g : Launch → Launch) : (updLaunch s n g).accepted = s.accepted := rfl
@[simp] theorem updLaunch_regions (s : State) (n : Nat) (g : Launch → Launch) : (updLaunch s n g).regions = s.regions := rfl
@[simp] theorem updLaunch_teardowns (s : State) (n : Nat) (g : Launch → Launch) : (updLaunch s n g).teardowns = s.teardowns := rfl
@[simp] theorem updLaunch_treeCharged (s : State) (n : Nat) (g : Launch → Launch) : (updLaunch s n g).treeCharged = s.treeCharged := rfl
@[simp] theorem updLaunch_loaded (s : State) (n : Nat) (g : Launch → Launch) : (updLaunch s n g).loaded = s.loaded := rfl
@[simp] theorem updLaunch_mapped (s : State) (n : Nat) (g : Launch → Launch) : (updLaunch s n g).mapped = s.mapped := rfl
@[simp] theorem updLaunch_nextFrame (s : State) (n : Nat) (g : Launch → Launch) : (updLaunch s n g).nextFrame = s.nextFrame := rfl
@[simp] theorem updLaunch_nextPage (s : State) (n : Nat) (g : Launch → Launch) : (updLaunch s n g).nextPage = s.nextPage := rfl
@[simp] theorem updLaunch_bins (s : State) (n : Nat) (g : Launch → Launch) : (updLaunch s n g).bins = s.bins := rfl
@[simp] theorem updLaunch_nodes (s : State) (n : Nat) (g : Launch → Launch) : (updLaunch s n g).nodes = s.nodes := rfl
@[simp] theorem updLaunch_draws (s : State) (n : Nat) (g : Launch → Launch) : (updLaunch s n g).draws = s.draws := rfl
@[simp] theorem updLaunch_groups (s : State) (n : Nat) (g : Launch → Launch) : (updLaunch s n g).groups = s.groups := rfl
@[simp] theorem updLaunch_batches (s : State) (n : Nat) (g : Launch → Launch) : (updLaunch s n g).batches = s.batches := rfl
@[simp] theorem updLaunch_nextBatch (s : State) (n : Nat) (g : Launch → Launch) : (updLaunch s n g).nextBatch = s.nextBatch := rfl
@[simp] theorem updLaunch_peers (s : State) (n : Nat) (g : Launch → Launch) : (updLaunch s n g).peers = s.peers := rfl
@[simp] theorem updLaunch_nextPeer (s : State) (n : Nat) (g : Launch → Launch) : (updLaunch s n g).nextPeer = s.nextPeer := rfl
@[simp] theorem updLaunch_peerSent (s : State) (n : Nat) (g : Launch → Launch) : (updLaunch s n g).peerSent = s.peerSent := rfl
@[simp] theorem updLaunch_frozenPairs (s : State) (n : Nat) (g : Launch → Launch) : (updLaunch s n g).frozenPairs = s.frozenPairs := rfl
@[simp] theorem updLaunch_peerApplied (s : State) (n : Nat) (g : Launch → Launch) : (updLaunch s n g).peerApplied = s.peerApplied := rfl
@[simp] theorem updLaunch_peerCancelled (s : State) (n : Nat) (g : Launch → Launch) : (updLaunch s n g).peerCancelled = s.peerCancelled := rfl

/-! Updates of a core. -/

@[simp] theorem setWave_wgs (k : Core) (n : Nat) (x : Wave) : (setWave k n x).wgs = k.wgs := rfl
@[simp] theorem setWave_ctxs (k : Core) (n : Nat) (x : Wave) : (setWave k n x).ctxs = k.ctxs := rfl
@[simp] theorem setWave_sram (k : Core) (n : Nat) (x : Wave) : (setWave k n x).sram = k.sram := rfl
@[simp] theorem setWave_sramErr (k : Core) (n : Nat) (x : Wave) : (setWave k n x).sramErr = k.sramErr := rfl
@[simp] theorem setWave_l1 (k : Core) (n : Nat) (x : Wave) : (setWave k n x).l1 = k.l1 := rfl
@[simp] theorem setWave_constCache (k : Core) (n : Nat) (x : Wave) : (setWave k n x).constCache = k.constCache := rfl
@[simp] theorem setWave_records (k : Core) (n : Nat) (x : Wave) : (setWave k n x).records = k.records := rfl
@[simp] theorem setWave_hints (k : Core) (n : Nat) (x : Wave) : (setWave k n x).hints = k.hints := rfl
@[simp] theorem setWave_outbound (k : Core) (n : Nat) (x : Wave) : (setWave k n x).outbound = k.outbound := rfl
@[simp] theorem setWave_nextOut (k : Core) (n : Nat) (x : Wave) : (setWave k n x).nextOut = k.nextOut := rfl
@[simp] theorem setWave_nextLoad (k : Core) (n : Nat) (x : Wave) : (setWave k n x).nextLoad = k.nextLoad := rfl
@[simp] theorem setWave_futs (k : Core) (n : Nat) (x : Wave) : (setWave k n x).futs = k.futs := rfl
@[simp] theorem setWave_futOrder (k : Core) (n : Nat) (x : Wave) : (setWave k n x).futOrder = k.futOrder := rfl
@[simp] theorem setWave_locks (k : Core) (n : Nat) (x : Wave) : (setWave k n x).locks = k.locks := rfl
@[simp] theorem setWave_jobs (k : Core) (n : Nat) (x : Wave) : (setWave k n x).jobs = k.jobs := rfl
@[simp] theorem setWave_banks (k : Core) (n : Nat) (x : Wave) : (setWave k n x).banks = k.banks := rfl
@[simp] theorem setWave_tiles (k : Core) (n : Nat) (x : Wave) : (setWave k n x).tiles = k.tiles := rfl
@[simp] theorem setWave_array (k : Core) (n : Nat) (x : Wave) : (setWave k n x).array = k.array := rfl
@[simp] theorem setWave_nextArray (k : Core) (n : Nat) (x : Wave) : (setWave k n x).nextArray = k.nextArray := rfl
@[simp] theorem setWave_rows (k : Core) (n : Nat) (x : Wave) : (setWave k n x).rows = k.rows := rfl
@[simp] theorem setWave_nextSlot (k : Core) (n : Nat) (x : Wave) : (setWave k n x).nextSlot = k.nextSlot := rfl
@[simp] theorem setWave_floor (k : Core) (n : Nat) (x : Wave) : (setWave k n x).floor = k.floor := rfl
@[simp] theorem setWave_ballast (k : Core) (n : Nat) (x : Wave) : (setWave k n x).ballast = k.ballast := rfl
@[simp] theorem setWave_interval (k : Core) (n : Nat) (x : Wave) : (setWave k n x).interval = k.interval := rfl
@[simp] theorem setWave_ramp (k : Core) (n : Nat) (x : Wave) : (setWave k n x).ramp = k.ramp := rfl
@[simp] theorem setWave_lastEval (k : Core) (n : Nat) (x : Wave) : (setWave k n x).lastEval = k.lastEval := rfl
@[simp] theorem setWave_vecQuads (k : Core) (n : Nat) (x : Wave) : (setWave k n x).vecQuads = k.vecQuads := rfl
@[simp] theorem setWave_overCap (k : Core) (n : Nat) (x : Wave) : (setWave k n x).overCap = k.overCap := rfl
@[simp] theorem setWave_issued (k : Core) (n : Nat) (x : Wave) : (setWave k n x).issued = k.issued := rfl
@[simp] theorem setWave_catchBpt (k : Core) (n : Nat) (x : Wave) : (setWave k n x).catchBpt = k.catchBpt := rfl
@[simp] theorem setWave_dbgcmd (k : Core) (n : Nat) (x : Wave) : (setWave k n x).dbgcmd = k.dbgcmd := rfl

@[simp] theorem setWg_waves (k : Core) (n : Nat) (x : Workgroup) : (setWg k n x).waves = k.waves := rfl
@[simp] theorem setWg_ctxs (k : Core) (n : Nat) (x : Workgroup) : (setWg k n x).ctxs = k.ctxs := rfl
@[simp] theorem setWg_sram (k : Core) (n : Nat) (x : Workgroup) : (setWg k n x).sram = k.sram := rfl
@[simp] theorem setWg_sramErr (k : Core) (n : Nat) (x : Workgroup) : (setWg k n x).sramErr = k.sramErr := rfl
@[simp] theorem setWg_l1 (k : Core) (n : Nat) (x : Workgroup) : (setWg k n x).l1 = k.l1 := rfl
@[simp] theorem setWg_constCache (k : Core) (n : Nat) (x : Workgroup) : (setWg k n x).constCache = k.constCache := rfl
@[simp] theorem setWg_records (k : Core) (n : Nat) (x : Workgroup) : (setWg k n x).records = k.records := rfl
@[simp] theorem setWg_hints (k : Core) (n : Nat) (x : Workgroup) : (setWg k n x).hints = k.hints := rfl
@[simp] theorem setWg_outbound (k : Core) (n : Nat) (x : Workgroup) : (setWg k n x).outbound = k.outbound := rfl
@[simp] theorem setWg_nextOut (k : Core) (n : Nat) (x : Workgroup) : (setWg k n x).nextOut = k.nextOut := rfl
@[simp] theorem setWg_nextLoad (k : Core) (n : Nat) (x : Workgroup) : (setWg k n x).nextLoad = k.nextLoad := rfl
@[simp] theorem setWg_futs (k : Core) (n : Nat) (x : Workgroup) : (setWg k n x).futs = k.futs := rfl
@[simp] theorem setWg_futOrder (k : Core) (n : Nat) (x : Workgroup) : (setWg k n x).futOrder = k.futOrder := rfl
@[simp] theorem setWg_locks (k : Core) (n : Nat) (x : Workgroup) : (setWg k n x).locks = k.locks := rfl
@[simp] theorem setWg_jobs (k : Core) (n : Nat) (x : Workgroup) : (setWg k n x).jobs = k.jobs := rfl
@[simp] theorem setWg_banks (k : Core) (n : Nat) (x : Workgroup) : (setWg k n x).banks = k.banks := rfl
@[simp] theorem setWg_tiles (k : Core) (n : Nat) (x : Workgroup) : (setWg k n x).tiles = k.tiles := rfl
@[simp] theorem setWg_array (k : Core) (n : Nat) (x : Workgroup) : (setWg k n x).array = k.array := rfl
@[simp] theorem setWg_nextArray (k : Core) (n : Nat) (x : Workgroup) : (setWg k n x).nextArray = k.nextArray := rfl
@[simp] theorem setWg_rows (k : Core) (n : Nat) (x : Workgroup) : (setWg k n x).rows = k.rows := rfl
@[simp] theorem setWg_nextSlot (k : Core) (n : Nat) (x : Workgroup) : (setWg k n x).nextSlot = k.nextSlot := rfl
@[simp] theorem setWg_floor (k : Core) (n : Nat) (x : Workgroup) : (setWg k n x).floor = k.floor := rfl
@[simp] theorem setWg_ballast (k : Core) (n : Nat) (x : Workgroup) : (setWg k n x).ballast = k.ballast := rfl
@[simp] theorem setWg_interval (k : Core) (n : Nat) (x : Workgroup) : (setWg k n x).interval = k.interval := rfl
@[simp] theorem setWg_ramp (k : Core) (n : Nat) (x : Workgroup) : (setWg k n x).ramp = k.ramp := rfl
@[simp] theorem setWg_lastEval (k : Core) (n : Nat) (x : Workgroup) : (setWg k n x).lastEval = k.lastEval := rfl
@[simp] theorem setWg_vecQuads (k : Core) (n : Nat) (x : Workgroup) : (setWg k n x).vecQuads = k.vecQuads := rfl
@[simp] theorem setWg_overCap (k : Core) (n : Nat) (x : Workgroup) : (setWg k n x).overCap = k.overCap := rfl
@[simp] theorem setWg_issued (k : Core) (n : Nat) (x : Workgroup) : (setWg k n x).issued = k.issued := rfl
@[simp] theorem setWg_catchBpt (k : Core) (n : Nat) (x : Workgroup) : (setWg k n x).catchBpt = k.catchBpt := rfl
@[simp] theorem setWg_dbgcmd (k : Core) (n : Nat) (x : Workgroup) : (setWg k n x).dbgcmd = k.dbgcmd := rfl

@[simp] theorem setFut_waves (k : Core) (n : Nat) (x : Future) : (setFut k n x).waves = k.waves := rfl
@[simp] theorem setFut_wgs (k : Core) (n : Nat) (x : Future) : (setFut k n x).wgs = k.wgs := rfl
@[simp] theorem setFut_ctxs (k : Core) (n : Nat) (x : Future) : (setFut k n x).ctxs = k.ctxs := rfl
@[simp] theorem setFut_sram (k : Core) (n : Nat) (x : Future) : (setFut k n x).sram = k.sram := rfl
@[simp] theorem setFut_sramErr (k : Core) (n : Nat) (x : Future) : (setFut k n x).sramErr = k.sramErr := rfl
@[simp] theorem setFut_l1 (k : Core) (n : Nat) (x : Future) : (setFut k n x).l1 = k.l1 := rfl
@[simp] theorem setFut_constCache (k : Core) (n : Nat) (x : Future) : (setFut k n x).constCache = k.constCache := rfl
@[simp] theorem setFut_records (k : Core) (n : Nat) (x : Future) : (setFut k n x).records = k.records := rfl
@[simp] theorem setFut_hints (k : Core) (n : Nat) (x : Future) : (setFut k n x).hints = k.hints := rfl
@[simp] theorem setFut_outbound (k : Core) (n : Nat) (x : Future) : (setFut k n x).outbound = k.outbound := rfl
@[simp] theorem setFut_nextOut (k : Core) (n : Nat) (x : Future) : (setFut k n x).nextOut = k.nextOut := rfl
@[simp] theorem setFut_nextLoad (k : Core) (n : Nat) (x : Future) : (setFut k n x).nextLoad = k.nextLoad := rfl
@[simp] theorem setFut_futOrder (k : Core) (n : Nat) (x : Future) : (setFut k n x).futOrder = k.futOrder := rfl
@[simp] theorem setFut_locks (k : Core) (n : Nat) (x : Future) : (setFut k n x).locks = k.locks := rfl
@[simp] theorem setFut_jobs (k : Core) (n : Nat) (x : Future) : (setFut k n x).jobs = k.jobs := rfl
@[simp] theorem setFut_banks (k : Core) (n : Nat) (x : Future) : (setFut k n x).banks = k.banks := rfl
@[simp] theorem setFut_tiles (k : Core) (n : Nat) (x : Future) : (setFut k n x).tiles = k.tiles := rfl
@[simp] theorem setFut_array (k : Core) (n : Nat) (x : Future) : (setFut k n x).array = k.array := rfl
@[simp] theorem setFut_nextArray (k : Core) (n : Nat) (x : Future) : (setFut k n x).nextArray = k.nextArray := rfl
@[simp] theorem setFut_rows (k : Core) (n : Nat) (x : Future) : (setFut k n x).rows = k.rows := rfl
@[simp] theorem setFut_nextSlot (k : Core) (n : Nat) (x : Future) : (setFut k n x).nextSlot = k.nextSlot := rfl
@[simp] theorem setFut_floor (k : Core) (n : Nat) (x : Future) : (setFut k n x).floor = k.floor := rfl
@[simp] theorem setFut_ballast (k : Core) (n : Nat) (x : Future) : (setFut k n x).ballast = k.ballast := rfl
@[simp] theorem setFut_interval (k : Core) (n : Nat) (x : Future) : (setFut k n x).interval = k.interval := rfl
@[simp] theorem setFut_ramp (k : Core) (n : Nat) (x : Future) : (setFut k n x).ramp = k.ramp := rfl
@[simp] theorem setFut_lastEval (k : Core) (n : Nat) (x : Future) : (setFut k n x).lastEval = k.lastEval := rfl
@[simp] theorem setFut_vecQuads (k : Core) (n : Nat) (x : Future) : (setFut k n x).vecQuads = k.vecQuads := rfl
@[simp] theorem setFut_overCap (k : Core) (n : Nat) (x : Future) : (setFut k n x).overCap = k.overCap := rfl
@[simp] theorem setFut_issued (k : Core) (n : Nat) (x : Future) : (setFut k n x).issued = k.issued := rfl
@[simp] theorem setFut_catchBpt (k : Core) (n : Nat) (x : Future) : (setFut k n x).catchBpt = k.catchBpt := rfl
@[simp] theorem setFut_dbgcmd (k : Core) (n : Nat) (x : Future) : (setFut k n x).dbgcmd = k.dbgcmd := rfl

@[simp] theorem setTile_waves (k : Core) (n : Nat) (x : Tile) : (setTile k n x).waves = k.waves := rfl
@[simp] theorem setTile_wgs (k : Core) (n : Nat) (x : Tile) : (setTile k n x).wgs = k.wgs := rfl
@[simp] theorem setTile_ctxs (k : Core) (n : Nat) (x : Tile) : (setTile k n x).ctxs = k.ctxs := rfl
@[simp] theorem setTile_sram (k : Core) (n : Nat) (x : Tile) : (setTile k n x).sram = k.sram := rfl
@[simp] theorem setTile_sramErr (k : Core) (n : Nat) (x : Tile) : (setTile k n x).sramErr = k.sramErr := rfl
@[simp] theorem setTile_l1 (k : Core) (n : Nat) (x : Tile) : (setTile k n x).l1 = k.l1 := rfl
@[simp] theorem setTile_constCache (k : Core) (n : Nat) (x : Tile) : (setTile k n x).constCache = k.constCache := rfl
@[simp] theorem setTile_records (k : Core) (n : Nat) (x : Tile) : (setTile k n x).records = k.records := rfl
@[simp] theorem setTile_hints (k : Core) (n : Nat) (x : Tile) : (setTile k n x).hints = k.hints := rfl
@[simp] theorem setTile_outbound (k : Core) (n : Nat) (x : Tile) : (setTile k n x).outbound = k.outbound := rfl
@[simp] theorem setTile_nextOut (k : Core) (n : Nat) (x : Tile) : (setTile k n x).nextOut = k.nextOut := rfl
@[simp] theorem setTile_nextLoad (k : Core) (n : Nat) (x : Tile) : (setTile k n x).nextLoad = k.nextLoad := rfl
@[simp] theorem setTile_futs (k : Core) (n : Nat) (x : Tile) : (setTile k n x).futs = k.futs := rfl
@[simp] theorem setTile_futOrder (k : Core) (n : Nat) (x : Tile) : (setTile k n x).futOrder = k.futOrder := rfl
@[simp] theorem setTile_locks (k : Core) (n : Nat) (x : Tile) : (setTile k n x).locks = k.locks := rfl
@[simp] theorem setTile_jobs (k : Core) (n : Nat) (x : Tile) : (setTile k n x).jobs = k.jobs := rfl
@[simp] theorem setTile_banks (k : Core) (n : Nat) (x : Tile) : (setTile k n x).banks = k.banks := rfl
@[simp] theorem setTile_array (k : Core) (n : Nat) (x : Tile) : (setTile k n x).array = k.array := rfl
@[simp] theorem setTile_nextArray (k : Core) (n : Nat) (x : Tile) : (setTile k n x).nextArray = k.nextArray := rfl
@[simp] theorem setTile_rows (k : Core) (n : Nat) (x : Tile) : (setTile k n x).rows = k.rows := rfl
@[simp] theorem setTile_nextSlot (k : Core) (n : Nat) (x : Tile) : (setTile k n x).nextSlot = k.nextSlot := rfl
@[simp] theorem setTile_floor (k : Core) (n : Nat) (x : Tile) : (setTile k n x).floor = k.floor := rfl
@[simp] theorem setTile_ballast (k : Core) (n : Nat) (x : Tile) : (setTile k n x).ballast = k.ballast := rfl
@[simp] theorem setTile_interval (k : Core) (n : Nat) (x : Tile) : (setTile k n x).interval = k.interval := rfl
@[simp] theorem setTile_ramp (k : Core) (n : Nat) (x : Tile) : (setTile k n x).ramp = k.ramp := rfl
@[simp] theorem setTile_lastEval (k : Core) (n : Nat) (x : Tile) : (setTile k n x).lastEval = k.lastEval := rfl
@[simp] theorem setTile_vecQuads (k : Core) (n : Nat) (x : Tile) : (setTile k n x).vecQuads = k.vecQuads := rfl
@[simp] theorem setTile_overCap (k : Core) (n : Nat) (x : Tile) : (setTile k n x).overCap = k.overCap := rfl
@[simp] theorem setTile_issued (k : Core) (n : Nat) (x : Tile) : (setTile k n x).issued = k.issued := rfl
@[simp] theorem setTile_catchBpt (k : Core) (n : Nat) (x : Tile) : (setTile k n x).catchBpt = k.catchBpt := rfl
@[simp] theorem setTile_dbgcmd (k : Core) (n : Nat) (x : Tile) : (setTile k n x).dbgcmd = k.dbgcmd := rfl

@[simp] theorem setBank_waves (k : Core) (n : Nat) (x : Bank) : (setBank k n x).waves = k.waves := rfl
@[simp] theorem setBank_wgs (k : Core) (n : Nat) (x : Bank) : (setBank k n x).wgs = k.wgs := rfl
@[simp] theorem setBank_ctxs (k : Core) (n : Nat) (x : Bank) : (setBank k n x).ctxs = k.ctxs := rfl
@[simp] theorem setBank_sram (k : Core) (n : Nat) (x : Bank) : (setBank k n x).sram = k.sram := rfl
@[simp] theorem setBank_sramErr (k : Core) (n : Nat) (x : Bank) : (setBank k n x).sramErr = k.sramErr := rfl
@[simp] theorem setBank_l1 (k : Core) (n : Nat) (x : Bank) : (setBank k n x).l1 = k.l1 := rfl
@[simp] theorem setBank_constCache (k : Core) (n : Nat) (x : Bank) : (setBank k n x).constCache = k.constCache := rfl
@[simp] theorem setBank_records (k : Core) (n : Nat) (x : Bank) : (setBank k n x).records = k.records := rfl
@[simp] theorem setBank_hints (k : Core) (n : Nat) (x : Bank) : (setBank k n x).hints = k.hints := rfl
@[simp] theorem setBank_outbound (k : Core) (n : Nat) (x : Bank) : (setBank k n x).outbound = k.outbound := rfl
@[simp] theorem setBank_nextOut (k : Core) (n : Nat) (x : Bank) : (setBank k n x).nextOut = k.nextOut := rfl
@[simp] theorem setBank_nextLoad (k : Core) (n : Nat) (x : Bank) : (setBank k n x).nextLoad = k.nextLoad := rfl
@[simp] theorem setBank_futs (k : Core) (n : Nat) (x : Bank) : (setBank k n x).futs = k.futs := rfl
@[simp] theorem setBank_futOrder (k : Core) (n : Nat) (x : Bank) : (setBank k n x).futOrder = k.futOrder := rfl
@[simp] theorem setBank_locks (k : Core) (n : Nat) (x : Bank) : (setBank k n x).locks = k.locks := rfl
@[simp] theorem setBank_jobs (k : Core) (n : Nat) (x : Bank) : (setBank k n x).jobs = k.jobs := rfl
@[simp] theorem setBank_tiles (k : Core) (n : Nat) (x : Bank) : (setBank k n x).tiles = k.tiles := rfl
@[simp] theorem setBank_array (k : Core) (n : Nat) (x : Bank) : (setBank k n x).array = k.array := rfl
@[simp] theorem setBank_nextArray (k : Core) (n : Nat) (x : Bank) : (setBank k n x).nextArray = k.nextArray := rfl
@[simp] theorem setBank_rows (k : Core) (n : Nat) (x : Bank) : (setBank k n x).rows = k.rows := rfl
@[simp] theorem setBank_nextSlot (k : Core) (n : Nat) (x : Bank) : (setBank k n x).nextSlot = k.nextSlot := rfl
@[simp] theorem setBank_floor (k : Core) (n : Nat) (x : Bank) : (setBank k n x).floor = k.floor := rfl
@[simp] theorem setBank_ballast (k : Core) (n : Nat) (x : Bank) : (setBank k n x).ballast = k.ballast := rfl
@[simp] theorem setBank_interval (k : Core) (n : Nat) (x : Bank) : (setBank k n x).interval = k.interval := rfl
@[simp] theorem setBank_ramp (k : Core) (n : Nat) (x : Bank) : (setBank k n x).ramp = k.ramp := rfl
@[simp] theorem setBank_lastEval (k : Core) (n : Nat) (x : Bank) : (setBank k n x).lastEval = k.lastEval := rfl
@[simp] theorem setBank_vecQuads (k : Core) (n : Nat) (x : Bank) : (setBank k n x).vecQuads = k.vecQuads := rfl
@[simp] theorem setBank_overCap (k : Core) (n : Nat) (x : Bank) : (setBank k n x).overCap = k.overCap := rfl
@[simp] theorem setBank_issued (k : Core) (n : Nat) (x : Bank) : (setBank k n x).issued = k.issued := rfl
@[simp] theorem setBank_catchBpt (k : Core) (n : Nat) (x : Bank) : (setBank k n x).catchBpt = k.catchBpt := rfl
@[simp] theorem setBank_dbgcmd (k : Core) (n : Nat) (x : Bank) : (setBank k n x).dbgcmd = k.dbgcmd := rfl

@[simp] theorem l1DropRange_waves (k : Core) (asn lo n : Nat) : (l1DropRange k asn lo n).waves = k.waves := rfl
@[simp] theorem l1DropRange_wgs (k : Core) (asn lo n : Nat) : (l1DropRange k asn lo n).wgs = k.wgs := rfl
@[simp] theorem l1DropRange_ctxs (k : Core) (asn lo n : Nat) : (l1DropRange k asn lo n).ctxs = k.ctxs := rfl
@[simp] theorem l1DropRange_sram (k : Core) (asn lo n : Nat) : (l1DropRange k asn lo n).sram = k.sram := rfl
@[simp] theorem l1DropRange_sramErr (k : Core) (asn lo n : Nat) : (l1DropRange k asn lo n).sramErr = k.sramErr := rfl
@[simp] theorem l1DropRange_constCache (k : Core) (asn lo n : Nat) : (l1DropRange k asn lo n).constCache = k.constCache := rfl
@[simp] theorem l1DropRange_records (k : Core) (asn lo n : Nat) : (l1DropRange k asn lo n).records = k.records := rfl
@[simp] theorem l1DropRange_hints (k : Core) (asn lo n : Nat) : (l1DropRange k asn lo n).hints = k.hints := rfl
@[simp] theorem l1DropRange_outbound (k : Core) (asn lo n : Nat) : (l1DropRange k asn lo n).outbound = k.outbound := rfl
@[simp] theorem l1DropRange_nextOut (k : Core) (asn lo n : Nat) : (l1DropRange k asn lo n).nextOut = k.nextOut := rfl
@[simp] theorem l1DropRange_nextLoad (k : Core) (asn lo n : Nat) : (l1DropRange k asn lo n).nextLoad = k.nextLoad := rfl
@[simp] theorem l1DropRange_futs (k : Core) (asn lo n : Nat) : (l1DropRange k asn lo n).futs = k.futs := rfl
@[simp] theorem l1DropRange_futOrder (k : Core) (asn lo n : Nat) : (l1DropRange k asn lo n).futOrder = k.futOrder := rfl
@[simp] theorem l1DropRange_locks (k : Core) (asn lo n : Nat) : (l1DropRange k asn lo n).locks = k.locks := rfl
@[simp] theorem l1DropRange_jobs (k : Core) (asn lo n : Nat) : (l1DropRange k asn lo n).jobs = k.jobs := rfl
@[simp] theorem l1DropRange_banks (k : Core) (asn lo n : Nat) : (l1DropRange k asn lo n).banks = k.banks := rfl
@[simp] theorem l1DropRange_tiles (k : Core) (asn lo n : Nat) : (l1DropRange k asn lo n).tiles = k.tiles := rfl
@[simp] theorem l1DropRange_array (k : Core) (asn lo n : Nat) : (l1DropRange k asn lo n).array = k.array := rfl
@[simp] theorem l1DropRange_nextArray (k : Core) (asn lo n : Nat) : (l1DropRange k asn lo n).nextArray = k.nextArray := rfl
@[simp] theorem l1DropRange_rows (k : Core) (asn lo n : Nat) : (l1DropRange k asn lo n).rows = k.rows := rfl
@[simp] theorem l1DropRange_nextSlot (k : Core) (asn lo n : Nat) : (l1DropRange k asn lo n).nextSlot = k.nextSlot := rfl
@[simp] theorem l1DropRange_floor (k : Core) (asn lo n : Nat) : (l1DropRange k asn lo n).floor = k.floor := rfl
@[simp] theorem l1DropRange_ballast (k : Core) (asn lo n : Nat) : (l1DropRange k asn lo n).ballast = k.ballast := rfl
@[simp] theorem l1DropRange_interval (k : Core) (asn lo n : Nat) : (l1DropRange k asn lo n).interval = k.interval := rfl
@[simp] theorem l1DropRange_ramp (k : Core) (asn lo n : Nat) : (l1DropRange k asn lo n).ramp = k.ramp := rfl
@[simp] theorem l1DropRange_lastEval (k : Core) (asn lo n : Nat) : (l1DropRange k asn lo n).lastEval = k.lastEval := rfl
@[simp] theorem l1DropRange_vecQuads (k : Core) (asn lo n : Nat) : (l1DropRange k asn lo n).vecQuads = k.vecQuads := rfl
@[simp] theorem l1DropRange_overCap (k : Core) (asn lo n : Nat) : (l1DropRange k asn lo n).overCap = k.overCap := rfl
@[simp] theorem l1DropRange_issued (k : Core) (asn lo n : Nat) : (l1DropRange k asn lo n).issued = k.issued := rfl
@[simp] theorem l1DropRange_catchBpt (k : Core) (asn lo n : Nat) : (l1DropRange k asn lo n).catchBpt = k.catchBpt := rfl
@[simp] theorem l1DropRange_dbgcmd (k : Core) (asn lo n : Nat) : (l1DropRange k asn lo n).dbgcmd = k.dbgcmd := rfl


/-! Updates of the issuing part. -/

@[simp] theorem part_s (c : Cx) (h : Part → Part) : (c.part h).s = c.s := rfl
@[simp] theorem part_core (c : Cx) (h : Part → Part) : (c.part h).core = c.core := rfl
@[simp] theorem part_slot (c : Cx) (h : Part → Part) : (c.part h).slot = c.slot := rfl
@[simp] theorem part_idx (c : Cx) (h : Part → Part) : (c.part h).idx = c.idx := rfl
@[simp] theorem part_k (c : Cx) (h : Part → Part) : (c.part h).k = c.k := rfl
@[simp] theorem part_w (c : Cx) (h : Part → Part) : (c.part h).w = c.w := rfl
@[simp] theorem part_g (c : Cx) (h : Part → Part) : (c.part h).g = c.g := rfl
@[simp] theorem part_p (c : Cx) (h : Part → Part) : (c.part h).p = h c.p := rfl
@[simp] theorem writeS_s (c : Cx) (n : Nat) (v : Word) : (c.writeS n v).s = c.s := rfl
@[simp] theorem writeS_core (c : Cx) (n : Nat) (v : Word) : (c.writeS n v).core = c.core := rfl
@[simp] theorem writeS_slot (c : Cx) (n : Nat) (v : Word) : (c.writeS n v).slot = c.slot := rfl
@[simp] theorem writeS_idx (c : Cx) (n : Nat) (v : Word) : (c.writeS n v).idx = c.idx := rfl
@[simp] theorem writeS_k (c : Cx) (n : Nat) (v : Word) : (c.writeS n v).k = c.k := rfl
@[simp] theorem writeS_w (c : Cx) (n : Nat) (v : Word) : (c.writeS n v).w = c.w := rfl
@[simp] theorem writeS_g (c : Cx) (n : Nat) (v : Word) : (c.writeS n v).g = c.g := rfl
@[simp] theorem writeS_p_lanes (c : Cx) (n : Nat) (v : Word) : (c.writeS n v).p.lanes = c.p.lanes := rfl
@[simp] theorem writeS_p_pc (c : Cx) (n : Nat) (v : Word) : (c.writeS n v).p.pc = c.p.pc := rfl
@[simp] theorem writeS_p_run (c : Cx) (n : Nat) (v : Word) : (c.writeS n v).p.run = c.p.run := rfl
@[simp] theorem writeS_p_exec (c : Cx) (n : Nat) (v : Word) : (c.writeS n v).p.exec = c.p.exec := rfl
@[simp] theorem writeS_p_paths (c : Cx) (n : Nat) (v : Word) : (c.writeS n v).p.paths = c.p.paths := rfl
@[simp] theorem writeS_p_m (c : Cx) (n : Nat) (v : Word) : (c.writeS n v).p.m = c.p.m := rfl
@[simp] theorem writeS_p_h (c : Cx) (n : Nat) (v : Word) : (c.writeS n v).p.h = c.p.h := rfl
@[simp] theorem writeS_p_pstat (c : Cx) (n : Nat) (v : Word) : (c.writeS n v).p.pstat = c.p.pstat := rfl
@[simp] theorem writeS_p_nextIssue (c : Cx) (n : Nat) (v : Word) : (c.writeS n v).p.nextIssue = c.p.nextIssue := rfl
@[simp] theorem writeS_p_readyFor (c : Cx) (n : Nat) (v : Word) : (c.writeS n v).p.readyFor = c.p.readyFor := rfl
@[simp] theorem writeS_p_starved (c : Cx) (n : Nat) (v : Word) : (c.writeS n v).p.starved = c.p.starved := rfl
@[simp] theorem writeS_p_window (c : Cx) (n : Nat) (v : Word) : (c.writeS n v).p.window = c.p.window := rfl
@[simp] theorem writeS_p_wait (c : Cx) (n : Nat) (v : Word) : (c.writeS n v).p.wait = c.p.wait := rfl
@[simp] theorem writeS_p_raised (c : Cx) (n : Nat) (v : Word) : (c.writeS n v).p.raised = c.p.raised := rfl
@[simp] theorem writeS_p_marked (c : Cx) (n : Nat) (v : Word) : (c.writeS n v).p.marked = c.p.marked := rfl
@[simp] theorem writeS_p_buffer (c : Cx) (n : Nat) (v : Word) : (c.writeS n v).p.buffer = c.p.buffer := rfl
@[simp] theorem writeS_p_frozen (c : Cx) (n : Nat) (v : Word) : (c.writeS n v).p.frozen = c.p.frozen := rfl
@[simp] theorem writeS_p_handler (c : Cx) (n : Nat) (v : Word) : (c.writeS n v).p.handler = c.p.handler := rfl
@[simp] theorem writeS_p_cause (c : Cx) (n : Nat) (v : Word) : (c.writeS n v).p.cause = c.p.cause := rfl
@[simp] theorem writeS_p_stepping (c : Cx) (n : Nat) (v : Word) : (c.writeS n v).p.stepping = c.p.stepping := rfl
@[simp] theorem writeS_p_holds (c : Cx) (n : Nat) (v : Word) : (c.writeS n v).p.holds = c.p.holds := rfl
@[simp] theorem writeS_p_relScope (c : Cx) (n : Nat) (v : Word) : (c.writeS n v).p.relScope = c.p.relScope := rfl
@[simp] theorem writeS_p_stallFor (c : Cx) (n : Nat) (v : Word) : (c.writeS n v).p.stallFor = c.p.stallFor := rfl
@[simp] theorem writeS_p_flushed (c : Cx) (n : Nat) (v : Word) : (c.writeS n v).p.flushed = c.p.flushed := rfl
@[simp] theorem writeM_s (c : Cx) (n : Nat) (v : Dword) : (c.writeM n v).s = c.s := rfl
@[simp] theorem writeM_core (c : Cx) (n : Nat) (v : Dword) : (c.writeM n v).core = c.core := rfl
@[simp] theorem writeM_slot (c : Cx) (n : Nat) (v : Dword) : (c.writeM n v).slot = c.slot := rfl
@[simp] theorem writeM_idx (c : Cx) (n : Nat) (v : Dword) : (c.writeM n v).idx = c.idx := rfl
@[simp] theorem writeM_k (c : Cx) (n : Nat) (v : Dword) : (c.writeM n v).k = c.k := rfl
@[simp] theorem writeM_w (c : Cx) (n : Nat) (v : Dword) : (c.writeM n v).w = c.w := rfl
@[simp] theorem writeM_g (c : Cx) (n : Nat) (v : Dword) : (c.writeM n v).g = c.g := rfl
@[simp] theorem writeM_p_lanes (c : Cx) (n : Nat) (v : Dword) : (c.writeM n v).p.lanes = c.p.lanes := rfl
@[simp] theorem writeM_p_pc (c : Cx) (n : Nat) (v : Dword) : (c.writeM n v).p.pc = c.p.pc := rfl
@[simp] theorem writeM_p_run (c : Cx) (n : Nat) (v : Dword) : (c.writeM n v).p.run = c.p.run := rfl
@[simp] theorem writeM_p_exec (c : Cx) (n : Nat) (v : Dword) : (c.writeM n v).p.exec = c.p.exec := rfl
@[simp] theorem writeM_p_paths (c : Cx) (n : Nat) (v : Dword) : (c.writeM n v).p.paths = c.p.paths := rfl
@[simp] theorem writeM_p_s (c : Cx) (n : Nat) (v : Dword) : (c.writeM n v).p.s = c.p.s := rfl
@[simp] theorem writeM_p_h (c : Cx) (n : Nat) (v : Dword) : (c.writeM n v).p.h = c.p.h := rfl
@[simp] theorem writeM_p_pstat (c : Cx) (n : Nat) (v : Dword) : (c.writeM n v).p.pstat = c.p.pstat := rfl
@[simp] theorem writeM_p_nextIssue (c : Cx) (n : Nat) (v : Dword) : (c.writeM n v).p.nextIssue = c.p.nextIssue := rfl
@[simp] theorem writeM_p_readyFor (c : Cx) (n : Nat) (v : Dword) : (c.writeM n v).p.readyFor = c.p.readyFor := rfl
@[simp] theorem writeM_p_starved (c : Cx) (n : Nat) (v : Dword) : (c.writeM n v).p.starved = c.p.starved := rfl
@[simp] theorem writeM_p_window (c : Cx) (n : Nat) (v : Dword) : (c.writeM n v).p.window = c.p.window := rfl
@[simp] theorem writeM_p_wait (c : Cx) (n : Nat) (v : Dword) : (c.writeM n v).p.wait = c.p.wait := rfl
@[simp] theorem writeM_p_raised (c : Cx) (n : Nat) (v : Dword) : (c.writeM n v).p.raised = c.p.raised := rfl
@[simp] theorem writeM_p_marked (c : Cx) (n : Nat) (v : Dword) : (c.writeM n v).p.marked = c.p.marked := rfl
@[simp] theorem writeM_p_buffer (c : Cx) (n : Nat) (v : Dword) : (c.writeM n v).p.buffer = c.p.buffer := rfl
@[simp] theorem writeM_p_frozen (c : Cx) (n : Nat) (v : Dword) : (c.writeM n v).p.frozen = c.p.frozen := rfl
@[simp] theorem writeM_p_handler (c : Cx) (n : Nat) (v : Dword) : (c.writeM n v).p.handler = c.p.handler := rfl
@[simp] theorem writeM_p_cause (c : Cx) (n : Nat) (v : Dword) : (c.writeM n v).p.cause = c.p.cause := rfl
@[simp] theorem writeM_p_stepping (c : Cx) (n : Nat) (v : Dword) : (c.writeM n v).p.stepping = c.p.stepping := rfl
@[simp] theorem writeM_p_holds (c : Cx) (n : Nat) (v : Dword) : (c.writeM n v).p.holds = c.p.holds := rfl
@[simp] theorem writeM_p_relScope (c : Cx) (n : Nat) (v : Dword) : (c.writeM n v).p.relScope = c.p.relScope := rfl
@[simp] theorem writeM_p_stallFor (c : Cx) (n : Nat) (v : Dword) : (c.writeM n v).p.stallFor = c.p.stallFor := rfl
@[simp] theorem writeM_p_flushed (c : Cx) (n : Nat) (v : Dword) : (c.writeM n v).p.flushed = c.p.flushed := rfl
@[simp] theorem writeH_s (c : Cx) (n : Nat) (v : Word) : (c.writeH n v).s = c.s := rfl
@[simp] theorem writeH_core (c : Cx) (n : Nat) (v : Word) : (c.writeH n v).core = c.core := rfl
@[simp] theorem writeH_slot (c : Cx) (n : Nat) (v : Word) : (c.writeH n v).slot = c.slot := rfl
@[simp] theorem writeH_idx (c : Cx) (n : Nat) (v : Word) : (c.writeH n v).idx = c.idx := rfl
@[simp] theorem writeH_k (c : Cx) (n : Nat) (v : Word) : (c.writeH n v).k = c.k := rfl
@[simp] theorem writeH_w (c : Cx) (n : Nat) (v : Word) : (c.writeH n v).w = c.w := rfl
@[simp] theorem writeH_g (c : Cx) (n : Nat) (v : Word) : (c.writeH n v).g = c.g := rfl
@[simp] theorem writeH_p_lanes (c : Cx) (n : Nat) (v : Word) : (c.writeH n v).p.lanes = c.p.lanes := rfl
@[simp] theorem writeH_p_pc (c : Cx) (n : Nat) (v : Word) : (c.writeH n v).p.pc = c.p.pc := rfl
@[simp] theorem writeH_p_run (c : Cx) (n : Nat) (v : Word) : (c.writeH n v).p.run = c.p.run := rfl
@[simp] theorem writeH_p_exec (c : Cx) (n : Nat) (v : Word) : (c.writeH n v).p.exec = c.p.exec := rfl
@[simp] theorem writeH_p_paths (c : Cx) (n : Nat) (v : Word) : (c.writeH n v).p.paths = c.p.paths := rfl
@[simp] theorem writeH_p_s (c : Cx) (n : Nat) (v : Word) : (c.writeH n v).p.s = c.p.s := rfl
@[simp] theorem writeH_p_m (c : Cx) (n : Nat) (v : Word) : (c.writeH n v).p.m = c.p.m := rfl
@[simp] theorem writeH_p_pstat (c : Cx) (n : Nat) (v : Word) : (c.writeH n v).p.pstat = c.p.pstat := rfl
@[simp] theorem writeH_p_nextIssue (c : Cx) (n : Nat) (v : Word) : (c.writeH n v).p.nextIssue = c.p.nextIssue := rfl
@[simp] theorem writeH_p_readyFor (c : Cx) (n : Nat) (v : Word) : (c.writeH n v).p.readyFor = c.p.readyFor := rfl
@[simp] theorem writeH_p_starved (c : Cx) (n : Nat) (v : Word) : (c.writeH n v).p.starved = c.p.starved := rfl
@[simp] theorem writeH_p_window (c : Cx) (n : Nat) (v : Word) : (c.writeH n v).p.window = c.p.window := rfl
@[simp] theorem writeH_p_wait (c : Cx) (n : Nat) (v : Word) : (c.writeH n v).p.wait = c.p.wait := rfl
@[simp] theorem writeH_p_raised (c : Cx) (n : Nat) (v : Word) : (c.writeH n v).p.raised = c.p.raised := rfl
@[simp] theorem writeH_p_marked (c : Cx) (n : Nat) (v : Word) : (c.writeH n v).p.marked = c.p.marked := rfl
@[simp] theorem writeH_p_buffer (c : Cx) (n : Nat) (v : Word) : (c.writeH n v).p.buffer = c.p.buffer := rfl
@[simp] theorem writeH_p_frozen (c : Cx) (n : Nat) (v : Word) : (c.writeH n v).p.frozen = c.p.frozen := rfl
@[simp] theorem writeH_p_handler (c : Cx) (n : Nat) (v : Word) : (c.writeH n v).p.handler = c.p.handler := rfl
@[simp] theorem writeH_p_cause (c : Cx) (n : Nat) (v : Word) : (c.writeH n v).p.cause = c.p.cause := rfl
@[simp] theorem writeH_p_stepping (c : Cx) (n : Nat) (v : Word) : (c.writeH n v).p.stepping = c.p.stepping := rfl
@[simp] theorem writeH_p_holds (c : Cx) (n : Nat) (v : Word) : (c.writeH n v).p.holds = c.p.holds := rfl
@[simp] theorem writeH_p_relScope (c : Cx) (n : Nat) (v : Word) : (c.writeH n v).p.relScope = c.p.relScope := rfl
@[simp] theorem writeH_p_stallFor (c : Cx) (n : Nat) (v : Word) : (c.writeH n v).p.stallFor = c.p.stallFor := rfl
@[simp] theorem writeH_p_flushed (c : Cx) (n : Nat) (v : Word) : (c.writeH n v).p.flushed = c.p.flushed := rfl
@[simp] theorem setExec_s (c : Cx) (v : Lanes) : (c.setExec v).s = c.s := rfl
@[simp] theorem setExec_core (c : Cx) (v : Lanes) : (c.setExec v).core = c.core := rfl
@[simp] theorem setExec_slot (c : Cx) (v : Lanes) : (c.setExec v).slot = c.slot := rfl
@[simp] theorem setExec_idx (c : Cx) (v : Lanes) : (c.setExec v).idx = c.idx := rfl
@[simp] theorem setExec_k (c : Cx) (v : Lanes) : (c.setExec v).k = c.k := rfl
@[simp] theorem setExec_w (c : Cx) (v : Lanes) : (c.setExec v).w = c.w := rfl
@[simp] theorem setExec_g (c : Cx) (v : Lanes) : (c.setExec v).g = c.g := rfl
@[simp] theorem setExec_p_lanes (c : Cx) (v : Lanes) : (c.setExec v).p.lanes = c.p.lanes := rfl
@[simp] theorem setExec_p_pc (c : Cx) (v : Lanes) : (c.setExec v).p.pc = c.p.pc := rfl
@[simp] theorem setExec_p_run (c : Cx) (v : Lanes) : (c.setExec v).p.run = c.p.run := rfl
@[simp] theorem setExec_p_paths (c : Cx) (v : Lanes) : (c.setExec v).p.paths = c.p.paths := rfl
@[simp] theorem setExec_p_s (c : Cx) (v : Lanes) : (c.setExec v).p.s = c.p.s := rfl
@[simp] theorem setExec_p_m (c : Cx) (v : Lanes) : (c.setExec v).p.m = c.p.m := rfl
@[simp] theorem setExec_p_h (c : Cx) (v : Lanes) : (c.setExec v).p.h = c.p.h := rfl
@[simp] theorem setExec_p_pstat (c : Cx) (v : Lanes) : (c.setExec v).p.pstat = c.p.pstat := rfl
@[simp] theorem setExec_p_nextIssue (c : Cx) (v : Lanes) : (c.setExec v).p.nextIssue = c.p.nextIssue := rfl
@[simp] theorem setExec_p_readyFor (c : Cx) (v : Lanes) : (c.setExec v).p.readyFor = c.p.readyFor := rfl
@[simp] theorem setExec_p_starved (c : Cx) (v : Lanes) : (c.setExec v).p.starved = c.p.starved := rfl
@[simp] theorem setExec_p_window (c : Cx) (v : Lanes) : (c.setExec v).p.window = c.p.window := rfl
@[simp] theorem setExec_p_wait (c : Cx) (v : Lanes) : (c.setExec v).p.wait = c.p.wait := rfl
@[simp] theorem setExec_p_raised (c : Cx) (v : Lanes) : (c.setExec v).p.raised = c.p.raised := rfl
@[simp] theorem setExec_p_marked (c : Cx) (v : Lanes) : (c.setExec v).p.marked = c.p.marked := rfl
@[simp] theorem setExec_p_buffer (c : Cx) (v : Lanes) : (c.setExec v).p.buffer = c.p.buffer := rfl
@[simp] theorem setExec_p_frozen (c : Cx) (v : Lanes) : (c.setExec v).p.frozen = c.p.frozen := rfl
@[simp] theorem setExec_p_handler (c : Cx) (v : Lanes) : (c.setExec v).p.handler = c.p.handler := rfl
@[simp] theorem setExec_p_cause (c : Cx) (v : Lanes) : (c.setExec v).p.cause = c.p.cause := rfl
@[simp] theorem setExec_p_stepping (c : Cx) (v : Lanes) : (c.setExec v).p.stepping = c.p.stepping := rfl
@[simp] theorem setExec_p_holds (c : Cx) (v : Lanes) : (c.setExec v).p.holds = c.p.holds := rfl
@[simp] theorem setExec_p_relScope (c : Cx) (v : Lanes) : (c.setExec v).p.relScope = c.p.relScope := rfl
@[simp] theorem setExec_p_stallFor (c : Cx) (v : Lanes) : (c.setExec v).p.stallFor = c.p.stallFor := rfl
@[simp] theorem setExec_p_flushed (c : Cx) (v : Lanes) : (c.setExec v).p.flushed = c.p.flushed := rfl

/-! Reading after an update of another table. -/

@[simp] theorem getCore_setCluster (s : State) (n : Nat) (x : Cluster) (c : Nat) : getCore (setCluster s n x) c = getCore s c := rfl
@[simp] theorem getCore_setHost (s : State) (n : Nat) (x : HostCtx) (c : Nat) : getCore (setHost s n x) c = getCore s c := rfl
@[simp] theorem getCore_setZone (s : State) (n : Nat) (x : Zone) (c : Nat) : getCore (setZone s n x) c = getCore s c := rfl
@[simp] theorem getCore_setCapstan (s : State) (n : Nat) (x : Capstan) (c : Nat) : getCore (setCapstan s n x) c = getCore s c := rfl
@[simp] theorem getCluster_setCore (s : State) (n : Nat) (x : Core) (c : Nat) : getCluster (setCore s n x) c = getCluster s c := rfl
@[simp] theorem coreCyc_setCore (s : State) (n : Nat) (x : Core) (c : Nat) : coreCyc (setCore s n x) c = coreCyc s c := rfl

end Sys2Proof.Machine
end

