-- ==== Sys2Proof/Laws/Memory.lean ====
section
/-! SUPPORT. Device memory: every operation that writes it keeps its canonical form, and what a write leaves. -/
namespace Sys2Proof.Machine

/-! What does not write memory. -/

theorem foldl_mem {α : Type} (f : State → α → State) (h : ∀ s a, (f s a).mem = s.mem) (l : List α) (s : State) :
    (l.foldl f s).mem = s.mem := by
  induction l generalizing s with
  | nil => rfl
  | cons a l ih => rw [List.foldl_cons, ih, h]

@[simp] theorem takeHint_mem (s : State) (c asn page : Nat) (w : Bool) (line : Nat) :
    (takeHint s c asn page w line).mem = s.mem := rfl

@[simp] theorem fillLine_mem (s : State) (c asn : Nat) (va : Dword) : (fillLine s c asn va).mem = s.mem := by
  unfold fillLine
  dsimp only
  split
  · split <;> rfl
  · rfl

@[simp] theorem fillConst_mem (s : State) (core asn : Nat) (va : Dword) : (fillConst s core asn va).mem = s.mem := by
  unfold fillConst
  dsimp only
  split
  · split
    · rfl
    · split
      · rfl
      · rw [setCore_mem, takeHint_mem]
  · rfl

@[simp] theorem fillFor_mem (core asn : Nat) (ld : Load) (s : State) (va : Nat) : (fillFor core asn ld s va).mem = s.mem := by
  unfold fillFor
  dsimp only
  split
  · rfl
  · split
    · simp
    · split <;> simp

/-- Performing loads writes no memory. -/
@[simp] theorem performLoad_mem (core slot id : Nat) (sel : LoadLane → Bool) (s : State) :
    (performLoad core slot id sel s).mem = s.mem := by
  unfold performLoad
  dsimp only
  split
  · rfl
  · split
    · split
      · rfl
      · exact foldl_mem _ (fillFor_mem _ _ _) _ _
    · rfl

@[simp] theorem fixLanes_mem (s : State) (core slot : Nat) (sel : Load → LoadLane → Bool) :
    (fixLanes s core slot sel).mem = s.mem := by
  unfold fixLanes
  split
  · rfl
  · exact foldl_mem (fun (s : State) (ld : Load) => performLoad core slot ld.id (sel ld) s) (fun _ _ => performLoad_mem ..) _ _

@[simp] theorem fixLane_mem (s : State) (j : Nat × Nat × Nat × Nat) : (fixLane s j).mem = s.mem := performLoad_mem ..

@[simp] theorem closeEntry_mem (s : State) (e : Combine) : (closeEntry s e).mem = s.mem := by
  unfold closeEntry
  rw [foldl_mem (fun (s : State) (f : Nat × Nat × Dword) => fillLine s f.1 f.2.1 f.2.2) (fun _ _ => fillLine_mem ..),
    foldl_mem fixLane fixLane_mem]

@[simp] theorem closeLine_mem (s : State) (line : Nat) : (closeLine s line).mem = s.mem := foldl_mem closeEntry closeEntry_mem _ s

@[simp] theorem updWave_mem (s : State) (core slot : Nat) (g : Wave → Wave) : (updWave s core slot g).mem = s.mem := by
  cases hw : getWave (getCore s core) slot <;> simp [updWave, hw]

@[simp] theorem commit_mem (c : Cx) : c.commit.mem = c.s.mem := rfl

/-! What writes it. -/

/-- A write at a home slice changes exactly the bytes written. -/
theorem homeWrite_mem (s : State) (key : Nat) (bs : List Byte) : (homeWrite s key bs).mem = writeBytes s.mem key bs := by
  show writeBytes (List.foldl closeLine s _).mem key bs = _
  rw [foldl_mem closeLine closeLine_mem]

theorem homeWrite_memOk {s : State} (h : s.memOk) (key : Nat) (bs : List Byte) : (homeWrite s key bs).memOk := by
  unfold State.memOk Memory.wf at *
  rw [homeWrite_mem]
  exact kwf_writeBytes h key bs

theorem homeWrite_byte_out (s : State) (key j : Nat) (bs : List Byte) (h : j < key ∨ key + bs.length ≤ j) :
    (homeWrite s key bs).byte j = s.byte j := by
  unfold State.byte
  rw [homeWrite_mem, kget_writeBytes_out _ _ _ _ h]

theorem homeWrite_byte_in (s : State) (key i : Nat) (bs : List Byte) (h : i < bs.length) :
    (homeWrite s key bs).byte (key + i) = bs[i] := by
  unfold State.byte
  rw [homeWrite_mem, kget_writeBytes_in _ _ _ _ h]

/-- Folding operations that keep the canonical form keeps it. -/
theorem foldl_memOk {α : Type} (f : State → α → State) (h : ∀ s a, s.memOk → (f s a).memOk) (l : List α) {s : State}
    (hs : s.memOk) : (l.foldl f s).memOk := by
  induction l generalizing s with
  | nil => exact hs
  | cons a l ih => exact ih (h s a hs)

/-- A write through translation keeps the canonical form. -/
theorem vmWrite_memOk {s : State} (h : s.memOk) (asn : Nat) (k : Access) (va : Nat) (bs : List Byte) :
    (vmWrite s asn k va bs).memOk := by
  have key : ∀ (l : List (Nat × Nat)) (acc : State × List Byte), acc.1.memOk →
      (l.foldl (fun (acc : State × List Byte) p =>
        ((match route acc.1 asn k (BitVec.ofNat 64 p.1) with
          | .phys key _ => homeWrite acc.1 key (acc.2.take p.2)
          | _ => acc.1), acc.2.drop p.2)) acc).1.memOk := by
    intro l
    induction l with
    | nil => intro acc ha; exact ha
    | cons p l ih =>
      intro acc ha
      refine ih _ ?_
      show (match route acc.1 asn k (BitVec.ofNat 64 p.1) with
          | .phys key _ => homeWrite acc.1 key (acc.2.take p.2)
          | _ => acc.1).memOk
      split
      · exact homeWrite_memOk ha _ _
      · exact ha
  exact key _ (s, bs) h

/-- Reset memory lists nothing. -/
theorem reset_memOk : State.reset.memOk := rfl

/-- Placing an instruction word keeps the canonical form. -/
theorem withFetchWord_memOk {s : State} (h : s.memOk) (nbits w : Nat) : (s.withFetchWord nbits w).memOk :=
  kwf_writeBytes h fetchByte (toBytes 12 (w % 2 ^ nbits))

/-- A state that differs in other fields has the same memory. -/
theorem memOk_of_mem {s t : State} (h : t.mem = s.mem) (hs : s.memOk) : t.memOk := by
  unfold State.memOk at *
  rwa [h]

end Sys2Proof.Machine
end

