-- ==== Sys2Proof/Laws/Results.lean ====
section
/-! SUPPORT. The results of the shared operations: what an instruction that computes leaves in the registers of its
part and its wave. -/
namespace Sys2Proof.Machine

/-- An instruction whose own effect touches only its wave computes. -/
theorem computesWhen_of {mk : Fields → Instr} {op : Nat} {cond : Cx → Fields → Prop} {post : Cx → Fields → Cx → Prop}
    (body : Fields → Cx → Effect) (he : ∀ f s, exec (mk f) s = runPart op f s (body f))
    (hb : ∀ s c f, Issues s c op f → cond c f → ∃ d, body f (c.issued op f) = .next d ∧ WaveOnly (c.issued op f) d ∧
      d.p.pc = c.p.pc ∧ d.p.run = c.p.run ∧ d.p.paths = c.p.paths ∧ d.p.handler = c.p.handler ∧ d.p.frozen = c.p.frozen ∧
      d.p.holds = c.p.holds ∧ d.p.relScope = c.p.relScope ∧
      ∀ e : Cx, e.p = { d.p with pc := d.p.pc + 1, buffer := [] } → e.w = { d.w with parts := e.w.parts } → post c f e) :
    ComputesWhen mk op cond post := by
  intro s c f hi hc
  obtain ⟨d, hd, hw, h1, h2, h3, h4, h5, h6, h7, hpost⟩ := hb s c f hi hc
  obtain ⟨e, hpe, hoc, how, hop, hep, hew⟩ := retire_spec (f := f) hi.1 ((WaveOnly.issued c op f).trans hw)
  refine ⟨_, e, by rw [he]; exact runPart_next hi hd, hpe, hoc, how, hop, ?_, hpost e hep hew⟩
  refine ⟨by rw [hep]; simp [h1], ?_, by rw [hep]; exact h2, by rw [hep]; exact h3, by rw [hep]; exact h4,
    by rw [hep]; exact h5, by rw [hep]; exact h6, by rw [hep]; exact h7⟩
  rw [hep]; exact hw.lanes

theorem computes_of {mk : Fields → Instr} {op : Nat} {post : Cx → Fields → Cx → Prop} (body : Fields → Cx → Effect)
    (he : ∀ f s, exec (mk f) s = runPart op f s (body f))
    (hb : ∀ s c f, Issues s c op f → ∃ d, body f (c.issued op f) = .next d ∧ WaveOnly (c.issued op f) d ∧
      d.p.pc = c.p.pc ∧ d.p.run = c.p.run ∧ d.p.paths = c.p.paths ∧ d.p.handler = c.p.handler ∧ d.p.frozen = c.p.frozen ∧
      d.p.holds = c.p.holds ∧ d.p.relScope = c.p.relScope ∧
      ∀ e : Cx, e.p = { d.p with pc := d.p.pc + 1, buffer := [] } → e.w = { d.w with parts := e.w.parts } → post c f e) :
    Computes mk op post := computesWhen_of body he (fun s c f hi _ => hb s c f hi)

/-! Registers after a write. -/

theorem readS_writeS (c : Cx) (n m : Nat) (v : Word) : (c.writeS n v).readS m = if m = n then v else c.readS m := by
  simp [Cx.readS, Cx.writeS, Cx.part, kget_kset]

theorem readM_writeM (c : Cx) (n m : Nat) (v : Dword) : (c.writeM n v).readM m = if m = n then v else c.readM m := by
  simp [Cx.readM, Cx.writeM, Cx.part, kget_kset]

theorem readH_writeH (c : Cx) (n m : Nat) (v : Word) : (c.writeH n v).readH m = if m = n then v else c.readH m := by
  simp [Cx.readH, Cx.writeH, Cx.part, kget_kset]

theorem readP_writeP (c : Cx) (n m : Nat) (v : Lanes) (h : n ≠ 7) :
    (c.writeP n v).readP m = if m = n then v else c.readP m := by
  unfold Cx.readP Cx.writeP
  rw [if_neg h]
  by_cases h7 : m = 7
  · subst h7; simp [Ne.symm h]
  · simp [h7, kget_kset]

theorem writeP_p (c : Cx) (n : Nat) (v : Lanes) : (c.writeP n v).p = c.p := by unfold Cx.writeP; split <;> rfl

theorem writeP_w (c : Cx) (n : Nat) (v : Lanes) : (c.writeP n v).w = { c.w with p := (c.writeP n v).w.p } := by
  unfold Cx.writeP; split <;> rfl

theorem putP_w (c : Cx) (f : Fields) (ls v : Lanes) : (c.putP f ls v).w = { c.w with p := (c.putP f ls v).w.p } := by
  unfold Cx.putP; generalize f.d.toNat - 392 = n; exact writeP_w c n _

theorem writeLatch_w (c : Cx) (f : Fields) (u : Unit') (vals : List (Nat × Word)) (tag : Nat → Tag) :
    (c.writeLatch f u vals tag).w = c.w := by unfold Cx.writeLatch; split <;> rfl

/-- A latch write changes the part's window alone. -/
theorem writeLatch_p (c : Cx) (f : Fields) (u : Unit') (vals : List (Nat × Word)) (tag : Nat → Tag) :
    (c.writeLatch f u vals tag).p = { c.p with window := (c.writeLatch f u vals tag).p.window } := by
  unfold Cx.writeLatch; split <;> rfl

theorem putS_w (c : Cx) (op : Nat) (f : Fields) (v : Word) : (c.putS op f v).w = c.w := by
  simp [Cx.putS, Cx.writeS, Cx.part, writeLatch_w]

theorem putS_p (c : Cx) (op : Nat) (f : Fields) (v : Word) :
    (c.putS op f v).p = { c.p with window := (c.putS op f v).p.window, s := kset 0 c.p.s (f.d.toNat - 256) v } := by
  unfold Cx.putS Cx.writeS Cx.part
  dsimp only
  rw [writeLatch_p]

theorem readS_putS (c : Cx) (op : Nat) (f : Fields) (v : Word) (n : Nat) :
    (c.putS op f v).readS n = if n = f.d.toNat - 256 then v else c.readS n := by
  rw [Cx.readS, putS_p]; simp [Cx.readS, kget_kset]

/-! Vector registers after a write. -/

/-- A sequence of register writes by key, where the written keys are given by an injective function. -/
theorem foldl_kset_in {β : Type} [DecidableEq β] (d : β) {ι : Type} (key : ι → Nat) (val : ι → β)
    (hv : ∀ x y, key x = key y → val x = val y) :
    ∀ (l : List ι) (m : KMap β) (x : ι), x ∈ l → kget d (l.foldl (fun m y => kset d m (key y) (val y)) m) (key x) = val x
  | [], _, _, h => by simp at h
  | y :: l, m, x, h => by
    simp only [List.foldl_cons]
    by_cases hx : ∃ z ∈ l, key z = key x
    · obtain ⟨z, hz, hk⟩ := hx
      rw [← hk, foldl_kset_in d key val hv l _ z hz, hv z x hk]
    · have hy : y = x ∨ x ∈ l := by simpa [eq_comm] using h
      rcases hy with rfl | hy
      · rw [foldl_kset_out d key val l _ (key y) (fun z hz hk => hx ⟨z, hz, hk⟩)]; simp
      · exact absurd ⟨x, hy, rfl⟩ hx
where
  foldl_kset_out {β : Type} [DecidableEq β] (d : β) {ι : Type} (key : ι → Nat) (val : ι → β) :
      ∀ (l : List ι) (m : KMap β) (k : Nat), (∀ z ∈ l, key z ≠ k) → kget d (l.foldl (fun m y => kset d m (key y) (val y)) m) k = kget d m k
    | [], _, _, _ => rfl
    | y :: l, m, k, h => by
      simp only [List.foldl_cons]
      rw [foldl_kset_out d key val l _ k (fun z hz => h z (by simp [hz])), kget_kset_ne _ _ _ (Ne.symm (h y (by simp)))]

theorem mem_lanesOf {m : Lanes} {l : Nat} (h : l ∈ lanesOf m) : l < 64 := by
  have := List.mem_filter.mp h
  simpa using this.1

theorem vKey_inj {n n' l l' : Nat} (h : l < 64) (h' : l' < 64) (e : vKey n l = vKey n' l') : n = n' ∧ l = l' := by
  unfold vKey at e; omega

theorem tagKey_inj {n n' q q' : Nat} (h : q < 16) (h' : q' < 16) (e : tagKey n q = tagKey n' q') : n = n' ∧ q = q' := by
  unfold tagKey at e; omega

/-- Values by lane, written to one register: a written lane reads its value, every other lane reads as before. -/
theorem waveWriteV_v (w : Wave) (n : Nat) (ls : List Nat) (h : Nat → Word) (tag : Nat → Tag) (hl : ∀ l ∈ ls, l < 64)
    (n' l' : Nat) (h' : l' < 64) :
    (n' = n ∧ l' ∈ ls → kget 0 (waveWriteV w n (ls.map (fun l => (l, h l))) tag).v (vKey n' l') = h l') ∧
    (¬ (n' = n ∧ l' ∈ ls) → kget 0 (waveWriteV w n (ls.map (fun l => (l, h l))) tag).v (vKey n' l') = kget 0 w.v (vKey n' l')) := by
  have e : (waveWriteV w n (ls.map (fun l => (l, h l))) tag).v = ls.foldl (fun m l => kset 0 m (vKey n l) (h l)) w.v := by
    simp [waveWriteV, List.foldl_map]
  rw [e]
  constructor
  · rintro ⟨rfl, hm⟩
    have key := foldl_kset_in (0 : Word) (fun l : {x // x ∈ ls} => vKey n' l.1) (fun l => h l.1)
      (fun x y hxy => by rw [(vKey_inj (hl _ x.2) (hl _ y.2) hxy).2]) ls.attach w.v ⟨l', hm⟩ (List.mem_attach _ _)
    rw [← key]
    congr 1
    conv_lhs => rw [← List.attach_map_subtype_val ls]
    rw [List.foldl_map]
  · intro hno
    refine foldl_kset_in.foldl_kset_out (0 : Word) (fun l => vKey n l) h ls w.v _ (fun z hz hk => hno ?_)
    obtain ⟨rfl, rfl⟩ := vKey_inj (hl z hz) h' hk
    exact ⟨rfl, hz⟩

theorem waveWriteV_tags (w : Wave) (n : Nat) (ls : List Nat) (h : Nat → Word) (tag : Nat → Tag) (hl : ∀ l ∈ ls, l < 64)
    (n' q : Nat) (hq : q < 16) :
    (n' = n ∧ (∃ l ∈ ls, l / 4 = q) → kget 0 (waveWriteV w n (ls.map (fun l => (l, h l))) tag).tags (tagKey n' q) = tag q) ∧
    (¬ (n' = n ∧ ∃ l ∈ ls, l / 4 = q) → kget 0 (waveWriteV w n (ls.map (fun l => (l, h l))) tag).tags (tagKey n' q) = kget 0 w.tags (tagKey n' q)) := by
  have e : (waveWriteV w n (ls.map (fun l => (l, h l))) tag).tags = ls.foldl (fun m l => kset 0 m (tagKey n (l / 4)) (tag (l / 4))) w.tags := by
    simp [waveWriteV, List.foldl_map]
  rw [e]
  have h4 : ∀ l ∈ ls, l / 4 < 16 := fun l hm => by have := hl l hm; omega
  constructor
  · rintro ⟨rfl, l, hm, rfl⟩
    have key := foldl_kset_in (0 : Tag) (fun l : {x // x ∈ ls} => tagKey n' (l.1 / 4)) (fun l => tag (l.1 / 4))
      (fun x y hxy => by rw [(tagKey_inj (h4 _ x.2) (h4 _ y.2) hxy).2]) ls.attach w.tags ⟨l, hm⟩ (List.mem_attach _ _)
    rw [← key]
    congr 1
    conv_lhs => rw [← List.attach_map_subtype_val ls]
    rw [List.foldl_map]
  · intro hno
    refine foldl_kset_in.foldl_kset_out (0 : Tag) (fun l => tagKey n (l / 4)) (fun l => tag (l / 4)) ls w.tags _ (fun z hz hk => hno ?_)
    obtain ⟨rfl, rfl⟩ := tagKey_inj (h4 z hz) hq hk
    exact ⟨rfl, z, hz, rfl⟩

theorem waveWriteV_rest (w : Wave) (n : Nat) (vals : List (Nat × Word)) (tag : Nat → Tag) :
    waveWriteV w n vals tag = { w with v := (waveWriteV w n vals tag).v, tags := (waveWriteV w n vals tag).tags } := rfl

/-! Shared operations. -/

/-- A scalar instruction of one result (09 R153). -/
theorem computes_scalar {mk : Fields → Instr} {op : Nat} (h : Fields → Cx → Word)
    (he : ∀ f s, exec (mk f) s = runPart op f s (fun c => single f c (.next (c.putS op f (h f c))))) :
    Computes mk op (ScalarPost (fun c f => h f (c.issued op f))) := by
  refine computes_of (fun f c => single f c (.next (c.putS op f (h f c)))) he ?_
  intro s c f hi
  by_cases ha : c.activeLanes f = 0
  · refine ⟨c.issued op f, by simp [single, ha], ⟨rfl, rfl, rfl, rfl, rfl, rfl, rfl, rfl, rfl⟩, rfl, rfl, rfl, rfl, rfl, rfl, rfl, ?_⟩
    intro e hp hw
    refine ⟨fun n => ?_, by rw [hp]; rfl, by rw [hp]; rfl, by rw [hp]; rfl, by rw [hp]; rfl, hw⟩
    simp [ha, Cx.readS, hp]
  · refine ⟨(c.issued op f).putS op f (h f (c.issued op f)), by unfold single; rw [issued_activeLanes, if_neg ha], WaveOnly.putS .., ?_, ?_, ?_, ?_, ?_, ?_, ?_, ?_⟩
    all_goals try (rw [putS_p]; rfl)
    intro e hp hw
    rw [putS_p] at hp
    rw [putS_w] at hw
    refine ⟨fun n => ?_, by rw [hp]; rfl, by rw [hp]; rfl, by rw [hp]; rfl, by rw [hp]; rfl, hw⟩
    rw [Cx.readS, hp]
    simp only [ha, ne_eq, not_false_eq_true, and_true, Cx.readS, kget_kset]
    rfl

/-- A per-lane instruction of one vector result (10 R187, R188). -/
theorem computes_vector {mk : Fields → Instr} {op : Nat} (h : Fields → Cx → Nat → Word) (tag : Fields → Cx → Nat → Tag)
    (he : ∀ f s, exec (mk f) s = runPart op f s (fun c => .next (c.putV op f (perLane f c (h f c)) (tag f c)))) :
    Computes mk op (VectorPost (fun c f => h f (c.issued op f)) (fun c f => tag f (c.issued op f))) := by
  refine computes_of (fun f c => .next (c.putV op f (perLane f c (h f c)) (tag f c))) he ?_
  intro s c f hi
  set b := c.issued op f with hb
  refine ⟨b.putV op f (perLane f b (h f b)) (tag f b), rfl, WaveOnly.putV .., ?_, ?_, ?_, ?_, ?_, ?_, ?_, ?_⟩
  all_goals try (unfold Cx.putV; split <;> simp only [Cx.writeV] <;> rw [writeLatch_p] <;> rfl)
  intro e hp hw
  have hpl : perLane f b (h f b) = (lanesOf (c.activeLanes f)).map (fun l => (l, h f b l)) := rfl
  have hps : PartRegs c.p e.p := by
    rw [hp]
    unfold Cx.putV PartRegs
    split <;> simp only [Cx.writeV] <;> rw [writeLatch_p] <;> exact ⟨rfl, rfl, rfl, rfl, rfl⟩
  have hl : ∀ l ∈ lanesOf (c.activeLanes f), l < 64 := fun l => mem_lanesOf
  by_cases hdn : f.dn
  · have hw' : e.w = { c.w with parts := e.w.parts } := by
      rw [Cx.putV, if_pos hdn, writeLatch_w] at hw; exact hw
    refine ⟨fun n l _ => ⟨fun hx => by simp [destV, hdn] at hx, fun _ => ?_⟩,
      fun n q _ => ⟨fun hx => by simp [destV, hdn] at hx, fun _ => ?_⟩, hps, ?_⟩
    · rw [Cx.readV, hw']; rfl
    · rw [Cx.readTag, hw']; rfl
    · rw [hw']
  · have hw' : e.w = { waveWriteV c.w f.d.toNat ((lanesOf (c.activeLanes f)).map (fun l => (l, h f b l))) (tag f b) with parts := e.w.parts } := by
      rw [Cx.putV, if_neg hdn, Cx.writeV, writeLatch_w, hpl] at hw; exact hw
    have hmem : ∀ n, n ∈ destV f ↔ n = f.d.toNat := fun n => by simp [destV, hdn]
    refine ⟨fun n l hlt => ?_, fun n q hlt => ?_, hps, ?_⟩
    · have := waveWriteV_v c.w f.d.toNat _ (h f b) (tag f b) hl n l hlt
      rw [Cx.readV, hw', hmem]
      exact this
    · have := waveWriteV_tags c.w f.d.toNat _ (h f b) (tag f b) hl n q hlt
      rw [Cx.readTag, hw', hmem]
      exact this
    · rw [hw', waveWriteV_rest]

/-- The operand for which an immediate stands (05 R98). -/
theorem operand_immA {op : Nat} (h : (opInfo op).imm = .a) (c : Cx) (f : Fields) (k : OpKind) (l : Nat) :
    c.operand op f 0 k l = f.x := by simp [Cx.operand, Cx.opn, h]
theorem operand_immB {op : Nat} (h : (opInfo op).imm = .b) (c : Cx) (f : Fields) (k : OpKind) (l : Nat) :
    c.operand op f 1 k l = f.x := by simp [Cx.operand, Cx.opn, h]
theorem operand_immC {op : Nat} (h : (opInfo op).imm = .c) (c : Cx) (f : Fields) (k : OpKind) (l : Nat) :
    c.operand op f 2 k l = f.x := by simp [Cx.operand, Cx.opn, h]

/-- A scalar instruction whose value equals a function of its operands. -/
theorem scalarOf_of {mk : Fields → Instr} {op : Nat} {g h : Fields → Word → Word → Word → Word}
    (he : ∀ f s, exec (mk f) s = scalarOp op f s (g f))
    (hh : ∀ (c : Cx) f, g f (c.operand op f 0 .int 0) (c.operand op f 1 .int 0) (c.operand op f 2 .int 0) =
      h f (c.operand op f 0 .int 0) (c.operand op f 1 .int 0) (c.operand op f 2 .int 0)) : ScalarOf mk op h := by
  unfold ScalarOf
  have := computes_scalar (mk := mk) (op := op) (fun f c => g f (c.opn op f 0 .int 0) (c.opn op f 1 .int 0) (c.opn op f 2 .int 0)) he
  have e : (fun (c : Cx) (f : Fields) => h f (c.operand op f 0 .int 0) (c.operand op f 1 .int 0) (c.operand op f 2 .int 0)) =
     (fun (c : Cx) (f : Fields) => g f ((c.issued op f).opn op f 0 .int 0) ((c.issued op f).opn op f 1 .int 0) ((c.issued op f).opn op f 2 .int 0)) := by
    funext c f; exact (hh c f).symm
  rw [e]; exact this

/-- A vector instruction whose value equals a function of its operands. -/
theorem vectorOf_of {mk : Fields → Instr} {op : Nat} {k : OpKind} {tag : Fields → Tag}
    {g h : Fields → Word → Word → Word → Word} (t' : Fields → Tag)
    (he : ∀ f s, exec (mk f) s = vecOp op k (t' f) f s (g f)) (ht : ∀ f, t' f = tag f)
    (hh : ∀ (c : Cx) f l, g f (c.operand op f 0 k l) (c.operand op f 1 k l) (c.operand op f 2 k l) =
      h f (c.operand op f 0 k l) (c.operand op f 1 k l) (c.operand op f 2 k l)) : VectorOf mk op k tag h := by
  unfold VectorOf
  have := computes_vector (mk := mk) (op := op)
    (fun f c l => g f (c.opn op f 0 k l) (c.opn op f 1 k l) (c.opn op f 2 k l)) (fun f _ _ => t' f) he
  have e : (fun (c : Cx) (f : Fields) (l : Nat) => h f (c.operand op f 0 k l) (c.operand op f 1 k l) (c.operand op f 2 k l)) =
     (fun (c : Cx) (f : Fields) (l : Nat) => g f ((c.issued op f).opn op f 0 k l) ((c.issued op f).opn op f 1 k l) ((c.issued op f).opn op f 2 k l)) := by
    funext c f l; exact (hh c f l).symm
  have e' : (fun (_ : Cx) (f : Fields) (_ : Nat) => tag f) = (fun (_ : Cx) (f : Fields) (_ : Nat) => t' f) := by
    funext c f l; exact (ht f).symm
  rw [e, e']; exact this

/-- A mask instruction of one result (09 R163). -/
theorem computes_mask {mk : Fields → Instr} {op : Nat} (h : Fields → Cx → Dword)
    (he : ∀ f s, exec (mk f) s = runPart op f s (fun c => single f c (.next (c.writeM (f.d.toNat - 400) (h f c))))) :
    Computes mk op (MaskPost (fun c f => h f (c.issued op f))) := by
  refine computes_of (fun f c => single f c (.next (c.writeM (f.d.toNat - 400) (h f c)))) he ?_
  intro s c f hi
  by_cases ha : c.activeLanes f = 0
  · refine ⟨c.issued op f, by simp [single, ha], ⟨rfl, rfl, rfl, rfl, rfl, rfl, rfl, rfl, rfl⟩, rfl, rfl, rfl, rfl, rfl, rfl, rfl, ?_⟩
    intro e hp hw
    refine ⟨fun n => ?_, by rw [hp]; rfl, by rw [hp]; rfl, by rw [hp]; rfl, by rw [hp]; rfl, hw⟩
    simp [ha, Cx.readM, hp]
  · refine ⟨(c.issued op f).writeM (f.d.toNat - 400) (h f (c.issued op f)), by unfold single; rw [issued_activeLanes, if_neg ha],
      WaveOnly.writeM .., rfl, rfl, rfl, rfl, rfl, rfl, rfl, ?_⟩
    intro e hp hw
    refine ⟨fun n => ?_, by rw [hp]; rfl, by rw [hp]; rfl, by rw [hp]; rfl, by rw [hp]; rfl, hw⟩
    rw [Cx.readM, hp]
    simp only [ha, ne_eq, not_false_eq_true, and_true, Cx.readM, Cx.writeM, Cx.part, kget_kset]
    rfl

theorem tbit_maskOf {w : Nat} (l : List Nat) (i : Nat) (hi : i < w) : tbit (maskOf (w := w) l) i = decide (i ∈ l) := by
  unfold maskOf tbit
  have : ∀ (l : List Nat) (a : BitVec w), (l.foldl (fun m i => m ||| BitVec.ofNat w (2 ^ i)) a).toNat.testBit i =
      (a.toNat.testBit i || decide (i ∈ l)) := by
    intro l
    induction l with
    | nil => simp
    | cons y l ih =>
      intro a
      have h2 : (2 ^ y % 2 ^ w).testBit i = decide (i = y) := by
        rw [Nat.testBit_mod_two_pow, Nat.testBit_two_pow]; simp [hi, eq_comm]
      simp only [List.foldl_cons, ih, BitVec.toNat_or, Nat.testBit_or, BitVec.toNat_ofNat, h2, List.mem_cons]
      by_cases h : i = y <;> simp [h]
  rw [this]; simp

theorem mem_onesBelow {w n : Nat} {m : BitVec w} {i : Nat} : i ∈ onesBelow n m ↔ i < n ∧ tbit m i = true := by
  simp [onesBelow]

theorem takes_iff {c : Cx} {f : Fields} {l : Nat} : c.takes f l ↔ l < 64 ∧ tbit (c.activeLanes f) l = true := mem_onesBelow

theorem tbit_eq_getLsbD {w : Nat} (x : BitVec w) (i : Nat) : tbit x i = x.getLsbD i := rfl

theorem tbit_mux (old m val : Lanes) (l : Nat) (hl : l < 64) :
    tbit ((old &&& ~~~m) ||| (val &&& m)) l = if tbit m l = true then tbit val l else tbit old l := by
  simp only [tbit_eq_getLsbD, BitVec.getLsbD_or, BitVec.getLsbD_and, BitVec.getLsbD_not, hl, decide_true, Bool.true_and]
  by_cases h : m.getLsbD l = true <;> simp [h]

/-- A per-lane instruction of one predicate result (09 R161, R162). -/
theorem computes_pred {mk : Fields → Instr} {op : Nat} (v : Fields → Cx → Lanes) (h : Cx → Fields → Nat → Prop)
    (hv : ∀ c f l, c.takes f l → (tbit (v f (c.issued op f)) l = true ↔ h c f l))
    (he : ∀ f s, exec (mk f) s = runPart op f s (fun c => .next (c.putP f (c.activeLanes f) (v f c)))) :
    Computes mk op (PredPost h) := by
  refine computes_of (fun f c => .next (c.putP f (c.activeLanes f) (v f c))) he ?_
  intro s c f hi
  obtain ⟨d, hd⟩ : ∃ d, d = (c.issued op f).putP f (c.activeLanes f) (v f (c.issued op f)) := ⟨_, rfl⟩
  have hdp : d.p = (c.issued op f).p := by rw [hd, Cx.putP, writeP_p]
  have hdw : d.w = { c.w with p := d.w.p } := by
    have h0 := putP_w (c.issued op f) f (c.activeLanes f) (v f (c.issued op f))
    rw [← hd, issued_w] at h0
    exact h0
  refine ⟨d, by rw [hd]; rfl, by rw [hd]; exact WaveOnly.putP .., ?_, ?_, ?_, ?_, ?_, ?_, ?_, ?_⟩
  all_goals try (rw [hdp]; rfl)
  intro e hp hw
  have hps : PartRegs c.p e.p := by
    rw [hp, hdp]; exact ⟨rfl, rfl, rfl, rfl, rfl⟩
  refine ⟨?_, hps, ?_⟩
  · intro n l hn hl
    have hr : e.readP n = ((c.issued op f).putP f (c.activeLanes f) (v f (c.issued op f))).readP n := by
      rw [← hd]
      have hwp : e.w.p = d.w.p := by rw [hw]
      unfold Cx.readP; rw [hwp]
    rw [hr, Cx.putP]
    by_cases h7 : f.d.toNat - 392 = 7
    · have hne : n ≠ f.d.toNat - 392 := by omega
      rw [h7] at hne ⊢
      refine ⟨fun hx => absurd hx.1 hne, fun _ => ?_⟩
      simp only [Cx.writeP, if_true, Cx.readP, issued_w]
    · rw [readP_writeP _ _ _ _ h7]
      by_cases hnd : n = f.d.toNat - 392
      · rw [if_pos hnd, tbit_mux _ _ _ _ hl, takes_iff]
        refine ⟨fun ⟨_, _, ht⟩ => ?_, fun hx => ?_⟩
        · rw [if_pos ht]; exact hv c f l (takes_iff.mpr ⟨hl, ht⟩)
        · have hnt : ¬ tbit (c.activeLanes f) l = true := fun ht => hx ⟨hnd, hl, ht⟩
          rw [if_neg hnt, ← hnd]; simp only [Cx.readP, issued_w]
      · rw [if_neg hnd]
        exact ⟨fun hx => absurd hx.1 hnd, fun _ => by simp only [Cx.readP, issued_w]⟩
  · rw [hw, hdw]

end Sys2Proof.Machine
end

