-- ==== Sys2Proof/Tests/Slice0.lean ====
section
/-! SUPPORT. Tests of the author: words written out from the spec's encodings decode to their instructions, ill-formed
terms are refused, single steps give what the spec gives, and for each statement with hypotheses a witness that meets
them. -/
open Sys2Proof Sys2Proof.Machine
namespace Sys2Proof.Tests
set_option Elab.async false

/-! Decoding: words of the spec's listings, lowest address first (04 R68). -/

/-- The number of a word from its twelve bytes. -/
def wordOf (bs : List Nat) : Nat := ofBytes (bs.map (BitVec.ofNat 8))

theorem test_decode_scmp : decodeTableWord 96 (wordOf [0x00, 0x00, 0x03, 0x00, 0x00, 0x00, 0x94, 0x13, 0x88, 0xC4, 0xB8, 0x1B]) =
    some (.scmp { always with d := 393, a := 258, b := 1832, x := 0x0006 }) := by decide +kernel
theorem test_decode_vcvt : decodeTableWord 96 (wordOf [0x01, 0x00, 0x12, 0x42, 0x00, 0x00, 0x00, 0x18, 0x00, 0x05, 0x38, 0x2D]) =
    some (.vcvt { always with d := 10, a := 3, stall := 1, x := 0x8424 }) := by decide +kernel
theorem test_decode_vatomAdd : decodeTableWord 96 (wordOf [0x00, 0x00, 0xFC, 0xFF, 0x07, 0x39, 0x03, 0x10, 0x80, 0x04, 0x38, 0x70]) =
    some (.vatomAdd { always with d := 9, a := 2, b := 6, x := 0x720FFFF8 }) := by decide +kernel
theorem test_decode_engCopyIn : decodeTableWord 96 (wordOf [0x01, 0x00, 0x40, 0x00, 0x00, 0x00, 0x86, 0x40, 0x08, 0xCD, 0xB8, 0x5A]) =
    some (.engCopyIn { always with d := 410, a := 264, b := 268, stall := 1, x := 0x0080 }) := by decide +kernel
theorem test_decode_mmaBf16 : decodeTableWord 96 (wordOf [0x00, 0x80, 0x00, 0x00, 0x00, 0x00, 0x00, 0x10, 0x8C, 0xCE, 0x38, 0xD9]) =
    some (.mmaBf16 { always with d := 413, a := 386, x := 0x0001 }) := by decide +kernel
theorem test_decode_vldLane : decodeTableWord 96 (wordOf [0x00, 0x00, 0x00, 0x00, 0x00, 0x00, 0x00, 0x10, 0x00, 0x03, 0x38, 0x63]) =
    some (.vldLane { always with d := 6, a := 2 }) := by decide +kernel
theorem test_decode_bpt : decodeTableWord 96 (wordOf [0x00, 0x80, 0x12, 0x00, 0x00, 0x00, 0x00, 0x00, 0x00, 0x00, 0xB8, 0x06]) =
    some (.bpt { always with x := 0x0025 }) := by decide +kernel
theorem test_decode_sld : decodeTableWord 96 (wordOf [0x00, 0x00, 0x00, 0x00, 0x00, 0x0B, 0x00, 0x00, 0x08, 0x83, 0x38, 0x69]) =
    some (.sld { always with d := 262, a := 256, x := 0x16000000 }) := by decide +kernel
theorem test_decode_vfma : decodeTableWord 96 (wordOf [0x00, 0x00, 0x00, 0x00, 0x10, 0x80, 0x01, 0x08, 0x00, 0x01, 0xB8, 0x41]) =
    some (.vfma { always with d := 2, a := 1, b := 3, x := 0x00200000 }) := by decide +kernel
theorem test_decode_spawnLanes : decodeTableWord 96 (wordOf [0x00, 0x80, 0x00, 0x00, 0x00, 0x80, 0x84, 0x50, 0x8D, 0xCD, 0x38, 0x5B]) =
    some (.spawnLanes { always with d := 411, a := 426, b := 265, x := 0x0001 }) := by decide +kernel
theorem test_decode_meshStep : decodeTableWord 96 (wordOf [0x00, 0x00, 0x00, 0x00, 0x00, 0x00, 0x82, 0x40, 0x00, 0x0A, 0x38, 0xE7]) =
    some (.meshStep { always with d := 20, a := 8, b := 260 }) := by decide +kernel
theorem test_decode_vstSpLane : decodeTableWord 96 (wordOf [0x00, 0x00, 0x00, 0x00, 0x00, 0x80, 0x00, 0x10, 0x00, 0x00, 0x38, 0x68]) =
    some (.vstSpLane { always with a := 2, b := 1 }) := by decide +kernel
theorem test_decode_fenceFull : decodeTableWord 96 (wordOf [0x00, 0x00, 0x02, 0x00, 0x00, 0x00, 0x00, 0x00, 0x00, 0x00, 0x38, 0x6B]) =
    some (.fenceFull { always with x := 0x0004 }) := by decide +kernel
theorem test_decode_sst : decodeTableWord 96 (wordOf [0x00, 0x00, 0x00, 0x01, 0x00, 0x09, 0x85, 0x00, 0x08, 0x00, 0x98, 0x69]) =
    some (.sst { always with gp := 3, a := 256, b := 266, x := 0x12000200 }) := by decide +kernel
/-- `wbar` and `gbar` by their fields: OPCODE 0xA8 and 0xA9 in bits 95:87, GP 7 in bits 85:83 (04 R68). -/
theorem test_decode_barriers : decodeTableWord 96 (0xA8 * 2 ^ 87 + 7 * 2 ^ 83) = some (.wbar always) ∧
    decodeTableWord 96 (0xA9 * 2 ^ 87 + 7 * 2 ^ 83) = some (.gbar always) := by decide +kernel
/-- A word of 00 R8 that is not assigned decodes to nothing that runs (05 R99). -/
theorem test_decode_unassigned : decodeTableWord 96 (0x1FF * 2 ^ 87) = some (.unassignedOpcode (BitVec.ofNat 96 (0x1FF * 2 ^ 87))) := by
  decide +kernel
theorem test_decode_short : decode (List.replicate 11 0) = .error .truncated := by decide +kernel

/-! Well-formedness: one ill-formed term for each check. -/

theorem test_wf_accepts : (Instr.vadd { always with d := 5, a := 1, b := 2 }).WellFormed := ⟨by decide +kernel, by decide +kernel, by decide +kernel, by decide +kernel⟩
theorem test_wf_rt : ¬ (Instr.vadd { always with rt := 1 }).WellFormed := fun h => absurd h.2.1 (by decide +kernel)
theorem test_wf_modifier : ¬ (Instr.vfadd { always with x := 7 }).WellFormed := fun h => absurd h.2.2.1 (by decide +kernel)
theorem test_wf_operand : ¬ (Instr.sadd { always with d := 5 }).WellFormed := fun h => absurd h.2.2.2 (by decide +kernel)
theorem test_wf_subrow : ¬ (Instr.swrResid { always with d := 466, a := 256 }).WellFormed := fun h => absurd h.1 (by decide +kernel)
theorem test_wf_images : ¬ (Instr.powerOnBoot []).WellFormed := by show ¬ (_ = _); decide
theorem test_wf_func : ¬ (Instr.selftestPass [.ccore 8]).WellFormed := by show ¬ (∀ x ∈ _, _); decide
theorem test_wf_funcFail : ¬ (Instr.selftestFail [.cluster 40]).WellFormed := by show ¬ (∀ x ∈ _, _); decide
theorem test_wf_message : ¬ (Instr.put ⟨⟨0, 0⟩, []⟩).WellFormed := by show ¬ (_ ≤ _); decide
theorem test_wf_part : ¬ (Instr.missSplit ⟨0, 64, 0⟩).WellFormed := fun h => absurd h.2.1 (by decide)
theorem test_wf_core : ¬ (Instr.arrayRowEntry 320).WellFormed := by show ¬ (_ < _); decide
theorem test_wf_slot : ¬ (Instr.storeQueueLeave 0 64).WellFormed := fun h => absurd h.2 (by decide)
theorem test_wf_bar : ¬ (Instr.gbarArrival 0 16).WellFormed := fun h => absurd h.2 (by decide)
theorem test_wf_entry : ¬ (Instr.rejoinExpire 0 0 16).WellFormed := fun h => absurd h.2.2 (by decide)
theorem test_wf_job : ¬ (Instr.engChunk 0 64).WellFormed := fun h => absurd h.2 (by decide)
theorem test_wf_cluster : ¬ (Instr.permitCredit 40).WellFormed := by show ¬ (_ < _); decide
theorem test_wf_zone : ¬ (Instr.sprintClaim 20 true true).WellFormed := by show ¬ (_ < _); decide
theorem test_wf_asn : ¬ (Instr.translationChange 4096 0 0).WellFormed := by show ¬ (_ < _); decide
theorem test_wf_register : ¬ (Instr.fwRegisterWrite (.permits 20 0)).WellFormed := by show ¬ (_ = _); decide
theorem test_wf_pctx : ¬ (Instr.peerCancel 64 0).WellFormed := by show ¬ (_ < _); decide
theorem test_wf_command : ¬ (Instr.dbgHalt 0 2).WellFormed := fun h => absurd h.2 (by decide)
theorem test_wf_badCommand : ¬ (Instr.dbgInvalidOp 0 5).WellFormed := fun h => absurd h.2 (by decide)
theorem test_wf_assigned : ¬ (Instr.unassignedOpcode 0).WellFormed := by show ¬ (_ = _); decide +kernel

/-! Single steps and witnesses: a module in which one wave of 64 lanes stands at a word. -/

/-- After reset, the wave that `withFetchWord` places, in focus; its page may be read, written and executed. -/
def st : State :=
  { State.reset.withFetchWord 96 0 with cur := ⟨0, 0, 0⟩, agenda := [], leaves := [(leafKey 0 1 0, 0x1001F#64)] }

/-- An instruction's fields, with the guard always true, and with a guard that is false. -/
def R (d a b x : Nat) : Fields :=
  { always with d := BitVec.ofNat _ d, a := BitVec.ofNat _ a, b := BitVec.ofNat _ b, x := BitVec.ofNat _ x }
def never (f : Fields) : Fields := { f with gp := 0 }

/-- The part of a state in focus. -/
def cxOf (s : State) (h : (partAt s s.cur).isSome = true) : Cx := (partAt s s.cur).get h
theorem cxOf_at (s : State) (h) : partAt s s.cur = some (cxOf s h) := by simp [cxOf]
theorem st_some : (partAt st st.cur).isSome = true := by decide +kernel
/-- The part in focus in `st`. -/
def cx : Cx := cxOf st st_some
theorem cx_at : partAt st st.cur = some cx := cxOf_at st st_some

/-- `Issues`, computed. -/
def issuesIn (c : Cx) (op : Nat) (f : Fields) : Bool :=
  !c.stepEnds op f && decide (decodeCheck c op f = none) && !busy c op f &&
    decide (latchCheck c.p op f c.cyc c.s.freeCount = none) && tagsOk (c.inWindow op f) op f &&
    decide (widthOf c op f ≤ c.w.width) && meetsWidth c.w c.p (widthOf c op f)

theorem issues_of {s : State} {c : Cx} {op : Nat} {f : Fields} (h : partAt s s.cur = some c)
    (hi : issuesIn c op f = true) : Issues s c op f := by
  simp only [issuesIn, Bool.and_eq_true, Bool.not_eq_true', decide_eq_true_eq] at hi
  exact ⟨h, hi.1.1.1.1.1.1, hi.1.1.1.1.1.2, hi.1.1.1.1.2, hi.1.1.1.2, hi.1.1.2, hi.1.2, hi.2⟩

theorem issues_st {op : Nat} {f : Fields} (hi : issuesIn cx op f = true) : Issues st cx op f := issues_of cx_at hi

theorem issued (rows : List (List Nat × Fields))
    (h : rows.all (fun x => x.1.all (fun op => issuesIn cx op x.2)) = true) :
    ∀ x ∈ rows, ∀ op ∈ x.1, ∃ c, Issues st c op x.2 :=
  fun x hx op ho => ⟨cx, issues_st (List.all_eq_true.mp (List.all_eq_true.mp h x hx) op ho)⟩

theorem witness_ScalarResults : ∀ x ∈ [([0x020, 0x021, 0x022, 0x025, 0x026, 0x027, 0x029, 0x02A, 0x02B, 0x02C,
    0x02D, 0x02E, 0x02F, 0x023, 0x124, 0x032, 0x133], R 260 264 272 0), ([0x120, 0x121, 0x122, 0x125, 0x126, 0x127,
    0x129, 0x12A, 0x12B, 0x12C, 0x12D, 0x12E, 0x12F, 0x123, 0x028, 0x030, 0x031, 0x034, 0x132], R 260 264 0 0),
    ([0x024, 0x033], R 260 264 272 0x16000000), ([0x035], R 260 0 0 0), ([0x036], R 260 264 272 0x18900000)], ∀ op
    ∈ x.1, ∃ c, Issues st c op x.2 :=
  issued _ (by decide +kernel)

theorem witness_PredicatesAndMasks : ∀ x ∈ [([0x037], R 393 264 272 0), ([0x010, 0x011, 0x012], R 393 394 395 0),
    ([0x013], R 393 394 0 0), ([0x014, 0x015, 0x016], R 401 402 403 0), ([0x018, 0x019], R 260 402 0 0), ([0x01A],
    R 401 402 0 0), ([0x017], R 393 264 0 0)], ∀ op ∈ x.1, ∃ c, Issues st c op x.2 :=
  issued _ (by decide +kernel)

theorem witness_SpecialRegisters : ∀ x ∈ [([0x01B], R 260 466 0 0), ([0x01D], R 260 0 0 0), ([0x01C], R 466 264 0
    0)], ∀ op ∈ x.1, ∃ c, Issues st c op x.2 :=
  issued _ (by decide +kernel)

theorem witness_VectorIntegers : ∀ x ∈ [([0x040, 0x041, 0x042, 0x043, 0x044, 0x045, 0x046, 0x047, 0x048, 0x049,
    0x04A, 0x04B, 0x04C, 0x04D, 0x04E, 0x04F, 0x050, 0x051, 0x140, 0x141, 0x142, 0x143, 0x144, 0x145, 0x146, 0x147,
    0x149, 0x14A, 0x14B, 0x14C, 0x14D, 0x155], R 0 0 0 0)], ∀ op ∈ x.1, ∃ c, Issues st c op x.2 :=
  issued _ (by decide +kernel)

theorem witness_VectorFields : ∀ x ∈ [([0x052, 0x152, 0x053, 0x153, 0x056, 0x156, 0x057, 0x157, 0x058, 0x158,
    0x05F, 0x055], R 0 0 0 0), ([0x054], R 16 32 64 0x18900000), ([0x059], R 393 0 0 0)], ∀ op ∈ x.1, ∃ c, Issues
    st c op x.2 :=
  issued _ (by decide +kernel)

theorem witness_FloatArithmetic : ∀ x ∈ [([0x080, 0x081, 0x082, 0x083, 0x180, 0x181, 0x182, 0x183, 0x088, 0x188], R
    0 0 0 0)], ∀ op ∈ x.1, ∃ c, Issues st c op x.2 :=
  issued _ (by decide +kernel)

theorem witness_FloatInspection : ∀ x ∈ [([0x084, 0x085, 0x184, 0x185, 0x087, 0x089, 0x08A], R 0 0 0 0), ([0x086],
    R 393 0 0 0)], ∀ op ∈ x.1, ∃ c, Issues st c op x.2 :=
  issued _ (by decide +kernel)

theorem witness_SfuResults : ∀ x ∈ [([0x08B, 0x08C, 0x08D, 0x08E, 0x08F, 0x090, 0x091], R 0 0 0 0)], ∀ op ∈ x.1, ∃
    c, Issues st c op x.2 :=
  issued _ (by decide +kernel)

/-- Arguments of the clauses on special values: -1/2, 3/4, -1, 3/2, 128, -150, -149, 2^-149 (log 2: -149). -/
theorem witness_SfuValues : (f32 0xBF000000).finite ∧ (f32 0xBF000000).value = (-1 : Int) / 2 ∧ (f32 0x3F400000).finite ∧
    (f32 0x3F400000).value = 1 / 4 + (1 : Int) / 2 ∧ (f32 0xBF800000).finite ∧ (f32 0xBF800000).value = (-1 : Int) ∧ (f32 0x3FC00000).finite ∧
    (f32 0x3FC00000).value = (1 : Int) + 1 / 2 ∧ (f32 0x43000000).finite ∧ 128 ≤ (f32 0x43000000).value ∧ (f32 0xC3160000).finite ∧
    (f32 0xC3160000).value ≤ -150 ∧ (f32 0xC3150000).finite ∧ (f32 0xC3150000).value = (-149 : Int) ∧ (f32 0x00000001).finite ∧
    (f32 0x00000001).value = 2 ^ (-149 : Int) := by
  have h : f32 0xBF000000 = .num true 8388608 (-24) ∧ f32 0x3F400000 = .num false 12582912 (-24) ∧ f32 0xBF800000 = .num true 8388608 (-23) ∧
      f32 0x3FC00000 = .num false 12582912 (-23) ∧ f32 0x43000000 = .num false 8388608 (-16) ∧ f32 0xC3160000 = .num true 9830400 (-16) ∧
      f32 0xC3150000 = .num true 9764864 (-16) ∧ f32 0x00000001 = .num false 1 (-149) := by decide +kernel
  obtain ⟨h1, h2, h3, h4, h5, h6, h7, h8⟩ := h
  rw [h1, h2, h3, h4, h5, h6, h7, h8]
  norm_num [FVal.value, FVal.finite]

theorem witness_PackedFloat : ∀ x ∈ [([0x098, 0x099, 0x09A, 0x09B, 0x198, 0x199, 0x19A, 0x19B, 0x0A0, 0x0A1, 0x0A2,
    0x0A3, 0x1A0, 0x1A1, 0x1A2, 0x1A3, 0x09C, 0x09D, 0x19C, 0x19D, 0x0A4, 0x0A5, 0x1A4, 0x1A5], R 0 0 0 0),
    ([0x09E, 0x0A6], R 393 0 0 0)], ∀ op ∈ x.1, ∃ c, Issues st c op x.2 :=
  issued _ (by decide +kernel)

theorem witness_Conversion : ∀ x ∈ [([0x05A], R 0 0 0 0x27)], ∀ op ∈ x.1, ∃ c, Issues st c op x.2 :=
  issued _ (by decide +kernel)

theorem witness_BlockConversion : ∀ x ∈ [([0x05B], R 0 64 0 0x81), ([0x05C], R 0 64 0 0x1C1), ([0x05D], R 0 64 0
    0x24), ([0x05E], R 0 64 0 0x2E)], ∀ op ∈ x.1, ∃ c, Issues st c op x.2 :=
  issued _ (by decide +kernel)

theorem witness_LaneExchange : ∀ x ∈ [([0x060, 0x160, 0x061, 0x062, 0x063], R 0 0 0 0), ([0x064], R 260 0 272 0),
    ([0x164], R 260 0 0 0), ([0x065], R 0 264 272 0), ([0x165], R 0 264 0 0)], ∀ op ∈ x.1, ∃ c, Issues st c op x.2 :=
  issued _ (by decide +kernel)

theorem witness_ControlFlow : ∀ x ∈ [([0x001, 0x004, 0x00A, 0x000], R 0 0 0 0), ([0x003, 0x007], R 0 264 0 0),
    ([0x005], R 260 0 0 0), ([0x006], R 260 264 0 0)], ∀ op ∈ x.1, ∃ c, Issues st c op x.2 :=
  issued _ (by decide +kernel)

/-- `st` with its core, workgroup, wave and part changed. -/
def mk (k : Core → Core) (g : Workgroup → Workgroup) (w : Wave → Wave) (p : Part → Part) : State :=
  setCore st 0 (k { getCore st 0 with
    waves := [(0, some (w { fetchWave with parts := fetchWave.parts.map p }))], wgs := [(0, some (g fetchGroup))] })

def withK (k : Core → Core) : State := mk k id id id
def withG (g : Workgroup → Workgroup) : State := mk id g id id
def withW (w : Wave → Wave) : State := mk id id w id
def withP (p : Part → Part) : State := mk id id id p

/-- The lower and the upper half of the lanes, and a wave of two parts that hold them. -/
def lo : Lanes := 0xFFFFFFFF
def hi : Lanes := 0xFFFFFFFF00000000
def half (l : Lanes) : Part := { lanes := l, run := l, exec := l }
def two (p q : Part → Part) (w : Wave) : Wave := { w with parts := [p (half lo), q (half hi)] }

/-- p0 true in the lower lanes: a guard `gp := 0` then takes half of them. -/
def halfP0 (w : Wave) : Wave := { w with p := kset 0 w.p 0 lo }

theorem wit {op : Nat} {f : Fields} {P : Cx → Prop} (s : State) (h : (partAt s s.cur).isSome = true)
    (hi : issuesIn (cxOf s h) op f = true) (hp : P (cxOf s h)) : ∃ c, Issues s c op f ∧ P c :=
  ⟨_, issues_of (cxOf_at s h) hi, hp⟩

theorem witness_SpecialWrites :
    (∃ c, Issues st c 0x01C (R 467 264 0 0) ∧ c.residencyReported = true) ∧
    (∃ c, Issues st c 0x01C (R 470 264 0 0) ∧ c.peersReported = true) :=
  ⟨wit _ st_some (by decide +kernel) (by decide +kernel), wit _ st_some (by decide +kernel) (by decide +kernel)⟩

theorem witness_SplitBranch :
    (∃ c, Issues st c 0x002 always ∧ c.p.handler = none ∧ c.w.rejoin.length < 16) ∧
    (∃ c, Issues (mk id (fun g => { g with kernel := { g.kernel with splitBr := true } }) halfP0 id) c 0x002 (never always) ∧
      c.p.handler = none ∧ c.w.rejoin.length < 16 ∧ c.activeLanes (never always) ≠ 0 ∧
      c.activeLanes (never always) ≠ c.p.exec ∧ c.g.kernel.splitBr = true ∧ c.p.paths = [] ∧
      splitFits c (c.activeLanes (never always)) = true) :=
  ⟨wit _ st_some (by decide +kernel) (by decide +kernel), wit _ (by decide +kernel) (by decide +kernel) (by decide +kernel)⟩

/-- A rejoin entry for every lane, of which `arrived` have come. -/
def entryAll (arrived : Lanes) : RejoinEntry :=
  { idx := 0, lanes := BitVec.allOnes 64, arrived := arrived, token := 0, expect := 0xFFFF, miss := false }

theorem witness_RejoinAndFuse :
    (∃ c, Issues st c 0x008 always ∧ c.p.handler = none ∧ c.p.paths = [] ∧ matchEntry c.w c.p.lanes = none) ∧
    (∃ c, Issues (withW (fun w => { two id id w with rejoin := [entryAll 0] })) c 0x008 always ∧ c.p.handler = none ∧
      c.p.paths = [] ∧ matchEntry c.w c.p.lanes = some (entryAll 0) ∧ (entryAll 0).expired = false ∧
      c.g.kernel.rejoin ≠ 0 ∧ liveLanes c.w &&& quadLanes (entryAll 0).expect &&& ~~~((entryAll 0).arrived ||| c.p.lanes) ≠ 0) ∧
    (∃ c, Issues (withW (fun w => { two id (fun p => { p with wait := .parked 0 }) w with rejoin := [entryAll hi] })) c
        0x008 always ∧ c.p.handler = none ∧ c.p.paths = [] ∧ matchEntry c.w c.p.lanes = some (entryAll hi) ∧
      (entryAll hi).miss = false ∧
      (c.w.parts.mapIdx (fun i p => decide (i ≠ c.idx → lowestLane p.lanes ≠ lowestLane c.p.lanes))).all id = true ∧
      liveLanes c.w &&& quadLanes (entryAll hi).expect &&& ~~~((entryAll hi).arrived ||| c.p.lanes) = 0) ∧
    (∃ c, Issues (withW (two id id)) c 0x009 always ∧ c.p.handler = none ∧ c.p.paths = [] ∧
      ∃ p, 1 ≠ c.idx ∧ c.w.parts[1]? = some p ∧ p.wait ≠ .fuse) ∧
    (∃ c, Issues (withW (two id (fun p => { p with wait := .fuse }))) c 0x009 always ∧ c.p.handler = none ∧
      c.p.paths = [] ∧ c.p.frozen = none ∧
      (c.w.parts.mapIdx (fun i p => decide (i ≠ c.idx → p.wait = .fuse ∧ p.frozen = none))).all id = true) :=
  ⟨wit _ st_some (by decide +kernel) (by decide +kernel), wit _ (by decide +kernel) (by decide +kernel) (by decide +kernel),
    wit _ (by decide +kernel) (by decide +kernel) (by decide +kernel),
    wit _ (by decide +kernel) (by decide +kernel) ⟨by decide +kernel, by decide +kernel, half hi, by decide +kernel⟩,
    wit _ (by decide +kernel) (by decide +kernel) (by decide +kernel)⟩

theorem witness_EndingLanes :
    (∃ c, Issues st c 0x00B (never always) ∧ c.activeLanes (never always) = 0 ∧ c.p.exec ≠ 0) ∧
    (∃ c, Issues (withW halfP0) c 0x00B (never always) ∧ c.activeLanes (never always) ≠ 0 ∧
      c.activeLanes (never always) ≠ c.p.exec) ∧
    (∃ c, Issues st c 0x00B always ∧ c.activeLanes always = c.p.exec ∧ c.p.paths = []) ∧
    (∃ c, Issues st c 0x00C always ∧ c.activeLanes always ≠ 0) ∧
    (∃ c, Issues st c 0x00C (never always) ∧ c.activeLanes (never always) = 0) :=
  ⟨wit _ st_some (by decide +kernel) (by decide +kernel), wit _ (by decide +kernel) (by decide +kernel) (by decide +kernel),
    wit _ st_some (by decide +kernel) (by decide +kernel), wit _ st_some (by decide +kernel) (by decide +kernel),
    wit _ st_some (by decide +kernel) (by decide +kernel)⟩

/-- An entry at which both parts of a wave are parked. -/
def bothParked : Wave := { two (fun p => { p with wait := .parked 0 }) (fun p => { p with wait := .parked 0 }) fetchWave with rejoin := [entryAll (BitVec.allOnes 64)] }
theorem witness_SettleEntry : bothParked.rejoin.find? (fun x => x.idx = (entryAll (BitVec.allOnes 64)).idx) = some (entryAll (BitVec.allOnes 64)) ∧
    (entryAll (BitVec.allOnes 64)).miss = false ∧ (entryAll (BitVec.allOnes 64)).expect &&& quadsOf (liveLanes bothParked) ≠ 0 ∧
    liveLanes bothParked &&& quadLanes (entryAll (BitVec.allOnes 64)).expect &&& ~~~(entryAll (BitVec.allOnes 64)).arrived = 0 ∧
    (∀ p ∈ bothParked.parts, p.lanes ≠ 0 ∧ ∀ q ∈ bothParked.parts, lowestLane p.lanes = lowestLane q.lanes → p = q) ∧
    ∃ p ∈ bothParked.parts, p.wait = .parked 0 := by decide +kernel

/-- A path set aside. -/
def path1 : Path := ⟨1, 1, 1, 0⟩
/-- Pending paths of a part, and paths that a trap has set aside. -/
theorem witness_LastPath :
    (∃ c, Issues (withP (fun p => { p with run := lo, exec := lo, paths := [path1] })) c 0x00B always ∧ c.activeLanes always = c.p.exec ∧
      c.p.paths = [path1] ∧ path1.parkedAt = 0) ∧
    (∃ c, Issues (withP (fun p => { p with run := lo, exec := lo, handler := some ⟨[path1], none⟩ })) c 0x00B always ∧
      c.activeLanes always = c.p.exec ∧ c.p.paths = [] ∧ (c.p.handler.map (·.aside)).getD [] = [path1]) :=
  ⟨wit _ (by decide +kernel) (by decide +kernel) (by decide +kernel), wit _ (by decide +kernel) (by decide +kernel) (by decide +kernel)⟩

/-! Checks and traps. -/

/-- An unassigned opcode at the ends of the range 0x1D3-0x1FF of 05 R99. -/
theorem witness_UnassignedOpcodes : ∃ c, partAt st st.cur = some c ∧
    ∀ op ∈ [0x1D3, 0x1FF], unassigned op ∧ c.stepEnds op (wordFields (BitVec.ofNat 96 (op * 2 ^ 87))) = false :=
  ⟨cx, cx_at, by unfold unassigned; decide +kernel⟩

/-- A load of v9 in flight for lane 0: on its way to its owner; and there, its four bytes at address 0 not yet read. -/
def loadOnWay : Load :=
  { id := 0, seq := 0, dst := .vec (some 9) 0 0, part := BitVec.allOnes 64, regs := [9], lanes := [{ lane := 0, va := 0 }]
    acq := none, maySplit := false, mask := 1 }
def arrived0 (data : Option (List Byte)) : LoadLane := { lane := 0, va := 0, arrived := true, phys := [{ va := 0, n := 4, key := some 0x10000, data := data }] }
def loadInFlight : Load := { loadOnWay with lanes := [arrived0 none], settled := true }

/-- Each check fails alone: an operand outside 06 R103, a modifier not allowed, RT, a latch read with no window, a
register that a load in flight holds, a tag, a width beyond a wave of 32 lanes, a width not met. -/
theorem witness_ChecksBeforeIssue :
    (∃ c, partAt st st.cur = some c ∧ (Instr.vadd always).word? = some (0x040, 0, always) ∧
      c.stepEnds 0x040 always = false ∧ modifiersOk 0x040 always = true ∧ operandsOk c.w.limits 0x040 always = true ∧
      operandsOk c.w.limits 0x040 (R 256 0 0 0) = false ∧ modifiersOk 0x080 (R 0 0 0 7) = false ∧
      latchCheck c.p 0x040 { always with al := true } c.cyc c.s.freeCount ≠ none ∧
      decodeCheck c 0x040 { always with al := true } = none ∧ busy c 0x040 { always with al := true } = false ∧ c.p.handler = none) ∧
    (∃ c, partAt (withG (fun g => { g with kernel := { g.kernel with code := { fetchCode with gang := true } } })) ⟨0, 0, 0⟩ =
      some c ∧ notInGang 0x002 = true) ∧
    (∃ c, partAt (withW (fun w => { w with tags := kset 0 w.tags 0 tagI32, loads := [loadInFlight] }))
      ⟨0, 0, 0⟩ = some c ∧ decodeCheck c 0x080 always = none ∧ busy c 0x080 always = false ∧
      tagsOk (c.inWindow 0x080 always) 0x080 always = false ∧ busy c 0x080 (R 9 0 0 0) = true) ∧
    (∃ c, partAt (withW (fun w => { w with width := 32, parts := [half lo] })) ⟨0, 0, 0⟩ = some c ∧
      decodeCheck c 0x060 (R 0 0 0 4) = none ∧ busy c 0x060 (R 0 0 0 4) = false ∧
      tagsOk (c.inWindow 0x060 (R 0 0 0 4)) 0x060 (R 0 0 0 4) = true ∧ c.w.width < widthOf c 0x060 (R 0 0 0 4)) ∧
    (∃ c, partAt (withW (two id id)) ⟨0, 0, 0⟩ = some c ∧ decodeCheck c 0x060 (R 0 0 0 4) = none ∧
      busy c 0x060 (R 0 0 0 4) = false ∧ tagsOk (c.inWindow 0x060 (R 0 0 0 4)) 0x060 (R 0 0 0 4) = true ∧
      widthOf c 0x060 (R 0 0 0 4) ≤ c.w.width ∧ meetsWidth c.w c.p (widthOf c 0x060 (R 0 0 0 4)) = false) :=
  ⟨⟨cx, cx_at, by decide +kernel⟩, ⟨cxOf _ (by decide +kernel), cxOf_at _ _, by decide +kernel⟩,
    ⟨cxOf _ (by decide +kernel), cxOf_at _ _, by decide +kernel⟩, ⟨cxOf _ (by decide +kernel), cxOf_at _ _, by decide +kernel⟩,
    ⟨cxOf _ (by decide +kernel), cxOf_at _ _, by decide +kernel⟩⟩

/-- A declared handler at word 3. -/
def withHandler : State := withG (fun g => { g with kernel := { g.kernel with handler := some 3 } })
/-- A part in handler mode. -/
def handling (aside : List Path) : State := withP (fun p => { p with handler := some ⟨aside, none⟩ })

theorem witness_HandlerEntry : ∃ c, partAt withHandler withHandler.cur = some c ∧ c.p.handler = none ∧
    c.k.catchBpt = false ∧ declaredHandler c.g = some (none, 3) :=
  ⟨cxOf _ (by decide +kernel), cxOf_at _ _, by decide +kernel⟩

theorem witness_TrapFreeze :
    (∃ c, partAt st st.cur = some c ∧ c.k.catchBpt = false ∧ c.p.handler = none ∧ declaredHandler c.g = none) ∧
    (∃ c, partAt (handling []) (handling []).cur = some c ∧ c.k.catchBpt = false ∧ c.p.handler ≠ none) :=
  ⟨⟨cx, cx_at, by decide +kernel⟩, cxOf _ (by decide +kernel), cxOf_at _ _, by decide +kernel⟩

theorem witness_TrapEntryAndReturn :
    (∀ op ∈ [0x00D, 0x00E], (∃ c, Issues st c op always ∧ c.activeLanes always ≠ 0) ∧
      ∃ c, Issues st c op (never always) ∧ c.activeLanes (never always) = 0) ∧
    (∀ op ∈ [0x002, 0x008, 0x009, 0x0A8, 0x0A9], ∃ c, Issues (handling []) c op always ∧ c.p.handler ≠ none) ∧
    (∃ c, Issues (withP (fun p => { p with handler := some ⟨[], none⟩, paths := [path1] })) c 0x00F always ∧
      c.p.handler ≠ none ∧ c.p.paths ≠ []) ∧
    (∃ c, Issues st c 0x00F always ∧ c.p.handler = none) ∧
    (∃ c, Issues (handling [path1]) c 0x00F always ∧ c.p.handler ≠ none ∧ c.p.paths = [] ∧
      (c.issued 0x00F always).readRecord.2 = false ∧ c.p.handler = some ⟨[path1], none⟩) := by
  refine ⟨?_, ?_, wit _ (by decide +kernel) (by decide +kernel) (by decide +kernel), wit _ st_some (by decide +kernel) (by decide +kernel),
    wit _ (by decide +kernel) (by decide +kernel) (by decide +kernel)⟩
  · have h : ∀ op ∈ [0x00D, 0x00E], issuesIn cx op always = true ∧ issuesIn cx op (never always) = true := by decide +kernel
    exact fun op ho => ⟨wit _ st_some (h op ho).1 (by decide +kernel), wit _ st_some (h op ho).2 (by decide +kernel)⟩
  · have h : ∀ op ∈ [0x002, 0x008, 0x009, 0x0A8, 0x0A9], issuesIn (cxOf (handling []) (by decide +kernel)) op always = true := by
      decide +kernel
    exact fun op ho => wit _ _ (h op ho) (by decide +kernel)

/-- A trap raised beside another part, in a wave that runs and in one that froze. -/
def raisedIn (frozen : Option Byte) : State :=
  withW (fun w => { two (fun p => { p with raised := some { cause := 0x20 } }) id w with frozen := frozen })
theorem witness_Raised : ∀ frozen ∈ [none, some 0x41], ∃ c, partAt (raisedIn frozen) ⟨0, 0, 0⟩ = some c ∧ 1 < c.w.parts.length ∧
    c.p.raised = some { cause := 0x20 } ∧ c.w.frozen = frozen ∧ c.p.marked = false ∧ c.p.handler = none := by
  intro frozen hf
  simp only [List.mem_cons, List.mem_nil_iff, or_false] at hf
  obtain rfl | rfl := hf
  · exact ⟨cxOf (raisedIn none) (by decide +kernel), cxOf_at _ _, by decide +kernel⟩
  · exact ⟨cxOf (raisedIn (some 0x41)) (by decide +kernel), cxOf_at _ _, by decide +kernel⟩

/-! Memory. -/

/-- A load of `LoadOf` whose hypotheses hold. -/
def LoadWitness (op : Nat) (f : Fields) (size align : Fields → Nat) (addrs : Cx → Fields → Addrs) : Prop :=
  ∃ c, Issues st c op f ∧ c.held = false ∧ c.clear (addrs c f) (size f) (align f) ∧ NoPeer (addrs c f) ∧ addrs c f ≠ []

theorem load_wit {op : Nat} {f : Fields} {size align : Fields → Nat} {addrs : Cx → Fields → Addrs}
    (h : (issuesIn cx op f && !cx.held && (addrs cx f).all (fun x => decide (x.2.toNat + size f ≤ 2 ^ 57) &&
      decide (x.2.toNat % align f = 0) && !lockedGlobal cx.k cx.g.asn x.2 (size f)) &&
      (addrs cx f).all (fun x => !isPeerVa x.2) && !(addrs cx f).isEmpty) = true) : LoadWitness op f size align addrs := by
  simp only [Bool.and_eq_true, Bool.not_eq_true', decide_eq_true_eq, List.all_eq_true] at h
  exact ⟨cx, issues_st h.1.1.1.1, h.1.1.1.2, fun x hx => ⟨(h.1.1.2 x hx).1.1, fun _ => (h.1.1.2 x hx).1.2, (h.1.1.2 x hx).2⟩,
    h.1.2, by simpa using h.2⟩

theorem witness_GlobalLoads :
    LoadWitness 0x0C0 (R 5 264 0 0) (fun f => szBytes (mmType f % 8)) (fun f => szBytes (mmType f % 8))
      (fun c f => c.contig f (szBytes (mmType f % 8))) ∧
    LoadWitness 0x0C6 (R 5 2 0 0) (fun f => szBytes (mmType f % 8)) (fun f => szBytes (mmType f % 8)) Cx.laneAddrs ∧
    LoadWitness 0x0C2 (R 5 264 0 0) (fun _ => 4) (fun _ => 4) (fun c f => c.contig f 4) ∧
    LoadWitness 0x0C8 (R 5 2 0 0) (fun _ => 4) (fun _ => 4) Cx.laneAddrs ∧
    LoadWitness 0x0C3 (R 16 264 0 0) (fun f => blkBytes (mmType f % 8)) (fun f => blkAlign (mmType f % 8))
      (fun c f => c.contig f (blkBytes (mmType f % 8))) ∧
    LoadWitness 0x0D2 (R 260 264 0 0) (fun f => szBytes (mmType f % 8)) (fun f => szBytes (mmType f % 8)) Cx.scalarAddr ∧
    LoadWitness 0x0D4 (R 260 264 0 0) (fun _ => 4) (fun _ => 4) Cx.scalarAddr ∧
    LoadWitness 0x0EF (R 260 264 0 0) (fun _ => 32) (fun _ => 32) Cx.scalarAddr :=
  ⟨load_wit (by decide +kernel), load_wit (by decide +kernel), load_wit (by decide +kernel), load_wit (by decide +kernel),
    load_wit (by decide +kernel), load_wit (by decide +kernel), load_wit (by decide +kernel), load_wit (by decide +kernel)⟩

theorem release_of {c : Cx} {own : Option Nat} (h : c.releaseWaits own = false) : c.mayRelease own := by
  intro scope hs
  simpa [Cx.releaseWaits, hs] using h

theorem waits_of {c : Cx} {own : Option Nat} (h : c.releaseWaits own = true) : ¬ c.mayRelease own := by
  intro hm
  unfold Cx.releaseWaits at h
  cases hs : c.release own with
  | none => simp [hs] at h
  | some scope => simp [hs, hm scope hs] at h

theorem store_of {c : Cx} {f : Fields} (h : c.held = false ∧ c.releaseWaits (storeRel f) = false) : c.mayStore f :=
  ⟨h.1, release_of h.2⟩

theorem atomic_of {c : Cx} {f : Fields} (h : c.held = false ∧ c.releaseWaits (ordRel f) = false) : c.mayAtomic f :=
  ⟨h.1, release_of h.2⟩

theorem within_of {c : Cx} {l : List (Nat × Int)} {size align : Nat}
    (h : ∀ x ∈ l, 0 ≤ x.2 ∧ x.2 + size ≤ c.g.scratch ∧ (align ≠ 0 → x.2 % align = 0) ∧
      lockedSram c.k (c.g.base + x.2.toNat) size = false) : c.within l size align := h
theorem sound_of {c : Cx} {l : List (Nat × Int)} {size : Nat}
    (h : ∀ x ∈ l, c.spBad x.2 size = false) : c.sound l size := h

theorem witness_Stores :
    (∃ c, Issues st c 0x0C1 (R 0 264 5 0) ∧ c.held = false ∧ c.clear (c.contig (R 0 264 5 0) 4) 4 4) ∧
    (∃ c, Issues st c 0x0C7 (R 0 2 5 0) ∧ c.held = false ∧ c.clear (c.laneAddrs (R 0 2 5 0)) 4 4) ∧
    (∃ c, Issues st c 0x0D3 (R 0 264 272 0) ∧ c.held = false ∧ c.clear (c.scalarAddr (R 0 264 272 0)) 4 4) ∧
    (∃ c, Issues st c 0x0C4 (R 0 264 16 0) ∧ c.held = false ∧ c.clear (c.contig (R 0 264 16 0) (blkBytes 0)) (blkBytes 0) (blkAlign 0)) ∧
    (∃ c, Issues st c 0x0CB (R 0 264 5 0) ∧ c.mayStore (R 0 264 5 0) ∧ c.within (c.spContig (R 0 264 5 0) 4) 4 4) ∧
    (∃ c, Issues st c 0x0D0 (R 0 2 5 0) ∧ c.mayStore (R 0 2 5 0) ∧ c.within ((c.issued 0x0D0 (R 0 2 5 0)).spLanes (R 0 2 5 0)) 4 4) ∧
    (∃ c, Issues st c 0x0CE (R 0 264 16 0) ∧ c.mayStore (R 0 264 16 0) ∧
      c.within (c.spContig (R 0 264 16 0) (blkBytes 0)) (blkBytes 0) (blkAlign 0)) ∧
    (∃ c, Issues st c 0x0D8 (R 0 264 272 0) ∧ c.mayStore (R 0 264 272 0) ∧ c.within (c.spScalar (R 0 264 272 0)) 4 4) := by
  unfold Cx.clear
  exact ⟨wit _ st_some (by decide +kernel) (by decide +kernel), wit _ st_some (by decide +kernel) (by decide +kernel),
    wit _ st_some (by decide +kernel) (by decide +kernel), wit _ st_some (by decide +kernel) (by decide +kernel),
    wit _ st_some (by decide +kernel) ⟨store_of (by decide +kernel), within_of (by decide +kernel)⟩,
    wit _ st_some (by decide +kernel) ⟨store_of (by decide +kernel), within_of (by decide +kernel)⟩,
    wit _ st_some (by decide +kernel) ⟨store_of (by decide +kernel), within_of (by decide +kernel)⟩,
    wit _ st_some (by decide +kernel) ⟨store_of (by decide +kernel), within_of (by decide +kernel)⟩⟩

theorem witness_ScratchLoads :
    (∃ c, Issues st c 0x0CA (R 5 264 0 0) ∧ c.held = false ∧ c.within (c.spContig (R 5 264 0 0) 4) 4 4 ∧
      c.sound (c.spContig (R 5 264 0 0) 4) 4) ∧
    (∃ c, Issues st c 0x0CC (R 5 264 0 0) ∧ c.held = false ∧ c.within (c.spContig (R 5 264 0 0) 4) 4 4 ∧
      c.sound (c.spContig (R 5 264 0 0) 4) 4) ∧
    (∃ c, Issues st c 0x0CF (R 5 2 0 0) ∧ c.held = false ∧ c.within ((c.issued 0x0CF (R 5 2 0 0)).spLanes (R 5 2 0 0)) 4 4 ∧
      c.sound ((c.issued 0x0CF (R 5 2 0 0)).spLanes (R 5 2 0 0)) 4) ∧
    (∃ c, Issues st c 0x0D1 (R 5 2 0 0) ∧ c.held = false ∧ c.within ((c.issued 0x0D1 (R 5 2 0 0)).spLanes (R 5 2 0 0)) 4 4 ∧
      c.sound ((c.issued 0x0D1 (R 5 2 0 0)).spLanes (R 5 2 0 0)) 4) ∧
    (∃ c, Issues st c 0x0CD (R 16 264 0 0) ∧ c.held = false ∧ c.within (c.spContig (R 16 264 0 0) (blkBytes 0)) (blkBytes 0) (blkAlign 0) ∧
      c.sound (c.spContig (R 16 264 0 0) (blkBytes 0)) (blkBytes 0)) ∧
    (∃ c, Issues st c 0x0D7 (R 260 264 0 0) ∧ c.held = false ∧ c.within (c.spScalar (R 260 264 0 0)) 4 4 ∧
      c.sound (c.spScalar (R 260 264 0 0)) 4) :=
  ⟨wit _ st_some (by decide +kernel) ⟨by decide +kernel, within_of (by decide +kernel), sound_of (by decide +kernel)⟩,
    wit _ st_some (by decide +kernel) ⟨by decide +kernel, within_of (by decide +kernel), sound_of (by decide +kernel)⟩,
    wit _ st_some (by decide +kernel) ⟨by decide +kernel, within_of (by decide +kernel), sound_of (by decide +kernel)⟩,
    wit _ st_some (by decide +kernel) ⟨by decide +kernel, within_of (by decide +kernel), sound_of (by decide +kernel)⟩,
    wit _ st_some (by decide +kernel) ⟨by decide +kernel, within_of (by decide +kernel), sound_of (by decide +kernel)⟩,
    wit _ st_some (by decide +kernel) ⟨by decide +kernel, within_of (by decide +kernel), sound_of (by decide +kernel)⟩⟩

/-- The part waits for its acquiring load. -/
def acquiring : State :=
  withW (fun w => { w with loads := [loadInFlight], parts := w.parts.map (fun p => { p with holds := [0] }) })

theorem witness_CachesAndFences :
    (∀ x ∈ [(0x0C5, R 0 264 0 0), (0x0C9, R 0 2 0 0)], ∃ c, Issues st c x.1 x.2 ∧ c.held = false) ∧
    (∀ f ∈ [R 0 264 0 0, R 0 264 0 0x100000, R 0 264 0 0x200000, R 0 264 0 0x300000], ∃ c, Issues st c 0x0D5 f ∧
      (c.basePair f + offWord f).toNat < 2 ^ 57 ∧ c.activeLanes f ≠ 0 ∧ c.held = false) ∧
    (∃ c, Issues acquiring c 0x0D5 (R 0 264 0 0) ∧ c.activeLanes (R 0 264 0 0) ≠ 0 ∧ c.held = true) ∧
    (∀ f ∈ [R 0 0 0 0, R 0 0 0 5], ∃ c, Issues st c 0x0D6 f ∧ c.performed (f.x.toNat % 8) = true) ∧
    (∃ c, Issues st c 0x0D6 (R 0 0 0 12) ∧ c.activeLanes (R 0 0 0 12) ≠ 0 ∧ c.fenced = false ∧
      ∀ ld ∈ c.w.loads, ld.part &&& c.p.lanes = 0) ∧
    (∃ c, Issues st c 0x0D6 (R 0 0 0 20) ∧ c.activeLanes (R 0 0 0 20) ≠ 0 ∧ c.held = false ∧ (R 0 0 0 20).lw = false) := by
  have h1 : ∀ f ∈ [R 0 264 0 0, R 0 264 0 0x100000, R 0 264 0 0x200000, R 0 264 0 0x300000], issuesIn cx 0x0D5 f = true ∧
      (cx.basePair f + offWord f).toNat < 2 ^ 57 ∧ cx.activeLanes f ≠ 0 ∧ cx.held = false := by decide +kernel
  have h2 : ∀ f ∈ [R 0 0 0 0, R 0 0 0 5], issuesIn cx 0x0D6 f = true ∧ cx.performed (f.x.toNat % 8) = true := by decide +kernel
  have h0 : ∀ x ∈ [(0x0C5, R 0 264 0 0), (0x0C9, R 0 2 0 0)], issuesIn cx x.1 x.2 = true ∧ cx.held = false := by decide +kernel
  exact ⟨fun x hx => ⟨cx, issues_st (h0 x hx).1, (h0 x hx).2⟩, fun f hf => ⟨cx, issues_st (h1 f hf).1, (h1 f hf).2⟩,
    wit _ (by decide +kernel) (by decide +kernel) (by decide +kernel),
    fun f hf => ⟨cx, issues_st (h2 f hf).1, (h2 f hf).2⟩, wit _ st_some (by decide +kernel) (by decide +kernel),
    wit _ st_some (by decide +kernel) (by decide +kernel)⟩

/-- Atomics in memory, of v4 and v5 by lane, or of s8, at addresses that lie in order. -/
theorem witness_GlobalAtomicResults :
    (∀ op ∈ List.range' 0x0E0 13, ∃ c, Issues st c op (R 5 2 6 0) ∧ c.held = false ∧ c.clear (c.laneAddrs (R 5 2 6 0)) 4 4 ∧
      c.laneAddrs (R 5 2 6 0) ≠ []) ∧
    (∀ op ∈ List.range' 0x0F0 13, ∃ c, Issues st c op (R 260 264 272 0) ∧ c.held = false ∧
      c.clear (c.scalarAddr (R 260 264 272 0)) 4 4 ∧ c.scalarAddr (R 260 264 272 0) ≠ []) := by
  unfold Cx.clear
  have h1 : ∀ op ∈ List.range' 0x0E0 13, issuesIn cx op (R 5 2 6 0) = true := by decide +kernel
  have h2 : ∀ op ∈ List.range' 0x0F0 13, issuesIn cx op (R 260 264 272 0) = true := by decide +kernel
  exact ⟨fun op ho => wit _ st_some (h1 op ho) (by decide +kernel), fun op ho => wit _ st_some (h2 op ho) (by decide +kernel)⟩

theorem witness_ScratchAtomics :
    (∀ op ∈ List.range' 0x100 13, ∃ c, Issues st c op (R 5 2 6 0) ∧ c.mayAtomic (R 5 2 6 0) ∧
      c.within ((c.issued op (R 5 2 6 0)).spLanes (R 5 2 6 0)) 4 4 ∧ c.sound ((c.issued op (R 5 2 6 0)).spLanes (R 5 2 6 0)) 4) ∧
    (∀ op ∈ List.range' 0x110 13, ∃ c, Issues st c op (R 260 264 272 0) ∧ c.mayAtomic (R 260 264 272 0) ∧
      c.within (c.spScalar (R 260 264 272 0)) 4 4 ∧ c.sound (c.spScalar (R 260 264 272 0)) 4) := by
  unfold Cx.within Cx.sound
  have h1 : ∀ op ∈ List.range' 0x100 13, issuesIn cx op (R 5 2 6 0) = true ∧
      (∀ x ∈ (cx.issued op (R 5 2 6 0)).spLanes (R 5 2 6 0), 0 ≤ x.2 ∧ x.2 + (4 : Nat) ≤ cx.g.scratch ∧ (4 ≠ 0 → x.2 % (4 : Nat) = 0) ∧
        lockedSram cx.k (cx.g.base + x.2.toNat) 4 = false) ∧
      ∀ x ∈ (cx.issued op (R 5 2 6 0)).spLanes (R 5 2 6 0), cx.spBad x.2 4 = false := by decide +kernel
  have h2 : ∀ op ∈ List.range' 0x110 13, issuesIn cx op (R 260 264 272 0) = true := by decide +kernel
  exact ⟨fun op ho => ⟨cx, issues_st (h1 op ho).1, atomic_of (by decide +kernel), (h1 op ho).2⟩,
    fun op ho => wit _ st_some (h2 op ho) ⟨atomic_of (by decide +kernel), by decide +kernel⟩⟩

theorem witness_DeterministicSums :
    (∃ c, Issues st c 0x0ED (R 0 2 7 0) ∧ c.held = false ∧ c.clear (c.laneAddrs (R 0 2 7 0)) 32 32 ∧ c.laneAddrs (R 0 2 7 0) ≠ [] ∧
      ordAcq (R 0 2 7 0) = none) ∧
    (∃ c, Issues st c 0x0EE (R 0 264 272 0) ∧ c.held = false ∧ c.clear (c.scalarAddr (R 0 264 272 0)) 32 32 ∧
      c.activeLanes (R 0 264 272 0) ≠ 0 ∧ ordAcq (R 0 264 272 0) = none) := by
  unfold Cx.clear
  exact ⟨wit _ st_some (by decide +kernel) (by decide +kernel), wit _ st_some (by decide +kernel) (by decide +kernel)⟩

/-! Engines, handles, bobbins, barriers, queues, the array. -/

theorem finite_of {v : FVal} (h : (match v with | .num _ _ _ => true | _ => false) = true) : v.finite := by
  cases v <;> simp_all [FVal.finite]

theorem witness_ExactValues : ∃ (a b : FVal) (k : Int) (w inf : Word), a.finite ∧ b.finite ∧ -1024 ≤ k ∧ k ≤ 1024 ∧
    Reference.expo w < 255 ∧ Reference.expo inf = 255 ∧ Reference.frac inf = 0 :=
  ⟨.num false 1 0, .num true 1 (-149), 1024, 0x00000001, 0xFF800000, trivial, trivial, by decide +kernel⟩

theorem witness_RoundedOnce :
    (∃ (mode : Nat) (v : FVal), mode < 4 ∧ v.finite ∧ v.value ≠ 0 ∧ (f32 (toF32 mode v)).finite ∧ |v.value| < 2 ^ 128) ∧
    ∃ (mode : Nat) (v : FVal), mode < 4 ∧ v.finite ∧ v.value ≠ 0 ∧ ¬ (f32 (toF32 mode v)).finite := by
  refine ⟨⟨3, .num true 1 (-1), by decide, trivial, by norm_num [FVal.value], finite_of (by decide +kernel), by norm_num [FVal.value]⟩,
    0, .num false 1 128, by decide, trivial, by norm_num [FVal.value], fun h => ?_⟩
  have h1 : f32 (toF32 0 (.num false 1 128)) = .inf false := by decide +kernel
  simp [h1, FVal.finite] at h

theorem witness_SfuNearest : ∃ a : Word, (f32 a).finite ∧ 0 < (f32 a).value ∧ (f32 (sfuRcp a)).finite := by
  have h : f32 0x40400000 = .num false 12582912 (-22) := by decide +kernel
  exact ⟨0x40400000, by rw [h]; trivial, by rw [h]; norm_num [FVal.value], finite_of (by decide +kernel)⟩

/-- The least positive number, whose reciprocal overflows (10 R203). -/
theorem witness_SfuOverflow : ∃ a : Word, (f32 a).finite ∧ (f32 a).value ≠ 0 ∧ ¬ (f32 (sfuRcp a)).finite := by
  have h : f32 0x00000001 = .num false 1 (-149) := by decide +kernel
  have h1 : f32 (sfuRcp 0x00000001) = .inf false := by decide +kernel
  exact ⟨0x00000001, by rw [h]; trivial, by rw [h]; norm_num [FVal.value], by rw [h1]; exact id⟩

theorem witness_ConvertFinite : ∃ x : Word, (f32 x).finite ∧ |(f32 x).value| < 2 ^ 31 - 1 ∧ (f32 x).value ≠ 0 ∧
    |(f32 x).value| ≤ 65504 := by
  have h : f32 0xC0400000 = .num true 12582912 (-22) := by decide +kernel
  exact ⟨0xC0400000, by rw [h]; trivial, by rw [h]; norm_num [FVal.value], by rw [h]; norm_num [FVal.value],
    by rw [h]; norm_num [FVal.value]⟩

/-- Types 0, 1 and 2 of a reduction, in MOD[4:3] (10 R215). -/
theorem witness_VotesAndReductions : ∀ x ∈ [([0x066, 0x067], R 393 394 0 0), ([0x068], R 401 394 0 0),
    ([0x06C, 0x069, 0x06A, 0x06B], R 5 1 0 0), ([0x069, 0x06A, 0x06B], R 5 1 0 8), ([0x069, 0x06A, 0x06B], R 5 1 0 16)],
    ∀ op ∈ x.1, ∃ c, Issues st c op x.2 := issued _ (by decide +kernel)

/-- Every function code that has a function, and one that has none; a full range-lock table. -/
theorem witness_EngineIssue :
    (∀ fn ∈ [0x00, 0x01, 0x02, 0x03, 0x04, 0x05, 0x10, 0x11, 0x18, 0x20, 0x21, 0x22, 0x28, 0x7F],
      ∃ c, Issues st c 0x0B5 (R 409 264 272 fn) ∧ c.activeLanes (R 409 264 272 fn) ≠ 0 ∧ c.held = false ∧
        freeFut c.k 0 64 = some 0 ∧ c.k.locks.length + 3 ≤ 32) ∧
    (∃ c, Issues (withK (fun k => { k with locks := List.replicate 32 ⟨0, 0, 1, false, 0⟩ })) c 0x0B5 (R 409 264 272 0) ∧
      c.activeLanes (R 409 264 272 0) ≠ 0 ∧ 32 < c.k.locks.length + 1) ∧
    (∃ c, Issues st c 0x0B5 (never (R 409 264 272 0)) ∧ c.activeLanes (never (R 409 264 272 0)) = 0) := by
  have h : ∀ fn ∈ [0x00, 0x01, 0x02, 0x03, 0x04, 0x05, 0x10, 0x11, 0x18, 0x20, 0x21, 0x22, 0x28, 0x7F],
    issuesIn cx 0x0B5 (R 409 264 272 fn) = true ∧ cx.activeLanes (R 409 264 272 fn) ≠ 0 := by decide +kernel
  exact ⟨fun fn hf => ⟨cx, issues_st (h fn hf).1, (h fn hf).2, by decide +kernel⟩,
    wit _ (by decide +kernel) (by decide +kernel) (by decide +kernel), wit _ st_some (by decide +kernel) (by decide +kernel)⟩

/-- h1 names entry i of the future table, which stands in a phase; a job in that slot, frozen or not. -/
def withFuture (i phase : Nat) (j : JobPhase) : State :=
  let job : Job := { fn := 0, scope := 4, params := List.replicate 8 0, phase := j, serial := 0, slot := 0, region := fetchRegion, asn := 1, launch := 0, wgId := 0, base := 0, scratch := 4096, pc := 0 }
  mk (fun k => { k with futs := [(i, { gen := 1, phase := phase, owner := fetchRegion, status := 0x45 })], jobs := [(i, some job)] })
    id id (fun p => { p with h := [(1, handle 1 i 1)] })

theorem witness_Handles :
    (∀ op ∈ [0x0B0, 0x0B1, 0x0B2], ∃ c, Issues st c op (R (if op = 0x0B0 then 0 else 260) 409 0 0) ∧
      c.activeLanes (R 260 409 0 0) ≠ 0 ∧ (c.readH 1).toNat / 2 ^ 30 = 0) ∧
    (∃ c, Issues (withFuture 0 1 .running) c 0x0B0 (R 0 409 0 0) ∧ c.activeLanes (R 0 409 0 0) ≠ 0 ∧ (readHandle c.k (c.readH 1)).1 = 1) ∧
    (∃ c, Issues (withFuture 127 2 .running) c 0x0B0 (R 0 409 0 0) ∧ c.activeLanes (R 0 409 0 0) ≠ 0 ∧ (readHandle c.k (c.readH 1)).1 = 2) ∧
    (∃ c, Issues (withFuture 127 2 .running) c 0x0B1 (R 260 409 0 0) ∧ (c.readH 1).toNat / 2 ^ 30 ≠ 0) ∧
    (∃ c, Issues (withFuture 0 2 .running) c 0x0B2 (R 260 409 0 0) ∧ (readHandle c.k (c.readH 1)).1 = 2) ∧
    (∃ c, Issues (withFuture 64 1 .running) c 0x0B2 (R 260 409 0 0) ∧ (readHandle c.k (c.readH 1)).1 = 1 ∧
      64 ≤ (c.readH 1).toNat / 2 ^ 16 % 2 ^ 8) ∧
    (∃ c, Issues (withFuture 63 1 (.frozen 0x40)) c 0x0B2 (R 260 409 0 0) ∧ (readHandle c.k (c.readH 1)).1 = 1 ∧
      (c.readH 1).toNat / 2 ^ 16 % 2 ^ 8 < 64 ∧ (kget none c.k.jobs 63).map Job.phase = some (.frozen 0x40)) ∧
    (∃ c, Issues (withFuture 63 1 .running) c 0x0B2 (R 260 409 0 0) ∧ c.activeLanes (R 260 409 0 0) ≠ 0 ∧
      (readHandle c.k (c.readH 1)).1 = 1 ∧ (kget none c.k.jobs 63).map Job.phase = some .running ∧
      (kget none c.k.jobs 63).map Job.fn = some 0) ∧
    (∃ c, Issues st c 0x0B3 (R 409 264 0 0) ∧ c.activeLanes (R 409 264 0 0) ≠ 0 ∧ (c.operand 0x0B3 (R 409 264 0 0) 0 .int 0).toNat = 0) ∧
    (∃ c, Issues (withP (fun p => { p with s := [(8, 0xC0000000)] })) c 0x0B3 (R 409 264 0 0) ∧ c.activeLanes (R 409 264 0 0) ≠ 0 ∧
      (c.operand 0x0B3 (R 409 264 0 0) 0 .int 0).toNat / 2 ^ 30 = 3) ∧
    (∃ c, Issues st c 0x0B4 (R 260 409 0 0)) ∧
    (∃ c, Issues st c 0x0B0 (never (R 0 409 0 0)) ∧ c.activeLanes (never (R 0 409 0 0)) = 0) := by
  have h : ∀ op ∈ [0x0B0, 0x0B1, 0x0B2], issuesIn cx op (R (if op = 0x0B0 then 0 else 260) 409 0 0) = true := by decide +kernel
  exact ⟨fun op ho => ⟨cx, issues_st (h op ho), by decide +kernel⟩, wit _ (by decide +kernel) (by decide +kernel) (by decide +kernel),
    wit _ (by decide +kernel) (by decide +kernel) (by decide +kernel), wit _ (by decide +kernel) (by decide +kernel) (by decide +kernel),
    wit _ (by decide +kernel) (by decide +kernel) (by decide +kernel), wit _ (by decide +kernel) (by decide +kernel) (by decide +kernel),
    wit _ (by decide +kernel) (by decide +kernel) (by decide +kernel), wit _ (by decide +kernel) (by decide +kernel) (by decide +kernel),
    wit _ st_some (by decide +kernel) (by decide +kernel), wit _ (by decide +kernel) (by decide +kernel) (by decide +kernel),
    ⟨cx, issues_st (by decide +kernel)⟩, wit _ st_some (by decide +kernel) (by decide +kernel)⟩

theorem bobbin_of {c : Cx} {op : Nat} {f : Fields} (h : c.activeLanes f ≠ 0 ∧ c.held = false)
    (hw : c.within [(lowestLane c.p.lanes, ((c.operand op f 0 .int 0).toNat : Int))] 16 16) : c.bobbinOk op f :=
  ⟨h.1, h.2, hw⟩

/-- A store waits in the wave's queue. -/
def withStore : State := withW (fun w => { w with queue := [{ seq := 0, part := BitVec.allOnes 64, lane := 0, kind := .store [], rel := none }] })

theorem witness_Bobbins :
    (∃ c, Issues st c 0x0AA (R 0 264 272 0) ∧ c.bobbinOk 0x0AA (R 0 264 272 0) ∧ c.mayRelease none) ∧
    (∃ c, Issues st c 0x0AB (R 0 264 0 5) ∧ c.bobbinOk 0x0AB (R 0 264 0 5) ∧ c.mayRelease none) ∧
    (∃ c, Issues st c 0x0AC (R 0 264 272 0) ∧ c.bobbinOk 0x0AC (R 0 264 272 0) ∧ c.mayRelease (some 1) ∧
      anyBad c.k.sramErr (c.bobbin 0x0AC (R 0 264 272 0)) 16 = false) ∧
    (∃ c, Issues st c 0x0AD (R 0 264 0 1) ∧ c.bobbinOk 0x0AD (R 0 264 0 1) ∧ c.mayRelease (some 1) ∧
      anyBad c.k.sramErr (c.bobbin 0x0AD (R 0 264 0 1)) 16 = false) ∧
    (∃ c, Issues withStore c 0x0AD (R 0 264 0 1) ∧ c.bobbinOk 0x0AD (R 0 264 0 1) ∧ ¬ c.mayRelease (some 1)) ∧
    (∃ c, Issues st c 0x0AE (R 0 264 272 0) ∧ c.bobbinOk 0x0AE (R 0 264 272 0) ∧ anyBad c.k.sramErr (c.bobbin 0x0AE (R 0 264 272 0)) 16 = false ∧
      field (readBytes c.k.sram (c.bobbin 0x0AE (R 0 264 272 0)) 16) 8 11 = (c.operand 0x0AE (R 0 264 272 0) 1 .int 0).toNat) ∧
    (∃ c, Issues st c 0x0AF (R 0 264 0 1) ∧ c.bobbinOk 0x0AF (R 0 264 0 1) ∧ anyBad c.k.sramErr (c.bobbin 0x0AF (R 0 264 0 1)) 16 = false ∧
      field (readBytes c.k.sram (c.bobbin 0x0AF (R 0 264 0 1)) 16) 8 11 ≠ (c.operand 0x0AF (R 0 264 0 1) 1 .int 0).toNat) :=
  ⟨wit _ st_some (by decide +kernel) ⟨bobbin_of (by decide +kernel) (within_of (by decide +kernel)), release_of (by decide +kernel)⟩,
    wit _ st_some (by decide +kernel) ⟨bobbin_of (by decide +kernel) (within_of (by decide +kernel)), release_of (by decide +kernel)⟩,
    wit _ st_some (by decide +kernel) ⟨bobbin_of (by decide +kernel) (within_of (by decide +kernel)), release_of (by decide +kernel), by decide +kernel⟩,
    wit _ st_some (by decide +kernel) ⟨bobbin_of (by decide +kernel) (within_of (by decide +kernel)), release_of (by decide +kernel), by decide +kernel⟩,
    wit _ (by decide +kernel) (by decide +kernel) ⟨bobbin_of (by decide +kernel) (within_of (by decide +kernel)), waits_of (by decide +kernel)⟩,
    wit _ st_some (by decide +kernel) ⟨bobbin_of (by decide +kernel) (within_of (by decide +kernel)), by decide +kernel⟩,
    wit _ st_some (by decide +kernel) ⟨bobbin_of (by decide +kernel) (within_of (by decide +kernel)), by decide +kernel⟩⟩

/-- `Cx.numbered` and `Cx.othersAt`, computed. -/
def numberedB (c : Cx) : Bool :=
  c.g.slots.contains c.slot && c.g.slots.all (fun i => match getWave c.k i with
    | some w => decide (w.index < 16) && c.g.slots.all (fun j => match getWave c.k j with
      | some v => decide (w.index = v.index → i = j)
      | none => true)
    | none => true)

theorem numbered_of {c : Cx} (h : numberedB c = true) : c.numbered := by
  simp only [numberedB, Bool.and_eq_true, List.all_eq_true, List.contains_iff_mem] at h
  refine ⟨h.1, fun i w hi hw => ?_, fun i j w v hi hj hw hv => ?_⟩
  · have := h.2 i hi
    simp only [hw, Bool.and_eq_true, decide_eq_true_eq] at this
    exact this.1
  · have := h.2 i hi
    simp only [hw, Bool.and_eq_true, decide_eq_true_eq, List.all_eq_true] at this
    have h2 := this.2 j hj
    simp only [hv, decide_eq_true_eq] at h2
    exact h2

def othersB (c : Cx) (a : Wait) : Bool :=
  decide (c.p.frozen = none) && c.g.slots.all (fun i => match getWave c.k i with
    | some w => decide (w.frozen = none) && (w.parts.mapIdx (fun j p => decide (¬ (i = c.slot ∧ j = c.idx) → p.wait = a ∧ p.frozen = none))).all id
    | none => true)

theorem others_of {c : Cx} {a : Wait} (h : othersB c a = true) : c.othersAt a := by
  simp only [othersB, Bool.and_eq_true, decide_eq_true_eq, List.all_eq_true] at h
  refine ⟨h.1, fun i w hi hw => ?_⟩
  have h1 := h.2 i hi
  simp only [hw, Bool.and_eq_true, decide_eq_true_eq] at h1
  refine ⟨h1.1, fun j p hp hn => ?_⟩
  have h2 := List.all_eq_true.mp h1.2 _ (List.mem_mapIdx.mpr ⟨j, (List.getElem?_eq_some_iff.mp hp).1, rfl⟩)
  simp only [id, decide_eq_true_eq] at h2
  rw [(List.getElem?_eq_some_iff.mp hp).2] at h2
  exact h2 hn

/-- A launch in flight, with a Capstan counter. -/
def launch0 : Launch :=
  { acc := 0, region := fetchRegion, asn := 1, kernel := fetchKernel, gx := 1, gy := 1, gz := 1, lanes := 64, waves := 1, capstan := some 0 }

/-- The workgroup's grid barrier arrival is on its way to a counter that expects n workgroups. -/
def gbarState (n : Nat) : State :=
  { withG (fun g => { g with gbarSent := true, barKind := 2 }) with
    launches := [launch0], capstans := [(0, { expect := BitVec.ofNat 16 n, launch := some 0 })] }

theorem witness_Barriers :
    (∃ c, Issues (withW (two id id)) c 0x0A8 always ∧ c.p.handler = none ∧ c.numbered ∧
      ∃ w p, 0 ∈ c.g.slots ∧ getWave c.k 0 = some w ∧ w.parts[1]? = some p ∧ ¬ (0 = c.slot ∧ 1 = c.idx) ∧ p.wait ≠ .barrier ∧ p.wait ≠ .gbar) ∧
    (∃ c, Issues (withW (two id id)) c 0x0A9 always ∧ c.p.handler = none ∧ c.numbered ∧ c.g.kernel.gridSync = true) ∧
    (∃ c, Issues (withW (two id (fun p => { p with wait := .barrier }))) c 0x0A8 always ∧ c.p.handler = none ∧ c.numbered ∧
      c.othersAt .barrier ∧ c.g.slots = [0] ∧ (getWave c.k 0).map (fun w => (w.loads, w.queue)) = some ([], [])) ∧
    (∃ c, Issues (withW (two id (fun p => { p with wait := .gbar }))) c 0x0A9 always ∧ c.p.handler = none ∧
      c.g.kernel.gridSync = true ∧ c.numbered ∧ c.othersAt .gbar) ∧
    (∃ c, Issues (withG (fun g => { g with kernel := { g.kernel with gridSync := false } })) c 0x0A9 always ∧ c.p.handler = none ∧
      c.g.kernel.gridSync = false) ∧
    (∀ n ∈ [1, 2], ∃ g, getWg (getCore (gbarState n) 0) 0 = some g ∧ g.gbarSent = true ∧ g.gbarIn = false ∧ g.slots = [0] ∧
      (getWave (getCore (gbarState n) 0) 0).map (fun w => (w.loads, w.queue)) = some ([], []) ∧
      (getCore (gbarState n) 0).outbound = [] ∧ getLaunch (gbarState n) g.launch = some launch0 ∧
      ((getCapstan (gbarState n) 0).arrived + 1 = (getCapstan (gbarState n) 0).expect ↔ n = 1)) ∧
    (∃ g, getWg (getCore (withG (fun g => { g with gbarDue := true })) 0) 0 = some g ∧ g.gbarDue = true) :=
  ⟨wit _ (by decide +kernel) (by decide +kernel) ⟨by decide +kernel, numbered_of (by decide +kernel), two id id fetchWave, half hi, by decide +kernel⟩,
    wit _ (by decide +kernel) (by decide +kernel) ⟨by decide +kernel, numbered_of (by decide +kernel), by decide +kernel⟩,
    wit _ (by decide +kernel) (by decide +kernel) ⟨by decide +kernel, numbered_of (by decide +kernel), others_of (by decide +kernel), by decide +kernel⟩,
    wit _ (by decide +kernel) (by decide +kernel) ⟨by decide +kernel, by decide +kernel, numbered_of (by decide +kernel), others_of (by decide +kernel)⟩,
    wit _ (by decide +kernel) (by decide +kernel) (by decide +kernel),
    fun n hn => ⟨{ fetchGroup with gbarSent := true, barKind := 2 }, by revert n; decide +kernel⟩,
    ⟨{ fetchGroup with gbarDue := true }, by decide +kernel⟩⟩

/-- Queue register 0 bound to device launches; the queue closed or not; an entry at the head of the store queue. -/
def binding : QBind := { q := 0, launch := true, recBytes := 64, key := 0, timer := 0, cap := 0 }
def withQueue (closed : List Nat) (queue : List QEntry) : State :=
  mk id (fun g => { g with kernel := { g.kernel with binds := [binding] } }) (fun w => { w with closed := closed, queue := queue }) id
def qentry (k : QKind) : QEntry := { seq := 0, part := BitVec.allOnes 64, lane := 0, kind := k, rel := none }

theorem queue_some : (partAt (withQueue [] []) (withQueue [] []).cur).isSome = true := by decide +kernel

theorem witness_Queues :
    (∀ f ∈ [R 409 424 272 0, R 409 424 272 1], ∃ c, Issues (withQueue [] []) c 0x0B6 f ∧ c.activeLanes f ≠ 0 ∧ c.bound f binding ∧
      c.w.closed.contains 0 = false ∧ c.held = false ∧
      (let recs := (c.issued 0x0B6 f).spawnRecords 0x0B6 f binding
       c.within recs 64 64 ∧ c.sound recs 64 ∧ c.room binding recs.length) ∧ freeFut c.k 64 128 = some 64) ∧
    (∃ c, Issues (withQueue [0] []) c 0x0B6 (R 409 424 272 0) ∧ c.activeLanes (R 409 424 272 0) ≠ 0 ∧ c.bound (R 409 424 272 0) binding ∧
      c.w.closed.contains 0 = true) ∧
    (∀ op ∈ [0x0B7, 0x0B8], ∃ c, Issues (withQueue [] []) c op (R (if op = 0x0B7 then 260 else 0) 424 0 0) ∧
      c.bound (R 0 424 0 0) binding ∧ c.w.closed.contains 0 = false) ∧
    (∃ c, Issues (withQueue [0] []) c 0x0B8 (R 0 424 0 0) ∧ c.bound (R 0 424 0 0) binding ∧ c.w.closed.contains 0 = true) ∧
    (∃ c, Issues st c 0x0B8 (R 0 424 0 0) ∧ c.activeLanes (R 0 424 0 0) ≠ 0 ∧ ∀ b, ¬ c.bound (R 0 424 0 0) b) ∧
    (∀ x ∈ [QKind.spawn 0 [] 64, .qclose 0], ∃ h, queueHead (withQueue [] [qentry x]) 0 0 = some h ∧ h.2.2.2.kind = x ∧
      h.2.2.1.kernel.binds.find? (fun x => x.q = 0) = some binding) ∧
    (∃ c, partAt (withP (fun p => { p with stallFor := 1048577 })) ⟨0, 0, 0⟩ = some c ∧ 1048576 < c.p.stallFor) := by
  refine ⟨?_, wit _ (by decide +kernel) (by decide +kernel) ⟨by decide +kernel, ⟨by decide +kernel, .inl rfl⟩, by decide +kernel⟩, ?_,
    wit _ (by decide +kernel) (by decide +kernel) ⟨⟨by decide +kernel, .inl rfl⟩, by decide +kernel⟩,
    wit _ st_some (by decide +kernel) ⟨by decide +kernel, fun b hb => ?_⟩, ?_,
    ⟨cxOf _ (by decide +kernel), cxOf_at _ _, by decide +kernel⟩⟩
  · have h1 : ∀ f ∈ [R 409 424 272 0, R 409 424 272 1], issuesIn (cxOf _ queue_some) 0x0B6 f = true ∧
        (cxOf _ queue_some).activeLanes f ≠ 0 ∧ (cxOf _ queue_some).g.kernel.binds.find? (fun x => x.q = f.a.toNat - 424) = some binding ∧
        (∀ x ∈ ((cxOf _ queue_some).issued 0x0B6 f).spawnRecords 0x0B6 f binding, 0 ≤ x.2 ∧ x.2 + (64 : Nat) ≤ (cxOf _ queue_some).g.scratch ∧
          (64 ≠ 0 → x.2 % (64 : Nat) = 0) ∧ lockedSram (cxOf _ queue_some).k ((cxOf _ queue_some).g.base + x.2.toNat) 64 = false) ∧
        ∀ x ∈ ((cxOf _ queue_some).issued 0x0B6 f).spawnRecords 0x0B6 f binding, (cxOf _ queue_some).spBad x.2 64 = false := by
      decide +kernel
    exact fun f hf => wit _ queue_some (h1 f hf).1 ⟨(h1 f hf).2.1, ⟨(h1 f hf).2.2.1, .inl rfl⟩, by decide +kernel, by decide +kernel,
      ⟨(h1 f hf).2.2.2.1, (h1 f hf).2.2.2.2, .inl rfl⟩, by decide +kernel⟩
  · have h1 : ∀ op ∈ [0x0B7, 0x0B8], issuesIn (cxOf _ queue_some) op (R (if op = 0x0B7 then 260 else 0) 424 0 0) = true := by decide +kernel
    exact fun op ho => wit _ queue_some (h1 op ho) ⟨⟨by decide +kernel, .inl rfl⟩, by decide +kernel⟩
  · have h : (cxOf st st_some).g.kernel.binds.find? (fun x => x.q = (R 0 424 0 0).a.toNat - 424) = none := by decide +kernel
    rw [Cx.bound, h] at hb
    cases hb.1
  · have h : ∀ x ∈ [QKind.spawn 0 [] 64, .qclose 0], (queueHead (withQueue [] [qentry x]) 0 0).isSome = true ∧
        ((queueHead (withQueue [] [qentry x]) 0 0).map (fun h => h.2.2.2.kind)) = some x ∧
        ((queueHead (withQueue [] [qentry x]) 0 0).map (fun h => h.2.2.1.kernel.binds.find? (fun x => x.q = 0))) = some (some binding) := by
      decide +kernel
    intro x hx
    obtain ⟨h1, h2, h3⟩ := h x hx
    obtain ⟨y, hy⟩ := Option.isSome_iff_exists.mp h1
    exact ⟨y, hy, by simpa [hy] using h2, by simpa [hy] using h3⟩

/-- A gather descriptor of one row, and bank 0 loaded, for a format and K = 16. -/
def withBank (fmt : Nat) : State :=
  mk (fun k => { k with banks := [(0, { state := BitVec.ofNat 64 (fmt * 2 ^ 8 + 1), k := 16 })] }) id
    (fun w => { w with gather := [(0, some ⟨fmt, 16, [0]⟩)] }) id

theorem enters_of {c : Cx} {f : Fields} {i : Nat}
    (h : c.activeLanes f ≠ 0 ∧ c.held = false ∧ freeFut c.k 64 128 = some i ∧ arrayFull c.k = false) : c.entersArray f i := h

theorem witness_MatrixInstructions :
    (∃ c, Issues st c 0x1B0 (R 409 264 0 0) ∧ c.entersArray (R 409 264 0 0) 64 ∧
      c.within [(lowestLane c.p.lanes, (c.src .int false 264 0 0).toInt + offField (R 409 264 0 0).x)] (64 * lineBytes 0 16) 16) ∧
    (∃ c, Issues st c 0x1B1 (R 0 8 272 0) ∧ c.activeLanes (R 0 8 272 0) ≠ 0 ∧ c.gatherRow (R 0 8 272 0) 0 + lineBytes 0 16 ≤ c.g.scratch) ∧
    (∃ c, Issues (withBank 0) c 0x1B2 (R 409 385 0 0) ∧ c.entersArray (R 409 385 0 0) 64 ∧ c.descriptor = some ⟨0, 16, [0]⟩ ∧
      tbit (getBank c.k 0).state 0 = true ∧ (getBank c.k 0).state.toNat / 2 ^ 8 % 2 ^ 4 = 0 ∧ (getBank c.k 0).k = 16 ∧
      lockedSram c.k c.g.base (lineBytes 0 16) = false) ∧
    (∃ c, Issues (withBank 8) c 0x1BA (R 409 385 0 0) ∧ c.entersArray (R 409 385 0 0) 64 ∧ c.descriptor = some ⟨8, 16, [0]⟩ ∧
      tbit (getBank c.k 0).state 0 = true ∧ (getBank c.k 0).state.toNat / 2 ^ 8 % 2 ^ 4 = 8 ∧ (getBank c.k 0).k = 16 ∧
      lockedSram c.k c.g.base (lineBytes 8 16) = false) ∧
    (∀ op ∈ [0x1B2, 0x1B3, 0x1B4, 0x1B5, 0x1B6, 0x1B7, 0x1B8, 0x1B9, 0x1BA], ∃ c, Issues st c op (R 409 385 0 0) ∧
      c.activeLanes (R 409 385 0 0) ≠ 0 ∧ c.held = false ∧ c.descriptor = none) ∧
    (∃ c, Issues st c 0x1BB (R 409 264 386 0) ∧ c.entersArray (R 409 264 386 0) 64 ∧
      c.drainCheck true (c.drainStart true (R 409 264 386 0)) (coveredBytes 0 0 1) 0 (some 0) = none) ∧
    (∃ c, Issues st c 0x1BC (R 409 264 386 0) ∧ c.entersArray (R 409 264 386 0) 64 ∧
      c.drainCheck false (c.drainStart false (R 409 264 386 0)) (coveredBytes 0 0 1) 0 (some 0) = none) ∧
    (∃ c, Issues st c 0x1BD (R 384 0 0 0) ∧ c.activeLanes (R 384 0 0 0) ≠ 0 ∧ arrayFull c.k = false) ∧
    (∀ m ∈ [0, 1, 2], ∃ c, Issues st c 0x1BE (R 5 385 0 m) ∧ arrayFull c.k = false ∧ c.k.array = []) := by
  have h1 : ∀ op ∈ [0x1B2, 0x1B3, 0x1B4, 0x1B5, 0x1B6, 0x1B7, 0x1B8, 0x1B9, 0x1BA], issuesIn cx op (R 409 385 0 0) = true := by decide +kernel
  have h2 : ∀ m ∈ [0, 1, 2], issuesIn cx 0x1BE (R 5 385 0 m) = true := by decide +kernel
  exact ⟨wit _ st_some (by decide +kernel) ⟨enters_of (by decide +kernel), within_of (by decide +kernel)⟩,
    wit _ st_some (by decide +kernel) (by decide +kernel),
    wit _ (by decide +kernel) (by decide +kernel) ⟨enters_of (by decide +kernel), by decide +kernel⟩,
    wit _ (by decide +kernel) (by decide +kernel) ⟨enters_of (by decide +kernel), by decide +kernel⟩,
    fun op ho => wit _ st_some (h1 op ho) (by decide +kernel),
    wit _ st_some (by decide +kernel) ⟨enters_of (by decide +kernel), by decide +kernel⟩,
    wit _ st_some (by decide +kernel) ⟨enters_of (by decide +kernel), by decide +kernel⟩,
    wit _ st_some (by decide +kernel) (by decide +kernel), fun m hm => wit _ st_some (h2 m hm) (by decide +kernel)⟩

/-- A line of two integers, 3 and -2, at scale 0. -/
def line0 : Line := { ints := [3, -2], square := 13 }

theorem witness_MatrixProduct : line0.ints.length = line0.ints.length ∧ line0.square = (line0.ints.map (fun x => x * x)).sum ∧
    line0.nan = [] ∧ line0.inf = [] ∧ (4 : Nat) ≠ 0 ∧ { line0 with nan := [0] }.nan ≠ [] := by decide +kernel

/-- An entry of the array queue. -/
def arrayEntry (op : ArrayOp) (result : Option (Nat × Byte)) : ArrayEntry :=
  { id := 0, op := op, fut := 64, serial := 0, slot := 0, lane := 0, seq := 0, asn := 1, region := fetchRegion, launch := 0, wgId := 0
    base := 0, scratch := 4096, pc := 0, result := result }
def withArray (op : ArrayOp) (result : Option (Nat × Byte)) (rows : List ArrayRow) : State :=
  withK (fun k => { k with array := [arrayEntry op result], rows := rows })
/-- A pass of one row, of which so many rows have entered and been written; a drain of one row of zeros to memory. -/
def passOp (entered written : Nat) : ArrayOp := .pass 0 0 ⟨0, 16, [0]⟩ 0 entered written false
def drainOp (image : Option (List (List Word))) : ArrayOp := .drain 0 0 false false false 4 0 256 1 none false image

theorem witness_ArrayEvents :
    (∃ e, (getCore (withArray (.load 1 0 16 0) none []) 0).array.find? (fun e => e.id = 0) = some e ∧ e.op = .load 1 0 16 0 ∧
      (earlierThan (getCore (withArray (.load 1 0 16 0) none []) 0) 0).all (fun x => !passesBank 1 x && !loadsBank 1 x) = true) ∧
    (getCore (withArray (passOp 0 0) none []) 0).nextSlot ≤ coreCyc (withArray (passOp 0 0) none []) 0 ∧
    (nextPass (getCore (withArray (passOp 0 0) none []) 0)).filter (fun e => decide (e.ready ≤ coreCyc (withArray (passOp 0 0) none []) 0)) =
      some (arrayEntry (passOp 0 0) none) ∧
    nextPass (getCore st 0) = none ∧
    (let s := withArray (passOp 1 0) none [⟨0, 0, 0, none⟩]
     (getCore s 0).rows.find? (fun r => decide (r.due ≤ coreCyc s 0)) = some ⟨0, 0, 0, none⟩ ∧
     (getCore s 0).array.find? (fun e => e.id = 0) = some (arrayEntry (passOp 1 0) none) ∧
     (earlierThan (getCore s 0) 0).all (fun x => !dueOnTile 0 x) = true) ∧
    ((getCore (withArray (passOp 1 1) none []) 0).array.find? (fun e => match e.op with
      | .pass _ _ d _ _ written _ => decide (written = d.rows.length) && decide (e.doneAt ≤ coreCyc (withArray (passOp 1 1) none []) 0)
      | _ => false) = some (arrayEntry (passOp 1 1) none)) ∧
    (let s := withArray (drainOp (some [List.replicate 64 0])) none []
     let s1 := setCore s 0 (settleArray (getCore s 0))
     (getCore s1 0).array.find? (fun e => e.id = 0) = some (arrayEntry (drainOp (some [List.replicate 64 0])) none) ∧
     drainReleased (getCore s1 0) (arrayEntry (drainOp (some [List.replicate 64 0])) none) 4 = true ∧
     drainDenied s1 1 false 0 (coveredBytes 0 256 1) = none ∧
     (drainAll 0 1 false 0 false false 0 256 [List.replicate 64 0] s1).absent = false) ∧
    ((getCore (withArray (drainOp none) (some (256, 0)) []) 0).array.find? (fun e => e.id = 0) =
      some (arrayEntry (drainOp none) (some (256, 0)))) := by
  refine ⟨⟨arrayEntry (.load 1 0 16 0) none, by decide +kernel⟩, ?_⟩
  decide +kernel

/-! Textures, rays, meshes, fragments. -/

/-- Core 0 holds records of address space 1: a resource of 1 x 1 x 1 texels, of a kind, for handles 0, and the sampler; four
lanes are active. -/
def withRecords (kind : Nat) : State :=
  let res : List Byte := List.replicate 14 0 ++ [BitVec.ofNat 8 kind, 0, 1, 3] ++ List.replicate 14 0
  let sam : List Byte := [0, 0, 0, 0, 0, 1] ++ List.replicate 26 0
  mk (fun k => { k with records := [(1, 0x0080000000000000, res), (1, 0x0080000002000000, sam)] }) id id (fun p => { p with exec := 0xF, buffer := [1, 4, 8, 16].map (fun n => (0, n, .bytes (List.replicate n 0))) })

/-- What a texture read needs, computed: records of a kind cached, and values for every lane. -/
def texB (c : Cx) (op : Nat) (f : Fields) (kindOk : Nat → Bool)
    (value : Cx → Fields → Res → Samp → Nat → Option (List Word)) : Bool :=
  !c.held && (lanesOf (c.activeLanes f)).all (fun l => match c.resource op f l, c.sampler op f l with
    | some r, some sm => kindOk r.kind && (value c f r sm l).isSome
    | _, _ => false)

/-- The hypotheses of `TexReadOf` are met. -/
def TexWitness (kind op : Nat) (f : Fields) (kindOk : Nat → Bool) (value : Cx → Fields → Res → Samp → Nat → Option (List Word)) : Prop :=
  ∃ (c : Cx) (res : Nat → Res) (sam : Nat → Samp) (vals : Nat → List Word), Issues (withRecords kind) c op f ∧ c.mayRead ∧
    ∀ l, c.takes f l → c.resource op f l = some (res l) ∧ kindOk (res l).kind = true ∧ c.sampler op f l = some (sam l) ∧
      value c f (res l) (sam l) l = some (vals l)

theorem tex_wit {op : Nat} {f : Fields} {kindOk : Nat → Bool} {value : Cx → Fields → Res → Samp → Nat → Option (List Word)}
    {kind : Nat} (h : (partAt (withRecords kind) (withRecords kind).cur).isSome = true)
    (hi : issuesIn (cxOf (withRecords kind) h) op f = true) (hb : texB (cxOf (withRecords kind) h) op f kindOk value = true) :
    TexWitness kind op f kindOk value := by
  simp only [texB, Bool.and_eq_true, Bool.not_eq_true', List.all_eq_true] at hb
  have hl : ∀ l, ∃ (r : Res) (sm : Samp) (v : List Word), (cxOf (withRecords kind) h).takes f l → (cxOf (withRecords kind) h).resource op f l = some r ∧
      kindOk r.kind = true ∧ (cxOf (withRecords kind) h).sampler op f l = some sm ∧ value (cxOf (withRecords kind) h) f r sm l = some v := by
    intro l
    by_cases ht : (cxOf (withRecords kind) h).takes f l
    · have h1 := hb.2 l ht
      cases hr : (cxOf (withRecords kind) h).resource op f l with
      | none => simp [hr] at h1
      | some r =>
        cases hs : (cxOf (withRecords kind) h).sampler op f l with
        | none => simp [hr, hs] at h1
        | some sm =>
          simp only [hr, hs, Bool.and_eq_true] at h1
          obtain ⟨v, hv⟩ := Option.isSome_iff_exists.mp h1.2
          exact ⟨r, sm, v, fun _ => ⟨rfl, h1.1, rfl, hv⟩⟩
    · exact ⟨⟨0, 0, 0, 0, 0, 0, 0, 0, false⟩, ⟨false, 0, 0, 0, 0, 0, 0, 0⟩, [], fun x => absurd x ht⟩
  choose r sm v hall using hl
  exact ⟨_, r, sm, v, issues_of (cxOf_at (withRecords kind) h) hi, hb.1, hall⟩

theorem witness_Textures :
    TexWitness 1 0x1C3 (R 8 2 4 0) (· != 0) texLdValue ∧ TexWitness 0 0x1C6 (R 5 2 3 0) (· = 0) resLdValue ∧
    TexWitness 2 0x1C7 (R 5 2 0 2) (fun _ => true) resQValue ∧ TexWitness 1 0x1C1 (R 8 2 4 0) (· != 0) smpLodValue ∧
    TexWitness 1 0x1C0 (R 8 2 4 0) (· != 0) smpValue ∧ TexWitness 1 0x1C2 (R 8 2 4 0) (· != 0) smpGradValue ∧
    TexWitness 1 0x1C5 (R 8 2 4 0) (· != 0) g4Value :=
  ⟨tex_wit (by decide +kernel) (by decide +kernel) (by decide +kernel), tex_wit (by decide +kernel) (by decide +kernel) (by decide +kernel),
    tex_wit (by decide +kernel) (by decide +kernel) (by decide +kernel), tex_wit (by decide +kernel) (by decide +kernel) (by decide +kernel),
    tex_wit (by decide +kernel) (by decide +kernel) (by decide +kernel), tex_wit (by decide +kernel) (by decide +kernel) (by decide +kernel),
    tex_wit (by decide +kernel) (by decide +kernel) (by decide +kernel)⟩

theorem witness_TexStore : ∃ c, Issues (withRecords 1) c 0x1C4 (R 0 2 4 0) ∧ c.held = false ∧
    ((lanesOf (c.activeLanes (R 0 2 4 0))).all (fun l => match c.resource 0x1C4 (R 0 2 4 0) l with
      | some r => r.kind != 0 && r.writable && (match c.texelOf (R 0 2 4 0) r l with
        | some va => decide (va.toNat + texelBytes r.fmt ≤ 2 ^ 57)
        | none => false)
      | none => false)) = true :=
  wit _ (by decide +kernel) (by decide +kernel) (by decide +kernel)
theorem witness_TexCoordinates : ∃ u : Word, (f32 u).finite := ⟨0x3F800000, finite_of (by decide +kernel)⟩

/-- A ray record at offset 0: origin (1/4, 1/4, -1), direction (0, 0, 1), t from 0 to 8; four lanes are active. -/
def rayBytes : List Byte := [0, 0, 0x80, 0x3E, 0, 0, 0x80, 0x3E, 0, 0, 0x80, 0xBF] ++ List.replicate 14 0 ++ [0x80, 0x3F, 0, 0, 0, 0x41]
/-- A triangle (0, 0, 0), (1, 0, 0), (0, 1, 0). -/
def triangle : List Byte := List.replicate 14 0 ++ [0x80, 0x3F] ++ List.replicate 14 0 ++ [0x80, 0x3F] ++ List.replicate 64 0
def withRay : State :=
  mk (fun k => { k with sram := writeBytes [] 0 rayBytes }) id id
    (fun p => { p with exec := 0xF, buffer := [(0, 96, .bytes triangle), (0, 128, .bytes (List.replicate 128 0))] })

def okRead : NowRead → Option (List Byte)
  | .ok bs => some bs
  | _ => none

def rayB (c : Cx) (op : Nat) (f : Fields) (size align : Nat) : Bool :=
  !c.held && (lanesOf (c.activeLanes f)).all (fun l =>
    let va : Dword := c.readV (f.a.toNat + 1) l ++ c.readV f.a.toNat l
    let o := (c.operand op f 1 .int 0).toInt + 32 * ((c.readV (f.a.toNat + 2) l).toNat : Int)
    decide (va.toNat + size ≤ 2 ^ 57) && decide (va.toNat % align = 0) && (okRead ((c.issued op f).readNow va size)).isSome &&
    decide (0 ≤ o ∧ o + (32 : Nat) ≤ c.g.scratch ∧ (32 ≠ 0 → o % (32 : Nat) = 0) ∧ lockedSram c.k (c.g.base + o.toNat) 32 = false) &&
    decide (c.spBad o 32 = false))

/-- The hypotheses of `RayOf` are met. -/
def RayWitness (op : Nat) (f : Fields) (size align : Nat) : Prop :=
  ∃ (c : Cx) (node : Nat → List Byte), Issues withRay c op f ∧ c.mayRead ∧ ∀ l, c.takes f l →
    (let va : Dword := c.readV (f.a.toNat + 1) l ++ c.readV f.a.toNat l
     va.toNat + size ≤ 2 ^ 57 ∧ va.toNat % align = 0 ∧ (c.issued op f).readNow va size = .ok (node l)) ∧
    (let o := (c.operand op f 1 .int 0).toInt + 32 * ((c.readV (f.a.toNat + 2) l).toNat : Int)
     c.within [(l, o)] 32 32 ∧ c.sound [(l, o)] 32)

theorem ray_wit {op : Nat} {f : Fields} {size align : Nat} (h : (partAt withRay withRay.cur).isSome = true)
    (hi : issuesIn (cxOf withRay h) op f = true) (hb : rayB (cxOf withRay h) op f size align = true) : RayWitness op f size align := by
  simp only [rayB, Bool.and_eq_true, Bool.not_eq_true', List.all_eq_true, decide_eq_true_eq] at hb
  refine ⟨_, fun l => (okRead (((cxOf withRay h).issued op f).readNow
    ((cxOf withRay h).readV (f.a.toNat + 1) l ++ (cxOf withRay h).readV f.a.toNat l : Dword) size)).getD [],
    issues_of (cxOf_at withRay h) hi, hb.1, fun l ht => ?_⟩
  obtain ⟨⟨⟨⟨h1, h2⟩, h3⟩, h4⟩, h5⟩ := hb.2 l ht
  refine ⟨⟨h1, h2, ?_⟩, by simpa [Cx.within] using h4, by simpa [Cx.sound] using h5⟩
  cases hs : ((cxOf withRay h).issued op f).readNow ((cxOf withRay h).readV (f.a.toNat + 1) l ++ (cxOf withRay h).readV f.a.toNat l : Dword) size <;>
    simp_all [okRead]

/-- The box from (0, 0, z) to (1, 1, 1), for the word z. -/
def boxFrom (z : Nat) : List Byte := ([0, 0, z, 0x3F800000, 0x3F800000, 0x3F800000].map (toBytes 4)).flatten

/-- Rays up from (1/4, 1/4, -1): to t = 8, and without an end. -/
def upRay (far : Ext) : RayRec := ⟨(1 / 4, 1 / 4, -1), 0, (0, 0, 1), far⟩

theorem inBox_upRay {far : Ext} (hf : far = .fin 8 ∨ far = .pos) {z : Nat} {q : ℚ} (h2 : extOf (wordAt (boxFrom z) 2) = .fin q)
    (h : ∀ i < 6, i ≠ 2 → extOf (wordAt (boxFrom z) i) = .fin (if i < 3 then 0 else 1)) (t : ℚ) :
    InBox (upRay far) (boxFrom z) t ↔ 0 ≤ t ∧ q ≤ t - 1 ∧ t ≤ 2 := by
  simp only [InBox, upRay, h 0 (by decide) (by decide), h 1 (by decide) (by decide), h2, Nat.zero_add, Nat.reduceAdd,
    h 3 (by decide) (by decide), h 4 (by decide) (by decide), h 5 (by decide) (by decide)]
  rcases hf with rfl | rfl <;> norm_num [Ext.le] <;> intro _
  · constructor
    · rintro ⟨-, x, y⟩; exact ⟨by linarith, by linarith⟩
    · rintro ⟨x, y⟩; exact ⟨by linarith, by linarith, by linarith⟩
  · intro _; constructor <;> intro _ <;> linarith

/-- A box that a ray enters at 1, and one that it is in at 0, whether or not the ray has an end; a box with a NaN bound, and one that is
upside down. -/
theorem witness_Boxes :
    (∀ far ∈ [Ext.fin 8, .pos], (∃ t, InBox (upRay far) (boxFrom 0) t ∧ (∀ u, InBox (upRay far) (boxFrom 0) u → t ≤ u) ∧
      (2 : ℚ) ^ (-300 : Int) ≤ |t| ∧ |t| < 2 ^ 128 ∧ (f32 (boxHit (upRay far) (boxFrom 0))).finite) ∧
      InBox (upRay far) (boxFrom 0xC0000000) 0 ∧ ∀ u, InBox (upRay far) (boxFrom 0xC0000000) u → 0 ≤ u) ∧
    (∀ z ∈ [0, 0xC0000000], (∀ i < 6, (f32 (wordAt (boxFrom z) i)).isNan = false) ∧
      ∀ i < 3, (extOf (wordAt (boxFrom z) i)).le (extOf (wordAt (boxFrom z) (i + 3))) = true) ∧
    (∃ i < 6, (f32 (wordAt (boxFrom 0x7FC00000) i)).isNan = true) ∧
    ∃ i < 3, (extOf (wordAt (boxFrom 0x40000000) i)).le (extOf (wordAt (boxFrom 0x40000000) (i + 3))) = false := by
  have ea : extOf (wordAt (boxFrom 0) 2) = .fin 0 := by decide +kernel
  have eb : extOf (wordAt (boxFrom 0xC0000000) 2) = .fin (-2) := by decide +kernel
  have ha : ∀ z ∈ [0, 0xC0000000], ∀ i < 6, i ≠ 2 → extOf (wordAt (boxFrom z) i) = .fin (if i < 3 then 0 else 1) := by decide +kernel
  refine ⟨fun far hf => ?_, by decide +kernel, by decide +kernel, by decide +kernel⟩
  have hf' : far = .fin 8 ∨ far = .pos := by simpa using hf
  have a := inBox_upRay hf' ea (ha 0 (by decide))
  have b := inBox_upRay hf' eb (ha 0xC0000000 (by decide))
  refine ⟨⟨1, (a 1).2 (by norm_num), fun u h => ?_, by rw [abs_one]; exact zpow_le_one_of_nonpos₀ (by norm_num) (by norm_num), by norm_num,
    ?_⟩, (b 0).2 (by norm_num), fun u h => ((b u).1 h).1⟩
  · have := (a u).1 h
    linarith [this.2.1]
  · rcases hf' with rfl | rfl <;> exact finite_of (by decide +kernel)

/-- Two copies of a triangle, and one beside a triangle of zeros. -/
theorem witness_Triangles : ∃ ray, parseRay rayBytes = some ray ∧
    (let twice := triangle.take 48 ++ triangle.take 48
     (triHit ray false (twice.take 48)).isSome = true ∧ triHit ray false (twice.drop 48) = triHit ray false (twice.take 48)) ∧
    ((triHit ray false (triangle.take 48)).isSome = true ∧ triHit ray false (triangle.drop 48) = none) ∧
    (triHit ray false ((List.replicate 48 0 ++ triangle.take 48).take 48) = none ∧
      (triHit ray false ((List.replicate 48 0 ++ triangle.take 48).drop 48)).isSome = true) ∧
    triHit ray false ((List.replicate 96 0).take 48) = none ∧ triHit ray false ((List.replicate 96 0).drop 48) = none := by
  obtain ⟨ray, h⟩ := Option.isSome_iff_exists.mp (show (parseRay rayBytes).isSome = true by decide +kernel)
  have e : parseRay rayBytes = some ⟨(1 / 4, 1 / 4, -1), 0, (0, 0, 1), .fin 8⟩ := by decide +kernel
  obtain rfl : ray = ⟨(1 / 4, 1 / 4, -1), 0, (0, 0, 1), .fin 8⟩ := Option.some.inj (h.symm.trans e)
  exact ⟨_, h, by decide +kernel⟩

theorem witness_Rays : RayWitness 0x1C8 (R 8 4 272 0) 128 128 ∧ RayWitness 0x1C9 (R 8 4 272 0) 96 32 ∧
    (parseRay rayBytes).isSome = true ∧
    ((parseRay rayBytes).bind (fun ray => triHit ray false triangle)).isSome = true ∧
    ((parseRay rayBytes).map (fun ray => ray.tmax)) = some (.fin 8) ∧
    (∀ i < 6, wordAt triangle i = if i = 3 then 0x3F800000 else 0) ∧
    (∀ op ∈ [0x1CA, 0x1CB], ∃ c, Issues withRay c op (R (if op = 0x1CB then 5 else 0) 0 272 0) ∧ c.held = false ∧ c.activeLanes (R 0 0 272 0) ≠ 0 ∧ c.mayRelease none) ∧
    (∃ c, Issues st c 0x1CC (R 0 264 0 0) ∧ c.held = false ∧ c.activeLanes (R 0 264 0 0) ≠ 0 ∧ c.mayRelease none ∧
      c.within [(lowestLane c.p.lanes, 0)] (64 + 4 * 0 * c.w.width) 16) := by
  have h : ∀ op ∈ [0x1CA, 0x1CB], issuesIn (cxOf withRay (by decide +kernel)) op (R (if op = 0x1CB then 5 else 0) 0 272 0) = true := by decide +kernel
  exact ⟨ray_wit (by decide +kernel) (by decide +kernel) (by decide +kernel), ray_wit (by decide +kernel) (by decide +kernel) (by decide +kernel),
    by decide +kernel, by decide +kernel, by decide +kernel, by decide +kernel, fun op ho => wit _ _ (h op ho) ⟨by decide +kernel, by decide +kernel, release_of (by decide +kernel)⟩,
    wit _ st_some (by decide +kernel) ⟨by decide +kernel, by decide +kernel, release_of (by decide +kernel), within_of (by decide +kernel)⟩⟩

/-- A stack of two levels at offset 64, empty, and full for lane 0. -/
def withStack (depth : Nat) : State :=
  mk (fun k => { k with sram := if depth = 0 then [] else [(64, BitVec.ofNat 8 depth)] }) id id
    (fun p => { p with exec := 1, s := [(16, 0x02000040)] })

theorem stack0_some : (partAt (withStack 0) (withStack 0).cur).isSome = true := by decide +kernel
theorem stack2_some : (partAt (withStack 2) (withStack 2).cur).isSome = true := by decide +kernel

theorem witness_Stacks : ∀ depth ∈ [0, 2], ∃ c, Issues (withStack depth) c 0x1CA (R 0 0 272 0) ∧ c.held = false ∧ c.mayRelease none ∧
    c.takes (R 0 0 272 0) 0 ∧ (c.operand 0x1CA (R 0 0 272 0) 1 .int 0) = 0x02000040 ∧ c.stackOk 0x02000040 0 ∧
    c.stackDepth 0x02000040 0 = depth := by
  unfold Cx.takes Cx.stackOk Cx.within Cx.sound
  intro depth hd
  simp only [List.mem_cons, List.mem_nil_iff, or_false] at hd
  obtain rfl | rfl := hd
  · exact wit _ stack0_some (by decide +kernel) ⟨by decide +kernel, release_of (by decide +kernel), by decide +kernel⟩
  · exact wit _ stack2_some (by decide +kernel) ⟨by decide +kernel, release_of (by decide +kernel), by decide +kernel⟩

/-- A mesh of one tetrahedron whose arrays lie at address 0; lane 0 active. -/
def meshState : State :=
  mk (fun k => { k with records := [(1, 0, List.replicate 24 0 ++ [1, 0, 0, 0, 4, 0, 0, 0]), (1, 32, List.replicate 32 0)] }) id id
    (fun p => { p with exec := 1, buffer := [4, 16, 32].map (fun n => (0, n, .bytes (List.replicate n 0))) })
def meshA : MeshDesc := ⟨0, 0, 0, 1, 4, false, 1024⟩

theorem mesh_some : (partAt meshState meshState.cur).isSome = true := by decide +kernel

theorem witness_Meshes :
    (∃ c, Issues meshState c 0x1CE (R 16 8 260 0) ∧ c.mayRead ∧ c.takes (R 16 8 260 0) 0 ∧ c.record 0 = some (List.replicate 24 0 ++ [1, 0, 0, 0, 4, 0, 0, 0]) ∧
      c.record 32 = some (List.replicate 32 0) ∧
      parseMesh (List.replicate 24 0 ++ [1, 0, 0, 0, 4, 0, 0, 0] ++ List.replicate 32 0) = some meshA ∧
      ((okOut ((c.issued 0x1CE (R 16 8 260 0)).stepLane meshA (c.meshRun 8 0))).map (·.resid)) = some false) ∧
    (∃ c, Issues meshState c 0x1CD (R 16 8 260 0) ∧ c.mayRead ∧ (c.meshRun 8 0).finite = true ∧
      ((okOut ((c.issued 0x1CD (R 16 8 260 0)).locLane meshA (c.meshRun 8 0))).map (·.resid)) = some false) ∧
    (∃ c, Issues meshState c 0x1CF (R 16 8 260 0) ∧ c.mayRead ∧
      ((okOut ((c.issued 0x1CF (R 16 8 260 0)).interpLane meshA [0, 0, 0] 0)).map (·.resid)) = some false) := by
  unfold Cx.takes Cx.mayRead
  exact ⟨wit _ mesh_some (by decide +kernel) (by decide +kernel), wit _ mesh_some (by decide +kernel) (by decide +kernel),
    wit _ mesh_some (by decide +kernel) (by decide +kernel)⟩

/-- The tetrahedron with vertices 0 and the unit vectors. -/
theorem witness_Tetrahedron : ∃ (g : MeshCell) (vs : List (List Byte)) (fs : List Word), vs.length = 4 ∧ fs.length = 4 ∧
    tetOf meshA (List.replicate 4 0 ++ [1, 0, 0, 0, 2, 0, 0, 0, 3, 0, 0, 0] ++ List.replicate 16 0xFF) vs fs = some g := by
  have h : (tetOf meshA (List.replicate 4 0 ++ [1, 0, 0, 0, 2, 0, 0, 0, 3, 0, 0, 0] ++ List.replicate 16 0xFF)
    [List.replicate 16 0, [0, 0, 0x80, 0x3F] ++ List.replicate 12 0, [0, 0, 0, 0, 0, 0, 0x80, 0x3F] ++ List.replicate 8 0,
      [0, 0, 0, 0, 0, 0, 0, 0, 0, 0, 0x80, 0x3F, 0, 0, 0, 0]] (List.replicate 4 0)).isSome = true := by decide +kernel
  obtain ⟨g, hg⟩ := Option.isSome_iff_exists.mp h
  exact ⟨g, _, _, rfl, rfl, hg⟩

/-- A draw in use, and a fragment workgroup with a fragment in lane 0. -/
def draw0 : Draw :=
  { asn := 1, d := 0, region := fetchRegion, slices := [0], launches := [0], kernel := fetchKernel, target := 0, fmt := 0, texel := 4
    width := 64, height := 64, cap := 4096 }
def withFragment (hold : Nat) : State :=
  mk id (fun g => { g with kind := .fragment 0 }) (fun w => { w with fragments := [⟨0, 3, 5, 0, 0, hold⟩] }) (fun p => { p with exec := 1 })
/-- Two fragments of one pixel, the later one asking first. -/
def withRival : State :=
  mk id (fun g => { g with kind := .fragment 0 }) (fun w => { w with fragments := [⟨0, 3, 5, 0, 1, 0⟩, ⟨1, 3, 5, 0, 0, 0⟩] }) (fun p => { p with exec := 1 })

theorem draw_some : (partAt { st with draws := [draw0] } { st with draws := [draw0] }.cur).isSome = true := by decide +kernel

theorem witness_Fragments :
    (∃ c, Issues { st with draws := [draw0] } c 0x1D0 (R 0 8 272 0) ∧ c.mayRead ∧ c.activeLanes (R 0 8 272 0) ≠ 0 ∧
      (c.operand 0x1D0 (R 0 8 272 0) 1 .int 0).toNat = 0 ∧ getDraw { st with draws := [draw0] } c.g.asn 0 = some draw0 ∧
      (((c.triangles (R 0 8 272 0) 64 64).filter (·.draws)).map Tri.cost).sum ≤ draw0.free) ∧
    (∃ c, Issues st c 0x1D1 (R 0 0 0 0) ∧ c.p.handler = none ∧ c.activeLanes (R 0 0 0 0) ≠ 0 ∧ c.isFragment = false) ∧
    (∃ c, Issues (withFragment 0) c 0x1D1 (R 0 0 0 0) ∧ c.p.handler = none ∧ c.activeLanes (R 0 0 0 0) ≠ 0 ∧ c.isFragment = true ∧
      (∀ y ∈ c.sections (R 0 0 0 0), y.hold = 0) ∧ ∀ y ∈ c.sections (R 0 0 0 0), blockedBy (c.issued 0x1D1 (R 0 0 0 0)).wgWaves y = false) ∧
    (∃ c, Issues withRival c 0x1D1 (R 0 0 0 0) ∧ c.p.handler = none ∧ c.activeLanes (R 0 0 0 0) ≠ 0 ∧ c.isFragment = true ∧
      (∀ y ∈ c.sections (R 0 0 0 0), y.hold = 0) ∧ ∃ y ∈ c.sections (R 0 0 0 0), blockedBy (c.issued 0x1D1 (R 0 0 0 0)).wgWaves y = true) ∧
    (∃ c, Issues (withFragment 1) c 0x1D2 (R 0 0 0 0) ∧ c.p.handler = none ∧ c.activeLanes (R 0 0 0 0) ≠ 0 ∧ c.isFragment = true ∧
      (c.sections (R 0 0 0 0)).length = popCount (c.activeLanes (R 0 0 0 0)) ∧ (∀ y ∈ c.sections (R 0 0 0 0), y.hold = 1) ∧
      c.performed 1 = true) := by
  unfold Cx.mayRead
  exact ⟨wit _ draw_some (by decide +kernel) (by decide +kernel), wit _ st_some (by decide +kernel) (by decide +kernel),
    wit _ (by decide +kernel) (by decide +kernel) (by decide +kernel), wit _ (by decide +kernel) (by decide +kernel) (by decide +kernel),
    wit _ (by decide +kernel) (by decide +kernel) (by decide +kernel)⟩

/-! What the memory system, the sequencer, the engines and the power system do of their own accord. -/

/-- A store, and an atomic, of four bytes at address 0 on the outbound path. -/
def storeAt0 : QEntry := qentry (.store [⟨0, 0, [1, 2, 3, 4]⟩])
def atomicAt0 : QEntry := qentry (.atomic 0 false [⟨0, 0, 5, 0⟩] 0)
def withOut (e : QEntry) : State :=
  let o : Outbound := { id := 0, slot := 0, serial := 0, entry := e, asn := 1, region := fetchRegion, launch := 0 }
  withK (fun k => { k with outbound := [o], nextOut := 1 })
def combine0 : Combine := { id := 0, line := 0, region := fetchRegion, joined := [] }
def line0At0 : L1Line := { asn := 1, line := 0, key := 0x10000, data := List.replicate 128 0, writable := true }
/-- The page at 0 is not resident; a load has its bytes; an older load is on its way. -/
def absentPage : State := { st with leaves := [(leafKey 0 1 0, 0x1001E#64)] }
def loadHere : Load := { loadInFlight with lanes := [arrived0 (some [1, 2, 3, 4])] }
def loadBefore (e : QEntry) : State :=
  mk (fun k => { k with outbound := [{ id := 0, slot := 0, serial := 0, entry := atomicAt0, asn := 1, region := fetchRegion, launch := 0 }], nextOut := 1 })
    id (fun w => { w with queue := [{ e with seq := 2 }], loads := [{ loadOnWay with seq := 1 }], seq := 3 }) id

theorem witness_MemoryEvents :
    (heldLine { (getCore st 0) with l1 := [line0At0] } 1 loadOnWay 0 = some line0At0 ∧ heldLine (getCore st 0) 1 loadOnWay 0 = none ∧
      probe st 0 1 fetchRegion 0 = none ∧ route st 1 loadOnWay.dst.access 0 = .phys 0x10000 0x1001F ∧
      route absentPage 1 loadOnWay.dst.access 0 = .absent ∧ (match route { st with leaves := [] } 1 loadOnWay.dst.access 0 with
        | .denied _ => true
        | _ => false) = true) ∧
    ((arrived0 none).arrived = true ∧ loadInFlight.dst.isSum = false ∧ loadInFlight.const = false ∧ (getCore st 0).l1 = [] ∧
      (getCore st 0).outbound = [] ∧ fetchWave.queue = [] ∧
      (∀ x ∈ ({ fetchWave with loads := [loadInFlight] } : Wave).loads, loadInFlight.seq ≤ x.seq)) ∧
    ((qentry (.store [⟨0, 0, [7]⟩])).seq < 1 ∧ physByte st 1 0 = some 0x10000) ∧
    (∃ w g, getWave (getCore (withW (fun w => { w with loads := [loadHere] })) 0) 0 = some w ∧
      getWg (getCore (withW (fun w => { w with loads := [loadHere] })) 0) w.wg = some g ∧
      w.loads.find? (fun x => x.id = 0) = some loadHere ∧ loadHere.settled = true ∧
      loadHere.lanes = [] ++ arrived0 (some [1, 2, 3, 4]) :: [] ∧ tbit (quadLanes 1) 0 = true ∧
      laneReady loadHere (coreCyc (withW (fun w => { w with loads := [loadHere] })) 0) (arrived0 (some [1, 2, 3, 4])) = true) ∧
    (∀ x ∈ [storeAt0, atomicAt0, qentry (.drain 0)], (queueHead (withW (fun w => { w with queue := [x] })) 0 0).map (fun h => h.2.2.2) = some x ∧
      drainAhead (getCore (withW (fun w => { w with queue := [x] })) 0) 0 x = false ∧
      ∀ y ∈ (getCore (withW (fun w => { w with queue := [x] })) 0).waves, (y.2.map (·.loads)).getD [] = []) ∧
    (∀ x ∈ [storeAt0, atomicAt0], (queueHead (loadBefore x) 0 0).map (fun h => h.2.2.2) = some { x with seq := 2 } ∧
      mustWait (fixBefore (loadBefore x) 0 0 1 { x with seq := 2 }) 0 0 1 { x with seq := 2 } = true) ∧
    (∀ x ∈ [storeAt0, atomicAt0], ∃ o, (getCore (withOut x) 0).outbound.find? (fun o => o.id = 0) = some o ∧ o.entry = x ∧ o.failed = [] ∧
      isPeerVa 0 = false ∧ pieces 0 4 = [(0, 4)] ∧ (∃ leaf, route (withOut x) o.asn .store 0 = .phys 0x10000 leaf) ∧
      (∃ leaf, route (withOut x) o.asn .atomic 0 = .phys 0x10000 leaf) ∧ memBadAt (withOut x) 0x10000 4 = false ∧
      outReady (withOut x) (getCore (withOut x) 0) o 0 4 = true) ∧
    ({ st with combines := [combine0] }.combines.find? (fun e => e.id = 0) = some combine0) := by
  refine ⟨by decide +kernel, by decide +kernel, by decide +kernel,
    ⟨{ fetchWave with loads := [loadHere] }, fetchGroup, by decide +kernel⟩, by decide +kernel, by decide +kernel, ?_, by decide +kernel⟩
  have h : ∀ x ∈ [storeAt0, atomicAt0], ((getCore (withOut x) 0).outbound.find? (fun o => o.id = 0)) =
      some { id := 0, slot := 0, serial := 0, entry := x, asn := 1, region := fetchRegion, launch := 0 } ∧
      memBadAt (withOut x) 0x10000 4 = false ∧ route (withOut x) 1 .store 0 = .phys 0x10000 0x1001F ∧
      route (withOut x) 1 .atomic 0 = .phys 0x10000 0x1001F ∧ outReady (withOut x) (getCore (withOut x) 0)
        { id := 0, slot := 0, serial := 0, entry := x, asn := 1, region := fetchRegion, launch := 0 } 0 4 = true := by decide +kernel
  exact fun x hx => ⟨_, (h x hx).1, rfl, rfl, by decide +kernel, by decide +kernel, ⟨_, (h x hx).2.2.1⟩, ⟨_, (h x hx).2.2.2.1⟩,
    (h x hx).2.1, (h x hx).2.2.2.2⟩

def recordPage : KMap Dword := [(leafKey (vaOwner (BitVec.ofNat 64 recordVa)) 1 (vaOffset (BitVec.ofNat 64 recordVa) / 4096), 0x30003)]
/-- Every function is ready. -/
def allReady : State := { st with ready0 := BitVec.allOnes _, ready1 := BitVec.allOnes _, ready2 := BitVec.allOnes _, homes := [some [0], some [40]] }

theorem witness_FirmwareWrites : mayChange allReady 1 0x1000 0x2001F = true ∧ mayChange st 0 0x1000 0x2001F = false ∧
    leafOf st 1 (BitVec.ofNat 64 recordVa) = 0 ∧ nextFree allReady 0 ≠ none ∧ st.combines = [] ∧
    mayChange { allReady with leaves := recordPage } 1 0x1000 0x2001F = true ∧
    tbit (leafOf { st with leaves := recordPage } 1 (BitVec.ofNat 64 recordVa)) 0 = true := by decide +kernel

/-- The upper lanes of v0 still load, beyond their slice; the part has tried its instruction. -/
def splitState : State :=
  let ld : Load := { loadInFlight with regs := [0], lanes := [{ arrived0 none with lane := 63, missed := true }], maySplit := true, mask := BitVec.allOnes 64 }
  { mk id (fun g => { g with kernel := { g.kernel with splitMiss := true } }) (fun w => { w with loads := [ld] }) (fun p => { p with wait := .score }) with
    mem := [(fetchByte + 11, 0x20), (fetchByte + 10, 0x38)] }

theorem witness_ShapeEvents :
    (issuesDone st 0 = false) ∧
    (∃ c, partAt splitState ⟨0, 0, 0⟩ = some c ∧ issuesDone splitState 0 = true ∧ c.p.raised = none ∧ c.g.kernel.splitMiss = true ∧
      2 ≤ popCount (quadsOf c.p.lanes) ∧ c.p.paths = [] ∧
      c.p.window = none ∧ c.p.wait = .score ∧ c.p.frozen = none ∧ c.p.handler = none ∧ (splitLoad splitState c).isSome = true ∧ c.w.rejoin.length < 16) ∧
    (let e := { entryAll 1 with started := true }
     let s := withW (fun w => { two (fun p => { p with wait := .parked 0 }) (fun p => { p with wait := .sync }) w with rejoin := [e] })
     ∃ w, getWave (getCore s 0) 0 = some w ∧ issuesDone s 0 = true ∧ waveActive (getCore s 0) w = true ∧ w.halted = false ∧ w.frozen = none ∧
      w.rejoin.find? (fun x => x.idx = e.idx) = some e ∧ e.started = true ∧ e.deadline = 0 ∧ e.expired = false ∧ e.miss = false ∧
      e.expect &&& quadsOf (liveLanes w) ≠ 0 ∧ entryComplete w { e with expect := e.expect &&& quadsOf (liveLanes w) } = false ∧
      (w.parts.map (fun p => lowestLane p.lanes)).Nodup) ∧
    (∃ w, getWave (getCore (withW (two (fun p => { p with wait := .width }) (fun p => { p with wait := .width }))) 0) 0 = some w ∧
      w.frozen = none ∧ w.halted = false ∧ fuseGroup w = some (0, none)) ∧
    (∃ w, getWave (getCore (withW (two (fun p => { p with wait := .width }) (fun p => { p with wait := .fuse }))) 0) 0 = some w ∧
      w.frozen = none ∧ w.halted = false ∧ fuseGroup w = none ∧ allStalled w = true) ∧
    (∃ c, partAt (withP (fun p => { p with readyFor := 64 })) ⟨0, 0, 0⟩ = some c ∧ 64 ≤ c.p.readyFor) :=
  ⟨by decide +kernel, ⟨cxOf _ (by decide +kernel), cxOf_at _ _, by decide +kernel⟩, ⟨_, rfl, by decide +kernel⟩, ⟨_, rfl, by decide +kernel⟩,
    ⟨_, rfl, by decide +kernel⟩, ⟨cxOf _ (by decide +kernel), cxOf_at _ _, by decide +kernel⟩⟩

/-- Jobs: eight bytes from memory to the scratchpad, a Carder sort of two pairs, a page request; in slot 0 in a phase. -/
def job (fn : Nat) (params : List Word) (phase : JobPhase) : Job :=
  { fn := fn, scope := 4, params := params, phase := phase, serial := 0, slot := 0, region := fetchRegion, asn := 1, launch := 0, wgId := 0
    base := 0, scratch := 4096, pc := 0 }
def copyJob (phase : JobPhase) : Job := job 0 [0, 0, 16, 8, 0xFFFF0000, 0, 0, 0] phase
def gatherJob (phase : JobPhase) : Job := job 5 [0, 0, 4, 1, 0, 1, 0, 0xFFFF0000] phase
def sortJob : Job := job 0x11 [0, 0, 64, 0, 2, 0, 0xFFFF0000, 0] .running
def withJob (j : Job) : State :=
  mk (fun k => { k with jobs := [(0, some j)], futs := [(0, { gen := 1, phase := 1 })] }) id (fun w => { w with queue := [qentry (.eng 0)] }) id

theorem witness_EngineEvents :
    ((queueHead (withJob (copyJob .queued)) 0 0).map (fun h => (h.2.2.2.kind, engReleased h.1 h.2.2.2)) = some (.eng 0, true) ∧
      getJob (withJob (copyJob .queued)) 0 0 = some (copyJob .queued)) ∧
    (acceptStatus (copyJob .queued) = none ∧ acceptStatus (job 0 [0, 0, 16, 8, 0xFFFF0001, 0, 0, 0] .queued) = some 0xC1 ∧
      acceptStatus (job 0 [0, 0, 16, 0, 0xFFFF0000, 0, 0, 0] .queued) = some 0) ∧
    (let s := withJob (copyJob .running)
     let p := (copyJob .running).position
     let dst := ((copyJob .running).destRow p.1).add p.2.1
     let s1 := touchPlace (touchSource s (copyJob .running) p.1 p.2.1 p.2.2) (copyJob .running) .store dst p.2.2
     getJob s 0 0 = some (copyJob .running) ∧ withRow s 0 (copyJob .running) = .ok (copyJob .running) ∧
      (sourceRun s1 0 (copyJob .running) p.1 p.2.1 p.2.2).2.isNone = true ∧
      (∀ n < 8, engMayWrite s1 1 (dst.add n) = .ok 0) ∧
      (∀ i < 8, ∃ key leaf, route s 1 .load ((copyJob .running).pair 0 + BitVec.ofNat 64 0 + BitVec.ofNat 64 i) = .phys key leaf ∧ memBadAt s key 1 = false)) ∧
    (copyJob .running).total ≤ (copyJob .running).done + 8 ∧ (copyJob .running).done + 7 < (copyJob .running).total ∧ (copyJob .running).bob = none ∧
    getJob (withJob { copyJob .running with cancel := true }) 0 0 = some { copyJob .running with cancel := true } ∧
    getJob (withJob (copyJob (.ending 0xC2))) 0 0 = some (copyJob (.ending 0xC2)) ∧
    getJob (withJob (job 0x18 [0, 0, 4096, 0, 0, 0, 0, 0] .running)) 0 0 = some (job 0x18 [0, 0, 4096, 0, 0, 0, 0, 0] .running) ∧
    (vaOwner (0 : Dword) < 3 ∧ tbit (leafOf st 1 0) 5 = false ∧ (leafOf st 1 0).toNat / 2 % 16 ≠ 0 ∧ tbit (leafOf st 1 0) 0 = true ∧
      4096 ≤ ((0 : Dword).toNat / leafSpan (leafOf st 1 0) + 1) * leafSpan (leafOf st 1 0)) ∧
    (let s := { withJob sortJob with clusters := [(0, { carder := [(0, 0)] })] }
     (getCluster s 0).carder = [(0, 0)] ∧ getJob s 0 0 = some sortJob ∧ (readRun s 0 1 (.mem (sortJob.pair 0)) (sortJob.par 4 * sortJob.keySize)).2.isNone = true ∧
      (readRun s 0 1 (.mem (sortJob.pair 2)) (sortJob.par 4 * 4)).2.isNone = true) ∧
    (sortJob.par 5 % 16 = 0 ∧ sortJob.par 4 ≤ 65536 ∧ (List.replicate 8 (0 : Byte)).length = 4 * sortJob.par 4) ∧
    ((gatherJob .running).position = (0, 0, 4) ∧ (readRun st 0 1 (.sram ((gatherJob .running).base + (gatherJob .running).par 4 + 4 * 0)) 4).2.isNone = true) := by
  refine ⟨by decide +kernel, by decide +kernel, ⟨by decide +kernel, rfl, by decide +kernel, by decide +kernel, fun i hi => ?_⟩, by decide +kernel⟩
  have h : ∀ i < 8, route (withJob (copyJob .running)) 1 .load ((copyJob .running).pair 0 + BitVec.ofNat 64 0 + BitVec.ofNat 64 i) = .phys (0x10000 + i) 0x1001F ∧
      memBadAt (withJob (copyJob .running)) (0x10000 + i) 1 = false := by decide +kernel
  exact ⟨_, _, h i hi⟩

def withCluster (c : Cluster) (z : Zone) : State := { st with clusters := [(0, c)], zones := [(0, z)] }
def withRegion (b : Budget) : Region := { rcb := fetchRegion, asn := 1, chain := [fetchRegion], budget := b }
/-- The core's region holds a claim of one permit. -/
def claiming (c : Cluster) (z : Zone) : State := { withCluster c z with regions := [withRegion { permits := 1 }] }
/-- Both clusters of zone 0 claim. -/
def bothClaim (z : Zone) : State :=
  setCore { claiming { cyc := 8192, nextClaim := 8192 } z with clusters := [(0, { cyc := 8192, nextClaim := 8192 }), (1, { cyc := 8192, nextClaim := 8192 })] } 8 (getCore st 0)
def withRamp (cyc : Nat) : State := { withK (fun k => { k with ramp := some ⟨0, 16, 0⟩ }) with clusters := [(0, { cyc := cyc })] }

theorem witness_PowerEvents :
    ((getCore (withCluster { cyc := 1024 } {}) 0).ramp = none ∧ coreCyc (withCluster { cyc := 1024 } {}) 0 % 1024 = 0 ∧
      (getCore (withCluster { cyc := 1024 } {}) 0).lastEval < coreCyc (withCluster { cyc := 1024 } {}) 0) ∧
    (getCluster (withCluster { lowCycles := 16384 } {}) 0).credited < (getCluster (withCluster { lowCycles := 16384 } {}) 0).lowCycles / 16384 ∧
    (let s := claiming { cyc := 8192, nextClaim := 8192 } { pool := 64, grant := 64 }
     settledZone s 0 ∧ atBoundary (getCluster s 0) = true ∧ (getCluster s 0).clock = .nominal ∧ claimOf s 0 = 1 ∧
      1 ≤ (getZone s 0).pool ∧ (getZone s 0).grant < (getZone s 0).pool + claimOf s 0) ∧
    (let s := claiming { cyc := 8192, nextClaim := 8192, clock := .sprint } { pool := 1, grant := 64 }
     settledZone s 0 ∧ atBoundary (getCluster s 0) = true ∧ (getCluster s 0).clock = .sprint ∧
      ¬ ((getZone s 0).grant < (getZone s 0).pool + claimOf s 0)) ∧
    (let s := bothClaim { pool := 1, grant := 1 }
     settledZone s 0 ∧ (∀ x ∈ [0, 1], atBoundary (getCluster s x) = true ∧ 0 < claimOf s x ∧ (getCluster s x).clock = .nominal ∧
      (getZone s 0).grant < 1 + claimOf s x) ∧ (getZone s 0).pool = 1) ∧
    ((getCluster (withCluster { cyc := 2048, clock := .falling, clockEnd := 2048 } {}) 0).clockEnd ≤ (getCluster (withCluster { cyc := 2048, clock := .falling, clockEnd := 2048 } {}) 0).cyc) ∧
    ((getCluster (withCluster { cyc := 5, clock := .coolDown, clockEnd := 5 } {}) 0).clock = .coolDown) ∧
    (getCore (withRamp 64000) 0).ramp = some ⟨0, 16, 0⟩ ∧ 0 + 10240 * (0 + 1) ≤ coreCyc (withRamp 10240) 0 ∧ 0 + 64000 ≤ coreCyc (withRamp 64000) 0 ∧
    (let s := withK (fun k => { k with overCap := 8192 })
     noCredit s 0 ∧ noCredit s 1 ∧ 8192 ≤ (getCore s 0).overCap) ∧ (getCore st 0).overCap < 8192 := by
  unfold settledZone noCredit
  decide +kernel

/-! Bring-up, the host, workgroups, contexts, the debugger, peers. -/

/-- `st` booted, and messages of context 0: a type, an address, a payload. -/
def untested : State := { st with booted := true }
def booted : State := { untested with ready2 := BitVec.allOnes _ }
def msg (type : Nat) (addr : Dword) (payload : List Byte) : Datagram := ⟨⟨0, 0⟩, message type 0 0 addr 0 payload⟩

theorem witness_BringUp :
    (State.reset.booted = false ∧ untested.booted = true) ∧
    (([.cluster 39, .slice 79, .hbm 7, .port 5, .ccore 7] : List Func) ≠ [] ∧
      ∀ f ∈ ([.cluster 39, .slice 79, .hbm 7, .port 5, .ccore 7] : List Func), testRuns untested f = true ∧ funcExists f = true) ∧
    untested.first = 0 ∧ { untested with first := 1 }.first ≠ 0 ∧ { untested with recovery := true }.recovery = true ∧
    field [] 0 3 ≠ 0x4A574649 := by decide +kernel

/-- A launch record that names a completion address but whose object and RCB addresses are not aligned. -/
def badLaunch : List Byte := [1] ++ List.replicate 63 0

theorem witness_HostMessages :
    (let d := msg 0x03 0 [1, 2, 3, 4]
     booted.accepts d ∧ dType d = 0x03 ∧ dLen d = 4 ∧ (dAddr d).toNat % 4 = 0 ∧ pieces (dAddr d).toNat (dLen d) = [((dAddr d).toNat, dLen d)] ∧
      vaOwner (dAddr d) < 3 ∧ route booted (getHost booted (dCtx d)).asn .store (dAddr d) = .phys 0x10000 0x1001F) ∧
    (let d := msg 0x04 0 (toBytes 4 4)
     booted.accepts d ∧ dType d = 0x04 ∧ field (dPayload d) 0 3 = 4 ∧
      route booted (getHost booted (dCtx d)).asn .load (dAddr d) = .phys 0x10000 0x1001F ∧ memBadAt booted 0x10000 4 = false) ∧
    (booted.accepts (msg 0x07 0 (List.replicate 32 0)) ∧ dType (msg 0x07 0 (List.replicate 32 0)) = 0x07) ∧
    (messageOk (msg 0x0B 0 []) = true ∧ dType (msg 0x0B 0 []) = 0x0B ∧ booted.recovery = false) ∧
    isUnknown (msg 0x0C 0 []) = true ∧
    (booted.accepts (msg 0x01 0 (List.replicate 64 0)) ∧ dType (msg 0x01 0 (List.replicate 64 0)) = 0x01) ∧
    ((launchRec badLaunch).formOk = false ∧ (launchRec badLaunch).doneOk = true ∧
      (match doneRoute booted 1 (launchRec badLaunch).doneVa with
        | .ok key => decide (key = 0x10000)
        | .error _ => false) = true) := by
  unfold State.accepts
  decide +kernel

/-- A loaded object of one native kernel: a header, an entry for this device, a descriptor at 128 of a kernel in waves of 64 lanes
with 16 vector registers, and one instruction at 192. -/
def object0 : List Byte :=
  List.replicate 6 0 ++ [1] ++ List.replicate 57 0 ++
  ([3, 0, 0x48, 0, 0xA2, 0] ++ List.replicate 10 0 ++ [192, 0, 0, 0, 12, 0, 0, 0, 128, 0, 0, 0, 1, 0] ++ List.replicate 18 0) ++ List.replicate 16 0 ++
  (List.replicate 12 0 ++ [6, 0, 16, 0, 64, 1] ++ List.replicate 7 0 ++ [0x10, 0, 0, 0xFF, 0xFF, 0xFF, 0xFF] ++ List.replicate 32 0) ++ List.replicate 12 0
/-- A region control block of cluster 0 and its core 0, and launches of the object at 0x200 under the block at 0x100. -/
def rcb0 : List Byte :=
  List.replicate 16 0 ++ [1] ++ List.replicate 7 0 ++ [1, 16, 16, 0, 0, 0, 0, 0] ++ [0, 0, 0x18, 0, 0, 0, 5, 0] ++ List.replicate 216 0
def goodLaunch : List Byte :=
  toBytes 8 0x200 ++ List.replicate 4 0 ++ [1, 0, 0, 0, 1, 0, 1, 0, 64, 0, 1, 1] ++ List.replicate 8 0 ++ toBytes 8 0x100 ++ List.replicate 24 0
def tearLaunch : List Byte :=
  toBytes 8 0 ++ List.replicate 4 0xFF ++ [1, 0, 0, 0, 1, 0, 1, 0, 64, 0, 1, 1] ++ List.replicate 8 0 ++ toBytes 8 0x100 ++ List.replicate 24 0
/-- The module with the block in memory, the object loaded, and a launch of the region waiting. -/
def serving : State :=
  { allReady with
    booted := true
    mem := writeBytes [] 0x10100 rcb0
    loaded := [⟨1, 0x200, List.replicate 32 0, object0, false, []⟩]
    launches := [{ launch0 with region := mkRgn 1 0x100, capstan := none }]
    accepted := 1 }

theorem witness_Acceptance :
    (match acceptEarly { serving with accepted := serving.accepted + 1 } { asn := 1 } (launchRec goodLaunch) with
      | (s1, .go read) => (match checkRest s1 { asn := 1 } (launchRec goodLaunch) read with
        | (_, .ok _) => true
        | _ => false)
      | _ => false) = true := by decide +kernel

theorem witness_Teardown :
    (match acceptEarly { serving with accepted := serving.accepted + 1 } { asn := 1 } (launchRec tearLaunch) with
      | (s1, .teardown) => (tornLaunches s1 (mkRgn 1 (launchRec tearLaunch).rcb)).length = 1
      | _ => false) = true := by decide +kernel

/-- A region with room on core 0, and a launch of one workgroup of one wave. -/
def budget0 : Budget := { clusters := 1, cores := 1, tiles := 16, regs := 1572864, scratch := 327680, l2Ways := 16, permits := 1 }
def region0 : Region := { withRegion budget0 with rcb := mkRgn 1 0x2000, chain := [mkRgn 1 0x2000], inForce := some budget0, queue := [1] }
def plainKernel : Kernel := { fetchKernel with gridSync := false, scratch := 4096, vregs := 16 }
def launch1 : Launch := { launch0 with acc := 1, region := mkRgn 1 0x2000, kernel := plainKernel, capstan := none }
def placing : State := { booted with ready0 := 1, regions := [region0], launches := [launch1] }

/-- The wave has ended; its workgroup's kind; launch 0 counts its publication. -/
def ended (kind : WgKind) : State :=
  { mk id (fun g => { g with kind := kind }) (fun w => { w with parts := [] }) id with launches := [{ launch0 with capstan := none }] }
def publishedAll : State := { State.reset with launches := [{ launch0 with capstan := none, published := [0], next := 1 }] }

def tri0 : Tri := { a := 1, s := 0, n := 0, verts := [(0, 0, 0), (0x41000000, 0, 0), (0, 0x41000000, 0)], attr := 0, tiles := [(0, 0)] }
def batch0 (launch : Nat) (running : Bool) : Batch :=
  { id := 0, launch := launch, asn := 1, d := 0, target := 0, texel := 4, width := 64, height := 64, kernel := plainKernel, tx := 0, ty := 0
    tris := [tri0], running := running }
/-- A fragment workgroup whose waves have drained, some already started. -/
def fragments (started : Nat) : State :=
  { mk id (fun g => { g with kind := .fragment 0, started := started }) (fun w => { w with parts := [] }) id with
    batches := [batch0 0 true], launches := [launch0] }
def bin0 : Bin := { root := 0, key := 3, region := fetchRegion, slice := 0, recBytes := 4, cap := 1024, timer := 10, kernel := plainKernel, records := [[1, 2, 3, 4]], reserved := 1 }

theorem witness_Scheduling :
    (placing.regions = [region0] ∧ region0.chain = [region0.rcb] ∧ region0.inForce.isSome = true ∧ placing.nodes = [] ∧ region0.queue.head? = some 1 ∧
      getLaunch placing 1 = some launch1 ∧ launch1.region = region0.rcb ∧ launch1.kernel.gridSync = false ∧ depsMet placing launch1 launch1.next = true ∧
      (findCore placing region0.rcb region0.now region0.pointer (demandOf launch1.kernel launch1.waves)).isSome = true) ∧
    (∀ kind ∈ [WgKind.plain, .node 0 3], (getWg (getCore (ended kind) 0) 0).map (fun g => (g.kind, wgDone (ended kind) 0 g, g.launch)) = some (kind, true, 0)) ∧
    ((getLaunch (ended .plain) 0).isSome = true ∧ (match doneRoute (ended .plain) 1 0 with
      | .ok key => decide (key = 0x10000)
      | .error _ => false) = true) ∧
    (∃ l, getLaunch publishedAll 0 = some l ∧ l.ended = false ∧ l.capstan = none ∧ nodesDone publishedAll 0 = true ∧
      l.published.length = (if l.dropped.isSome then l.next else l.gx * l.gy * l.gz)) ∧
    (placeBatch { placing with batches := [batch0 1 false] } (batch0 1 false)).isSome = true ∧
    ((batchWg (fragments 0) 0).isSome = true ∧ (nextFragment (fragments 0) (batch0 0 true)).isSome = true) ∧
    ((getWg (getCore (fragments 16) 0) 0).map (fun g => (g.kind, fragmentsDone (fragments 16) 0 g (batch0 0 true))) = some (.fragment 0, true)) ∧
    (let s := { State.reset with bins := [bin0], clusters := [(0, { cyc := 10 })] }
     s.bins[0]? = some bin0 ∧ bin0.records ≠ [] ∧ bin0.restarted + bin0.timer ≤ binCyc s bin0) := by
  refine ⟨by decide +kernel, by decide +kernel, by decide +kernel, ⟨_, rfl, by decide +kernel⟩, by decide +kernel⟩

/-- Two contexts on core 0: the active one of `st`, and a shadow of another region with a ready wave. -/
def ctx (rgn : Rgn) (order : Nat) (place : CtxPlace) : Context := { region := rgn, asn := 1, order := order, fast := true, place := place }
def twoContexts (fast : Bool) (prio idle quantum : Nat) : State :=
  { withK (fun k => { k with
      waves := k.waves ++ [(1, some { fetchWave with serial := 1, wg := 1 })]
      wgs := k.wgs ++ [(1, some { fetchGroup with region := mkRgn 1 0x2000, slots := [1], tiles := [] })]
      ctxs := [{ ctx fetchRegion 0 .active with fast := fast, idle := idle, quantum := quantum, wanted := true },
        { ctx (mkRgn 1 0x2000) 1 .shadow with fast := true }] }) with
    regions := [withRegion {}, { withRegion { prio := prio } with rcb := mkRgn 1 0x2000 }] }
/-- A region of a higher priority waits for tiles that the context of `st` holds. -/
def waiting (fast : Bool) (loads : List Load) : State :=
  let s := mk (fun k => { k with ctxs := [{ ctx fetchRegion 0 .active with fast := fast }] }) id (fun w => { w with loads := loads }) id
  { placing with
    cores := s.cores
    regions := [withRegion { budget0 with tiles := 8 }, { region0 with budget := { budget0 with prio := 5 } }]
    launches := [{ launch0 with capstan := none, kernel := plainKernel }, { launch1 with kernel := { plainKernel with tiles := 16 } }] }
/-- Who leaves for whom, and from which core. -/
def leaves (s : State) : Option (Region × Nat × Context) :=
  ((sortBy (fun a b => decide (b.budget.prio < a.budget.prio)) (s.regions.filter (waitsForRoom s))).findSome?
    (fun r => (preemptCore s r).map (fun n => (r, n)))).bind (fun x => (victim s x.2 x.1.budget.prio).map (fun v => (x.1, x.2, v)))
/-- The context is streamed out. -/
def away : State := { streamOut st 0 fetchRegion with regions := [withRegion {}], launches := [{ launch0 with capstan := none, kernel := plainKernel }] }

theorem witness_ContextSwitches :
    (∀ fast ∈ [true, false], let s := twoContexts fast 3 0 0
     (activeCtx (getCore s 0)).map (·.fast) = some fast ∧ (∀ x ∈ (getCore s 0).ctxs, x.place = .active → x.region = fetchRegion) ∧
      atSwitchPoint (getCore s 0) fetchRegion = true ∧ leaveReady s fetchRegion 0 = true ∧ pinned s (wgsOfRgn (getCore s 0) fetchRegion) = false ∧
      (topOf s ((rotateFrom (getCore s 0) 0).filter (fun c => decide (prioOf s fetchRegion < prioOf s c.region) && ctxReady s 0 c.region))).map (·.region) =
        some (mkRgn 1 0x2000)) ∧
    (let s := setCore (twoContexts true 3 0 0) 0 { getCore (twoContexts true 3 0 0) 0 with waves := [(0, some { fetchWave with loads := [loadInFlight] })] }
     atSwitchPoint (getCore s 0) fetchRegion = false) ∧
    (let s := twoContexts true 0 512 0
     (activeCtx (getCore s 0)).map (·.idle) = some 512 ∧ atSwitchPoint (getCore s 0) fetchRegion = true ∧
      (topOf s ((rotateFrom (getCore s 0) 0).filter (fun c => ctxReady s 0 c.region))).isSome = true) ∧
    (let s := twoContexts true 0 0 65536
     (activeCtx (getCore s 0)).map (fun a => (a.quantum, a.wanted)) = some (65536, true) ∧
      ((rotateFrom (getCore s 0) 0).filter (fun c => prioOf s c.region = prioOf s fetchRegion)).length = 1) := by
  decide +kernel

theorem witness_ContextsLeave :
    (∀ fast ∈ [true, false], (leaves (waiting fast [])).map (fun x => (x.2.1, x.2.2.region, x.2.2.fast)) = some (0, fetchRegion, fast)) ∧
    ((leaves (waiting true [])).map (fun x => (tryPlace (setCore (waiting true []) 0 (leaveActive (getCore (waiting true []) 0))) x.1).isNone) = some true) ∧
    (∀ fast ∈ [true, false], leaveReady (waiting fast []) fetchRegion 0 = true ∧ (leavingCtxs (waiting fast [])).isEmpty = true) ∧
    (leaveReady (waiting false [loadInFlight]) fetchRegion 0 = false ∧ (leaves (waiting false [loadInFlight])).isSome = true) ∧
    (ctxOf (getCore st 0) fetchRegion).isSome = true ∧
    ((ctxOf (getCore away 0) fetchRegion).map (fun c => (c.place, c.savedWaves.map (·.1), (streamIn away 0 c).isSome)) = some (.streamed, [0], true) ∧
      betterWaits away 0 (prioOf away fetchRegion) fetchRegion = false ∧
      (ctxOf (getCore away 0) fetchRegion).map (fun c => (gridsOf away (c.savedWgs.map (·.2))).isEmpty) = some true) :=
  ⟨by decide +kernel, by decide +kernel, by decide +kernel, by decide +kernel, by decide +kernel, by decide +kernel, by decide +kernel, by decide +kernel⟩

/-- DBGCMD words: an operation on wave slot 0, part 0 (22 R404). -/
def halted : State := withW (fun w => { w with halted := true })
def frozenWave : State := withW (fun w => { w with frozen := some 0x41 })

theorem witness_Debugger :
    (∃ w, cmdWave st 0 1 = some w ∧ w.frozen = none ∧ w.halted = false ∧ cmdOp 1 = 1) ∧
    (∃ w p, cmdWave halted 0 3 = some w ∧ w.frozen = none ∧ w.halted = true ∧ w.parts[0]? = some p ∧ lowestLane p.lanes = cmdArg 3 ∧ p.frozen = none ∧
      p.stepping = false ∧ p.wait = .ready ∧ w.parts.length = 1) ∧
    cmdWave st 0 0x1001 = none ∧
    (∃ w, cmdWave st 0 4 = some w ∧ w.frozen = none ∧ ∀ p ∈ w.parts, p.frozen = none) ∧
    (∃ w, cmdWave frozenWave 0 4 = some w ∧ w.frozen.isSome = true ∧ ∀ p ∈ w.parts, p.frozen = none) ∧
    (∃ c, partAt (withP (fun p => { p with frozen := some ⟨0x20, 5⟩ })) ⟨0, 0, 0⟩ = some c ∧ c.p.frozen = some ⟨0x20, 5⟩ ∧ c.p.handler = none ∧ c.readRecord.2 = false) ∧
    (∃ c, partAt (withP (fun p => { p with frozen := some ⟨0x20, 5⟩, handler := some ⟨[], none⟩ })) ⟨0, 0, 0⟩ = some c ∧ c.p.handler.isSome = true) ∧
    (∃ j, getJob (withJob (copyJob (.frozen 0x41))) 0 0 = some j ∧ cmdSlot 0x4005 = 64 ∧ cmdOp 0x4005 = 5 ∧ j.phase = .frozen 0x41) ∧
    cmdOp 0x06 = 6 :=
  ⟨⟨_, rfl, by decide +kernel⟩, ⟨_, { lanes := BitVec.allOnes 64, run := BitVec.allOnes 64, exec := BitVec.allOnes 64 }, rfl, by decide +kernel⟩,
    by decide +kernel, ⟨_, rfl, by decide +kernel⟩, ⟨_, rfl, by decide +kernel⟩, ⟨cxOf _ (by decide +kernel), cxOf_at _ _, by decide +kernel⟩,
    ⟨cxOf _ (by decide +kernel), cxOf_at _ _, by decide +kernel⟩, ⟨copyJob (.frozen 0x41), by decide +kernel⟩, by decide +kernel⟩

/-- An inbound request of peer context 3, which is bound to address space 1; an outstanding request. -/
def inbound (op : PeerOp) : PeerRequest := ⟨0, 3, 9, 0, 0, op⟩
def withPeer : State := { st with ready2 := BitVec.allOnes _, pctxs := [(3, 1, 0x1000)], peers := [{ id := 0, port := 1, module := 2, pctx := 3, owner := 0, offset := 0, op := .load 4, use := .load 0 0 0 0 }] }

theorem witness_Peers :
    (∀ op ∈ [PeerOp.load 4, .store [1, 2, 3, 4], .atomic 0 false 5 0], withPeer.peerCancelled.contains (3, 9) = false ∧ withPeer.frozenPairs.contains 3 = false ∧
      withPeer.pctxs.find? (fun x => x.1 = 3) = some (3, 1, 0x1000) ∧
      ∀ i < 4, route withPeer 1 (peerShape op).2.2 (Reference.dnat (0 * 2 ^ 54 + 0 + i)) = .phys (0x10000 + i) 0x1001F ∧
        memBadAt withPeer (0x10000 + i) 1 = false) ∧
    ((∀ i < 4, route withPeer 1 (peerShape (.put (List.replicate 8 0))).2.2 (Reference.dnat (0 * 2 ^ 54 + 4092 + i)) = .phys (0x10000 + 4092 + i) 0x1001F ∧
        memBadAt withPeer (0x10000 + 4092 + i) 1 = false) ∧
      (match route withPeer 1 .store (Reference.dnat (0 * 2 ^ 54 + 4092 + 4)) with
        | .denied _ => true
        | _ => false) = true) ∧
    (({ withPeer with pctxs := [] } : State).pctxs.find? (fun x => x.1 = (inbound (.load 4)).pctx) = none ∧ portReady { withPeer with pctxs := [] } 0 = true) ∧
    ({ withPeer with frozenPairs := [3] }.frozenPairs.contains 3 = true) ∧ ({ withPeer with peerCancelled := [(3, 9)] }.peerCancelled.contains (3, 9) = true) ∧
    (withPeer.peers.find? (fun r => r.id = 0)).isSome = true ∧
    (∃ w, getWave (getCore (withW (fun w => { w with loads := [loadInFlight] })) 0) 0 = some w ∧ loadInFlight ∈ w.loads ∧ loadInFlight.lanes.length = 1 ∧ w.serial = 0) := by
  refine ⟨by decide +kernel, by decide +kernel, by decide +kernel, by decide +kernel, by decide +kernel, by decide +kernel, ⟨_, rfl, by decide +kernel⟩⟩

/-! The machine as a whole. -/

theorem witness_DecodeEncode : (Instr.vadd { always with d := 255, a := 255, b := 255 }).WellFormed ∧ isEvent (.vadd always) = false ∧
    (encode (.vadd { always with d := 255, a := 255, b := 255 })).isSome = true ∧ (List.replicate 11 (0 : Byte)).length < 12 :=
  ⟨⟨by decide +kernel, by decide +kernel, by decide +kernel, by decide +kernel⟩, by decide +kernel⟩

/-- A word is next; the PC past the end of its segment; a part that waits; an event. -/
def atWord : State := State.reset.withFetchWord 96 (0x06B80000 * 2 ^ 64 + 0x00128000)
theorem witness_StepRunsDecoded :
    (∃ c w, let s1 := { atWord with agenda := [] }
      atWord.agenda = [.issue ⟨0, 0, 0⟩] ∧ chooseOn 0 (getCore atWord 0) (coreCyc atWord 0) = some ⟨0, 0, 0⟩ ∧
        chooseIn { atWord with agenda := [.tick 0] } 0 = some ⟨0, 0, 0⟩ ∧ partAt s1 ⟨0, 0, 0⟩ = some c ∧
        fetchWord s1 c.w c.p = .word w ∧ decode (toBytes 12 w.toNat) = .ok (.bpt { always with x := 0x25 }, [])) ∧
    (∃ c, partAt (withP (fun p => { p with pc := 1 })) ⟨0, 0, 0⟩ = some c ∧ (fetchSeg c.w c.p).len / 12 ≤ c.p.pc.toNat) ∧
    chooseOn 0 (getCore (withP (fun p => { p with wait := .barrier })) 0) (coreCyc (withP (fun p => { p with wait := .barrier })) 0) = none ∧
    (∀ core ∈ coresOfCluster 0, issuesDone (withP (fun p => { p with wait := .barrier })) core = true) ∧
    isEvent (.launchEnd 0) = true ∧ { st with agenda := [.event (.launchEnd 0)] }.agenda = .event (.launchEnd 0) :: [] := by
  refine ⟨⟨cxOf { atWord with agenda := [] } (by decide +kernel), BitVec.ofNat 96 (0x06B80000 * 2 ^ 64 + 0x00128000), by decide +kernel,
    by decide +kernel, by decide +kernel, cxOf_at { atWord with agenda := [] } _, by decide +kernel⟩, ⟨cxOf _ (by decide +kernel), cxOf_at _ _, by decide +kernel⟩,
    by decide +kernel⟩

theorem next_of {o : Host.Outcome State Fault Refusal} (h : (match o with | .next _ => true | _ => false) = true) : ∃ t, o = .next t := by
  cases o <;> simp_all

theorem witness_EveryStep : ({ State.reset with agenda := [.event (.launchEnd 0)] } : State).memOk ∧
    ∃ t, step { State.reset with agenda := [.event (.launchEnd 0)] } = .next t := ⟨rfl, next_of (by decide +kernel)⟩

/-! Further cases of the statements. -/

/-! Further clauses of the statements: hypotheses that states or values meet. -/

theorem witness_Latch : ∃ c, Issues st c 0x040 { R 5 1 2 0 with wb := true, lw := true } :=
  ⟨_, issues_st (by decide +kernel)⟩

/-- 1 - 1, a sum of 0; the tie 2^24 + 1; numbers past the largest, and the largest where the mode stays at it; a tie of FP16. -/
theorem witness_Rounding :
    ((FVal.num false 1 0).add 0 (.num true 1 0)).value = 0 ∧
    (∃ v : FVal, v.finite ∧ v.value ≠ 0 ∧ (f32 (toF32 0 v)).finite ∧ |(f32 (toF32 0 v)).value - v.value| = ulpOf 23 (-149) v.value / 2) ∧
    ((FVal.num false 1 128).value ≠ 0 ∧ (2 ^ 25 - 1 : ℚ) * 2 ^ (103 : Int) ≤ |(FVal.num false 1 128).value| ∧
      (2 ^ 24 - 1 : ℚ) * 2 ^ (104 : Int) < (FVal.num false 1 128).value ∧ (FVal.num true 1 128).value < -((2 ^ 24 - 1 : ℚ) * 2 ^ (104 : Int))) ∧
    (∃ v : FVal, v.finite ∧ v.value ≠ 0 ∧ |v.value| ≤ (fp16.decode fp16.maxCode).value ∧
      |(fp16.decode (fp16.round 0 0 true v)).value - v.value| = ulpOf fp16.m (1 - fp16.bias - fp16.m) v.value / 2) ∧
    (fp16.decode fp16.maxCode).value ≤ |(FVal.num false 1 128).value| := by
  have a : (FVal.num false 1 0).add 0 (.num true 1 0) = .num false 0 0 := by decide +kernel
  have b : f32 (toF32 0 (.num false 16777217 0)) = .num false 8388608 1 := by decide +kernel
  have c : fp16.decode (fp16.round 0 0 true (.num false 2049 0)) = .num false 1024 1 := by decide +kernel
  have d : fp16.decode fp16.maxCode = .num false 2047 5 := by decide +kernel
  have m : (fp16.m, (1 : Int) - fp16.bias - fp16.m) = (10, -24) := by decide +kernel
  rw [Prod.mk.injEq] at m
  refine ⟨by rw [a]; norm_num [FVal.value], ⟨.num false 16777217 0, trivial, by norm_num [FVal.value], by rw [b]; trivial, ?_⟩,
    by norm_num [FVal.value], ⟨.num false 2049 0, trivial, by norm_num [FVal.value], by rw [d]; norm_num [FVal.value], ?_⟩,
    by rw [d]; norm_num [FVal.value]⟩
  · have l : Int.log 2 |(FVal.num false 16777217 0).value| = 24 := by
      rw [show |(FVal.num false 16777217 0).value| = ((16777217 : ℕ) : ℚ) by norm_num [FVal.value], Int.log_natCast,
        show Nat.log 2 16777217 = 24 by decide +kernel]
      rfl
    rw [b, ulpOf, l]
    norm_num [FVal.value]
  · have l : Int.log 2 |(FVal.num false 2049 0).value| = 11 := by
      rw [show |(FVal.num false 2049 0).value| = ((2049 : ℕ) : ℚ) by norm_num [FVal.value], Int.log_natCast,
        show Nat.log 2 2049 = 11 by decide +kernel]
      rfl
    rw [c, ulpOf, l, m.2, m.1]
    norm_num [FVal.value]

theorem witness_Quantise : (∃ x ∈ [FVal.nan], ¬ x.finite) ∧
    ((∀ x ∈ List.replicate 16 (FVal.num false 1 0), x.finite ∧ |x.value| < 2 ^ 128) ∧ (List.replicate 16 (FVal.num false 1 0)).length = 16 ∧
      ∃ a ∈ List.replicate 16 (FVal.num false 1 0), a.value ≠ 0 ∧ ∀ x ∈ List.replicate 16 (FVal.num false 1 0), |x.value| ≤ |a.value|) ∧
    (∀ x ∈ List.replicate 16 (FVal.zero false), x.finite ∧ x.value = 0) := by
  refine ⟨⟨_, List.mem_singleton_self _, id⟩, ⟨fun x hx => ?_, rfl, _, List.mem_replicate.2 ⟨by decide, rfl⟩, by norm_num [FVal.value], fun x hx => ?_⟩,
    fun x hx => ?_⟩
  all_goals obtain rfl := (List.mem_replicate.1 hx).2
  · exact ⟨trivial, by norm_num [FVal.value]⟩
  · rfl
  · exact ⟨trivial, by norm_num [FVal.value, FVal.zero]⟩

/-- Entries of kind MISS that are complete: alone, and inside an older entry that its lanes match; an incomplete entry that has expired. -/
def missEntry : RejoinEntry := { entryAll (BitVec.allOnes 64) with idx := 1, miss := true, started := true }
def parkedAt (es : List RejoinEntry) : Wave :=
  { two (fun p => { p with wait := .parked 1 }) (fun p => { p with wait := .parked 1 }) fetchWave with rejoin := es }
def lateEntry : RejoinEntry := { entryAll lo with started := true, expired := true }
def late : Wave := { two (fun p => { p with wait := .parked 0 }) id fetchWave with rejoin := [lateEntry] }

theorem witness_SettleMiss : (∀ es ∈ [[missEntry], [entryAll 0, missEntry]], let w := parkedAt es
      w.rejoin.find? (fun x => x.idx = missEntry.idx) = some missEntry ∧ missEntry.expect &&& quadsOf (liveLanes w) ≠ 0 ∧
      liveLanes w &&& quadLanes missEntry.expect &&& ~~~missEntry.arrived = 0 ∧
      (∀ p ∈ w.parts, p.lanes ≠ 0 ∧ ∀ q ∈ w.parts, lowestLane p.lanes = lowestLane q.lanes → p = q) ∧
      (∃ p ∈ w.parts, p.wait = .parked missEntry.idx) ∧
      matchEntry { w with rejoin := w.rejoin.filter (fun x => x.idx != missEntry.idx) } (BitVec.allOnes 64) = (es.filter (fun x => x.idx = 0)).head?) ∧
    late.rejoin.find? (fun y => y.idx = lateEntry.idx) = some lateEntry ∧ lateEntry.expect &&& quadsOf (liveLanes late) ≠ 0 ∧
    entryComplete late { lateEntry with expect := lateEntry.expect &&& quadsOf (liveLanes late) } = false ∧ lateEntry.started = true ∧
    lateEntry.expired = true ∧ lateEntry.miss = false ∧ (late.parts.map (fun p => lowestLane p.lanes)).Nodup := by decide +kernel

/-- The lower half of the part runs, the upper half is a pending path: not parked, or parked at `rejoin` or at `fuse`. -/
def pendingAt (at' : Nat) (w : Wave) : Wave :=
  { w with parts := w.parts.map (fun p => { p with run := lo, exec := lo, paths := [⟨0, hi, hi, at'⟩] }) }
theorem witness_PathsAtRejoin :
    (∀ op ∈ [0x008, 0x009], ∃ c, Issues (withW (pendingAt 0)) c op always ∧ c.p.handler = none ∧ ∃ y ∈ c.p.paths, y.parkedAt = 0) ∧
    (∃ c, Issues (withW (two (fun p => { p with run := 0xFFFF, exec := 0xFFFF, paths := [⟨0, 0xFFFF0000, 0xFFFF0000, 2⟩] }) id)) c 0x009 always ∧
      c.p.handler = none ∧ c.p.run ≠ 0 ∧ c.p.paths ≠ [] ∧ (∀ y ∈ c.p.paths, y.parkedAt = 2) ∧ ∃ i p, i ≠ c.idx ∧ c.w.parts[i]? = some p ∧ p.wait ≠ .fuse) ∧
    (∃ c, Issues (withW (fun w => { pendingAt 1 w with rejoin := [entryAll 0] })) c 0x008 always ∧ c.p.handler = none ∧ c.p.run ≠ 0 ∧ c.p.paths ≠ [] ∧
      (∀ y ∈ c.p.paths, y.parkedAt = 1) ∧ matchEntry c.w c.p.lanes = some (entryAll 0)) := by
  have h : ∀ op ∈ [0x008, 0x009], issuesIn (cxOf (withW (pendingAt 0)) (by decide +kernel)) op always = true := by decide +kernel
  exact ⟨fun op ho => wit _ _ (h op ho) (by decide +kernel),
    wit _ (by decide +kernel) (by decide +kernel) ⟨by decide +kernel, by decide +kernel, by decide +kernel, by decide +kernel, 1, half hi, by decide +kernel⟩,
    wit _ (by decide +kernel) (by decide +kernel) (by decide +kernel)⟩

theorem witness_Kills :
    (∃ c, Issues st c 0x00C always ∧ c.activeLanes always ≠ 0 ∧ c.w.parts.length ≤ 1) ∧
    (∃ c, Issues (withW (two id id)) c 0x00C always ∧ c.activeLanes always ≠ 0 ∧ 1 < c.w.parts.length) ∧
    (∃ w, (getCore (withW (fun w => { two id id w with killed := some 0 })) 0).waves = [(0, some w)] ∧ w.killed ≠ none ∧
      getWg (getCore (withW (fun w => { two id id w with killed := some 0 })) 0) w.wg = some fetchGroup) :=
  ⟨wit _ st_some (by decide +kernel) (by decide +kernel), wit _ (by decide +kernel) (by decide +kernel) (by decide +kernel),
    ⟨_, rfl, by decide +kernel⟩⟩

/-- A latch that its reader may not read yet, in a wave whose part has half of the lanes; `vperm` of 64 lanes, `vadd`, and `vfadd` of a
register of another tag. -/
def earlyLatch (w : Wave) : Wave :=
  { two (fun p => { p with window := some ⟨0, 0, [], [], [⟨0, .ialu, 1000000, [], []⟩], 0⟩ }) id w with tags := kset 0 w.tags 0 tagI32 }
theorem witness_LatchEarly : ∃ c, partAt (withW earlyLatch) ⟨0, 0, 0⟩ = some c ∧
    (∀ x ∈ [(0x060, { R 5 0 2 4 with al := true }), (0x080, { R 5 0 0 0 with al := true })], decodeCheck c x.1 x.2 = none ∧ busy c x.1 x.2 = false ∧
      latchCheck c.p x.1 x.2 c.cyc c.s.freeCount = some 0x07 ∧ widthOf c x.1 x.2 ≤ c.w.width) ∧
    (let f : Fields := { R 5 0 2 4 with al := true }
     tagsOk (c.inWindow 0x060 f) 0x060 f = true ∧ meetsWidth c.w c.p (widthOf c 0x060 f) = false ∧ c.p.handler = none) ∧
    (let f : Fields := { R 5 0 0 0 with al := true }
     tagsOk (c.inWindow 0x080 f) 0x080 f = false) :=
  ⟨cxOf _ (by decide +kernel), cxOf_at _ _, by decide +kernel⟩

theorem witness_Catch : ∃ c, partAt (withK (fun k => { k with catchBpt := true })) ⟨0, 0, 0⟩ = some c ∧ c.k.catchBpt = true :=
  ⟨cxOf _ (by decide +kernel), cxOf_at _ _, by decide +kernel⟩

theorem witness_EntersTrap : (cx.w.parts.length ≤ 1 ∧ cx.w.frozen = none) ∧
    ∃ c, partAt (withW (fun w => { w with frozen := some 0x41 })) ⟨0, 0, 0⟩ = some c ∧ c.w.frozen ≠ none :=
  ⟨by decide +kernel, cxOf _ (by decide +kernel), cxOf_at _ _, by decide +kernel⟩

/-- A pending page request in slot 63. -/
def pageRequest : State :=
  mk (fun k => { k with futs := [(63, { gen := 1, phase := 1, owner := fetchRegion })], jobs := [(63, some (job 0x18 [0, 0, 4096, 0, 0, 0, 0, 0] .running))] })
    id id (fun p => { p with h := [(1, handle 1 63 1)] })
theorem witness_CancelPages : ∃ c, Issues pageRequest c 0x0B2 (R 260 409 0 0) ∧
    c.activeLanes (R 260 409 0 0) ≠ 0 ∧ (readHandle c.k (c.readH 1)).1 = 1 ∧ (c.readH 1).toNat / 2 ^ 16 % 2 ^ 8 < 64 ∧
    (kget none c.k.jobs 63).map (fun j => (j.fn, j.phase)) = some (0x18, .running) :=
  wit _ (by decide +kernel) (by decide +kernel) (by decide +kernel)

/-- The others of a workgroup have arrived, each at a barrier of either kind; computed. -/
def mismatchB (c : Cx) : Bool :=
  decide (c.p.frozen = none) && c.g.slots.all (fun i => match getWave c.k i with
    | some w => decide (w.frozen = none) && (w.parts.mapIdx (fun j p => decide (¬ (i = c.slot ∧ j = c.idx) → (p.wait = .barrier ∨ p.wait = .gbar) ∧ p.frozen = none))).all id
    | none => true)
theorem mismatch_of {c : Cx} (h : mismatchB c = true) : c.p.frozen = none ∧
    ∀ i w, i ∈ c.g.slots → getWave c.k i = some w → w.frozen = none ∧ ∀ (j : Nat) p, w.parts[j]? = some p →
      ¬ (i = c.slot ∧ j = c.idx) → (p.wait = .barrier ∨ p.wait = .gbar) ∧ p.frozen = none := by
  simp only [mismatchB, Bool.and_eq_true, decide_eq_true_eq, List.all_eq_true] at h
  refine ⟨h.1, fun i w hi hw => ?_⟩
  have h1 := h.2 i hi
  simp only [hw, Bool.and_eq_true, decide_eq_true_eq] at h1
  refine ⟨h1.1, fun j p hp hn => ?_⟩
  have h2 := List.all_eq_true.mp h1.2 _ (List.mem_mapIdx.mpr ⟨j, (List.getElem?_eq_some_iff.mp hp).1, rfl⟩)
  simp only [id, decide_eq_true_eq] at h2
  rw [(List.getElem?_eq_some_iff.mp hp).2] at h2
  exact h2 hn

theorem witness_Mismatch : ∃ c, Issues (withW (two id (fun p => { p with wait := .gbar }))) c 0x0A8 always ∧ c.p.handler = none ∧ c.numbered ∧
    (c.p.frozen = none ∧ ∀ i w, i ∈ c.g.slots → getWave c.k i = some w → w.frozen = none ∧ ∀ (j : Nat) p, w.parts[j]? = some p →
      ¬ (i = c.slot ∧ j = c.idx) → (p.wait = .barrier ∨ p.wait = .gbar) ∧ p.frozen = none) ∧
    ∃ (i : Nat) (w : Wave) (j : Nat) (p : Part), i ∈ c.g.slots ∧ getWave c.k i = some w ∧ w.parts[j]? = some p ∧ ¬ (i = c.slot ∧ j = c.idx) ∧ p.wait ≠ .barrier :=
  wit _ (by decide +kernel) (by decide +kernel) ⟨by decide +kernel, numbered_of (by decide +kernel), mismatch_of (by decide +kernel),
    0, two id (fun p => { p with wait := .gbar }) fetchWave, 1, { half hi with wait := .gbar }, by decide +kernel⟩

/-- The first of two waves ends; the second stands at the barrier. -/
def oneEnds : State :=
  let s := withG (fun g => { g with slots := [0, 1], kernel := { g.kernel with gridSync := false } })
  setCore s 0 { getCore s 0 with waves := (getCore s 0).waves ++ [(1, some { fetchWave with serial := 1, index := 1, parts := [{ half (BitVec.allOnes 64) with wait := .barrier }] })] }
theorem witness_LastArrives : ∃ w g v, getWave (getCore oneEnds 0) 0 = some w ∧ getWg (getCore oneEnds 0) w.wg = some g ∧ oneEnds.draws = [] ∧
    liveLanes w &&& ~~~(BitVec.allOnes 64) = 0 ∧ g.slots = [0, 1] ∧ g.kernel.gridSync = false ∧ getWave (getCore oneEnds 0) 1 = some v ∧
    v.index < 16 ∧ v.frozen = none ∧ v.parts ≠ [] ∧ ∀ p ∈ v.parts, p.wait = .barrier ∧ p.frozen = none :=
  ⟨fetchWave, { fetchGroup with slots := [0, 1], kernel := { fetchGroup.kernel with gridSync := false } },
    { fetchWave with serial := 1, index := 1, parts := [{ half (BitVec.allOnes 64) with wait := .barrier }] }, by decide +kernel⟩

/-- Queue register 0 bound to the node kernel of key 0 of the loaded object, with a bin of so many records, or none yet. -/
def nodeBinding : QBind := { q := 0, launch := false, recBytes := 4, key := 0, timer := 10, cap := 64 }
def nodeBin (reserved : Nat) : Bin :=
  { root := 0, key := 0, region := fetchRegion, slice := 0, recBytes := 4, cap := 64, timer := 10, kernel := plainKernel, reserved := reserved
    records := List.replicate reserved [1, 2, 3, 4] }
def withNodes (bins : List Bin) : State :=
  { mk id (fun g => { g with kernel := { g.kernel with binds := [nodeBinding] } }) id id with
    homes := [some [0], some [40]], bins := bins, loaded := [⟨1, 0x200, List.replicate 32 0, object0, false, []⟩]
    mapped := [{ asn := 1, addr := 0x200, digest := List.replicate 32 0, image := 0, key := 0, threads := 0, codeBase := 0, codeLen := 12, gang := false, dseg := 0 }]
    regions := [{ withRegion budget0 with inForce := some budget0 }] }
theorem nodes_some (bins : List Bin) (h : bins = [] ∨ bins = [nodeBin 64]) : (partAt (withNodes bins) (withNodes bins).cur).isSome = true := by
  rcases h with rfl | rfl <;> decide +kernel

theorem witness_Bins :
    (getBin (withNodes []) 0 0 = none ∧ binSlice (withNodes []) fetchRegion 0 0 ((64 * 4 + 127) / 128) = some 0 ∧
      (nodeKernel (withNodes []) fetchKernel 0).isSome = true) ∧
    (∀ n ∈ [1, 64, 65], (getBin (withNodes [nodeBin n]) 0 0).isSome = true ∧ tornDown (withNodes [nodeBin n]) 0 = false) ∧
    (∃ c, Issues (withNodes []) c 0x0B6 (R 409 424 272 0) ∧ c.activeLanes (R 409 424 272 0) ≠ 0 ∧ c.bound (R 409 424 272 0) nodeBinding ∧
      c.w.closed.contains 0 = false ∧ c.held = false ∧
      (let recs := (c.issued 0x0B6 (R 409 424 272 0)).spawnRecords 0x0B6 (R 409 424 272 0) nodeBinding
       c.within recs 4 4 ∧ c.sound recs 4 ∧ c.room nodeBinding recs.length) ∧ freeFut c.k 64 128 = some 64) ∧
    (∃ c, Issues (withNodes [nodeBin 64]) c 0x0B6 (R 409 424 272 0) ∧ c.activeLanes (R 409 424 272 0) ≠ 0 ∧ c.bound (R 409 424 272 0) nodeBinding ∧
      c.w.closed.contains 0 = false ∧ c.held = false ∧
      (let recs := (c.issued 0x0B6 (R 409 424 272 0)).spawnRecords 0x0B6 (R 409 424 272 0) nodeBinding
       c.within recs 4 4 ∧ c.sound recs 4 ∧ ¬ c.room nodeBinding recs.length) ∧ freeFut c.k 64 128 = some 64) ∧
    (let f := getFut (getCore (withK (fun k => { k with futs := [(64, { gen := 1, phase := 1, launches := [(1, none)] })] })) 0) 64
     f.gen = 1 ∧ f.phase = 1 ∧ ∀ x ∈ f.launches.mapIdx (fun j x => if j = 0 then (x.1, some (0 : Byte)) else x), x.2 ≠ none) := by
  refine ⟨by decide +kernel, by decide +kernel,
    wit _ (nodes_some _ (.inl rfl)) (by decide +kernel) ⟨by decide +kernel, ⟨by decide +kernel, .inr (by decide +kernel)⟩, by decide +kernel, by decide +kernel,
      ⟨within_of (by decide +kernel), sound_of (by decide +kernel), .inr (by decide +kernel)⟩, by decide +kernel⟩,
    wit _ (nodes_some _ (.inr rfl)) (by decide +kernel) ⟨by decide +kernel, ⟨by decide +kernel, .inr (by decide +kernel)⟩, by decide +kernel, by decide +kernel,
      ⟨within_of (by decide +kernel), sound_of (by decide +kernel), fun h => ?_⟩, by decide +kernel⟩, by decide +kernel⟩
  rcases h with h | h <;> revert h <;> decide +kernel

/-- Rows of R289: a plain old value, an infinite element beside one that is neither zero nor a NaN, and beside a zero; lines of every
format at the smallest K that it allows. -/
theorem witness_InfiniteProducts : f32 0x3F800000 ≠ .nan ∧ (line0.nan = [] ∧ line0.inf = [] ∧ line0.zero = []) ∧
    ((0, true) ∈ ({ line0 with inf := [(0, true)] } : Line).inf ∧ (0 : Nat) ∉ line0.zero) ∧ (0 : Nat) ∈ ({ line0 with zero := [0] } : Line).zero ∧
    ∀ fmt < 9, (if fmt = 7 then 32 else 16) % 16 = 0 ∧
      (List.replicate (lineBytes fmt (if fmt = 7 then 32 else 16)) (0 : Byte)).length = lineBytes fmt (if fmt = 7 then 32 else 16) := by
  decide +kernel

/-- A zeroing and a drain of tile 0 with nothing due before them; a drain to a page that is not resident, and to one that may not be
written; the sectors of a drain of one row. -/
def drained (leaf : Dword) : State :=
  { withArray (drainOp (some [List.replicate 64 0])) none [] with leaves := [(leafKey 0 1 0, leaf)] }
def settledCore (s : State) : State := setCore s 0 (settleArray (getCore s 0))
theorem witness_Drains :
    (∀ op ∈ [ArrayOp.zero 0, drainOp none], ∀ x ∈ earlierThan (getCore (withArray op none []) 0) 0, dueOnTile 0 x = false) ∧
    ((getCore (settledCore (drained 0x1001E)) 0).array.find? (fun e => e.id = 0) = some (arrayEntry (drainOp (some [List.replicate 64 0])) none) ∧
      drainReleased (getCore (settledCore (drained 0x1001E)) 0) (arrayEntry (drainOp (some [List.replicate 64 0])) none) 4 = true ∧
      drainDenied (settledCore (drained 0x1001E)) 1 false 0 (coveredBytes 0 256 1) = none ∧
      (drainAll 0 1 false 0 false false 0 256 [List.replicate 64 0] (settledCore (drained 0x1001E))).absent = true) ∧
    ((getCore (settledCore (drained 0x10003)) 0).array.find? (fun e => e.id = 0) = some (arrayEntry (drainOp (some [List.replicate 64 0])) none) ∧
      drainReleased (getCore (settledCore (drained 0x10003)) 0) (arrayEntry (drainOp (some [List.replicate 64 0])) none) 4 = true ∧
      (drainDenied (settledCore (drained 0x10003)) 1 false 0 (coveredBytes 0 256 1)).isSome = true) ∧
    (∀ i < 1, ∀ q < 2 * drainSize 0, route st 1 .store (Reference.dnat (0 + i * 256 + 32 * q)) = .phys (0x10000 + 32 * q) 0x1001F) ∧
    ((drainPlaces st 1 0 false 0 256 1).map (·.2.2)).Nodup := by
  refine ⟨by decide +kernel, ⟨by decide +kernel, by decide +kernel, by decide +kernel, by decide +kernel⟩,
    ⟨by decide +kernel, by decide +kernel, by decide +kernel⟩, by decide +kernel, by decide +kernel⟩

/-- Coordinates, levels and weights of a sample. -/
theorem witness_Filter : (f32 0x3F000000).finite ∧ 0 ≤ (f32 0x3F000000).value ∧ (f32 0x3F000000).value ≤ ((2 : Nat) : ℚ) - 1 ∧
    nearestEven (f32 0x3F000000).value (0 : Nat) ∧ nearestEven (256 * ((f32 0x3F000000).value - (0 : Nat))) (128 : Nat) ∧
    ((0 : Nat) : Int) = ⌊(f32 0x3F000000).value⌋ ∧ ([(256, 0x3F800000)] : List (Nat × Word)) ≠ [] ∧
    (∀ x ∈ ([(256, 0x3F800000)] : List (Nat × Word)), (f32 x.2).finite) ∧ addrMode 2 4 3 = some 3 ∧ addrMode 2 4 4 = none ∧
    (f32 (f32Add 0x7FC00000 0)).isNan = true ∧ (f32 (f32Add 0x3F800000 0)).finite := by
  have h : f32 0x3F000000 = .num false 8388608 (-24) := by decide +kernel
  have v : (f32 0x3F000000).value = 1 / 2 := by rw [h]; norm_num [FVal.value]
  refine ⟨by rw [h]; trivial, by rw [v]; norm_num, by rw [v]; norm_num, by rw [v]; unfold nearestEven; norm_num, by rw [v]; unfold nearestEven; norm_num,
    by rw [v]; norm_num, by decide, fun x hx => ?_, by decide +kernel, by decide +kernel, by decide +kernel, finite_of (by decide +kernel)⟩
  obtain rfl := List.mem_singleton.1 hx
  exact finite_of (by decide +kernel)

/-- Cells that are polyhedra: cell 0 between the planes x = 0 and x = 1, y = 0 and y = 1, with cell 1 across x = 1; a run along x
from (1/4, 1/4, 1/4), and one at x = 5/4 that `mesh.loc` takes across the face. -/
def polyhedron : List Byte :=
  let face (x y w : Nat) : List Byte := [x, y, 0, w].flatMap (toBytes 4)
  face 0x3F800000 0 0xBF800000 ++ face 0xBF800000 0 0 ++ face 0 0x3F800000 0xBF800000 ++ face 0 0xBF800000 0 ++ List.replicate 64 0 ++
  toBytes 4 1 ++ [0xFFFFFFFF, 0xFFFFFFFF, 0xFFFFFFFF].flatMap (toBytes 4) ++ List.replicate 44 0 ++ [4, 0, 0, 0]
def polyState (n : Nat) : State := withP (fun p => { p with buffer := [(0, 192, .bytes (if n = 0 then List.replicate 192 0 else polyhedron))] })
def polyA : MeshDesc := ⟨0, 0, 0, 2, 0, true, 8⟩
def polyCell : MeshCell :=
  ⟨[((-1, 1, 0, 0), 1), ((0, -1, 0, 0), -1), ((-1, 0, 1, 0), -1), ((0, 0, -1, 0), -1)], (0, 0, 0, 0)⟩
def polyRun (x : ℚ) (t : Word) : MeshRun := ⟨(x, 1 / 4, 1 / 4), t, (1, 0, 0), true, 0⟩

theorem poly_some : (partAt (polyState 1) (polyState 1).cur).isSome = true := by decide +kernel
theorem poly_read : (cxOf (polyState 1) poly_some).readCell polyA 0 = .ok (some polyCell) := by
  have h : (match (cxOf (polyState 1) poly_some).readCell polyA 0 with
    | .ok (some g) => decide (g = polyCell)
    | _ => false) = true := by decide +kernel
  split at h
  · next g hg => rw [hg, of_decide_eq_true h]
  · cases h

theorem witness_Walk : ∃ c, partAt (polyState 1) ⟨0, 0, 0⟩ = some c ∧ c.readCell polyA 0 = .ok (some polyCell) ∧ (f32 0).finite ∧
    c.chosenFace polyA 0 polyCell.faces (fun a => if 0 < a.2.dot (polyRun (1 / 4) 0).d then
      some (-(a.at' (polyRun (1 / 4) 0).o) / a.2.dot (polyRun (1 / 4) 0).d) else none) 0 1 (3 / 4) ∧
    (let r := polyRun (5 / 4) 0
     let p := r.point 0
     c.chosenFace polyA 0 polyCell.faces (fun a => if 0 < a.at' p ∨ (a.at' p = 0 ∧ 0 < a.2.dot r.d) then some (-(a.at' p)) else none) 0 1 (-(1 / 4))) := by
  refine ⟨cxOf (polyState 1) poly_some, cxOf_at _ _, poly_read, finite_of (by decide +kernel), ⟨⟨_, rfl, ?_⟩, ?_⟩, ⟨_, rfl, ?_⟩, ?_⟩
  · norm_num [polyRun, Vec3.dot, Affine.at']
  · intro j b n x hj h0 hx
    have hl := (List.getElem?_eq_some_iff.mp hj).1
    have h4 : j = 1 ∨ j = 2 ∨ j = 3 := by simp only [polyCell, List.length_cons, List.length_nil] at hl; omega
    rcases h4 with rfl | rfl | rfl <;> simp [polyCell] at hj <;> obtain ⟨rfl, rfl⟩ := hj <;>
      (norm_num [polyRun, MeshRun.point, Vec3.dot, Affine.at'] at hx; cases hx)
  · norm_num [polyRun, MeshRun.point, Vec3.dot, Affine.at']
  · intro j b n x hj h0 hx
    have hl := (List.getElem?_eq_some_iff.mp hj).1
    have h4 : j = 1 ∨ j = 2 ∨ j = 3 := by simp only [polyCell, List.length_cons, List.length_nil] at hl; omega
    rcases h4 with rfl | rfl | rfl <;> simp [polyCell] at hj <;> obtain ⟨rfl, rfl⟩ := hj <;>
      (norm_num [polyRun, MeshRun.point, Vec3.dot, Affine.at'] at hx; cases hx)

/-- `blend.rel` traps in a wave that holds none of its sections, and in no fragment wave; it waits while a store is queued. -/
theorem witness_BlendRel :
    (∃ c, Issues (withFragment 0) c 0x1D2 (R 0 0 0 0) ∧ c.p.handler = none ∧ c.activeLanes (R 0 0 0 0) ≠ 0 ∧ ∃ y ∈ c.sections (R 0 0 0 0), y.hold ≠ 1) ∧
    (∃ c, Issues st c 0x1D2 (R 0 0 0 0) ∧ c.p.handler = none ∧ c.activeLanes (R 0 0 0 0) ≠ 0 ∧ c.isFragment = false ∧
      (c.sections (R 0 0 0 0)).length ≠ popCount (c.activeLanes (R 0 0 0 0))) ∧
    (let s := mk id (fun g => { g with kind := .fragment 0 }) (fun w => { w with fragments := [⟨0, 3, 5, 0, 0, 1⟩], queue := [storeAt0] }) (fun p => { p with exec := 1 })
     ∃ c, Issues s c 0x1D2 (R 0 0 0 0) ∧ c.p.handler = none ∧ c.activeLanes (R 0 0 0 0) ≠ 0 ∧ c.isFragment = true ∧
      (c.sections (R 0 0 0 0)).length = popCount (c.activeLanes (R 0 0 0 0)) ∧ (∀ y ∈ c.sections (R 0 0 0 0), y.hold = 1) ∧ c.performed 1 = false) := by
  exact ⟨wit _ (by decide +kernel) (by decide +kernel) (by decide +kernel), wit _ (by decide +kernel) (by decide +kernel) (by decide +kernel),
    wit _ (by decide +kernel) (by decide +kernel) (by decide +kernel)⟩

/-- A batch whose tile lies in a peer window (21 R383): its rows asked for, on their way, and there; written back with no answer owed,
and with one owed. -/
def peerTile (asked sent : Bool) (peers : List Nat) : Batch :=
  { batch0 1 sent with target := 3 * 2 ^ 54, asked := asked, sent := sent, peers := peers, image := if asked then [(0, [(1 : Byte), 2])] else [] }
theorem witness_PeerTile :
    ((peerTile false false []).peerRows ≠ [] ∧ (placeBatch { placing with batches := [peerTile false false []] } (peerTile false false [])).isSome = true) ∧
    ((∀ x ∈ (peerTile true false []).image, x.2.length ≤ 32 * (peerTile true false []).texel) ∧
      (placeBatch { placing with batches := [peerTile true false []] } (peerTile true false [])).isSome = true) ∧
    (∃ g, getWg (getCore (fragments 16) 0) 0 = some g ∧ g.kind = .fragment 0 ∧ ∀ sent ∈ [false, true], ∀ peers ∈ [[], [0]],
      fragmentsDone (fragments 16) 0 g { batch0 0 true with sent := sent, peers := peers } = true) := by
  exact ⟨by decide +kernel, by decide +kernel, _, rfl, by decide +kernel⟩

/-- A wave that has issued nothing yet. -/
def atFirst : State := setCore atWord 0 { getCore atWord 0 with waves := (getCore atWord 0).waves.map (fun x => (x.1, x.2.map (fun w => { w with fresh := true }))) }
theorem witness_FirstIssue : ∃ c d w, let s1 := { atFirst with agenda := [] }
    let s2 := openWave c ⟨0, 0, 0⟩ s1
    atFirst.agenda = [.issue ⟨0, 0, 0⟩] ∧ chooseOn 0 (getCore atFirst 0) (coreCyc atFirst 0) = some ⟨0, 0, 0⟩ ∧ partAt s1 ⟨0, 0, 0⟩ = some c ∧
      c.w.fresh = true ∧ partAt s2 ⟨0, 0, 0⟩ = some d ∧ fetchWord s2 d.w d.p = .word w ∧
      decode (toBytes 12 w.toNat) = .ok (.bpt { always with x := 0x25 }, []) := by
  refine ⟨cxOf { atFirst with agenda := [] } (by decide +kernel), cxOf (openWave (cxOf { atFirst with agenda := [] } (by decide +kernel)) ⟨0, 0, 0⟩
    { atFirst with agenda := [] }) (by decide +kernel), BitVec.ofNat 96 (0x06B80000 * 2 ^ 64 + 0x00128000), by decide +kernel, by decide +kernel,
    cxOf_at { atFirst with agenda := [] } _, by decide +kernel, cxOf_at (openWave _ _ { atFirst with agenda := [] }) _, by decide +kernel⟩

/-- Pages that a page request ends on: one whose leaf allows none but firmware, and one without a leaf. -/
theorem witness_PageEnds :
    (tbit (leafOf { st with leaves := [(leafKey 0 1 0, 0x1003F#64)] } 1 0) 5 = true) ∧
    (tbit (leafOf { st with leaves := [] } 1 0) 5 = false ∧ (leafOf { st with leaves := [] } 1 0).toNat / 2 % 16 = 0) := by decide +kernel

/-- A port that firmware has not made ready. -/
theorem witness_PortUnready : portReady { withPeer with ready2 := 0 } 1 = false ∧ portReady withPeer (inbound (.load 4)).port = true := by decide +kernel

/-! Single steps, with results worked out by hand from the rules. -/

/-- A value of the part in focus after an instruction of a state. -/
def after {α : Type} (s : State) (i : Instr) (g : Cx → α) : Option α :=
  match exec i s with
  | .next t => (partAt t t.cur).map g
  | _ => none

def withV (v : KMap Word) : State := withW (fun w => { w with v := v })
def withS (s : KMap Word) : State := withP (fun p => { p with s := s })

/-- 10 R190: 0xFFFFFFFF + 2 in lane 63 is 1 modulo 2^32; lane 62 has 0 + 0. -/
theorem test_vadd_wraps : after (withV [(64 + 63, 0xFFFFFFFF), (128 + 63, 2)]) (.vadd { always with d := 1, a := 1, b := 2 })
    (fun c => (c.readV 1 63, c.readV 1 62, c.p.pc)) = some (1, 0, 1) := by decide +kernel
/-- 09 R156: the amount of a shift is B mod 32. -/
theorem test_sshl_amount : after (withS [(8, 1), (16, 33)]) (.sshl { always with d := 260, a := 264, b := 272 }) (fun c => c.readS 4) = some 2 := by
  decide +kernel
/-- 10 R198: 1 + 2^-24 is a tie, which RN rounds to even, and RP upwards. -/
theorem test_vfadd_tie : after (withV [(64, 0x3F800000), (128, 0x33800000)]) (.vfadd { always with d := 3, a := 1, b := 2 }) (fun c => c.readV 3 0) =
    some 0x3F800000 := by decide +kernel
theorem test_vfadd_up : after (withV [(64, 0x3F800000), (128, 0x33800000)]) (.vfadd { always with d := 3, a := 1, b := 2, x := 2 })
    (fun c => c.readV 3 0) = some 0x3F800001 := by decide +kernel
/-- 09 R170: half of the lanes take the branch to PC + 5; the others wait at PC + 1. -/
theorem test_bra_diverges : after (withW halfP0) (.bra (never { always with x := 5 })) (fun c => (c.p.pc, c.p.exec, c.p.paths)) =
    some (5, lo, [⟨1, hi, hi, 0⟩]) := by decide +kernel
/-- 09 R176: `call` saves PC + 1. -/
theorem test_call_saves : after st (.call { always with d := 260, x := 7 }) (fun c => (c.readS 4, c.p.pc)) = some (1, 7) := by decide +kernel
/-- 12 R250: a scalar store to the scratchpad, little-endian. -/
theorem test_sstSp_bytes : after (withS [(8, 16), (16, 0x04030201)]) (.sstSp { always with a := 264, b := 272 })
    (fun c => (readBytes c.k.sram 15 6)) = some [0, 1, 2, 3, 4, 0] := by decide +kernel
/-- 12 R253: a store to memory waits in the queue; memory is as it was. -/
theorem test_sst_queued : after (withS [(16, 9)]) (.sst { always with a := 264, b := 272 }) (fun c => (c.w.queue.length, c.s.byte 0x10000)) = some (1, 0) := by
  decide +kernel
/-- 13 R276: the second of two arrivals raises GEN and takes TARGET off ARRIVED. -/
theorem test_bsig_opens : after (mk (fun k => { k with sram := [(0, 2), (4, 1)] }) id id id) (.bsigImm { always with a := 264, x := 1 })
    (fun c => readBytes c.k.sram 0 12) = some [2, 0, 0, 0, 0, 0, 0, 0, 1, 0, 0, 0] := by decide +kernel
/-- 22 R394, 09 R184: `bpt` with no declared handler freezes the part, to resume at the next instruction. -/
theorem test_bpt_freezes : after st (.bpt { always with x := 37 }) (fun c => (c.p.frozen, c.p.pc)) = some (some ⟨0x20, 1⟩, 0) := by decide +kernel
/-- 22 R394: a declared handler runs at its index with the record's address in s0. -/
theorem test_bpt_handled : after withHandler (.bpt { always with x := 37 }) (fun c => (c.p.pc, c.p.handler, c.w.queue.length)) =
    some (3, some ⟨[], none⟩, 1) := by decide +kernel
/-- 04 R81: RT not zero. -/
theorem test_rt_traps : after st (.nop { always with rt := 1 }) (fun c => c.p.frozen.map (·.cause)) = some (some 0x02) := by decide +kernel
/-- 20 R368: the only part of a workgroup opens its own barrier. -/
theorem test_wbar_alone : after st (.wbar always) (fun c => (c.p.pc, c.g.gen)) = some (1, 1) := by decide +kernel

end Sys2Proof.Tests
end

section
/-! PROOFS. The module after reset, the boot ROMs and the self-tests (01 R9-R15). -/
namespace Sys2Proof.Machine

/-- Page tables without a leaf answer a leaf of zeros (11 R222). -/
theorem walk_nil {s : State} (h : s.leaves = []) (owner asn page : Nat) : walk s owner asn page = 0 := by
  simp [walk, h]

theorem leafOf_reset (asn : Nat) (va : Dword) : leafOf State.reset asn va = 0 := walk_nil rfl ..

/-! Messages of the module (01 R18, R24). -/

@[simp] theorem toBytes_length (n v : Nat) : (toBytes n v).length = n := by
  induction n generalizing v with
  | zero => rfl
  | succ n ih => simp [toBytes, ih]

/-- The header of a message is 32 bytes (R18). -/
@[simp] theorem message_drop (type ctx : Nat) (seq : Word) (addr : Dword) (status : Word) (payload : List Byte) :
    (message type ctx seq addr status payload).drop 32 = payload :=
  List.drop_left' (by simp)

/-- The payload of a READY message (R15). -/
def readyPayload (s : State) : List Byte := readyWords s ++ bringUpRecord s

theorem sendReady_frame (s : State) : sendReady s = { s with host := (sendReady s).host, sent := (sendReady s).sent } := rfl

theorem sendReady_payload (s : State) : readyPayload (sendReady s) = readyPayload s := rfl

theorem sendReady_sent (s : State) : ∃ m, (sendReady s).sent = s.sent ++ [m] ∧ m.bytes.drop 32 = readyPayload s :=
  ⟨_, rfl, message_drop ..⟩

theorem getHost_setHost (s : State) (n i : Nat) (x : HostCtx) :
    getHost (setHost s n x) i = if i = n then x else getHost s i := kget_kset ..

/-- A READY message is context 0's next (R24). -/
theorem getHost_sendReady (s : State) (i : Nat) :
    getHost (sendReady s) i = if i = 0 then { getHost s 0 with count := (getHost s 0).count + 1 } else getHost s i :=
  getHost_setHost ..

/-- In recovery state the three readiness words are zero (R11). -/
theorem readyPayload_recovery {s : State} (h : s.recovery = true) : readyPayload s = List.replicate 24 0 ++ bringUpRecord s := by
  rw [readyPayload, readyWords, if_pos h]

/-! Boot (R9-R11). -/

/-- What the eight boot ROMs find. -/
def bootCauses (images : List (List Byte)) : List Byte := (List.range 8).map (fun n => imageCause (images.getD n []))

theorem bootCauses_get {images : List (List Byte)} {n : Nat} {c : Byte} :
    (bootCauses images)[n]? = some c ↔ n < 8 ∧ imageCause (images.getD n []) = c := by
  by_cases h : n < 8 <;> simp [bootCauses, h]

theorem getD_eq_zero_iff (l : List Byte) (n : Nat) : l.getD n 0x52 = 0 ↔ l[n]? = some 0 := by
  rw [List.getD_eq_getElem?_getD]
  cases l[n]? <;> simp

/-- A boot changes the record of the bring-up and, in recovery state, sends a message. -/
theorem bootFrom_frame (s : State) (images : List (List Byte)) :
    let t := bootFrom s images
    t = { s with booted := true, bringUp := t.bringUp, recovery := t.recovery, ccause := bootCauses images, fail2 := t.fail2,
                 digests := t.digests, svn := t.svn, sent := t.sent, host := t.host } := by
  unfold bootFrom
  dsimp only
  split <;> rfl

/-- What the boot ROMs record. -/
theorem bootFrom_record (s : State) (images : List (List Byte)) :
    let t := bootFrom s images
    t.bringUp = (List.range 8).find? (fun n => (bootCauses images).getD n 0x52 = 0) ∧
    t.recovery = t.bringUp.isNone ∧
    t.fail2 = maskOf (((List.range 8).filter (fun n => (bootCauses images).getD n 0x52 != 0)).map (32 + ·)) ∧
    ∀ n, t.bringUp = some n → t.svn = BitVec.ofNat 32 (field (images.getD n []) 4 7) := by
  have hsvn (o : Option Nat) : ∀ n, o = some n → (match o with
      | some n => BitVec.ofNat 32 (field (images.getD n []) 4 7)
      | none => 0) = BitVec.ofNat 32 (field (images.getD n []) 4 7) := by
    rintro n rfl
    rfl
  unfold bootFrom
  dsimp only
  split <;> exact ⟨rfl, rfl, rfl, hsvn _⟩

/-- Only in recovery state does the boot send, and then one message, READY. -/
theorem bootFrom_sent (s : State) (images : List (List Byte)) :
    let t := bootFrom s images
    (t.recovery = false → t.sent = s.sent) ∧
    (t.recovery = true → ∃ m, t.sent = s.sent ++ [m] ∧ m.bytes.drop 32 = readyPayload t) := by
  unfold bootFrom
  dsimp only
  split
  case isTrue h => exact ⟨fun hf => absurd (hf.symm.trans h) (by decide), fun _ => sendReady_sent _⟩
  case isFalse h => exact ⟨fun _ => rfl, fun ht => absurd ht h⟩

/-- The bring-up core is the lowest whose image is good (R10). -/
theorem bootFrom_bringUp_some {s : State} {images : List (List Byte)} {n : Nat} (h : (bootFrom s images).bringUp = some n) :
    (bootCauses images)[n]? = some 0 ∧ ∀ m < n, (bootCauses images)[m]? ≠ some 0 := by
  obtain ⟨hup, _⟩ := bootFrom_record s images
  rw [hup, List.find?_range_eq_some] at h
  obtain ⟨hn, _, hlow⟩ := h
  refine ⟨(getD_eq_zero_iff _ _).mp (by simpa using hn), fun m hm => ?_⟩
  rw [Ne, ← getD_eq_zero_iff]
  simpa using hlow m hm

theorem bootFrom_bringUp_none (s : State) (images : List (List Byte)) :
    (bootFrom s images).bringUp = none ↔ (bootFrom s images).recovery = true := by
  obtain ⟨_, hrec, _⟩ := bootFrom_record s images
  rw [hrec, Option.isNone_iff_eq_none]

/-- The module is in recovery state when no image is good (R11). -/
theorem bootFrom_recovery_iff (s : State) (images : List (List Byte)) :
    (bootFrom s images).recovery = true ↔ ∀ c ∈ bootCauses images, c ≠ 0 := by
  obtain ⟨hup, _⟩ := bootFrom_record s images
  rw [← bootFrom_bringUp_none, hup, List.find?_range_eq_none]
  simp only [Bool.not_eq_true', decide_eq_false_iff_not, getD_eq_zero_iff, bootCauses_get]
  simp [bootCauses]

/-- The compute core bits of FAIL2 (R13). -/
theorem bootFrom_failBits (s : State) (images : List (List Byte)) {i : Nat} (hi : i < 64) :
    tbit (bootFrom s images).fail2 i = true ↔ 32 ≤ i ∧ i < 40 ∧ (bootCauses images)[i - 32]? ≠ some 0 := by
  obtain ⟨_, _, hfail, _⟩ := bootFrom_record s images
  rw [hfail, tbit_maskOf _ _ hi]
  simp only [decide_eq_true_eq, List.mem_map, List.mem_filter, List.mem_range, bne_iff_ne, ne_eq, getD_eq_zero_iff]
  constructor
  · rintro ⟨n, ⟨hn, hc⟩, rfl⟩
    exact ⟨by omega, by omega, by simpa using hc⟩
  · rintro ⟨hlo, hhi, hc⟩
    exact ⟨i - 32, ⟨by omega, hc⟩, by omega⟩

/-- An image whose MAGIC or zero fields are wrong is BAD_IMAGE (R9). -/
theorem imageCause_badHeader {img : List Byte}
    (h : field img 0 3 ≠ 0x4A574649 ∨ field img 12 15 ≠ 0 ∨ field img 48 63 ≠ 0) : imageCause img = 0x52 := by
  unfold imageCause
  dsimp only
  rw [if_pos]
  simp only [Bool.or_eq_true, bne_iff_ne, decide_eq_true_eq]
  tauto

theorem exec_powerOnBoot {s : State} (images : List (List Byte)) (h : s.booted = false) :
    exec (.powerOnBoot images) s = .next (bootFrom s images) := by
  show execPowerOnBoot images s = _
  simp [execPowerOnBoot, h]

/-- A module reset boots from the state at reset (R11). -/
theorem exec_powerOnBoot_again {s : State} (images : List (List Byte)) (h : s.booted = true) :
    exec (.powerOnBoot images) s =
      exec (.powerOnBoot images) { State.reset with agenda := s.agenda, freeCount := s.freeCount, sent := s.sent } := by
  show execPowerOnBoot images s = execPowerOnBoot images _
  simp [execPowerOnBoot, h, State.reset]

/-! Self-tests (R10, R12, R13). -/

theorem tbit_or {w : Nat} (a b : BitVec w) (i : Nat) : tbit (a ||| b) i = (tbit a i || tbit b i) := by
  simp [tbit]

/-- The word of a function is one of three, its bit one of 64. -/
theorem funcBit_lt {f : Func} (h : funcExists f = true) : (funcBit f).1 < 3 ∧ (funcBit f).2 < 64 := by
  cases f <;> simp only [funcExists, decide_eq_true_eq] at h <;> simp only [funcBit]
  case slice n => split <;> omega
  all_goals omega

/-- The function that a bit stands for (R13). -/
def funcAt : Nat × Nat → Func
  | (0, n) => .cluster n
  | (1, n) => .slice n
  | (_, n) => if n < 16 then .slice (64 + n) else if n < 24 then .hbm (n - 16) else if n < 32 then .port (n - 24) else .ccore (n - 32)

theorem funcAt_funcBit {f : Func} (h : funcExists f = true) : funcAt (funcBit f) = f := by
  cases f <;> simp only [funcExists, decide_eq_true_eq] at h
  case cluster n => rfl
  case slice n =>
    by_cases hn : n < 64
    · simp [funcBit, hn, funcAt]
    · have : n - 64 < 16 := by omega
      simp only [funcBit, hn, if_false, funcAt, this, if_true, Func.slice.injEq]
      omega
  case hbm n =>
    have : 16 + n < 24 := by omega
    simp [funcBit, funcAt, this]
  case port n =>
    have h1 : ¬ 24 + n < 16 ∧ ¬ 24 + n < 24 ∧ 24 + n < 32 := by omega
    simp [funcBit, funcAt, h1]
  case ccore n =>
    have h1 : ¬ 32 + n < 16 ∧ ¬ 32 + n < 24 ∧ ¬ 32 + n < 32 := by omega
    simp [funcBit, funcAt, h1]

/-- A mask of functions has the bit of a function exactly when it is one of them (R13). -/
theorem tbit_funcMask {fs : List Func} (hfs : ∀ g ∈ fs, funcExists g = true) {f : Func} (hf : funcExists f = true) :
    tbit (funcMask fs (funcBit f).1) (funcBit f).2 = true ↔ f ∈ fs := by
  rw [funcMask, tbit_maskOf _ _ (funcBit_lt hf).2]
  simp only [decide_eq_true_eq, List.mem_map, List.mem_filter]
  constructor
  · rintro ⟨g, ⟨hg, hw⟩, hb⟩
    rwa [← funcAt_funcBit hf, ← Prod.ext hw hb, funcAt_funcBit (hfs g hg)]
  · exact fun h => ⟨f, ⟨h, rfl⟩, rfl⟩

/-- The words of the readiness map with more bits set. -/
theorem readyBit_or {s t : State} {fs : List Func} (hfs : ∀ g ∈ fs, funcExists g = true)
    (h0 : t.ready0 = s.ready0 ||| funcMask fs 0) (h1 : t.ready1 = s.ready1 ||| funcMask fs 1)
    (h2 : t.ready2 = s.ready2 ||| funcMask fs 2) {f : Func} (hf : funcExists f = true) :
    readyBit t f = true ↔ readyBit s f = true ∨ f ∈ fs := by
  rw [← tbit_funcMask hfs hf]
  obtain ⟨hw, _⟩ := funcBit_lt hf
  interval_cases h : (funcBit f).1 <;> simp [readyBit, h, h0, h1, h2, tbit_or]

theorem failBit_or {s t : State} {fs : List Func} (hfs : ∀ g ∈ fs, funcExists g = true)
    (h0 : t.fail0 = s.fail0 ||| funcMask fs 0) (h1 : t.fail1 = s.fail1 ||| funcMask fs 1)
    (h2 : t.fail2 = s.fail2 ||| funcMask fs 2) {f : Func} (hf : funcExists f = true) :
    failBit t f = true ↔ failBit s f = true ∨ f ∈ fs := by
  rw [← tbit_funcMask hfs hf]
  obtain ⟨hw, _⟩ := funcBit_lt hf
  interval_cases h : (funcBit f).1 <;> simp [failBit, h, h0, h1, h2, tbit_or]

theorem fixHomes_frame (s : State) (die : Nat) : ∃ h, fixHomes s die = { s with homes := h } := by
  unfold fixHomes
  dsimp only
  split
  · exact ⟨_, rfl⟩
  · exact ⟨s.homes, rfl⟩

/-- Both dies' home slices are fixed once their tests have ended (11 R230). -/
theorem fixHomes_both_frame (s : State) : ∃ h, fixHomes (fixHomes s 0) 1 = { s with homes := h } := by
  obtain ⟨_, h0⟩ := fixHomes_frame s 0
  obtain ⟨h, h1⟩ := fixHomes_frame (fixHomes s 0) 1
  exact ⟨h, by rw [h1, h0]⟩

/-- A self-test that runs belongs to a function that exists (R10). -/
theorem funcExists_of_testRuns {s : State} {f : Func} (h : testRuns s f = true) : funcExists f = true := by
  simp only [testRuns, Bool.and_eq_true] at h
  obtain ⟨⟨⟨_, hex⟩, _⟩, _⟩ := h
  exact hex

/-- Some functions are ready (R13). -/
def makeReady (s : State) (fs : List Func) : State :=
  { s with ready0 := s.ready0 ||| funcMask fs 0, ready1 := s.ready1 ||| funcMask fs 1, ready2 := s.ready2 ||| funcMask fs 2 }

/-- The self-tests pass: their bits are set, and a READY message goes out (R13, R15). -/
theorem exec_selftestPass {s : State} {fs : List Func} (hne : fs ≠ []) (hrun : ∀ f ∈ fs, testRuns s f = true) :
    ∃ h, exec (.selftestPass fs) s = .next (sendReady { makeReady s fs with homes := h }) := by
  have hall : fs.filter (testRuns s) = fs := List.filter_eq_self.mpr hrun
  obtain ⟨h, hh⟩ := fixHomes_both_frame (makeReady s fs)
  refine ⟨h, ?_⟩
  rw [← hh]
  show execSelftestPass fs s = _
  simp [execSelftestPass, hall, hne, makeReady]

/-- The least number that a fold of `min` leaves. -/
theorem foldl_min_mem (f : Func) (rest : List Func) :
    let low := rest.foldl (fun m g => min m (funcDetail g)) (funcDetail f)
    (∃ g ∈ f :: rest, low = funcDetail g) ∧ ∀ g ∈ f :: rest, low ≤ funcDetail g := by
  induction rest using List.reverseRecOn with
  | nil => simp
  | append_singleton rest g ih =>
    obtain ⟨⟨x, hx, hlow⟩, hle⟩ := ih
    simp only [List.foldl_append, List.foldl_cons, List.foldl_nil]
    constructor
    · rcases le_total (rest.foldl (fun m g => min m (funcDetail g)) (funcDetail f)) (funcDetail g) with h | h
      · exact ⟨x, by simp at hx ⊢; tauto, by rw [min_eq_left h, hlow]⟩
      · exact ⟨g, by simp, by rw [min_eq_right h]⟩
    · intro y hy
      have : y ∈ f :: rest ∨ y = g := by simpa [or_assoc] using hy
      rcases this with h | rfl
      · exact (min_le_left _ _).trans (hle y h)
      · exact min_le_right _ _

/-- Some functions have failed; the first failure of all is recorded with its cause, here `low` (R12, R13). -/
def makeFailed (s : State) (fs : List Func) (low : Nat) : State :=
  { s with fail0 := s.fail0 ||| funcMask fs 0, fail1 := s.fail1 ||| funcMask fs 1, fail2 := s.fail2 ||| funcMask fs 2
           first := if s.first = 0 then BitVec.ofNat 32 low else s.first
           firstCause := if s.first = 0 then 0x54 else s.firstCause }

/-- The self-tests fail: the failure recorded is the one of the least detail code (R12). -/
theorem exec_selftestFail {s : State} {fs : List Func} (hne : fs ≠ []) (hrun : ∀ f ∈ fs, testRuns s f = true) :
    ∃ low h, exec (.selftestFail fs) s = .next { makeFailed s fs low with homes := h } ∧ (∃ f ∈ fs, low = funcDetail f) ∧
      ∀ f ∈ fs, low ≤ funcDetail f := by
  have hall : fs.filter (testRuns s) = fs := List.filter_eq_self.mpr hrun
  cases fs with
  | nil => exact absurd rfl hne
  | cons f rest =>
    obtain ⟨h, hh⟩ := fixHomes_both_frame (makeFailed s (f :: rest) (rest.foldl (fun m g => min m (funcDetail g)) (funcDetail f)))
    refine ⟨_, h, ?_, foldl_min_mem f rest⟩
    rw [← hh]
    show execSelftestFail (f :: rest) s = _
    by_cases h0 : s.first = 0 <;> simp only [execSelftestFail, hall, makeFailed, h0, if_true, if_false]

end Sys2Proof.Machine
end

section
/-! PROOFS. The obligations on bring-up (01 R9-R15). -/
open Sys2Proof Sys2Proof.Machine

/-- Settles O60: at reset the tables are empty, and what is read of them is the default that the spec gives. -/
theorem resetState : Obligations.ResetState := by
  unfold Obligations.ResetState
  exact ⟨reset_memOk, rfl, rfl, rfl, fun _ => rfl, fun _ => rfl, fun _ => rfl, leafOf_reset, fun _ => ⟨rfl, rfl⟩, fun _ => ⟨rfl, rfl⟩⟩

/-- Settles O50: the fields that a boot and a self-test write, one lemma each, and the READY message they send. -/
theorem bringUp : Obligations.BringUp := by
  unfold Obligations.BringUp
  refine ⟨fun s images hb => ?boots, fun s images hb => exec_powerOnBoot_again images hb, fun img h => imageCause_badHeader h,
    fun s fs hne hrun => ⟨?passes, ?fails⟩, fun s d hb hr => ?answers⟩
  case boots =>
    obtain ⟨hquiet, hready⟩ := bootFrom_sent s images
    obtain ⟨_, _, _, hsvn⟩ := bootFrom_record s images
    refine ⟨_, exec_powerOnBoot images hb, bootFrom_frame s images, bootFrom_recovery_iff s images,
      bootFrom_bringUp_none s images, fun n hn => ?_, fun i hi => bootFrom_failBits s images hi, hquiet, fun hr => ?_⟩
    · obtain ⟨hgood, hlow⟩ := bootFrom_bringUp_some hn
      exact ⟨hgood, hlow, hsvn n hn⟩
    · rw [← readyPayload_recovery hr]
      exact hready hr
  case passes =>
    have hex : ∀ g ∈ fs, funcExists g = true := fun g hg => funcExists_of_testRuns (hrun g hg)
    obtain ⟨h, he⟩ := exec_selftestPass hne hrun
    obtain ⟨m, hsent, hm⟩ := sendReady_sent { makeReady s fs with homes := h }
    exact ⟨_, m, he, rfl, fun f hf => readyBit_or hex rfl rfl rfl hf, hsent, hm, fun i => getHost_sendReady _ i⟩
  case fails =>
    have hex : ∀ g ∈ fs, funcExists g = true := fun g hg => funcExists_of_testRuns (hrun g hg)
    obtain ⟨low, h, he, ⟨f, hf, hlow⟩, hle⟩ := exec_selftestFail hne hrun
    refine ⟨_, he, rfl, fun f hf => failBit_or hex rfl rfl rfl hf, fun h0 => ⟨if_neg h0, if_neg h0⟩,
      fun h0 => ⟨if_pos h0, ⟨f, hf, ?_⟩, fun g hg => ?_⟩⟩
    · rw [← hlow]; exact if_pos h0
    · show (if s.first = 0 then BitVec.ofNat 32 low else s.first).toNat ≤ funcDetail g
      rw [if_pos h0, BitVec.toNat_ofNat]
      exact (Nat.mod_le low _).trans (hle g hg)
  case answers =>
    obtain ⟨m, hsent, hm⟩ := sendReady_sent s
    refine ⟨sendReady s, m, ?_, ?_, ?_⟩
    · show execRecoveryReply d s = _
      simp [execRecoveryReply, hb, hr]
    · rw [← hsent]; rfl
    · rw [hm, readyPayload_recovery hr]
end

section
/-! PROOFS. What the operations behind a host message leave as it was: a write at a home slice (11 R233, R237), records and
fault messages (22 R397-R399; 23 R407, R408). -/
namespace Sys2Proof.Machine

/-- A relation that composes holds along a fold whose every turn keeps it. -/
theorem foldl_rel {α : Type} {R : State → State → Prop} (hr : ∀ s, R s s) (ht : ∀ {a b c}, R a b → R b c → R a c)
    {f : State → α → State} (hf : ∀ s x, R s (f s x)) (l : List α) (s : State) : R s (l.foldl f s) := by
  induction l generalizing s with
  | nil => exact hr s
  | cons x l ih => exact ht (hf s x) (ih (f s x))

/-! Reads at the home slices. -/

/-- Loads have been performed: caches, waves and the combining entries may have changed, nothing else. -/
def Performs (s t : State) : Prop := t = { s with l2 := t.l2, cores := t.cores, combines := t.combines }

theorem Performs.refl (s : State) : Performs s s := rfl

theorem Performs.trans {s t u : State} (h : Performs s t) (h' : Performs t u) : Performs s u := by
  unfold Performs at *
  rw [h', h]

theorem Performs.foldl {α : Type} {f : State → α → State} (hf : ∀ s x, Performs s (f s x)) (l : List α) (s : State) :
    Performs s (l.foldl f s) := foldl_rel Performs.refl Performs.trans hf l s

theorem fillLine_performs (s : State) (c asn : Nat) (va : Dword) : Performs s (fillLine s c asn va) := by
  unfold fillLine
  dsimp only
  split
  · split <;> rfl
  · rfl

theorem fillConst_performs (s : State) (core asn : Nat) (va : Dword) : Performs s (fillConst s core asn va) := by
  unfold fillConst
  dsimp only
  split
  · split
    · rfl
    · split <;> rfl
  · rfl

theorem fillFor_performs (core asn : Nat) (ld : Load) (s : State) (va : Nat) : Performs s (fillFor core asn ld s va) := by
  unfold fillFor
  dsimp only
  split
  · rfl
  · split
    · exact fillConst_performs ..
    · split
      · exact fillLine_performs ..
      · rfl

theorem performLoad_performs (core slot id : Nat) (sel : LoadLane → Bool) (s : State) :
    Performs s (performLoad core slot id sel s) := by
  unfold performLoad
  dsimp only
  split
  · rfl
  · split
    · split
      · rfl
      · exact Performs.trans (t := setCore s core _) rfl (Performs.foldl (fillFor_performs _ _ _) _ _)
    · rfl

theorem closeEntry_performs (s : State) (e : Combine) : Performs s (closeEntry s e) := by
  unfold closeEntry
  have h1 : Performs s { s with combines := s.combines.filter (fun x => x.id != e.id) } := rfl
  exact h1.trans ((Performs.foldl (fun _ _ => performLoad_performs ..) _ _).trans (Performs.foldl (fun _ _ => fillLine_performs ..) _ _))

theorem closeLine_performs (s : State) (line : Nat) : Performs s (closeLine s line) := Performs.foldl closeEntry_performs _ s

/-- A write at a home slice: the bytes, the check values of the sectors it covers, and the reads that it closes. -/
theorem homeWrite_frame (s : State) (key : Nat) (bs : List Byte) : ∃ l2 cores combines, homeWrite s key bs =
    { s with mem := writeBytes s.mem key bs, memErr := clearBad s.memErr key bs.length, l2 := l2, cores := cores
             combines := combines } := by
  have h := Performs.foldl closeLine_performs
    ((List.range ((key + bs.length + 127) / 128 - key / 128)).map (key / 128 + ·)) s
  unfold Performs at h
  unfold homeWrite
  dsimp only
  rw [h]
  exact ⟨_, _, _, rfl⟩

/-- The bytes of device memory after a write (R217, R233). -/
theorem homeWrite_byte (s : State) (key a : Nat) (bs : List Byte) :
    (homeWrite s key bs).byte a = if key ≤ a ∧ a < key + bs.length then bs.getD (a - key) 0 else s.byte a := by
  split
  case isTrue h =>
    obtain ⟨i, rfl⟩ := Nat.exists_eq_add_of_le h.1
    have hi : i < bs.length := by omega
    rw [homeWrite_byte_in _ _ _ _ hi, Nat.add_sub_cancel_left, List.getD_eq_getElem _ _ hi]
  case isFalse h => exact homeWrite_byte_out _ _ _ _ (by omega)

/-! Launches and regions. -/

/-- The manager's launches and regions are as they were. -/
structure SameBooks (s t : State) : Prop where
  launches : t.launches = s.launches
  regions : t.regions = s.regions

theorem SameBooks.refl (s : State) : SameBooks s s := ⟨rfl, rfl⟩

theorem SameBooks.trans {s t u : State} (h : SameBooks s t) (h' : SameBooks t u) : SameBooks s u :=
  ⟨h'.launches.trans h.launches, h'.regions.trans h.regions⟩

theorem SameBooks.foldl {α : Type} {f : State → α → State} (hf : ∀ s x, SameBooks s (f s x)) (l : List α) (s : State) :
    SameBooks s (l.foldl f s) := foldl_rel SameBooks.refl SameBooks.trans hf l s

theorem setCore_books (s : State) (n : Nat) (k : Core) : SameBooks s (setCore s n k) := ⟨rfl, rfl⟩

theorem homeWrite_books (s : State) (key : Nat) (bs : List Byte) : SameBooks s (homeWrite s key bs) := by
  obtain ⟨_, _, _, h⟩ := homeWrite_frame s key bs
  exact ⟨by rw [h], by rw [h]⟩

theorem vmWrite_books (s : State) (asn : Nat) (k : Access) (va : Nat) (bs : List Byte) :
    SameBooks s (vmWrite s asn k va bs) := by
  have key : ∀ (l : List (Nat × Nat)) (acc : State × List Byte), SameBooks acc.1
      (l.foldl (fun (acc : State × List Byte) p =>
        ((match route acc.1 asn k (BitVec.ofNat 64 p.1) with
          | .phys key _ => homeWrite acc.1 key (acc.2.take p.2)
          | _ => acc.1), acc.2.drop p.2)) acc).1 := by
    intro l
    induction l with
    | nil => exact fun acc => SameBooks.refl _
    | cons p l ih =>
      refine fun acc => SameBooks.trans ?_ (ih _)
      dsimp only
      split
      · exact homeWrite_books ..
      · exact SameBooks.refl _
  exact key _ (s, bs)

theorem sendUnder_books (s : State) (ctx type : Nat) (addr : Dword) (status : Word) (payload : List Byte) :
    SameBooks s (sendUnder s ctx type addr status payload) := ⟨rfl, rfl⟩

theorem faultMessage_books (s : State) (ctx : Option Nat) (r : FaultRec) : SameBooks s (faultMessage s ctx r) := by
  cases ctx <;> exact ⟨rfl, rfl⟩

theorem ringPost_books {s t : State} {asn ring : Nat} {rec : List Byte} (h : ringPost s asn ring rec = some t) : SameBooks s t := by
  unfold ringPost at h
  dsimp only at h
  split at h
  · split at h
    · cases h
    · split at h <;> cases h
      · exact (vmWrite_books ..).trans (homeWrite_books ..)
      · exact homeWrite_books ..
  · cases h

theorem postFault_books (s : State) (region : Rgn) (host : Option Nat) (r : FaultRec) : SameBooks s (postFault s region host r) := by
  unfold postFault
  split
  · exact faultMessage_books ..
  · dsimp only
    split
    next h => exact (ringPost_books h).trans (faultMessage_books ..)
    next h =>
      refine SameBooks.trans ?_ (faultMessage_books ..)
      cases hp : ringPost s _ _ _ with
      | none => exact SameBooks.refl s
      | some t => exact ringPost_books hp

theorem postIn_books (s : State) (dom : Option Rgn) (host : Option Nat) (r : FaultRec) : SameBooks s (postIn s dom host r) := by
  cases dom
  · exact faultMessage_books ..
  · exact postFault_books ..

theorem writeDone_books (s : State) (asn : Nat) (dom : Option Rgn) (host : Option Nat) (rgn : Rgn) (done : Dword) (n : Nat)
    (g : List Byte → List Byte) : SameBooks s (writeDone s asn dom host rgn done n g) := by
  unfold writeDone
  split
  · exact homeWrite_books ..
  · exact postIn_books ..

theorem putDone_books (s : State) (asn : Nat) (dom : Option Rgn) (host : Option Nat) (rgn : Rgn) (done : Dword) (bs : List Byte) :
    SameBooks s (putDone s asn dom host rgn done bs) := writeDone_books ..

theorem sendComplete_books (s : State) (host : Option Nat) (done : Dword) (bs : List Byte) :
    SameBooks s (sendComplete s host done bs) := by
  cases host <;> exact ⟨rfl, rfl⟩

theorem launchResult_books (s : State) (fut : Option (Nat × Nat × Half × Nat)) (status : Byte) :
    SameBooks s (launchResult s fut status) := by
  unfold launchResult
  split
  · exact SameBooks.refl s
  · dsimp only
    split
    · exact SameBooks.refl s
    · split <;> exact setCore_books ..

end Sys2Proof.Machine
end

section
/-! PROOFS. Messages of the host: their replies, PUT, GET, ATTEST (01 R17-R25). -/
namespace Sys2Proof.Machine

/-! Fields of a message. -/

theorem ofBytes_toBytes (n v : Nat) : ofBytes (toBytes n v) = v % 256 ^ n := by
  induction n generalizing v with
  | zero => simp [toBytes, ofBytes, Nat.mod_one]
  | succ n ih =>
    rw [toBytes, ofBytes, ih, BitVec.toNat_ofNat, Nat.pow_succ' (m := 256), Nat.mod_mul]

/-- The bytes that stand first in a list are its first field. -/
theorem field_append (n v : Nat) (rest : List Byte) : field (toBytes (n + 1) v ++ rest) 0 n = v % 256 ^ (n + 1) := by
  rw [field, List.drop_zero, Nat.sub_zero, List.take_left' (toBytes_length ..), ofBytes_toBytes]

/-! Replies (R18, R24, R25). -/

/-- A message answered by some replies: type, ADDR, STATUS, payload. -/
def replied (s : State) (d : Datagram) (l : List (Nat × Dword × Word × List Byte)) : State :=
  { s with sent := s.sent ++ l.map (fun x => { dest := d.src, bytes := message x.1 (dCtx d) (dSeq d) x.2.1 x.2.2.1 x.2.2.2 }) }

/-- The ACK that FLAGS asks for (R25). -/
def ackOf (d : Datagram) (status : Word) : List (Nat × Dword × Word × List Byte) :=
  if dFlags d = 1 then [(0x0A, dAddr d, status, [])] else []

theorem answer_eq (s : State) (d : Datagram) (type : Nat) (addr : Dword) (status : Word) (payload : List Byte) :
    answer s d type addr status payload = replied s d [(type, addr, status, payload)] := rfl

theorem replied_replied (s : State) (d : Datagram) (l l' : List (Nat × Dword × Word × List Byte)) :
    replied (replied s d l) d l' = replied s d (l ++ l') := by
  simp [replied, List.append_assoc]

theorem replied_nil (s : State) (d : Datagram) : replied s d [] = s := by simp [replied]

/-- What a message that passes the first checks of R20 is. -/
theorem messageOk_iff {d : Datagram} : messageOk d = true ↔
    field d.bytes 0 1 = 0xD7A1 ∧ field d.bytes 2 2 = 1 ∧ typeOk d = true ∧ dFlags d ≤ 1 ∧ dCtx d ≤ 4095 ∧
    field d.bytes 24 31 = 0 ∧ d.bytes.length = 32 + dLen d := by
  simp [messageOk, and_assoc]

theorem answerAck_eq {d : Datagram} (h : messageOk d = true) (s : State) (status : Word) :
    answerAck s d status = replied s d (ackOf d status) := by
  obtain ⟨_, _, _, hflags, _⟩ := messageOk_iff.mp h
  have hmod : dFlags d % 2 = 1 ↔ dFlags d = 1 := by omega
  unfold answerAck ackOf
  simp only [hmod]
  split
  · rfl
  · exact (replied_nil s d).symm

theorem dPayload_length {d : Datagram} (h : messageOk d = true) : (dPayload d).length = dLen d := by
  obtain ⟨_, _, _, _, _, _, hlen⟩ := messageOk_iff.mp h
  rw [dPayload, List.length_drop, hlen]
  omega

/-! Messages in order (R21, R22). -/

theorem getHost_takeLast (s : State) (d : Datagram) (i : Nat) : getHost (takeLast s d) i =
    if i = dCtx d then { getHost s i with last := dSeq d, endpoint := some d.src } else getHost s i := by
  rw [takeLast, getHost_setHost]
  split
  next h => rw [h]
  next => rfl

theorem accepts_messageOk {s : State} {d : Datagram} (h : s.accepts d) : messageOk d = true := by
  obtain ⟨_, _, _, hd, _⟩ := h
  exact hd

/-- With nothing held behind a message nothing follows it. -/
theorem applyHeld_none {s : State} {ctx : Nat} (h : (getHost s ctx).held = []) (n : Nat) : applyHeld ctx n s = s := by
  cases n with
  | zero => rfl
  | succ n => simp [applyHeld, h]

/-- A message in sequence is applied, and then those held behind it. -/
theorem receive_accepted {s : State} {d : Datagram} (h : s.accepts d) (ht : dType d ≠ 0x0B) :
    receive d s = applyHeld (dCtx d) 65 (applyMessage s d) := by
  obtain ⟨hb, hr, hp, hm, hseq, _⟩ := h
  have hgap : (dSeq d - (getHost s (dCtx d)).last).toNat = 1 := by
    rw [hseq, BitVec.add_comm, BitVec.add_sub_cancel]; rfl
  simp [receive, hb, hr, hp, hm, ht, hgap]

/-- A message in sequence that touches no host context but by its SEQ and its source is all that is applied. -/
theorem receive_alone {s u : State} {d : Datagram} {l : List (Nat × Dword × Word × List Byte)} (h : s.accepts d)
    (ht : dType d ≠ 0x0B) (hu : applyMessage s d = replied u d l) (hhost : u.host = (takeLast s d).host) (hsent : u.sent = s.sent) :
    receive d s = replied u d l ∧ HostAfter s (replied u d l) d ∧ Replies s (replied u d l) d l := by
  have hget (i : Nat) : getHost (replied u d l) i = getHost (takeLast s d) i := by
    show kget {} u.host i = _
    rw [hhost]; rfl
  have hheld : (getHost (replied u d l) (dCtx d)).held = [] := by
    obtain ⟨_, _, _, _, _, hnone⟩ := h
    rw [hget, getHost_takeLast, if_pos rfl]
    exact hnone
  refine ⟨by rw [receive_accepted h ht, hu, applyHeld_none hheld], fun i => by rw [hget, getHost_takeLast], ?_⟩
  show u.sent ++ _ = _
  rw [hsent]

/-! PUT and GET (R20). -/

theorem transferForm_none {addr : Dword} {n : Nat} (get : Bool) (hn : 0 < n) (ha : addr.toNat % 4 = 0) (h4 : n % 4 = 0)
    (hmax : n ≤ 8192) (hend : addr.toNat + n ≤ 2 ^ 57) : transferForm addr n get = none := by
  have h1 : ¬ 8192 < n := by omega
  have h2 : ¬ 2 ^ 57 ≤ addr.toNat := by omega
  have h3 : ¬ 2 ^ 57 < addr.toNat + n := by omega
  simp only [transferForm, ha, h4, h1, h2, h3]
  simp

theorem hostRoute_phys {s : State} {asn key : Nat} {get : Bool} {va leaf : Dword}
    (h : route s asn (if get then .load else .store) va = .phys key leaf) : hostRoute s asn get va = .ok key := by
  simp [hostRoute, h]

/-- A PUT to one resident page writes its bytes at their home slice. -/
theorem transfer_put {s : State} {asn key n : Nat} {addr leaf : Dword} {data : List Byte} (hform : transferForm addr n false = none)
    (hp : pieces addr.toNat n = [(addr.toNat, n)]) (ho : vaOwner addr < 3) (hroute : route s asn .store addr = .phys key leaf)
    (hlen : data.length = n) : transfer s asn addr n (some data) = { s := homeWrite s key data, done := n } := by
  have ho7 : vaOwner addr ≠ 7 := by omega
  have hr : hostRoute s asn false addr = .ok key := hostRoute_phys (get := false) hroute
  subst hlen
  simp [transfer, hform, hp, putPage, ho7, hr]

/-- A GET of one resident page whose check values are good returns its bytes. -/
theorem transfer_get {s : State} {asn key n : Nat} {addr leaf : Dword} (hform : transferForm addr n true = none)
    (hp : pieces addr.toNat n = [(addr.toNat, n)]) (ho : vaOwner addr < 3) (hroute : route s asn .load addr = .phys key leaf)
    (hbad : memBadAt s key n = false) : transfer s asn addr n none = { s := s, bytes := memRead s key n, done := n } := by
  have ho7 : vaOwner addr ≠ 7 := by omega
  have hr : hostRoute s asn true addr = .ok key := hostRoute_phys (get := true) hroute
  simp [transfer, hform, hp, getPage, ho7, hr, hbad]

theorem transferReplies_put {d : Datagram} {t : Transfer} (hd : messageOk d = true) (h : t.fail = none) :
    transferReplies d false t = replied t.s d (ackOf d 0) := by
  simp [transferReplies, h, answerAck_eq hd]

theorem transferReplies_get {d : Datagram} {t : Transfer} (hd : messageOk d = true) (h : t.fail = none) :
    transferReplies d true t = replied t.s d ((0x05, dAddr d, 0, t.bytes) :: ackOf d 0) := by
  simp [transferReplies, h, answerAck_eq hd, answer_eq, replied_replied]

/-! ATTEST (R16, R17). -/

theorem shaRound_length (v : List Word) (kw : Word × Word) (h : v.length = 8) : (shaRound v kw).length = 8 := by
  unfold shaRound
  split
  · rfl
  · exact h

theorem shaBlock_length {h : List Word} (bs : List Byte) (hl : h.length = 8) : (shaBlock h bs).length = 8 := by
  have key : ∀ (l : List (Word × Word)) (v : List Word), v.length = 8 → (l.foldl shaRound v).length = 8 := by
    intro l
    induction l with
    | nil => exact fun v hv => hv
    | cons x l ih => exact fun v hv => ih _ (shaRound_length v x hv)
  rw [shaBlock, List.length_zipWith, hl, key _ _ hl]
  rfl

theorem shaBlocks_length (n : Nat) {h : List Word} (bs : List Byte) (hl : h.length = 8) : (shaBlocks n h bs).length = 8 := by
  induction n generalizing h bs with
  | zero => exact hl
  | succ n ih => exact ih _ (shaBlock_length _ hl)

/-- A digest is 32 bytes. -/
@[simp] theorem sha256_length (bs : List Byte) : (sha256 bs).length = 32 := by
  rw [sha256, List.length_flatMap]
  simp [shaBlocks_length _ _ (show shaInit.length = 8 from rfl)]

@[simp] theorem bytesBE_length (n v : Nat) : (bytesBE n v).length = n := by simp [bytesBE]

@[simp] theorem readyWords_length (s : State) : (readyWords s).length = 24 := by
  unfold readyWords
  split <;> simp

theorem roundUp_four (n : Nat) : roundUp n 4 = (n + 3) / 4 * 4 := by simp [roundUp, ceilDiv]

@[simp] theorem fitBytes_length (n : Nat) (bs : List Byte) : (fitBytes n bs).length = n := by
  simp [fitBytes]; omega

theorem fitBytes_take {n : Nat} {bs : List Byte} (h : bs.length ≤ n) : (fitBytes n bs).take bs.length = bs := by
  rw [fitBytes, List.take_take, min_eq_left h, List.take_left' rfl]

/-- The signed part of an ATTEST_REPLY (R17). -/
def attestBody (s : State) (nonce : List Byte) : List Byte :=
  nonce ++ (readyWords s ++ (toBytes 4 s.svn.toNat ++ (toBytes 4 (certificate s).length ++
    (measure s ++ fitBytes (roundUp (certificate s).length 4) (certificate s)))))

/-- Its signature by the identity key (R16). -/
def attestSign (s : State) (nonce : List Byte) : Nat × Nat :=
  ecdsaSign (identityKey (firmwareDigest s)) (sha256 (attestBody s nonce))

theorem attestPayload_eq (s : State) (nonce : List Byte) : attestPayload s nonce =
    attestBody s nonce ++ (bytesBE 32 (attestSign s nonce).1 ++ bytesBE 32 (attestSign s nonce).2) := by
  have hbody : nonce ++ readyWords s ++ toBytes 4 s.svn.toNat ++ toBytes 4 (certificate s).length ++ measure s ++
      fitBytes (roundUp (certificate s).length 4) (certificate s) = attestBody s nonce := by
    simp only [attestBody, List.append_assoc]
  unfold attestPayload
  dsimp only
  rw [hbody, List.append_assoc]
  rfl

theorem attestBody_length {nonce : List Byte} (s : State) (hn : nonce.length = 32) :
    (attestBody s nonce).length = 96 + ((certificate s).length + 3) / 4 * 4 := by
  simp [attestBody, hn, measure, roundUp_four]
  omega

theorem drop_of_drop {α : Type} {l a b : List α} {n k m : Nat} (h : l.drop n = a ++ b) (ha : a.length = k) (hm : n + k = m) :
    l.drop m = b := by
  rw [← hm, ← List.drop_drop, h, List.drop_left' ha]

/-- The fields of an ATTEST_REPLY (R17). -/
theorem attestPayload_fields {nonce : List Byte} (s : State) (hn : nonce.length = 32) :
    let p := attestPayload s nonce
    p.take 32 = nonce ∧ (p.drop 32).take 24 = readyWords s ∧ field (p.drop 56) 0 3 = s.svn.toNat ∧
    field (p.drop 56) 4 7 = (certificate s).length % 2 ^ 32 ∧ (p.drop 64).take 32 = measure s ∧
    (p.drop 96).take (certificate s).length = certificate s := by
  dsimp only
  generalize hcert : certificate s = cert
  have hround : cert.length ≤ roundUp cert.length 4 := by rw [roundUp_four]; omega
  have hp : attestPayload s nonce = nonce ++ (readyWords s ++ (toBytes 4 s.svn.toNat ++ (toBytes 4 cert.length ++ (measure s ++
      (fitBytes (roundUp cert.length 4) cert ++ (bytesBE 32 (attestSign s nonce).1 ++ bytesBE 32 (attestSign s nonce).2)))))) := by
    rw [attestPayload_eq, attestBody, hcert]
    simp only [List.append_assoc]
  have hmeasure : (measure s).length = 32 := sha256_length _
  have h32 := (congrArg (List.drop 32) hp).trans (List.drop_left' hn)
  have h56 := drop_of_drop (m := 56) h32 (readyWords_length s) rfl
  have h60 := drop_of_drop (m := 60) h56 (toBytes_length 4 _) rfl
  have h64 := drop_of_drop (m := 64) h60 (toBytes_length 4 _) rfl
  have h96 := drop_of_drop (m := 96) h64 hmeasure rfl
  refine ⟨?_, ?_, ?_, ?_, ?_, ?_⟩
  · rw [hp, List.take_left' hn]
  · rw [h32, List.take_left' (readyWords_length s)]
  · rw [h56, field_append 3]
    exact Nat.mod_eq_of_lt s.svn.isLt
  · have h4 : field ((attestPayload s nonce).drop 56) 4 7 = field ((attestPayload s nonce).drop 60) 0 3 := by
      simp only [field, List.drop_drop]
    rw [h4, h60, field_append 3]
    norm_num
  · rw [h64, List.take_left' hmeasure]
  · rw [h96, List.take_append_of_le_length (by simpa using hround), fitBytes_take hround]

/-- An ATTEST_REPLY ends with the signature of what comes before it (R17). -/
theorem attestPayload_signed {nonce : List Byte} (s : State) (hn : nonce.length = 32) :
    let p := attestPayload s nonce
    let g := ecdsaSign (identityKey (firmwareDigest s)) (sha256 (p.take (p.length - 64)))
    p.length = 160 + ((certificate s).length + 3) / 4 * 4 ∧ p.drop (p.length - 64) = bytesBE 32 g.1 ++ bytesBE 32 g.2 := by
  have hlen : (attestPayload s nonce).length = 160 + ((certificate s).length + 3) / 4 * 4 := by
    rw [attestPayload_eq, List.length_append, attestBody_length s hn, List.length_append, bytesBE_length, bytesBE_length]
    omega
  have hcut : (attestPayload s nonce).length - 64 = (attestBody s nonce).length := by
    rw [hlen, attestBody_length s hn]
    omega
  refine ⟨hlen, ?_⟩
  rw [hcut, attestPayload_eq, List.take_left' rfl, List.drop_left' rfl]
  rfl

/-! The messages one by one. -/

theorem applyMessage_put {s : State} {d : Datagram} (ht : dType d = 0x03) : applyMessage s d =
    transferReplies d false (transfer (takeLast s d) (getHost (takeLast s d) (dCtx d)).asn (dAddr d) (dLen d) (some (dPayload d))) := by
  simp [applyMessage, ht]

theorem applyMessage_get {s : State} {d : Datagram} (ht : dType d = 0x04) : applyMessage s d =
    transferReplies d true (transfer (takeLast s d) (getHost (takeLast s d) (dCtx d)).asn (dAddr d) (field (dPayload d) 0 3) none) := by
  simp [applyMessage, ht]

theorem applyMessage_attest {s : State} {d : Datagram} (hd : messageOk d = true) (ht : dType d = 0x07) : applyMessage s d =
    replied (takeLast s d) d ((0x08, 0, 0, attestPayload (takeLast s d) (dPayload d)) :: ackOf d 0) := by
  simp [applyMessage, ht, answer_eq, answerAck_eq hd, replied_replied]

theorem applyMessage_launch {s : State} {d : Datagram} (ht : dType d = 0x01) : applyMessage s d =
    (let r := acceptLaunch (takeLast s d) { asn := (getHost s (dCtx d)).asn, host := some (dCtx d) } (dPayload d)
     answerAck r.1 d (Reference.nat r.2.toNat)) := by
  have hasn : (getHost (takeLast s d) (dCtx d)).asn = (getHost s (dCtx d)).asn := by rw [getHost_takeLast, if_pos rfl]
  simp [applyMessage, ht, hasn, statusOf, Reference.nat]

theorem takeLast_asn (s : State) (d : Datagram) : (getHost (takeLast s d) (dCtx d)).asn = (getHost s (dCtx d)).asn := by
  rw [getHost_takeLast, if_pos rfl]

/-- LEN of an ATTEST is 32 (R17, R19). -/
theorem attest_len {d : Datagram} (hd : messageOk d = true) (ht : dType d = 0x07) : dLen d = 32 := by
  obtain ⟨_, _, htype, _⟩ := messageOk_iff.mp hd
  simpa [typeOk, ht] using htype

/-- A message of no type that a host sends fails the first checks of R20. -/
theorem messageOk_of_isUnknown {d : Datagram} (h : isUnknown d = true) : messageOk d = false := by
  by_contra hne
  obtain ⟨hmagic, hver, htype, _⟩ := messageOk_iff.mp (by simpa using hne)
  simp only [isUnknown, hmagic, hver] at h
  unfold typeOk at htype
  split at htype <;> simp_all

theorem receive_rejected {s : State} {d : Datagram} (hb : s.booted = true) (hr : s.recovery = false) (hp : portReady s 0 = true)
    (hd : messageOk d = false) : receive d s = replied s d [(0x06, dAddr d, 0x50,
      FaultRec.bytes { cause := 0x50, kind := 6, access := 0, detail := 0, faddr := dAddr d })] := by
  simp [receive, hb, hr, hp, hd]
  rfl

/-- The contexts of the host after a reset of one (R23). -/
def hostReset (s : State) (d : Datagram) : State :=
  setHost s (dCtx d) { getHost s (dCtx d) with last := dSeq d, held := [], count := 0, endpoint := some d.src }

theorem getHost_hostReset (s : State) (d : Datagram) (i : Nat) : getHost (hostReset s d) i = if i = dCtx d then
    { getHost s i with last := dSeq d, held := [], count := 0, endpoint := some d.src } else getHost s i := by
  rw [hostReset, getHost_setHost]
  split
  next h => rw [h]
  next => rfl

theorem receive_reset {s : State} {d : Datagram} (hb : s.booted = true) (hr : s.recovery = false) (hp : portReady s 0 = true)
    (hd : messageOk d = true) (ht : dType d = 0x0B) : receive d s = replied (hostReset s d) d (ackOf d 0) := by
  rw [← answerAck_eq hd]
  simp only [receive, hb, hr, hp, hd, ht, Bool.not_true, Bool.false_eq_true, if_false, if_true]
  rfl

/-! The rows: each takes its own kind of message. -/

theorem exec_put {d : Datagram} (ht : dType d = 0x03) (s : State) : exec (.put d) s = .next (receive d s) := by
  show execPut d s = _
  rw [execPut, if_pos ht]

theorem exec_get {d : Datagram} (ht : dType d = 0x04) (s : State) : exec (.get d) s = .next (receive d s) := by
  show execGet d s = _
  rw [execGet, if_pos ht]

theorem exec_attest {d : Datagram} (ht : dType d = 0x07) (s : State) : exec (.attest d) s = .next (receive d s) := by
  show execAttest d s = _
  rw [execAttest, if_pos ht]

theorem exec_ctxReset {d : Datagram} (ht : dType d = 0x0B) (s : State) : exec (.ctxReset d) s = .next (receive d s) := by
  show execCtxReset d s = _
  rw [execCtxReset, if_pos ht]

theorem exec_rejectedHostMessage {d : Datagram} (h : isUnknown d = true) (s : State) :
    exec (.rejectedHostMessage d) s = .next (receive d s) := by
  show execRejectedHostMessage d s = _
  rw [execRejectedHostMessage, if_pos h]

theorem exec_launch {d : Datagram} (ht : dType d = 0x01) (h : isTeardown d = false) (s : State) :
    exec (.launch d) s = .next (receive d s) := by
  show execLaunch d s = _
  rw [execLaunch, if_pos (by simp [ht, h])]

theorem exec_teardown {d : Datagram} (h : isTeardown d = true) (s : State) : exec (.teardown d) s = .next (receive d s) := by
  show execTeardown d s = _
  rw [execTeardown, if_pos h]

end Sys2Proof.Machine
end

section
/-! PROOFS. The acceptance of a launch (03 R44, R48, R50). -/
namespace Sys2Proof.Machine

theorem acceptLaunch_reject {s s1 : State} {o : Origin} {bytes : List Byte} {trusted : Bool} {cause : Byte} {detail : Word}
    (h : acceptEarly { s with accepted := s.accepted + 1 } o (launchRec bytes) = (s1, .reject trusted cause detail)) :
    acceptLaunch s o bytes = (rejectLaunch s1 o (launchRec bytes) trusted cause detail, cause) := by
  unfold acceptLaunch
  dsimp only
  rw [h]

theorem acceptLaunch_teardown {s s1 : State} {o : Origin} {bytes : List Byte}
    (h : acceptEarly { s with accepted := s.accepted + 1 } o (launchRec bytes) = (s1, .teardown)) :
    acceptLaunch s o bytes = (tearDown s1 o (launchRec bytes), 0) := by
  unfold acceptLaunch
  dsimp only
  rw [h]

theorem acceptLaunch_go {s s1 s2 : State} {o : Origin} {bytes : List Byte} {read : Budget} {c : Kernel}
    (h : acceptEarly { s with accepted := s.accepted + 1 } o (launchRec bytes) = (s1, .go read))
    (hc : checkRest s1 o (launchRec bytes) read = (s2, .ok c)) :
    acceptLaunch s o bytes = (enterQueue s2 o (launchRec bytes) s.accepted c, 0) := by
  unfold acceptLaunch
  dsimp only
  rw [h]
  dsimp only
  rw [acceptGo, hc]

/-- Step 1 of R48 rejects a record whose fields are out of range. -/
theorem acceptEarly_badField {s : State} {o : Origin} {r : LaunchRec} (h : r.formOk = false) :
    acceptEarly s o r = (s, .reject false 0x80 dBadField) := by
  simp [acceptEarly, h]

theorem faultMessage_mem (s : State) (ctx : Option Nat) (r : FaultRec) : (faultMessage s ctx r).mem = s.mem := by
  cases ctx <;> rfl

theorem sendComplete_mem (s : State) (host : Option Nat) (done : Dword) (bs : List Byte) :
    (sendComplete s host done bs).mem = s.mem := by
  cases host <;> rfl

theorem putDone_ok {s : State} {asn key : Nat} {va : Dword} (h : doneRoute s asn va = .ok key) (dom : Option Rgn)
    (host : Option Nat) (rgn : Rgn) (bs : List Byte) : putDone s asn dom host rgn va bs = homeWrite s key bs := by
  rw [putDone, writeDone, h]

/-- A rejected launch is in no table (R50). -/
theorem rejectLaunch_books (s : State) (o : Origin) (r : LaunchRec) (trusted : Bool) (cause : Byte) (detail : Word) :
    SameBooks s (rejectLaunch s o r trusted cause detail) := by
  unfold rejectLaunch
  refine SameBooks.trans ?_ ((sendComplete_books ..).trans ((postIn_books ..).trans (launchResult_books ..)))
  split
  · exact putDone_books ..
  · exact SameBooks.refl s

theorem doneBytes_length (published wgid state : Nat) (cause : Byte) (detail : Word) :
    (doneBytes published wgid state cause detail).length = 16 := by simp [doneBytes]

/-- A launch rejected in no domain has its completion record written (R50). -/
theorem rejectLaunch_record {s : State} {o : Origin} {r : LaunchRec} {cause : Byte} {detail : Word} {key : Nat}
    (hdone : r.doneOk = true) (hkey : doneRoute s o.asn r.doneVa = .ok key) (hp : o.parent = none) (hf : o.fut = none) :
    memRead (rejectLaunch s o r false cause detail) key 16 = doneBytes 0 noWg 2 cause detail := by
  have hmem : (rejectLaunch s o r false cause detail).mem = writeBytes s.mem key (doneBytes 0 noWg 2 cause detail) := by
    unfold rejectLaunch
    dsimp only
    rw [hf, if_pos hdone, putDone_ok hkey, hp]
    exact ((faultMessage_mem ..).trans (sendComplete_mem ..)).trans (homeWrite_mem ..)
  rw [memRead, hmem, ← doneBytes_length 0 noWg 2 cause detail, readBytes_writeBytes]

/-! Regions and launches of an updated state. -/

/-- The first region of an address, changed where it stands. -/
theorem getRegion_updRegion (s : State) (rcb : Rgn) {g : Region → Region} (hg : ∀ x, (g x).rcb = x.rcb) :
    getRegion (updRegion s rcb g) rcb = (getRegion s rcb).map g := by
  unfold getRegion updRegion updateWhere
  simp only
  induction s.regions with
  | nil => rfl
  | cons x l ih =>
    by_cases hx : x.rcb = rcb
    · simp [hx, hg]
    · simpa [hx] using ih

/-- The launch that a record's acceptance enters in the table (R45, R48). -/
def launchOf (s : State) (o : Origin) (r : LaunchRec) (acc : Nat) (c : Kernel) : Launch :=
  let rgn := mkRgn o.asn r.rcb
  let sh := shapeOf r.threads c
  let s1 := putDone s o.asn (some rgn) o.host rgn r.doneVa (doneBytes 0 noWg 0 0 0)
  { acc := acc, region := rgn, asn := o.asn, host := o.host, fut := o.fut, kernel := c
    gx := r.gx, gy := r.gy, gz := r.gz, lanes := sh.lanes, waves := sh.waves, wgX := r.wgX, wgY := r.wgY
    args := r.args, done := r.doneVa
    notifyWg := o.host.isSome && tbit r.done 57, notifyEnd := o.host.isSome && tbit r.done 58
    deps := ([r.dep0, r.dep1].filterMap (bindDep s1 o.asn)), checked := regionGrant s rgn }

/-- An accepted launch is the youngest (R44, R48). -/
theorem enterQueue_launches (s : State) (o : Origin) (r : LaunchRec) (acc : Nat) (c : Kernel) :
    (enterQueue s o r acc c).launches = s.launches ++ [launchOf s o r acc c] := by
  have h := putDone_books s o.asn (some (mkRgn o.asn r.rcb)) o.host (mkRgn o.asn r.rcb) r.doneVa (doneBytes 0 noWg 0 0 0)
  unfold enterQueue
  dsimp only
  rw [updRegion_launches, h.launches]
  rfl

/-- An accepted launch is the last of its region's queue (R48, R53). -/
theorem enterQueue_region (s : State) (o : Origin) (r : LaunchRec) (acc : Nat) (c : Kernel) :
    getRegion (enterQueue s o r acc c) (mkRgn o.asn r.rcb) = (getRegion s (mkRgn o.asn r.rcb)).map
      (fun g => { g with queue := g.queue ++ [acc], hostCtx := o.host <|> g.hostCtx }) := by
  have hb := putDone_books s o.asn (some (mkRgn o.asn r.rcb)) o.host (mkRgn o.asn r.rcb) r.doneVa (doneBytes 0 noWg 0 0 0)
  refine (getRegion_updRegion _ _ (g := fun g => { g with queue := g.queue ++ [acc], hostCtx := o.host <|> g.hostCtx })
    (fun _ => rfl)).trans (congrArg _ ?_)
  rw [getRegion, getRegion, ← hb.regions]

theorem enterQueue_queue {s : State} {o : Origin} {r : LaunchRec} {acc : Nat} {c : Kernel} {g : Region}
    (h : getRegion (enterQueue s o r acc c) (mkRgn o.asn r.rcb) = some g) :
    ∃ g', getRegion s (mkRgn o.asn r.rcb) = some g' ∧ g.queue = g'.queue ++ [acc] := by
  obtain ⟨g', hg', rfl⟩ := Option.map_eq_some_iff.mp ((enterQueue_region ..).symm.trans h)
  exact ⟨g', hg', rfl⟩

end Sys2Proof.Machine
end

section
/-! PROOFS. Teardown (23 R412): what has been taken out of its queue and dropped stays so, whatever the waves, jobs and workgroups
that end with it bring about. -/
namespace Sys2Proof.Machine

/-! Waves that end. -/

theorem updWave_books (s : State) (core slot : Nat) (g : Wave → Wave) : SameBooks s (updWave s core slot g) := by
  unfold updWave
  dsimp only
  split
  · exact SameBooks.refl s
  · exact setCore_books ..

theorem updWg_books (s : State) (core bar : Nat) (g : Workgroup → Workgroup) : SameBooks s (updWg s core bar g) := by
  unfold updWg
  dsimp only
  split
  · exact SameBooks.refl s
  · exact setCore_books ..

theorem freezePart_books (c : Cx) (i : TrapInfo) : SameBooks c.s (freezePart c i) := by
  unfold freezePart
  dsimp only
  refine SameBooks.trans ?_ (postFault_books ..)
  split <;> exact ⟨rfl, rfl⟩

theorem catchHalt_books (c : Cx) (i : TrapInfo) : SameBooks c.s (catchHalt c i) := by
  unfold catchHalt
  refine SameBooks.trans ?_ (postFault_books ..)
  exact ⟨rfl, rfl⟩

theorem enterTrap_books (c : Cx) (i : TrapInfo) : SameBooks c.s (enterTrap c i) := by
  have hfreeze (h : Part → Part) : SameBooks c.s (freezePart (c.part h) i) := freezePart_books (c.part h) i
  unfold enterTrap
  split
  · exact catchHalt_books c i
  · dsimp only
    split
    · exact hfreeze _
    · split
      · exact ⟨rfl, rfl⟩
      · exact hfreeze _

theorem takeTrap_books {s : State} {c : Cx} (h : c.s = s) (i : TrapInfo) : SameBooks s (takeTrap c i) := by
  subst h
  unfold takeTrap
  split
  · exact enterTrap_books ..
  · exact ⟨rfl, rfl⟩

theorem raiseAll_books (s : State) (core slot : Nat) (lanes : List Nat) (cause : Byte) :
    SameBooks s (raiseAll s core slot lanes cause) := by
  unfold raiseAll
  refine SameBooks.foldl (fun s l => ?_) _ s
  split
  next c h =>
    obtain ⟨hs, _⟩ := partAt_some h
    exact takeTrap_books (c := c.part _) hs _
  next => exact SameBooks.refl s

theorem openBarrier_books (s : State) (core bar : Nat) : SameBooks s (openBarrier s core bar) := by
  unfold openBarrier
  split
  · exact SameBooks.refl s
  · exact (SameBooks.foldl (fun _ _ => updWave_books ..) _ _).trans (updWg_books ..)

theorem barrierTest_books (s : State) (core bar : Nat) : SameBooks s (barrierTest s core bar) := by
  unfold barrierTest
  dsimp only
  split
  · exact SameBooks.refl s
  · split
    · exact updWg_books ..
    · split
      · exact (updWg_books ..).trans (openBarrier_books ..)
      · split
        · exact (updWg_books ..).trans (updWg_books ..)
        · refine ((updWg_books ..).trans (updWg_books ..)).trans (SameBooks.foldl (fun s sl => ?_) _ _)
          split
          · exact SameBooks.refl s
          · exact raiseAll_books ..

theorem setCapstan_books (s : State) (i : Nat) (x : Capstan) : SameBooks s (setCapstan s i x) := ⟨rfl, rfl⟩

theorem capstanTest_books (s : State) (i : Nat) : SameBooks s (capstanTest s i) := by
  unfold capstanTest
  dsimp only
  split
  · split
    · exact setCapstan_books ..
    · exact (setCapstan_books ..).trans (SameBooks.foldl (fun _ _ => updWg_books ..) _ _)
  · exact SameBooks.refl s

theorem gridWgEnded_books (s : State) (acc : Nat) : SameBooks s (gridWgEnded s acc) := by
  unfold gridWgEnded
  split
  · exact SameBooks.refl s
  · exact (setCapstan_books ..).trans (capstanTest_books ..)

theorem afterEnd_books (s : State) (core slot : Nat) : SameBooks s (afterEnd s core slot) := by
  unfold afterEnd
  dsimp only
  split
  · exact SameBooks.refl s
  next w _ =>
    generalize hs1 : (if w.parts.isEmpty = true then _ else s) = s1
    have h1 : SameBooks s s1 := by
      rw [← hs1]
      split
      · exact updWave_books ..
      · exact SameBooks.refl s
    split
    · exact h1
    · split
      · exact (h1.trans (barrierTest_books ..)).trans (gridWgEnded_books ..)
      · exact h1.trans (barrierTest_books ..)

/-! Draws and bins. -/

theorem addBatches_books (s : State) (d : Draw) (ts : List Tri) : SameBooks s (addBatches s d ts) := by
  refine SameBooks.foldl (fun _ _ => ?_) _ s
  exact ⟨rfl, rfl⟩

theorem bumpDraw_books (s : State) (asn d flushes prims : Nat) : SameBooks s (bumpDraw s asn d flushes prims) := by
  unfold bumpDraw
  split
  · exact homeWrite_books ..
  · exact SameBooks.refl s

theorem flushDraw_books (s : State) (d : Draw) : SameBooks s (flushDraw s d) :=
  SameBooks.trans (t := setDraw s _) ⟨rfl, rfl⟩ ((addBatches_books ..).trans (bumpDraw_books ..))

theorem groupsEnded_books (s : State) (a : Nat) : SameBooks s (groupsEnded s a) := by
  unfold groupsEnded
  split
  · exact SameBooks.refl s
  · exact SameBooks.foldl flushDraw_books _ s

theorem launchNode_books (s : State) (b : Bin) (n : Nat) : SameBooks s (launchNode s b n).1 := ⟨rfl, rfl⟩

theorem launchFrom_books (all : Bool) (fuel : Nat) (s : State) (b : Bin) : SameBooks s (launchFrom all fuel s b).1 := by
  induction fuel generalizing s b with
  | zero => exact SameBooks.refl s
  | succ fuel ih =>
    unfold launchFrom
    dsimp only
    split
    · exact (launchNode_books ..).trans (ih _ _)
    · split
      · exact launchNode_books ..
      · exact SameBooks.refl s

theorem creelTest_books (s : State) (root : Nat) : SameBooks s (creelTest s root) := by
  refine SameBooks.foldl (fun s key => ?_) _ s
  unfold binTest
  split
  · exact SameBooks.refl s
  · exact (launchFrom_books ..).trans ⟨rfl, rfl⟩

theorem afterWave_books (s : State) (core slot : Nat) : SameBooks s (afterWave s core slot) := by
  unfold afterWave
  dsimp only
  split
  · exact SameBooks.refl s
  · split
    · exact (groupsEnded_books ..).trans (creelTest_books ..)
    · exact SameBooks.refl s

theorem endWaveLanes_books (s : State) (core slot : Nat) (dead : Lanes) : SameBooks s (endWaveLanes s core slot dead) :=
  (updWave_books ..).trans ((afterEnd_books ..).trans (afterWave_books ..))

theorem rampAfterKill_books (s : State) (core : Nat) (region : Rgn) : SameBooks s (rampAfterKill s core region) := by
  unfold rampAfterKill
  dsimp only
  split
  · exact SameBooks.refl s
  · exact setCore_books ..

theorem killWave_books (s : State) (core slot : Nat) : SameBooks s (killWave s core slot) := by
  unfold killWave
  dsimp only
  split
  · exact SameBooks.refl s
  · exact ((updWave_books ..).trans (endWaveLanes_books ..)).trans (rampAfterKill_books ..)

theorem killWaves_books (s : State) (accs : List Nat) : SameBooks s (killWaves s accs) :=
  SameBooks.foldl (fun _ _ => (SameBooks.foldl (fun _ _ => killWave_books ..) _ _).trans (setCore_books ..)) _ s

/-! Jobs that stop. -/

theorem countJob_books (s : State) (core : Nat) (j : Job) (n : Nat) (status : Byte) : SameBooks s (countJob s core j n status) := by
  unfold countJob
  split
  · split
    · exact setCore_books ..
    · exact SameBooks.refl s
  · exact SameBooks.refl s

theorem finishJob_books (s : State) (core slot : Nat) (j : Job) (status : Byte) : SameBooks s (finishJob s core slot j status) := by
  unfold finishJob
  dsimp only
  split
  · exact ⟨rfl, rfl⟩
  · refine SameBooks.trans ?_ (countJob_books ..)
    exact ⟨rfl, rfl⟩

theorem stopJobs_books (s : State) (accs : List Nat) : SameBooks s (stopJobs s accs) := by
  refine SameBooks.foldl (fun s kc => SameBooks.foldl (fun s slot => ?_) _ s) _ s
  split
  · exact SameBooks.refl s
  · split
    · exact finishJob_books ..
    · exact setCore_books ..

theorem electActive_books (s : State) (core : Nat) : SameBooks s (electActive s core) := by
  unfold electActive
  dsimp only
  split
  · exact SameBooks.refl s
  · split <;> exact setCore_books ..

/-! What is torn down. -/

/-- A launch of the table is dropped by a teardown, and no region of its address has it in its queue. -/
structure Torn (acc : Nat) (rgn : Rgn) (s : State) : Prop where
  known : ∃ x ∈ s.launches, x.acc = acc
  dropped : ∀ x ∈ s.launches, x.acc = acc → x.dropped = some 0xC7
  queue : ∀ g ∈ s.regions, g.rcb = rgn → acc ∉ g.queue

/-- What a torn-down launch shows. -/
theorem Torn.shows {acc : Nat} {rgn : Rgn} {s : State} (h : Torn acc rgn s) :
    (∀ g, getRegion s rgn = some g → acc ∉ g.queue) ∧ ∃ x, getLaunch s acc = some x ∧ x.dropped = some 0xC7 := by
  constructor
  · intro g hg
    exact h.queue g (List.mem_of_find?_eq_some hg) (by simpa using List.find?_some hg)
  · obtain ⟨x, hx, hacc⟩ := h.known
    obtain ⟨y, hy⟩ := Option.isSome_iff_exists.mp (List.find?_isSome.mpr ⟨x, hx, by simpa using hacc⟩ :
      (s.launches.find? (fun l => l.acc = acc)).isSome = true)
    exact ⟨y, hy, h.dropped y (List.mem_of_find?_eq_some hy) (by simpa using List.find?_some hy)⟩

/-- Launches that are torn down stay so. -/
structure KeepsTorn (s t : State) : Prop where
  keeps : ∀ {acc rgn}, Torn acc rgn s → Torn acc rgn t

theorem KeepsTorn.refl (s : State) : KeepsTorn s s := ⟨id⟩

theorem KeepsTorn.trans {s t u : State} (h : KeepsTorn s t) (h' : KeepsTorn t u) : KeepsTorn s u := ⟨fun x => h'.keeps (h.keeps x)⟩

theorem KeepsTorn.foldl {α : Type} {f : State → α → State} (hf : ∀ s x, KeepsTorn s (f s x)) (l : List α) (s : State) :
    KeepsTorn s (l.foldl f s) := foldl_rel KeepsTorn.refl KeepsTorn.trans hf l s

theorem SameBooks.keepsTorn {s t : State} (h : SameBooks s t) : KeepsTorn s t :=
  ⟨fun x => ⟨h.launches ▸ x.known, h.launches ▸ x.dropped, h.regions ▸ x.queue⟩⟩

theorem mem_updateWhere {α : Type} {p : α → Bool} {g : α → α} {l : List α} {y : α} (h : y ∈ updateWhere p g l) :
    ∃ x ∈ l, y = x ∨ y = g x := by
  obtain ⟨x, hx, rfl⟩ := List.mem_map.mp h
  refine ⟨x, hx, ?_⟩
  split
  · exact .inr rfl
  · exact .inl rfl

/-- A region that keeps its address and gains nothing in its queue. -/
theorem updRegion_keepsTorn (s : State) (rcb : Rgn) {g : Region → Region} (hg : ∀ x, (g x).rcb = x.rcb)
    (hq : ∀ x, (g x).queue ⊆ x.queue) : KeepsTorn s (updRegion s rcb g) := by
  refine ⟨fun h => ⟨h.known, h.dropped, fun y hy hr => ?_⟩⟩
  obtain ⟨x, hx, rfl | rfl⟩ := mem_updateWhere hy
  · exact h.queue y hx hr
  · exact fun hm => h.queue x hx ((hg x).symm.trans hr) (hq x hm)

/-- A launch's table entry stays known when launches keep their numbers. -/
theorem updLaunch_known {s : State} {acc : Nat} (n : Nat) {g : Launch → Launch} (hg : ∀ x, (g x).acc = x.acc)
    (h : ∃ x ∈ s.launches, x.acc = acc) : ∃ x ∈ (updLaunch s n g).launches, x.acc = acc := by
  obtain ⟨x, hx, hacc⟩ := h
  refine ⟨_, List.mem_map.mpr ⟨x, hx, rfl⟩, ?_⟩
  split
  · exact (hg x).trans hacc
  · exact hacc

/-- A change of other launches, or one that leaves a torn-down launch dropped. -/
theorem updLaunch_torn {s : State} {acc : Nat} {rgn : Rgn} (n : Nat) {g : Launch → Launch} (hg : ∀ x, (g x).acc = x.acc)
    (hd : n = acc → ∀ x, x.dropped = some 0xC7 → (g x).dropped = some 0xC7) (h : Torn acc rgn s) : Torn acc rgn (updLaunch s n g) := by
  refine ⟨updLaunch_known n hg h.known, fun y hy hacc => ?_, h.queue⟩
  obtain ⟨x, hx, rfl⟩ := List.mem_map.mp hy
  split at hacc
  next hn =>
    have hxa : x.acc = acc := (hg x).symm.trans hacc
    rw [if_pos hn]
    exact hd ((by simpa using hn : x.acc = n).symm.trans hxa) x (h.dropped x hx hxa)
  next hn =>
    rw [if_neg hn]
    exact h.dropped x hx hacc

theorem leaveQueue_keepsTorn (s : State) (l : Launch) : KeepsTorn s (leaveQueue s l) :=
  updRegion_keepsTorn s _ (fun _ => rfl) (fun _ => List.filter_subset_self _)

theorem settleRegion_keepsTorn (s : State) (rgn : Rgn) : KeepsTorn s (settleRegion s rgn) := by
  unfold settleRegion
  dsimp only
  split
  · exact KeepsTorn.refl s
  · refine KeepsTorn.trans (SameBooks.keepsTorn ?_) (updRegion_keepsTorn _ _ (fun _ => rfl) (fun _ => List.Subset.refl _))
    exact ⟨rfl, rfl⟩

theorem freeWg_keepsTorn (s : State) (core bar : Nat) : KeepsTorn s (freeWg s core bar) := by
  unfold freeWg
  dsimp only
  split
  · exact KeepsTorn.refl s
  · split
    · exact (setCore_books ..).keepsTorn
    · split
      · exact ((setCore_books ..).trans (electActive_books ..)).keepsTorn
      · exact ((setCore_books ..).trans (electActive_books ..)).keepsTorn.trans (settleRegion_keepsTorn ..)

theorem retireSaved_keepsTorn (s : State) (accs : List Nat) : KeepsTorn s (retireSaved s accs) :=
  KeepsTorn.foldl (fun _ _ => (setCore_books ..).keepsTorn.trans (KeepsTorn.foldl settleRegion_keepsTorn _ _)) _ s

theorem retireTorn_keepsTorn (s : State) (accs : List Nat) : KeepsTorn s (retireTorn s accs) := by
  unfold retireTorn
  refine ((stopJobs_books s accs).keepsTorn.trans (KeepsTorn.foldl (fun s kc => KeepsTorn.foldl (fun s b => ?_) _ s) _ _)).trans
    (retireSaved_keepsTorn ..)
  split
  · split
    · exact freeWg_keepsTorn ..
    · exact KeepsTorn.refl s
  · exact KeepsTorn.refl s

theorem freeLaunch_books (s : State) (acc : Nat) : SameBooks s (freeLaunch s acc) := by
  unfold freeLaunch
  refine SameBooks.trans ?_ (SameBooks.foldl groupsEnded_books _ _)
  exact ⟨rfl, rfl⟩

/-- What a launch's end tells: its record, its fault, its future, its message (R50, R57; R411). -/
theorem finishLaunch_tells (s : State) (l : Launch) (cause : Byte) : ∃ t, SameBooks s t ∧ finishLaunch s l cause =
    settleRegion (freeLaunch (updLaunch (leaveQueue t l) l.acc (fun x => { x with ended := true })) l.acc) l.region := by
  refine ⟨_, ?_, rfl⟩
  have hfault (t : State) : SameBooks t (if cause = 0x89 then postFault t l.region l.host (ioFault 0x89 2 0 0 0 l.done l.region) else t) := by
    split
    · exact postFault_books ..
    · exact SameBooks.refl t
  have htell (t : State) (bs : List Byte) : SameBooks t (if l.notifyEnd then sendComplete t l.host l.done bs else t) := by
    split
    · exact sendComplete_books ..
    · exact SameBooks.refl t
  exact (((putDone_books ..).trans (hfault _)).trans (launchResult_books ..)).trans (htell _ _)

/-- A launch that ends stays dropped if it was. -/
theorem finishLaunch_keepsTorn (s : State) (l : Launch) (cause : Byte) : KeepsTorn s (finishLaunch s l cause) := by
  obtain ⟨t, ht, heq⟩ := finishLaunch_tells s l cause
  have hend (t : State) : KeepsTorn t (updLaunch t l.acc (fun x => { x with ended := true })) :=
    ⟨updLaunch_torn l.acc (fun _ => rfl) (fun _ _ hx => hx)⟩
  rw [heq]
  exact (((ht.keepsTorn.trans (leaveQueue_keepsTorn ..)).trans (hend _)).trans (freeLaunch_books ..).keepsTorn).trans
    (settleRegion_keepsTorn ..)

/-- A dependant that fails (R57). -/
def failLaunch (s : State) (l : Launch) : State :=
  groupsEnded (creelTest (updLaunch (leaveQueue s l) l.acc (fun x => { x with dropped := some 0x89 })) l.acc) l.acc

theorem failLaunch_torn {s : State} {acc : Nat} {rgn : Rgn} {l : Launch} (hl : l.acc ≠ acc) (h : Torn acc rgn s) :
    Torn acc rgn (failLaunch s l) :=
  ((creelTest_books ..).trans (groupsEnded_books ..)).keepsTorn.keeps
    (updLaunch_torn l.acc (fun _ => rfl) (fun hx => absurd hx hl) ((leaveQueue_keepsTorn s l).keeps h))

theorem foldl_failLaunch_torn {acc : Nat} {rgn : Rgn} {ls : List Launch} {s : State} (hl : ∀ l ∈ ls, l.acc ≠ acc)
    (h : Torn acc rgn s) : Torn acc rgn (ls.foldl failLaunch s) := by
  induction ls generalizing s with
  | nil => exact h
  | cons x ls ih =>
    exact ih (fun l hm => hl l (List.mem_cons_of_mem x hm)) (failLaunch_torn (hl x List.mem_cons_self) h)

/-- Dependants that fail were not dropped, so none of them was torn down (R57). -/
theorem failDependants_keepsTorn (s : State) (acc : Nat) : KeepsTorn s (failDependants s acc) := by
  refine ⟨fun h => foldl_failLaunch_torn (fun l hl hacc => ?_) h⟩
  obtain ⟨hmem, hsel⟩ := List.mem_filter.mp hl
  rw [h.dropped l hmem hacc] at hsel
  simp at hsel

theorem endTeardown_keepsTorn (s : State) (t : Teardown) : KeepsTorn s (endTeardown s t) := by
  have htell (u : State) (bs : List Byte) : SameBooks u (if t.notify then sendComplete u t.host t.done bs else u) := by
    split
    · exact sendComplete_books ..
    · exact SameBooks.refl u
  unfold endTeardown
  dsimp only
  refine KeepsTorn.trans (KeepsTorn.trans (SameBooks.keepsTorn ?_) (KeepsTorn.foldl (fun s a => ?_) _ _))
    (((putDone_books ..).trans (htell _ _)).trans (launchResult_books ..)).keepsTorn
  · exact ⟨rfl, rfl⟩
  · split
    · split
      · exact KeepsTorn.refl s
      · split
        · exact (finishLaunch_keepsTorn ..).trans (failDependants_keepsTorn ..)
        · exact finishLaunch_keepsTorn ..
    · exact KeepsTorn.refl s

theorem advanceTeardowns_keepsTorn (s : State) : KeepsTorn s (advanceTeardowns s) := KeepsTorn.foldl endTeardown_keepsTorn _ s

/-- Step 1 of R412: a launch leaves its queue and is dropped. -/
def dropLaunch (s : State) (l : Launch) : State :=
  updLaunch (leaveQueue s l) l.acc (fun x => { x with dropped := some 0xC7 })

theorem dropLaunch_keepsTorn (s : State) (l : Launch) : KeepsTorn s (dropLaunch s l) :=
  (leaveQueue_keepsTorn s l).trans ⟨updLaunch_torn l.acc (fun _ => rfl) (fun _ _ _ => rfl)⟩

theorem dropLaunch_known {s : State} {acc : Nat} (l : Launch) (h : ∃ x ∈ s.launches, x.acc = acc) :
    ∃ x ∈ (dropLaunch s l).launches, x.acc = acc := updLaunch_known (s := leaveQueue s l) l.acc (fun _ => rfl) h

theorem dropLaunch_torn {s : State} {l : Launch} (h : ∃ x ∈ s.launches, x.acc = l.acc) : Torn l.acc l.region (dropLaunch s l) := by
  refine ⟨dropLaunch_known l h, fun y hy hacc => ?_, fun g hg hr hq => ?_⟩
  · obtain ⟨x, _, rfl⟩ := List.mem_map.mp hy
    split at hacc
    next hn => rw [if_pos hn]
    next hn => exact absurd (by simpa using hacc) hn
  · obtain ⟨x, _, rfl⟩ := List.mem_map.mp hg
    by_cases hn : x.rcb = l.region
    · simp [hn] at hq
    · simp [hn] at hr

/-- Every launch of a list is torn down once each has been dropped. -/
theorem foldl_dropLaunch_torn {ls : List Launch} {s : State} (hs : ∀ l ∈ ls, ∃ x ∈ s.launches, x.acc = l.acc) :
    ∀ l ∈ ls, Torn l.acc l.region (ls.foldl dropLaunch s) := by
  induction ls generalizing s with
  | nil => exact fun l hl => absurd hl List.not_mem_nil
  | cons x ls ih =>
    intro l hl
    rcases List.mem_cons.mp hl with rfl | hl
    · exact (KeepsTorn.foldl dropLaunch_keepsTorn ls _).keeps (dropLaunch_torn (hs l List.mem_cons_self))
    · exact ih (fun y hy => dropLaunch_known x (hs y (List.mem_cons_of_mem x hy))) l hl

theorem stopWaves_books (s : State) (ns : List NodeWave) (accs : List Nat) :
    SameBooks s (stopJobs (killWaves { s with nodes := ns } accs) accs) := by
  have h : SameBooks s { s with nodes := ns } := ⟨rfl, rfl⟩
  exact (h.trans (killWaves_books ..)).trans (stopJobs_books ..)

/-- A teardown drops every launch of its subtree that has not ended (R412). -/
theorem tearDown_torn (s : State) (o : Origin) (r : LaunchRec) :
    ∀ l ∈ tornLaunches s (mkRgn o.asn r.rcb), Torn l.acc l.region (tearDown s o r) := by
  intro l hl
  have hdrop := foldl_dropLaunch_torn (ls := tornLaunches s (mkRgn o.asn r.rcb)) (s := s)
    (fun x hx => ⟨x, List.mem_of_mem_filter hx, rfl⟩) l hl
  unfold tearDown
  dsimp only
  refine (((SameBooks.keepsTorn ?_).trans (retireTorn_keepsTorn ..)).trans (advanceTeardowns_keepsTorn _)).keeps hdrop
  exact ⟨(stopWaves_books ..).launches, (stopWaves_books ..).regions⟩

end Sys2Proof.Machine
end

section
/-! PROOFS. The obligation on the messages of the host (01 R17-R25; 03 R44, R48, R50; 23 R412). -/
open Sys2Proof Sys2Proof.Machine

/-- Settles O51: what each message's own lemma says of its application, behind the order of its context. -/
theorem hostMessages : Obligations.HostMessages := by
  unfold Obligations.HostMessages
  refine ⟨fun s d key leaf hacc ht hn ha h4 hmax hend hp ho hroute => ?put,
    fun s d key leaf hacc ht hn ha h4 hmax hend hp ho hroute hbad => ?get,
    fun s d hacc ht => ?attest, fun s d hb hr hport hd ht => ?reset, fun s d hb hr hport hun => ?rejected,
    fun s d hacc ht => ?launch, fun s o bytes hform hdone key hkey hpar hfut => ?badField,
    fun s o bytes s1 read s2 c he hc => ?accepted, fun s o bytes s1 he => ?teardown⟩
  case put =>
    have hd : messageOk d = true := accepts_messageOk hacc
    have hx := transfer_put (s := takeLast s d) (transferForm_none false hn ha h4 hmax hend) hp ho hroute (dPayload_length hd)
    have hu : applyMessage s d = replied (homeWrite (takeLast s d) key (dPayload d)) d (ackOf d 0) := by
      rw [applyMessage_put ht, takeLast_asn, transferReplies_put hd (by rw [hx]), hx]
    obtain ⟨l2, cores, combines, hw⟩ := homeWrite_frame (takeLast s d) key (dPayload d)
    obtain ⟨hrec, hhost, hrep⟩ := receive_alone hacc (by omega) hu (by rw [hw]) (by rw [hw]; rfl)
    refine ⟨_, (exec_put ht s).trans (congrArg _ hrec), hhost, ?_, fun a => ?_, hrep⟩
    · rw [hw, dPayload_length hd]
      rfl
    · rw [← dPayload_length hd]
      exact homeWrite_byte (takeLast s d) key a (dPayload d)
  case get =>
    have hd : messageOk d = true := accepts_messageOk hacc
    have hx := transfer_get (s := takeLast s d) (transferForm_none true hn ha h4 hmax hend) hp ho hroute hbad
    have hu : applyMessage s d = replied (takeLast s d) d
        ((0x05, dAddr d, 0, memRead (takeLast s d) key (field (dPayload d) 0 3)) :: ackOf d 0) := by
      rw [applyMessage_get ht, takeLast_asn, transferReplies_get hd (by rw [hx]), hx]
    obtain ⟨hrec, hhost, hrep⟩ := receive_alone hacc (by omega) hu rfl rfl
    exact ⟨_, (exec_get ht s).trans (congrArg _ hrec), hhost, rfl, hrep⟩
  case attest =>
    have hd : messageOk d = true := accepts_messageOk hacc
    have hnonce : (dPayload d).length = 32 := (dPayload_length hd).trans (attest_len hd ht)
    obtain ⟨hrec, hhost, hrep⟩ := receive_alone hacc (by omega) (applyMessage_attest hd ht) rfl rfl
    obtain ⟨hn, hready, hsvn, hclen, hmeas, hcert⟩ := attestPayload_fields (takeLast s d) hnonce
    obtain ⟨hlen, hsign⟩ := attestPayload_signed (takeLast s d) hnonce
    exact ⟨_, _, (exec_attest ht s).trans (congrArg _ hrec), hhost, rfl, hrep, hn, hready, hsvn, hmeas, hlen, hclen, hcert, hsign⟩
  case reset =>
    exact ⟨_, (exec_ctxReset ht s).trans (congrArg _ (receive_reset hb hr hport hd ht)), rfl, getHost_hostReset s d, rfl⟩
  case rejected =>
    have hrec := receive_rejected hb hr hport (messageOk_of_isUnknown hun)
    exact ⟨_, _, (exec_rejectedHostMessage hun s).trans (congrArg _ hrec), rfl, rfl, rfl⟩
  case launch =>
    have hrec := receive_accepted hacc (by omega)
    rw [applyMessage_launch ht] at hrec
    exact ⟨fun h => (exec_launch ht h s).trans (congrArg _ hrec), fun h => (exec_teardown h s).trans (congrArg _ hrec)⟩
  case badField =>
    rw [acceptLaunch_reject (acceptEarly_badField hform)]
    exact ⟨rfl, (rejectLaunch_books ..).launches,
      rejectLaunch_record (s := { s with accepted := s.accepted + 1 }) hdone hkey hpar hfut⟩
  case accepted =>
    rw [acceptLaunch_go he hc]
    exact ⟨rfl, _, enterQueue_launches .., rfl, rfl, rfl, rfl, rfl, rfl, rfl, rfl, rfl, fun g hg => enterQueue_queue hg⟩
  case teardown =>
    rw [acceptLaunch_teardown he]
    refine ⟨rfl, fun l hl => ?_⟩
    obtain ⟨hqueue, x, hx, hdrop⟩ := (tearDown_torn s1 o (launchRec bytes) l hl).shows
    exact ⟨hqueue, x, hx, .inr hdrop⟩
end

section
/-! PROOFS. The end of a launch that has its draws flush the triangles of another (17 R331, R334; 23 R411). -/
namespace Sys2Proof.Machine

/-- A launch that is due ends with its drop's cause, or with none (R411). -/
theorem exec_launchEnd_due {s : State} {acc : Nat} {l : Launch} (hl : getLaunch s acc = some l) (hended : l.ended = false)
    (hdrop : l.dropped ≠ some 0xC7) (hcap : l.capstan = none) (hnodes : nodesDone s acc = true)
    (hdue : l.published.length = if l.dropped.isSome then l.next else l.gx * l.gy * l.gz) :
    exec (.launchEnd acc) s = .next (finishLaunch s l (l.dropped.getD 0)) := by
  have htorn : tornDown s acc = false := by simpa [tornDown, hl] using hdrop
  show execLaunchEnd acc s = _
  simp [execLaunchEnd, hl, htorn, hended, hcap, hnodes, hdue]

/-- A mesh launch of one workgroup, placed already, whose completion record is at 0x1000 of its address space. -/
def meshLaunch (acc : Nat) (published : List Nat) : Launch :=
  { acc := acc, region := mkRgn 1 0x1000, asn := 1, kernel := {}, gx := 1, gy := 1, gz := 1, lanes := 16, waves := 1
    done := 0x1000, next := 1, published := published }

/-- A mesh launch of another region, torn down (R412) before its second workgroup was placed. -/
def tornMeshLaunch : Launch := { meshLaunch 0 [] with region := mkRgn 1 0x2000, gx := 2, dropped := some 0xC7 }

/-- Draw record 0, which mesh launches 0, 1 and 2 share, with one binned triangle of launch 1. -/
def sharedDraw : Draw :=
  { asn := 1, d := 0, region := mkRgn 1 0x1000, slices := [0, 1], launches := [0, 1, 2], kernel := {}, target := 0, fmt := 0
    texel := 4, width := 32, height := 32, cap := 4096
    tris := [{ a := 1, s := 0, n := 0, verts := [(0, 0, 0), (0x41800000, 0, 0), (0, 0x41800000, 0)], attr := 0, tiles := [(0, 0)] }] }

/-- Every group of launch 1 has ended, and its triangle was binned behind launch 0, whose teardown drops the group that it waited
for. Launch 2 has published its workgroup. The pages of the completion records and of the draw records are resident and
writable, in frames 1 and 2 of die 0. -/
def binnedBehindTorn : State :=
  { State.reset with
    launches := [tornMeshLaunch, meshLaunch 1 [], meshLaunch 2 [0]]
    draws := [sharedDraw]
    leaves := [(leafKey 0 1 0x1, 0x1007), (leafKey 2 1 0x2020, 0x2007)] }

/-- The end of launch 2 has the draw flush what launch 1 has left there, and the flush counts itself in FLUSHES, byte 20 of the
draw record (R331, R334). -/
theorem finishLaunch_binnedBehindTorn_flushes :
    (finishLaunch binnedBehindTorn (meshLaunch 2 [0]) 0).byte (0x2000 + 20) = 1 := by decide +kernel

end Sys2Proof.Machine
end

section
/-! PROOFS. The obligation on placement and retirement (03 R54, R62; 17 R335; 20 R376; 23 R410, R411). -/
open Sys2Proof Sys2Proof.Machine

/-- Refutes O52: its clause on LAUNCH_END has a launch's end write the completion record alone. A launch that ends leaves its draws,
and the draws then flush the triangles of their other launches whose groups have all ended (17 R334); the flush adds to FLUSHES
and PRIMS in the draw record (R331), here at 0x2014 of device memory, outside the record at 0x1000. -/
theorem not_scheduling : ¬ Obligations.Scheduling := by
  unfold Obligations.Scheduling
  rintro ⟨_, _, _, hend, _⟩
  have hdue : exec (.launchEnd 2) binnedBehindTorn = .next (finishLaunch binnedBehindTorn (meshLaunch 2 [0]) 0) :=
    exec_launchEnd_due rfl rfl (by decide) rfl (by decide) rfl
  obtain ⟨t, hexec, _, _, _, hrecord⟩ := hend binnedBehindTorn 2 (meshLaunch 2 [0]) rfl rfl (by decide) rfl (by decide) rfl
  obtain ⟨_, hframe⟩ := hrecord 0x1000 rfl (by decide +kernel)
  have hkept : t.byte 0x2014 = binnedBehindTorn.byte 0x2014 := hframe 0x2014 (by omega)
  obtain rfl : finishLaunch binnedBehindTorn (meshLaunch 2 [0]) 0 = t := by simpa [hdue] using hexec
  rw [finishLaunch_binnedBehindTorn_flushes] at hkept
  exact absurd hkept (by decide)
end

section
/-! PROOFS. Instruction words: their fields, their bytes and the rows of the opcode map (04 R67-R69; 05 R90-R99). -/
namespace Sys2Proof.Machine

/-! The fields of a word (R68, R69). -/

theorem ofNat_bits {w : Nat} (x : BitVec w) (lo n : Nat) : BitVec.ofNat n (bits x lo n) = x.extractLsb' lo n := by
  apply BitVec.eq_of_toNat_eq
  simp [bits, Nat.shiftRight_eq_div_pow]

theorem ofBool_tbit {w : Nat} (x : BitVec w) (i : Nat) : BitVec.ofBool (tbit x i) = x.extractLsb' i 1 := by
  apply BitVec.eq_of_toNat_eq
  simp [tbit, Nat.toNat_testBit, Nat.shiftRight_eq_div_pow]

/-- Every word is made of its opcode and its fields: these lie side by side and fill it. -/
theorem fieldsWord_wordFields (w : BitVec 96) : fieldsWord (wordOp w) (wordFields w) = w := by
  simp only [fieldsWord, wordFields, wordOp, ofNat_bits, ofBool_tbit]
  simp (disch := rfl) only [BitVec.extractLsb'_append_extractLsb'_eq_extractLsb']
  exact BitVec.extractLsb'_eq_self

theorem bitVec_append_inj {m n : Nat} {a b : BitVec m} {c d : BitVec n} (h : a ++ c = b ++ d) : a = b ∧ c = d := by
  constructor
  · simpa only [BitVec.extractLsb'_append_eq_left] using congrArg (BitVec.extractLsb' n m) h
  · simpa only [BitVec.extractLsb'_append_eq_right] using congrArg (BitVec.extractLsb' 0 n) h

/-- A word has one opcode and one set of fields. -/
theorem fieldsWord_inj {op op' : Nat} {f f' : Fields} (h : fieldsWord op f = fieldsWord op' f') :
    BitVec.ofNat 9 op = BitVec.ofNat 9 op' ∧ f = f' := by
  unfold fieldsWord at h
  obtain ⟨h, hstall⟩ := bitVec_append_inj h
  obtain ⟨h, hlout⟩ := bitVec_append_inj h
  obtain ⟨h, hlw⟩ := bitVec_append_inj h
  obtain ⟨h, hwb⟩ := bitVec_append_inj h
  obtain ⟨h, hri⟩ := bitVec_append_inj h
  obtain ⟨h, hrt⟩ := bitVec_append_inj h
  obtain ⟨h, hx⟩ := bitVec_append_inj h
  obtain ⟨h, hb⟩ := bitVec_append_inj h
  obtain ⟨h, hbl⟩ := bitVec_append_inj h
  obtain ⟨h, ha⟩ := bitVec_append_inj h
  obtain ⟨h, hal⟩ := bitVec_append_inj h
  obtain ⟨h, hd⟩ := bitVec_append_inj h
  obtain ⟨h, hdn⟩ := bitVec_append_inj h
  obtain ⟨h, hgp⟩ := bitVec_append_inj h
  obtain ⟨hop, hgn⟩ := bitVec_append_inj h
  rw [BitVec.ofBool_eq_iff_eq] at hlw hwb hbl hal hdn hgn
  cases f
  cases f'
  simp only [Fields.mk.injEq]
  exact ⟨hop, hgn, hgp, hdn, hd, hal, ha, hbl, hb, hx, hrt, hri, hwb, hlw, hlout, hstall⟩

theorem wordOp_lt (w : BitVec 96) : wordOp w < 512 := Nat.mod_lt _ (by decide)

@[simp] theorem wordFields_fieldsWord (op : Nat) (f : Fields) : wordFields (fieldsWord op f) = f :=
  (fieldsWord_inj (fieldsWord_wordFields _)).2

theorem wordOp_fieldsWord {op : Nat} (h : op < 512) (f : Fields) : wordOp (fieldsWord op f) = op := by
  have hop := congrArg BitVec.toNat (fieldsWord_inj (fieldsWord_wordFields (fieldsWord op f))).1
  have hlt := wordOp_lt (fieldsWord op f)
  simp only [BitVec.toNat_ofNat] at hop
  omega

/-! The bytes of a word (R67). -/

theorem decode_toBytes (w : BitVec 96) (rest : List Byte) : decode (toBytes 12 w.toNat ++ rest) = .ok (decodeWord w, rest) := by
  have hw : BitVec.ofNat 96 (ofBytes (toBytes 12 w.toNat)) = w := by
    rw [ofBytes_toBytes, Nat.mod_eq_of_lt (by exact w.isLt), BitVec.ofNat_toNat, BitVec.setWidth_eq]
  rw [decode, if_neg (by simp), List.take_left' (toBytes_length ..), List.drop_left' (toBytes_length ..), hw]

theorem decode_short {bs : List Byte} (h : bs.length < 12) : decode bs = .error .truncated := if_pos h

theorem decodeTableWord_eq {n : Nat} (h : n < 2 ^ 96) : decodeTableWord 96 n = some (decodeWord (BitVec.ofNat 96 n)) := by
  have hn : (BitVec.ofNat 96 n).toNat = n := by rw [BitVec.toNat_ofNat, Nat.mod_eq_of_lt h]
  have hd := decode_toBytes (BitVec.ofNat 96 n) []
  rw [List.append_nil, hn] at hd
  rw [decodeTableWord, Nat.mod_eq_of_lt h, hd]

/-! Rows of the opcode map (05 R90-R98). -/

theorem findCtor_append (l l' : List (Nat × (Fields → Instr))) (key : Nat) :
    findCtor (l ++ l') key = (findCtor l key).or (findCtor l' key) := by
  induction l with
  | nil => rfl
  | cons p l ih =>
    simp only [List.cons_append, findCtor]
    split
    · rfl
    · exact ih

theorem mem_of_findCtor {l : List (Nat × (Fields → Instr))} {key : Nat} {c : Fields → Instr} (h : findCtor l key = some c) :
    (key, c) ∈ l := by
  induction l with
  | nil => cases h
  | cons p l ih =>
    simp only [findCtor] at h
    split at h
    case isTrue hk => cases h; cases hk; exact List.mem_cons_self
    case isFalse => exact List.mem_cons_of_mem _ (ih h)

/-- The map is searched part by part. -/
theorem findCtor_decodeRows (key : Nat) : findCtor decodeRows key =
    (((((((findCtor decodeRows1 key).or (findCtor decodeRows2 key)).or (findCtor decodeRows3 key)).or (findCtor decodeRows4 key)).or
      (findCtor decodeRows5 key)).or (findCtor decodeRows6 key)).or (findCtor decodeRows7 key)).or (findCtor decodeRows8 key) := by
  simp only [decodeRows, findCtor_append]

/-- Every instruction with a word has its row, under its opcode and sub-row. -/
theorem findCtor_of_word {i : Instr} {op k : Nat} {f : Fields} (h : i.word? = some (op, k, f)) :
    ∃ c, findCtor decodeRows (op * 128 + k) = some c ∧ c f = i := by
  cases i <;> cases h <;> exact ⟨_, (findCtor_decodeRows _).trans rfl, rfl⟩

/-- Every row's instructions have the row's opcode and sub-row. -/
theorem word_of_mem_decodeRows {p : Nat × (Fields → Instr)} (hp : p ∈ decodeRows) (f : Fields) :
    (p.2 f).word? = some (p.1 / 128, p.1 % 128, f) := by
  have h : decodeRows.map (fun p f => (p.2 f).word?) = decodeRows.map (fun p f => some (p.1 / 128, p.1 % 128, f)) := by
    simp only [decodeRows, List.map_append]
    rfl
  exact congrFun (List.map_inj_left.mp h p hp) f

/-- Every row is one of an assigned opcode of nine bits. -/
theorem assigned_of_mem_decodeRows : ∀ p ∈ decodeRows, opInfo? (p.1 / 128) ≠ none ∧ p.1 / 128 < 512 := by decide +kernel

theorem op_lt_of_word {i : Instr} {op k : Nat} {f : Fields} (h : i.word? = some (op, k, f)) : op < 512 := by
  obtain ⟨c, hc, _⟩ := findCtor_of_word h
  have hlt : (op * 128 + k) / 128 < 512 := (assigned_of_mem_decodeRows _ (mem_of_findCtor hc)).2
  omega

theorem subKey_lt (op : Nat) (f : Fields) : subKey op f < 128 := by
  have hbits : ∀ lo n, n ≤ 7 → bits f.x lo n < 128 := fun lo n hn =>
    (Nat.mod_lt _ (Nat.two_pow_pos n)).trans_le (Nat.pow_le_pow_right (by decide) hn)
  have h1 := hbits 0 1 (by decide)
  have h2 := hbits 0 2 (by decide)
  have h7 := hbits 0 7 (by decide)
  unfold subKey
  repeat' split
  all_goals omega

/-! From an instruction to its word and back. -/

theorem encodeWord_of_word {i : Instr} {op k : Nat} {f : Fields} (h : i.word? = some (op, k, f)) :
    encodeWord i = some (fieldsWord op f) := by
  unfold encodeWord
  split
  · cases h
  · rw [h]; rfl

/-- The word of an instruction's opcode and fields is read as the instruction, when the fields name its sub-row. -/
theorem decodeWord_fieldsWord {i : Instr} {op k : Nat} {f : Fields} (h : i.word? = some (op, k, f)) (hk : subKey op f = k) :
    decodeWord (fieldsWord op f) = i := by
  obtain ⟨c, hc, rfl⟩ := findCtor_of_word h
  simp only [decodeWord, wordOp_fieldsWord (op_lt_of_word h), wordFields_fieldsWord, hk, hc]

/-- A word of an unassigned opcode is kept whole (R99). -/
theorem decodeWord_unassigned {w : BitVec 96} (h : opInfo? (wordOp w) = none) : decodeWord w = .unassignedOpcode w := by
  have hlt := subKey_lt (wordOp w) (wordFields w)
  cases hc : findCtor decodeRows (wordOp w * 128 + subKey (wordOp w) (wordFields w)) with
  | none => simp only [decodeWord, hc]
  | some c =>
    have hrow := (assigned_of_mem_decodeRows _ (mem_of_findCtor hc)).1
    rw [show (wordOp w * 128 + subKey (wordOp w) (wordFields w)) / 128 = wordOp w by omega] at hrow
    exact absurd h hrow

theorem encodeWord_decodeWord (w : BitVec 96) : encodeWord (decodeWord w) = some w := by
  have hlt := subKey_lt (wordOp w) (wordFields w)
  cases hc : findCtor decodeRows (wordOp w * 128 + subKey (wordOp w) (wordFields w)) with
  | none => simp only [decodeWord, hc, encodeWord]
  | some c =>
    have hword := encodeWord_of_word (word_of_mem_decodeRows (mem_of_findCtor hc) (wordFields w))
    rw [show (wordOp w * 128 + subKey (wordOp w) (wordFields w)) / 128 = wordOp w by omega, fieldsWord_wordFields] at hword
    simpa only [decodeWord, hc] using hword

theorem decodeWord_encodeWord {i : Instr} {w : BitVec 96} (hi : i.WellFormed) (hw : encodeWord i = some w) : decodeWord w = i := by
  cases h : i.word? with
  | some p =>
    obtain ⟨op, k, f⟩ := p
    obtain ⟨hk, _⟩ : wordOk op k f := by simpa only [Instr.WellFormed, h] using hi
    obtain rfl : fieldsWord op f = w := by simpa only [encodeWord_of_word h, Option.some.injEq] using hw
    exact decodeWord_fieldsWord h hk
  | none =>
    unfold encodeWord at hw
    split at hw
    · cases hw
      exact decodeWord_unassigned hi
    · rw [h] at hw
      cases hw

/-- What is no device event has a word. -/
theorem encodeWord_of_not_isEvent {i : Instr} (h : isEvent i = false) : ∃ w, encodeWord i = some w := by
  unfold isEvent at h
  split at h
  · exact ⟨_, rfl⟩
  · obtain ⟨⟨op, k, f⟩, hp⟩ := Option.isSome_iff_exists.mp (by simpa only [Option.isNone_eq_false_iff] using h)
    exact ⟨_, encodeWord_of_word hp⟩

end Sys2Proof.Machine
end

section
/-! PROOFS. The obligations on instruction words (04 R67-R73, R82-R86; 05 R88-R99). -/
open Sys2Proof Sys2Proof.Machine

/-- Settles O57: an instruction's word has its opcode and fields, these lead to its row of the opcode map, and every row's
instructions have the opcode and sub-row that it stands under. -/
theorem decodeEncode : Obligations.DecodeEncode := by
  unfold Obligations.DecodeEncode
  refine ⟨?_, ?_, encodeWord_decodeWord, fun _ => decode_short⟩
  · intro i bs rest hi hbs
    obtain ⟨w, hw, rfl⟩ := Option.map_eq_some_iff.mp hbs
    rw [decode_toBytes, decodeWord_encodeWord hi hw]
  · intro i _ hi
    obtain ⟨w, hw⟩ := encodeWord_of_not_isEvent hi
    exact ⟨toBytes 12 w.toNat, by rw [encode, hw]; rfl, toBytes_length ..⟩

/-- Settles O56: each word is made of its instruction's opcode and fields, which name the instruction's row. -/
theorem wordsDecode : Obligations.WordsDecode := by
  unfold Obligations.WordsDecode
  intro x hx
  have hword : x.1 * 2 ^ 64 + x.2.1 * 2 ^ 32 + x.2.2.1 < 2 ^ 96 ∧ x.2.2.2.word?.any (fun p => subKey p.1 p.2.2 = p.2.1 ∧
      fieldsWord p.1 p.2.2 = BitVec.ofNat 96 (x.1 * 2 ^ 64 + x.2.1 * 2 ^ 32 + x.2.2.1)) = true := by
    revert x; decide +kernel
  obtain ⟨hlt, hany⟩ := hword
  obtain ⟨⟨op, k, f⟩, h, hrow⟩ := (Option.any_eq_true ..).mp hany
  obtain ⟨hk, hw⟩ := of_decide_eq_true hrow
  rw [decodeTableWord_eq hlt, ← hw, decodeWord_fieldsWord h hk]
end

section
/-! PROOFS. The checks before an instruction has any effect, in their order (04 R77, R81; 05 R88; 06 R109; 07 R116, R126). -/
namespace Sys2Proof.Machine

/-- Every instruction with a word runs through the shared path of its opcode and fields. -/
theorem exec_eq_runPart {i : Instr} {op k : Nat} {f : Fields} (h : i.word? = some (op, k, f)) (s : State) :
    ∃ body, exec i s = runPart op f s body := by
  cases i with
  | vredadd f =>
    cases h
    show ∃ body, execVredadd f s = _
    unfold execVredadd
    split <;> exact ⟨_, rfl⟩
  | vredmax f =>
    cases h
    show ∃ body, execVredmax f s = _
    unfold execVredmax
    split <;> exact ⟨_, rfl⟩
  | vscan f =>
    cases h
    show ∃ body, execVscan f s = _
    unfold execVscan
    dsimp only
    split <;> exact ⟨_, rfl⟩
  | _ => cases h <;> exact ⟨_, rfl⟩

/-! Steps 1 to 4 of R81. -/

section
variable {c : Cx} {op : Nat} {f : Fields}

/-- The opcode is not assigned, or not in gang mode (R99). -/
def Cx.opAbsent (c : Cx) (op : Nat) : Prop := (opInfo? op).isNone = true ∨ (c.w.code.gang = true ∧ notInGang op = true)

theorem decodeCheck_absent (h : c.opAbsent op) : decodeCheck c op f = some 0x01 :=
  if_pos (by simpa [Cx.opAbsent] using h)

theorem decodeCheck_present (h : ¬ c.opAbsent op) : decodeCheck c op f =
    if f.rt != 0 then some 0x02 else if !modifiersOk op f then some 0x03 else if !operandsOk c.w.limits op f then some 0x04 else none :=
  if_neg (by simpa [Cx.opAbsent] using h)

theorem decodeCheck_rt (h : ¬ c.opAbsent op) (hrt : f.rt ≠ 0) : decodeCheck c op f = some 0x02 :=
  (decodeCheck_present h).trans (if_pos (bne_iff_ne.mpr hrt))

theorem decodeCheck_modifiers (h : ¬ c.opAbsent op) (hrt : f.rt = 0) (hm : modifiersOk op f = false) : decodeCheck c op f = some 0x03 := by
  simp [decodeCheck_present h, hrt, hm]

theorem decodeCheck_operands (h : ¬ c.opAbsent op) (hrt : f.rt = 0) (hm : modifiersOk op f = true)
    (ho : operandsOk c.w.limits op f = false) : decodeCheck c op f = some 0x04 := by
  simp [decodeCheck_present h, hrt, hm, ho]

theorem decodeCheck_none (h : ¬ c.opAbsent op) (hrt : f.rt = 0) (hm : modifiersOk op f = true)
    (ho : operandsOk c.w.limits op f = true) : decodeCheck c op f = none := by
  simp [decodeCheck_present h, hrt, hm, ho]

/-! The shared path, stopped at each of its checks. -/

/-- A tag outside the accepted set stops an instruction before its width does (06 R109). -/
theorem ownEffect_tags {cw : Cx} (ht : tagsOk cw op f = false) (body : Cx → Effect) :
    ownEffect c cw op f body = .trap { cause := 0x08 } := by
  simp [ownEffect, ht]

/-- A width beyond the wave's is not available (05 R88, 07 R128). -/
theorem ownEffect_unavailable {cw : Cx} (ht : tagsOk cw op f = true) (hw : c.w.width < widthOf c op f) (body : Cx → Effect) :
    ownEffect c cw op f body = .trap { cause := 0x09 } := by
  simp [ownEffect, ht, hw]

/-- A width that the part does not meet (07 R126). -/
theorem ownEffect_unmet {cw : Cx} (ht : tagsOk cw op f = true) (hw : widthOf c op f ≤ c.w.width)
    (hm : meetsWidth c.w c.p (widthOf c op f) = false) (body : Cx → Effect) : ownEffect c cw op f body = widthStall c := by
  simp [ownEffect, ht, Nat.not_lt.mpr hw, hm]

theorem widthStall_handler (h : c.p.handler ≠ none) : widthStall c = .trap { cause := 0x1A } :=
  if_pos (Option.isSome_iff_ne_none.mpr h)

theorem widthStall_waits (h : c.p.handler = none) : widthStall c = .stall .width := by
  simp [widthStall, h]

variable (hst : c.stepEnds op f = false)
include hst

theorem issue_decodeCheck {cause : Byte} (hd : decodeCheck c op f = some cause) (body : Cx → Effect) :
    issue op f c body = takeTrap (c.inWindow op f) { cause := cause } := by
  unfold Cx.stepEnds at hst
  simp only [issue, hst, hd, Bool.false_eq_true, if_false, Cx.inWindow]

theorem issue_busy (hd : decodeCheck c op f = none) (hb : busy c op f = true) (body : Cx → Effect) :
    issue op f c body = stallAt (c.inWindow op f) f .score := by
  unfold Cx.stepEnds at hst
  simp only [issue, hst, hd, hb, Bool.false_eq_true, if_false, if_true, Cx.inWindow]

/-- A latch in time: the tag check, the width, then the instruction's own effect. -/
theorem issue_timely (hd : decodeCheck c op f = none) (hb : busy c op f = false)
    (hl : latchCheck c.p op f c.cyc c.s.freeCount = none) (body : Cx → Effect) :
    issue op f c body = applyEffect (c.inWindow op f) f (ownEffect c (c.inWindow op f) op f body) := by
  unfold Cx.stepEnds at hst
  simp only [issue, hst, hd, hb, hl, Bool.false_eq_true, if_false, Cx.inWindow]

/-- A latch out of turn traps, but one read too early only where the instruction issues. -/
theorem issue_latch {cause : Byte} (hd : decodeCheck c op f = none) (hb : busy c op f = false)
    (hl : latchCheck c.p op f c.cyc c.s.freeCount = some cause) {body : Cx → Effect}
    (hi : cause ≠ 0x07 ∨ (ownEffect c (c.inWindow op f) op f body).stalls = false) :
    issue op f c body = takeTrap (c.inWindow op f) { cause := cause } := by
  unfold Cx.stepEnds at hst
  unfold Cx.inWindow at hi ⊢
  simp only [issue, hst, hd, hb, hl, Bool.false_eq_true, if_false]
  refine if_neg fun h => ?_
  obtain ⟨h7, hstalls⟩ := Bool.and_eq_true_iff.mp h
  exact hi.elim (fun hne => hne (of_decide_eq_true h7)) (fun hno => by simp [hno] at hstalls)

theorem issue_early_waits (hd : decodeCheck c op f = none) (hb : busy c op f = false)
    (hl : latchCheck c.p op f c.cyc c.s.freeCount = some 0x07) {body : Cx → Effect} {w : Wait}
    (he : ownEffect c (c.inWindow op f) op f body = .stall w) : issue op f c body = stallAt (c.inWindow op f) f w := by
  unfold Cx.stepEnds at hst
  unfold Cx.inWindow at he ⊢
  simp only [issue, hst, hd, hb, hl, he, Bool.false_eq_true, if_false]
  rfl

end

theorem runPart_eq_issue {s : State} {c : Cx} (h : partAt s s.cur = some c) (op : Nat) (f : Fields) (body : Cx → Effect) :
    runPart op f s body = .next (issue op f c body) := by
  simp only [runPart, h]

end Sys2Proof.Machine
end

section
/-! PROOFS. The obligation on the checks before an instruction has any effect (04 R77, R81; 05 R88, R99; 06 R109; 07 R116,
R117, R126, R128; 22 R395). -/
open Sys2Proof Sys2Proof.Machine

/-- Settles O22: every instruction with a word runs through `issue`, and each clause names the check at which `issue` stops. -/
theorem checksBeforeIssue : Obligations.ChecksBeforeIssue := by
  unfold Obligations.ChecksBeforeIssue
  refine ⟨fun i op k f hw s c hp hst => ?_, fun i op k f hw s c hp hst hd => ?_⟩
  all_goals
    obtain ⟨body, hexec⟩ := exec_eq_runPart hw s
    rw [runPart_eq_issue hp] at hexec
    dsimp only
    rw [hexec]
  · have traps : ∀ cause, decodeCheck c op f = some cause →
        (.next (issue op f c body) : Outcome') = .next (takeTrap (c.inWindow op f) { cause := cause }) :=
      fun cause hd => by rw [issue_decodeCheck hst hd]
    exact ⟨fun h => traps _ (decodeCheck_absent h), fun h hrt => traps _ (decodeCheck_rt h hrt),
      fun h hrt hm => traps _ (decodeCheck_modifiers h hrt hm), fun h hrt hm ho => traps _ (decodeCheck_operands h hrt hm ho),
      fun h hrt hm ho => decodeCheck_none h hrt hm ho⟩
  · refine ⟨fun hb => by rw [issue_busy hst hd hb], fun cause hb hl hne => by rw [issue_latch hst hd hb hl (.inl hne)],
      fun hb hl => ⟨fun hstop => ?_, fun ht hw hm => ⟨fun hh => ?_, fun hh => ?_⟩⟩, fun ⟨hb, hl⟩ ht => ?_, fun ⟨hb, hl⟩ ht hw => ?_,
      fun ⟨hb, hl⟩ ht hw hm => ⟨fun hh => ?_, fun hh => ?_⟩⟩
    · have he : (ownEffect c (c.inWindow op f) op f body).stalls = false := by
        by_cases ht : tagsOk (c.inWindow op f) op f = false
        · rw [ownEffect_tags ht]; rfl
        · have ht := Bool.not_eq_false _ ▸ ht
          rw [ownEffect_unavailable ht (hstop.resolve_left (by simp [ht]))]; rfl
      rw [issue_latch hst hd hb hl (.inr he)]
    · rw [issue_latch hst hd hb hl (.inr (by rw [ownEffect_unmet ht hw hm, widthStall_handler hh]; rfl))]
    · rw [issue_early_waits hst hd hb hl (by rw [ownEffect_unmet ht hw hm, widthStall_waits hh])]
    · rw [issue_timely hst hd hb hl, ownEffect_tags ht]; rfl
    · rw [issue_timely hst hd hb hl, ownEffect_unavailable ht hw]; rfl
    · rw [issue_timely hst hd hb hl, ownEffect_unmet ht hw hm, widthStall_handler hh]; rfl
    · rw [issue_timely hst hd hb hl, ownEffect_unmet ht hw hm, widthStall_waits hh]; rfl
end

section
/-! PROOFS. A step runs the word at the PC of the part that its core's ports take next (04 R64-R66; 07 R117, R118; 19 R362). -/
namespace Sys2Proof.Machine

/-! The order of a core's issues (R118): ranks of one length, compared lexicographically. -/

theorem rankLess_asymm {a b : List Nat} (h : rankLess a b = true) : rankLess b a = false := by
  induction a generalizing b with
  | nil => cases h
  | cons x a ih =>
    cases b with
    | nil => cases h
    | cons y b =>
      simp only [rankLess, Bool.or_eq_true, decide_eq_true_eq, Bool.and_eq_true] at h
      simp only [rankLess, Bool.or_eq_false_iff, decide_eq_false_iff_not, Bool.and_eq_false_imp, decide_eq_true_eq]
      rcases h with h | ⟨rfl, h⟩
      · exact ⟨by omega, fun hyx => by omega⟩
      · exact ⟨by omega, fun _ => ih h⟩

theorem rankLess_irrefl (a : List Nat) : rankLess a a = false :=
  Bool.eq_false_iff.mpr fun h => Bool.eq_false_iff.mp (rankLess_asymm h) h

/-- What does not come before something that does not come before a third does not come before the third. -/
theorem rankLess_false_trans {a b c : List Nat} (hab : a.length = b.length) (h : rankLess a b = false) (h' : rankLess b c = false) :
    rankLess a c = false := by
  induction a generalizing b c with
  | nil => rfl
  | cons x a ih =>
    cases b with
    | nil => cases hab
    | cons y b =>
      cases c with
      | nil => rfl
      | cons z c =>
        simp only [rankLess, Bool.or_eq_false_iff, decide_eq_false_iff_not, Bool.and_eq_false_imp, decide_eq_true_eq] at h h' ⊢
        obtain ⟨hxy, hab'⟩ := h
        obtain ⟨hyz, hbc⟩ := h'
        refine ⟨by omega, fun hxz => ?_⟩
        have hy : x = y := by omega
        exact ih (Nat.succ.inj hab) (hab' hy) (hbc (by omega))

theorem partRank_length (x y : Nat × Wave × Part) : (partRank x).length = (partRank y).length := rfl

theorem firstPick_eq_none {l : List (Nat × Wave × Part)} : firstPick l = none ↔ l = [] := by
  cases l with
  | nil => exact iff_of_true rfl rfl
  | cons a l =>
    refine iff_of_false (fun h => ?_) (List.cons_ne_nil a l)
    cases hl : firstPick l <;> simp only [firstPick, hl] at h
    case none => cases h
    case some => split at h <;> cases h

/-- The first pick is one of the picks, and none comes before it. -/
theorem firstPick_some {l : List (Nat × Wave × Part)} {x : Nat × Wave × Part} (h : firstPick l = some x) :
    x ∈ l ∧ ∀ y ∈ l, rankLess (partRank y) (partRank x) = false := by
  induction l generalizing x with
  | nil => cases h
  | cons a l ih =>
    cases hl : firstPick l with
    | none =>
      obtain rfl : a = x := by simpa only [firstPick, hl, Option.some.injEq] using h
      obtain rfl := firstPick_eq_none.mp hl
      exact ⟨List.mem_cons_self, fun y hy => by rw [List.mem_singleton.mp hy]; exact rankLess_irrefl _⟩
    | some y =>
      obtain ⟨hy, hfirst⟩ := ih hl
      simp only [firstPick, hl] at h
      split at h
      case isTrue hya =>
        cases h
        refine ⟨List.mem_cons_of_mem _ hy, fun z hz => ?_⟩
        rcases List.mem_cons.mp hz with rfl | hz
        · exact rankLess_asymm hya
        · exact hfirst z hz
      case isFalse hya =>
        cases h
        refine ⟨List.mem_cons_self, fun z hz => ?_⟩
        rcases List.mem_cons.mp hz with rfl | hz
        · exact rankLess_irrefl _
        · exact rankLess_false_trans (partRank_length ..) (hfirst z hz) (Bool.eq_false_iff.mpr hya)

theorem mem_picks {k : Core} {cyc slot : Nat} {w : Wave} {p : Part} : (slot, w, p) ∈ picks k cyc ↔
    (slot, some w) ∈ k.waves ∧ p ∈ w.parts ∧ partReady k w p cyc = true ∧ portFree k slot w p cyc = true := by
  unfold picks
  rw [List.mem_flatMap]
  constructor
  · rintro ⟨⟨slot', ow⟩, hsw, hmem⟩
    cases ow with
    | none => cases hmem
    | some w' =>
      obtain ⟨p', hp', heq⟩ := List.mem_map.mp hmem
      obtain ⟨hin, hfree⟩ := List.mem_filter.mp hp'
      cases heq
      exact ⟨hsw, hin, Bool.and_eq_true_iff.mp hfree⟩
  · rintro ⟨hsw, hin, hready, hfree⟩
    exact ⟨(slot, some w), hsw, List.mem_map.mpr ⟨p, List.mem_filter.mpr ⟨hin, Bool.and_eq_true_iff.mpr ⟨hready, hfree⟩⟩, rfl⟩⟩

theorem chooseOn_some {core cyc : Nat} {k : Core} {r : PartRef} (h : chooseOn core k cyc = some r) :
    ∃ x, firstPick (picks k cyc) = some x ∧ r = ⟨core, x.1, lowestLane x.2.2.lanes⟩ := by
  obtain ⟨x, hx, rfl⟩ := Option.map_eq_some_iff.mp h
  exact ⟨x, hx, rfl⟩

/-- The part that issues next is ready, its port takes it, and no such part comes before it (R117, R118). -/
theorem chooseOn_first {core cyc : Nat} {k : Core} {r : PartRef} (h : chooseOn core k cyc = some r) :
    ∃ slot w p, (slot, some w) ∈ k.waves ∧ p ∈ w.parts ∧ r = ⟨core, slot, lowestLane p.lanes⟩ ∧
      partReady k w p cyc = true ∧ portFree k slot w p cyc = true ∧
      ∀ slot' w' p', (slot', some w') ∈ k.waves → p' ∈ w'.parts → partReady k w' p' cyc = true →
        portFree k slot' w' p' cyc = true → rankLess (partRank (slot', w', p')) (partRank (slot, w, p)) = false := by
  obtain ⟨⟨slot, w, p⟩, hx, rfl⟩ := chooseOn_some h
  obtain ⟨hmem, hfirst⟩ := firstPick_some hx
  obtain ⟨hsw, hin, hready, hfree⟩ := mem_picks.mp hmem
  exact ⟨slot, w, p, hsw, hin, rfl, hready, hfree,
    fun _ _ _ hsw' hin' hready' hfree' => hfirst _ (mem_picks.mpr ⟨hsw', hin', hready', hfree'⟩)⟩

/-- The part that a cluster takes next is the one that its own core takes next. -/
theorem chooseOn_of_chooseIn {s : State} {n : Nat} {p : PartRef} (h : chooseIn s n = some p) :
    chooseOn p.core (getCore s p.core) (coreCyc s p.core) = some p := by
  obtain ⟨core, _, hcore⟩ := List.exists_of_findSome?_eq_some h
  obtain ⟨x, _, rfl⟩ := chooseOn_some hcore
  exact hcore

/-- A cluster takes no part when none of its cores does. -/
theorem chooseIn_none {s : State} {n : Nat} (h : ∀ core ∈ coresOfCluster n, issuesDone s core = true) : chooseIn s n = none := by
  refine List.findSome?_eq_none_iff.mpr fun core hcore => ?_
  rw [chooseOn, List.isEmpty_iff.mp (h core hcore)]
  rfl

/-! Fetching (R64-R67). -/

/-- Only what the slices hold has changed. -/
def OnlyL2 (s t : State) : Prop := t = { s with l2 := t.l2 }

theorem OnlyL2.refl (s : State) : OnlyL2 s s := rfl

theorem OnlyL2.trans {s t u : State} (h : OnlyL2 s t) (h' : OnlyL2 t u) : OnlyL2 s u := by
  unfold OnlyL2 at *
  rw [h', h]

theorem l2Touch_onlyL2 (s : State) (line : Nat) (region : Rgn) : OnlyL2 s (l2Touch s line region) := by
  unfold l2Touch
  dsimp only
  split
  · rfl
  · split <;> rfl

theorem l2TouchRange_onlyL2 (s : State) (key n : Nat) (region : Rgn) : OnlyL2 s (l2TouchRange s key n region) :=
  foldl_rel OnlyL2.refl OnlyL2.trans (fun _ _ => l2Touch_onlyL2 ..) _ s

theorem touchFetch_onlyL2 (c : Cx) (s : State) : OnlyL2 s (touchFetch c s) := by
  refine foldl_rel OnlyL2.refl OnlyL2.trans (fun t x => ?_) _ s
  split
  · exact l2TouchRange_onlyL2 ..
  · exact OnlyL2.refl t

theorem fetchWord_outside {w : Wave} {p : Part} (s : State) (h : (fetchSeg w p).len / 12 ≤ p.pc.toNat) : fetchWord s w p = .outside :=
  if_pos h

/-- The virtual address of a byte of the word at a part's PC, and the physical byte that it leads to. -/
def fetchVa (w : Wave) (p : Part) (i : Nat) : Dword := (fetchSeg w p).base + BitVec.ofNat 64 (12 * p.pc.toNat) + BitVec.ofNat 64 i
def fetchKey (s : State) (w : Wave) (p : Part) (i : Nat) : Option Nat :=
  match route s (fetchSeg w p).asn .fetch (fetchVa w p i) with
  | .phys key _ => some key
  | _ => none

/-- A word whose first and last bytes are mapped is made of the bytes that its addresses lead to, unless one of them is bad. -/
theorem fetchWord_mapped {s : State} {w : Wave} {p : Part} {key key' : Nat} {leaf leaf' : Dword}
    (hpc : p.pc.toNat < (fetchSeg w p).len / 12) (hfirst : route s (fetchSeg w p).asn .fetch (fetchVa w p 0) = .phys key leaf)
    (hlast : route s (fetchSeg w p).asn .fetch (fetchVa w p 11) = .phys key' leaf')
    (hgood : ((List.range 12).map (fetchKey s w p)).any (fun k => (k.map (fun x => memBadAt s x 1)).getD false) = false) :
    fetchWord s w p = .word (BitVec.ofNat 96 (ofBytes (((List.range 12).map (fetchKey s w p)).map (fun k => (k.map s.byte).getD 0)))) := by
  have hfirst : route s (fetchSeg w p).asn .fetch ((fetchSeg w p).base + BitVec.ofNat 64 (12 * p.pc.toNat)) = .phys key leaf := by
    simpa [fetchVa] using hfirst
  have hlast : route s (fetchSeg w p).asn .fetch ((fetchSeg w p).base + BitVec.ofNat 64 (12 * p.pc.toNat) + 11) = .phys key' leaf' := hlast
  unfold fetchWord
  rw [if_neg (by omega)]
  dsimp only
  rw [hfirst, hlast]
  exact if_neg (Bool.eq_false_iff.mp hgood)

/-- The bytes of a word are fetched where each of its addresses leads. -/
theorem fetchWord_word {s : State} {w : Wave} {p : Part} {key : Nat → Nat} (hpc : p.pc.toNat < (fetchSeg w p).len / 12)
    (h : ∀ i < 12, ∃ leaf, route s (fetchSeg w p).asn .fetch (fetchVa w p i) = .phys (key i) leaf ∧ memBadAt s (key i) 1 = false) :
    fetchWord s w p = .word (BitVec.ofNat 96 (ofBytes ((List.range 12).map (fun i => s.byte (key i))))) := by
  obtain ⟨leaf, hfirst, _⟩ := h 0 (by decide)
  obtain ⟨leaf', hlast, _⟩ := h 11 (by decide)
  have hkeys : (List.range 12).map (fetchKey s w p) = (List.range 12).map (fun i => some (key i)) :=
    List.map_congr_left fun i hi => by
      obtain ⟨_, hphys, _⟩ := h i (List.mem_range.mp hi)
      simp only [fetchKey, hphys]
  have hgood : ∀ i ∈ List.range 12, memBadAt s (key i) 1 = false := fun i hi => by
    obtain ⟨_, _, hgood⟩ := h i (List.mem_range.mp hi)
    exact hgood
  rw [fetchWord_mapped hpc hfirst hlast (by simpa [hkeys] using hgood), hkeys, List.map_map]
  rfl

/-! A turn of the agenda that has a part issue. -/

/-- A part whose word is in the segment runs what its bytes decode to. -/
theorem runNext_decoded {c : Cx} {s : State} {w : BitVec 96} {i : Instr} {tail : List Byte} (r : PartRef)
    (hf : fetchWord s c.w c.p = .word w) (hd : decode (toBytes 12 w.toNat ++ tail) = .ok (i, tail)) :
    runNext c r s = exec i { touchFetch c s with cur := r } := by
  obtain rfl : decodeWord w = i := by
    rw [decode_toBytes] at hd
    cases hd
    rfl
  simp only [runNext, hf, runWord]

theorem runNext_outside {c : Cx} {s : State} (r : PartRef) (hf : fetchWord s c.w c.p = .outside) :
    runNext c r s = .next (takeTrap c { cause := 0x0B }) := by
  simp only [runNext, hf]

section
variable {s : State} {p : PartRef} {c : Cx}

theorem issueTurn_later (hch : chooseOn p.core (getCore s p.core) (coreCyc s p.core) = some p) (hp : partAt s p = some c)
    (hfresh : c.w.fresh = false) : issueTurn p s = runNext c p s := by
  simp [issueTurn, hch, hp, hfresh]

theorem issueTurn_first (hch : chooseOn p.core (getCore s p.core) (coreCyc s p.core) = some p) (hp : partAt s p = some c)
    (hfresh : c.w.fresh = true) : issueTurn p s = firstIssue c p s := by
  simp [issueTurn, hch, hp, hfresh]

theorem issueTurn_notChosen (hch : chooseOn p.core (getCore s p.core) (coreCyc s p.core) ≠ some p) : issueTurn p s = .next s :=
  if_neg hch

end

/-! A wave's first instruction (19 R362). -/

theorem openWave_onlyCore (c : Cx) (r : PartRef) (s : State) : OnlyCore s (openWave c r s) r.core :=
  ⟨rfl, fun _ hj => getCore_setCore_ne _ _ hj⟩

theorem getCore_openWave (c : Cx) (r : PartRef) (s : State) : getCore (openWave c r s) r.core =
    { c.k with l1 := c.k.l1.filter (fun l => !(l.asn = c.g.asn && l.writable)) } :=
  getCore_setCore_self ..

theorem updWave_onlyCore (s : State) (core slot : Nat) (g : Wave → Wave) : OnlyCore s (updWave s core slot g) core := by
  unfold updWave
  dsimp only
  split
  · exact ⟨rfl, fun _ _ => rfl⟩
  · exact ⟨rfl, fun _ hj => getCore_setCore_ne _ _ hj⟩

theorem getWave_updWave (s : State) (core slot : Nat) (g : Wave → Wave) :
    getWave (getCore (updWave s core slot g) core) slot = (getWave (getCore s core) slot).map g := by
  cases hw : getWave (getCore s core) slot <;> simp [updWave, hw]

theorem firstIssue_next {c d : Cx} {r : PartRef} {s t : State} (hp : partAt (openWave c r s) r = some d)
    (ht : runNext d r (openWave c r s) = .next t) : firstIssue c r s = .next (waveBegun c.k r t) := by
  simp only [firstIssue, hp, ht]

end Sys2Proof.Machine
end

section
/-! PROOFS. The obligation on the step of a part (04 R64-R66; 07 R117, R118; 19 R362). -/
open Sys2Proof Sys2Proof.Machine

/-- Settles O58: a turn of the agenda that names a part, or the cycle of its cluster, runs the word that the part fetches. -/
theorem stepRunsDecoded : Obligations.StepRunsDecoded := by
  unfold Obligations.StepRunsDecoded
  refine ⟨?_, fun c s => touchFetch_onlyL2 c s, ?_, ?_, ?_, ?_, ?_, fun _ _ _ _ => chooseOn_first, fun s _ _ => fetchWord_outside s, ?_, ?_⟩
  · intro s p rest c w i tail ha ⟨hch, hp, hfresh, hf⟩ hd
    rw [step, ha]
    exact (issueTurn_later (s := { s with agenda := rest }) hch hp hfresh).trans (runNext_decoded p hf hd)
  · intro s p rest c d w i tail t ha s1 s2 ⟨hch, hp, hfresh, hp', hf, hd, ht⟩
    obtain ⟨_, _, _, hk, _⟩ := partAt_some hp
    have hstep : step s = .next (waveBegun c.k p t) := by
      rw [step, ha]
      exact (issueTurn_first (s := { s with agenda := rest }) hch hp hfresh).trans (firstIssue_next hp' ((runNext_decoded p hf hd).trans ht))
    refine ⟨openWave_onlyCore .., by rw [getCore_openWave, hk]; rfl, _, hstep, fun h => if_pos (by rw [h, hk]; rfl), fun h => ?_⟩
    have hbegun : waveBegun c.k p t = updWave t p.core p.slot (fun w => { w with fresh := false }) := if_neg (by rw [hk]; exact h)
    rw [hbegun]
    exact ⟨updWave_onlyCore .., getWave_updWave ..⟩
  · intro s p rest c ha ⟨hch, hp, hfresh, hf⟩
    rw [step, ha]
    exact (issueTurn_later (s := { s with agenda := rest }) hch hp hfresh).trans (runNext_outside p hf)
  · intro s p rest ha hch
    rw [step, ha]
    exact issueTurn_notChosen hch
  · intro s n p rest c w i tail ha hin hp hfresh hf hd
    rw [step, ha]
    have hturn : tickTurn n { s with agenda := rest } = issueTurn p s := by
      have hin' : chooseIn { s with agenda := rest } n = some p := hin
      simp only [tickTurn, hin', ← ha]
    exact hturn.trans ((issueTurn_later (chooseOn_of_chooseIn hin) hp hfresh).trans (runNext_decoded p hf hd))
  · intro s n rest ha hdone
    have hin : chooseIn { s with agenda := rest } n = none := chooseIn_none hdone
    rw [step, ha]
    simp only [runTurn, tickTurn, hin]
  · intro s w p seg va hpc key h
    exact fetchWord_word hpc h
  · intro s e rest ha he
    rw [step, ha]
    exact if_pos he
end

section
/-! PROOFS. A word whose opcode is unassigned (05 R99; 04 R81). -/
namespace Sys2Proof.Machine

/-- The opcode map has no row for exactly the values of R99: each of the 512 values is looked up. -/
theorem opInfo?_isNone_iff_unassigned : ∀ op < 512, (opInfo? op).isNone = true ↔ unassigned op := by
  unfold unassigned
  decide +kernel

/-- OP is the word's top field, so no bit stands above it (04 R68). -/
theorem wordOp_eq_div (w : BitVec 96) : wordOp w = w.toNat / 2 ^ 87 :=
  Nat.mod_eq_of_lt (Nat.div_lt_of_lt_mul w.isLt)

theorem opInfo?_eq_none_of_unassigned {w : BitVec 96} (h : unassigned (wordOp w)) : opInfo? (wordOp w) = none :=
  Option.isNone_iff_eq_none.mp ((opInfo?_isNone_iff_unassigned _ (wordOp_lt w)).mpr h)

/-- An unassigned opcode stops its word at step 1 of R81, before the other fields and the guard are looked at. -/
theorem exec_unassignedOpcode {w : BitVec 96} {s : State} {c : Cx} (h : opInfo? (wordOp w) = none) (hp : partAt s s.cur = some c)
    (hst : c.stepEnds (wordOp w) (wordFields w) = false) : exec (.unassignedOpcode w) s =
      .next (takeTrap (c.inWindow (wordOp w) (wordFields w)) { cause := 0x01 }) := by
  have habsent : c.opAbsent (wordOp w) := .inl (Option.isNone_iff_eq_none.mpr h)
  show runPart (wordOp w) (wordFields w) s _ = _
  rw [runPart_eq_issue hp, issue_decodeCheck hst (decodeCheck_absent habsent)]

end Sys2Proof.Machine
end

section
/-! PROOFS. The obligation on unassigned opcodes (05 R99). -/
open Sys2Proof Sys2Proof.Machine

/-- Settles O21: the map has no row for the values of R99, so a word with one decodes to itself and stops at the first check. -/
theorem unassignedOpcodes : Obligations.UnassignedOpcodes := by
  unfold Obligations.UnassignedOpcodes
  refine ⟨opInfo?_isNone_iff_unassigned, fun w s c hp hop hst => ?_⟩
  rw [← wordOp_eq_div] at hop hst ⊢
  have hnone := opInfo?_eq_none_of_unassigned hop
  exact ⟨decodeWord_unassigned hnone, exec_unassignedOpcode hnone hp hst⟩
end

section
/-! PROOFS. The contexts of a core: what switching, streaming out and back, and the windows and tiles that move with them leave
of the contexts and of the waves (06 R113, R114; 22 R400-R402). -/
namespace Sys2Proof.Machine

theorem mem_sortBy {α : Type} {lt : α → α → Bool} {l : List α} {x : α} : x ∈ sortBy lt l ↔ x ∈ l := by
  have insert_mem (y : α) (acc : List α) :
      x ∈ acc.takeWhile (fun z => lt z y) ++ y :: acc.dropWhile (fun z => lt z y) ↔ x = y ∨ x ∈ acc := by
    conv_rhs => rw [← List.takeWhile_append_dropWhile (p := fun z => lt z y) (l := acc)]
    simp only [List.mem_append, List.mem_cons]
    tauto
  have fold_mem (l acc : List α) : x ∈ l.foldl (fun acc y =>
      acc.takeWhile (fun z => lt z y) ++ y :: acc.dropWhile (fun z => lt z y)) acc ↔ x ∈ l ∨ x ∈ acc := by
    induction l generalizing acc with
    | nil => simp
    | cons y l ih => rw [List.foldl_cons, ih, insert_mem, List.mem_cons]; tauto
  rw [sortBy, fold_mem]
  simp

/-! Contexts rewritten one by one. -/

/-- The contexts of a core are those of another, rewritten one by one; each stays its region's. -/
structure MapsCtxs (g : Context → Context) (k k' : Core) : Prop where
  ctxs : k'.ctxs = k.ctxs.map g
  region : ∀ x, (g x).region = x.region

theorem MapsCtxs.trans {g h : Context → Context} {a b c : Core} (hg : MapsCtxs g a b) (hh : MapsCtxs h b c) : MapsCtxs (h ∘ g) a c :=
  ⟨by rw [hh.ctxs, hg.ctxs, List.map_map], fun x => (hh.region (g x)).trans (hg.region x)⟩

theorem MapsCtxs.ctxOf {g : Context → Context} {k k' : Core} (h : MapsCtxs g k k') (rgn : Rgn) :
    ctxOf k' rgn = (ctxOf k rgn).map g := by
  simp [Machine.ctxOf, h.ctxs, List.find?_map, h.region]

theorem MapsCtxs.mem {g : Context → Context} {k k' : Core} (h : MapsCtxs g k k') {c : Context} (hc : c ∈ k.ctxs) : g c ∈ k'.ctxs := by
  rw [h.ctxs]
  exact List.mem_map_of_mem hc

theorem ctxOf_some {k : Core} {rgn : Rgn} {c : Context} (h : ctxOf k rgn = some c) : c ∈ k.ctxs ∧ c.region = rgn :=
  ⟨List.mem_of_find?_eq_some h, by simpa using List.find?_some h⟩

theorem exists_ctxOf {k : Core} {c : Context} (h : c ∈ k.ctxs) : ∃ c', ctxOf k c.region = some c' :=
  Option.isSome_iff_exists.mp (List.find?_isSome.mpr ⟨c, h, by simp⟩)

theorem activeCtx_some {k : Core} {a : Context} (h : activeCtx k = some a) : a ∈ k.ctxs ∧ a.place = .active :=
  ⟨List.mem_of_find?_eq_some h, by simpa using List.find?_some h⟩

/-- A context as an update of one region's contexts leaves it. -/
def inRegion (rgn : Rgn) (h : Context → Context) (c : Context) : Context := if c.region = rgn then h c else c

theorem inRegion_of_eq {rgn : Rgn} (h : Context → Context) {c : Context} (hc : c.region = rgn) : inRegion rgn h c = h c := if_pos hc

theorem inRegion_of_ne {rgn : Rgn} (h : Context → Context) {c : Context} (hc : c.region ≠ rgn) : inRegion rgn h c = c := if_neg hc

theorem updCtx_ctxs (k : Core) (rgn : Rgn) (h : Context → Context) : (updCtx k rgn h).ctxs = k.ctxs.map (inRegion rgn h) := by
  simp [updCtx, updateWhere, inRegion]

theorem updCtx_maps (k : Core) (rgn : Rgn) {h : Context → Context} (hr : ∀ x, (h x).region = x.region) :
    MapsCtxs (inRegion rgn h) k (updCtx k rgn h) := by
  refine ⟨updCtx_ctxs .., fun x => ?_⟩
  unfold inRegion
  split
  · exact hr x
  · rfl

/-- Only the blocks and the saved banks of contexts change, and no wave. -/
structure KeepsSeats (k k' : Core) : Prop where
  waves : k'.waves = k.waves
  ctxs : ∃ g, MapsCtxs g k k' ∧ ∀ x, g x = { x with blocks := (g x).blocks, savedBanks := (g x).savedBanks }

theorem KeepsSeats.of_map {k k' : Core} {g : Context → Context} (hw : k'.waves = k.waves) (hc : k'.ctxs = k.ctxs.map g)
    (hg : ∀ x, g x = { x with blocks := (g x).blocks, savedBanks := (g x).savedBanks }) : KeepsSeats k k' :=
  ⟨hw, g, ⟨hc, fun x => by rw [hg]⟩, hg⟩

theorem KeepsSeats.of_eq {k k' : Core} (hw : k'.waves = k.waves) (hc : k'.ctxs = k.ctxs) : KeepsSeats k k' :=
  .of_map (g := id) hw (by rw [hc, List.map_id]) (fun _ => rfl)

theorem KeepsSeats.refl (k : Core) : KeepsSeats k k := .of_eq rfl rfl

theorem KeepsSeats.trans {a b c : Core} (h : KeepsSeats a b) (h' : KeepsSeats b c) : KeepsSeats a c := by
  obtain ⟨hw, g, hg, eg⟩ := h
  obtain ⟨hw', g', hg', eg'⟩ := h'
  refine ⟨hw'.trans hw, g' ∘ g, hg.trans hg', fun x => ?_⟩
  rw [Function.comp_apply, eg', eg]

theorem KeepsSeats.foldl {α : Type} {f : Core → α → Core} (hf : ∀ k x, KeepsSeats k (f k x)) (l : List α) (k : Core) :
    KeepsSeats k (l.foldl f k) := by
  induction l generalizing k with
  | nil => exact .refl k
  | cons x l ih => exact (hf k x).trans (ih (f k x))

theorem KeepsSeats.foldlM {α : Type} {f : Core → α → Option Core} (hf : ∀ {k x k'}, f k x = some k' → KeepsSeats k k')
    {l : List α} {k k' : Core} (h : l.foldlM f k = some k') : KeepsSeats k k' := by
  induction l generalizing k with
  | nil => cases h; exact .refl _
  | cons x l ih =>
    obtain ⟨m, hm, hl⟩ := Option.bind_eq_some_iff.mp h
    exact (hf hm).trans (ih hl)

theorem moveWindows_keepsSeats (k : Core) (ms : List Move) : KeepsSeats k (moveWindows k ms) :=
  .of_map rfl rfl (fun _ => rfl)

theorem carryWindows_keepsSeats (k : Core) (ms : List Move) : KeepsSeats k (carryWindows k ms) := by
  refine .trans ?_ (moveWindows_keepsSeats _ ms)
  exact .of_eq rfl rfl

theorem makeRoom_keepsSeats (k : Core) (ms : List Move) : KeepsSeats k (makeRoom k ms) := by
  unfold makeRoom
  split
  · exact .refl k
  · exact .trans (.trans (.of_eq rfl rfl) (moveWindows_keepsSeats _ ms)) (.of_map rfl rfl (fun _ => rfl))

theorem moveTiles_keepsSeats (ts : List (Nat × Nat)) (k : Core) :
    KeepsSeats k (ts.foldl (fun k t => moveTile k t.1 t.2) k) :=
  .foldl (f := fun k t => moveTile k t.1 t.2) (fun _ _ => .of_eq rfl rfl) ts k

theorem l1Take_keepsSeats (k : Core) : KeepsSeats k (l1Take k) := .of_map rfl rfl (fun _ => rfl)

theorem startRamp_keepsSeats (k : Core) (cyc : Nat) : KeepsSeats k (startRamp k cyc) := .of_eq rfl rfl

/-! Entering and leaving (06 R113, R114). -/

/-- A context as it becomes active. -/
def activated (c : Context) : Context := { c with place := .active, idle := 0, quantum := 0, wanted := false, savedBanks := [] }

theorem updateFloor_frame (k : Core) : updateFloor k = { k with floor := (updateFloor k).floor, interval := (updateFloor k).interval } := by
  unfold updateFloor
  dsimp only
  split <;> rfl

@[simp] theorem updateFloor_ctxs (k : Core) : (updateFloor k).ctxs = k.ctxs := by rw [updateFloor_frame]
@[simp] theorem updateFloor_waves (k : Core) : (updateFloor k).waves = k.waves := by rw [updateFloor_frame]

theorem enterActive_frame (k : Core) (rgn : Rgn) : enterActive k rgn =
    { k with ctxs := (updCtx k rgn activated).ctxs, banks := (enterActive k rgn).banks, floor := (enterActive k rgn).floor,
             interval := (enterActive k rgn).interval } := by
  unfold enterActive
  dsimp only
  rw [updateFloor_frame]
  rfl

theorem enterActive_ctxs (k : Core) (rgn : Rgn) : (enterActive k rgn).ctxs = k.ctxs.map (inRegion rgn activated) := by
  rw [enterActive_frame, updCtx_ctxs]

@[simp] theorem enterActive_waves (k : Core) (rgn : Rgn) : (enterActive k rgn).waves = k.waves := by rw [enterActive_frame]

theorem enterActive_maps (k : Core) (rgn : Rgn) : MapsCtxs (inRegion rgn activated) k (enterActive k rgn) :=
  ⟨enterActive_ctxs k rgn, (updCtx_maps k rgn (h := activated) (fun _ => rfl)).region⟩

/-- Where no context is active, those of the region that enters alone become so. -/
theorem place_enterActive {k : Core} {rgn : Rgn} (h : ∀ x ∈ k.ctxs, x.place ≠ .active) {y : Context}
    (hy : y ∈ (enterActive k rgn).ctxs) : y.place = .active ↔ y.region = rgn := by
  rw [enterActive_ctxs] at hy
  obtain ⟨x, hx, rfl⟩ := List.mem_map.mp hy
  by_cases hr : x.region = rgn
  · simp [inRegion_of_eq _ hr, activated, hr]
  · simp [inRegion_of_ne _ hr, h x hx, hr]

theorem activeCtx_enterActive {k : Core} {c : Context} (h : ∀ x ∈ k.ctxs, x.place ≠ .active) (hc : c ∈ k.ctxs) :
    ∃ c', activeCtx (enterActive k c.region) = some c' ∧ c'.region = c.region := by
  have hin : activated c ∈ (enterActive k c.region).ctxs := by
    rw [enterActive_ctxs]
    exact List.mem_map.mpr ⟨c, hc, inRegion_of_eq _ rfl⟩
  obtain ⟨c', hc'⟩ := Option.isSome_iff_exists.mp (List.find?_isSome.mpr ⟨_, hin, by simp [activated]⟩ :
    (activeCtx (enterActive k c.region)).isSome = true)
  obtain ⟨hm, hp⟩ := activeCtx_some hc'
  exact ⟨c', hc', (place_enterActive h hm).mp hp⟩

/-- A context as it becomes a shadow, with the core's banks. -/
def shadowed (banks : KMap Bank) (c : Context) : Context := { c with place := .shadow, savedBanks := banks }

/-- A wave as the active context of a region leaves it. -/
def leftWave (k : Core) (rgn : Rgn) (w : Wave) : Wave := if (getWg k w.wg).map (·.region) = some rgn then switchedWave w else w

theorem leaveActive_eq {k : Core} {a : Context} (h : activeCtx k = some a) : leaveActive k =
    { k with ctxs := (updCtx k a.region (shadowed k.banks)).ctxs, banks := []
             waves := k.waves.map (fun sw => (sw.1, sw.2.map (leftWave k a.region))) } := by
  simp only [leaveActive, h]
  rfl

theorem leaveActive_ctxs {k : Core} {a : Context} (h : activeCtx k = some a) :
    (leaveActive k).ctxs = k.ctxs.map (inRegion a.region (shadowed k.banks)) := by
  rw [leaveActive_eq h, updCtx_ctxs]

theorem leaveActive_inactive {k : Core} {a : Context} (h : activeCtx k = some a)
    (hall : ∀ x ∈ k.ctxs, x.place = .active → x.region = a.region) : ∀ y ∈ (leaveActive k).ctxs, y.place ≠ .active := by
  rw [leaveActive_ctxs h]
  intro y hy
  obtain ⟨x, hx, rfl⟩ := List.mem_map.mp hy
  by_cases hr : x.region = a.region
  · simp [inRegion_of_eq _ hr, shadowed]
  · rw [inRegion_of_ne _ hr]
    exact fun hp => hr (hall x hx hp)

theorem kget_map_option {α : Type} (g : α → α) (m : KMap (Option α)) (i : Nat) :
    kget none (m.map (fun e => (e.1, e.2.map g))) i = (kget none m i).map g := by
  induction m with
  | nil => rfl
  | cons e m ih =>
    simp only [List.map_cons, kget, ih]
    split <;> rfl

theorem getWave_leaveActive {k : Core} {a : Context} (h : activeCtx k = some a) (i : Nat) :
    getWave (leaveActive k) i = (getWave k i).map (leftWave k a.region) := by
  rw [leaveActive_eq h]
  exact kget_map_option ..

/-- The switch of R113 between two resident contexts. -/
theorem switches_enterActive_leaveActive {k : Core} {a c : Context} (h : activeCtx k = some a)
    (hall : ∀ x ∈ k.ctxs, x.place = .active → x.region = a.region) : Switches k (enterActive (leaveActive k) c.region) a c := by
  refine ⟨fun y hy => place_enterActive (leaveActive_inactive h hall) hy, ?_, ?_, fun i => ?_⟩
  · have hmaps := (updCtx_maps k a.region (h := shadowed k.banks) (fun _ => rfl)).region
    rw [enterActive_ctxs, leaveActive_ctxs h, List.map_map, List.map_map]
    exact List.map_congr_left fun x _ => ((enterActive_maps k c.region).region _).trans (hmaps x)
  · rw [enterActive_frame, leaveActive_eq h]
  · rw [getWave, enterActive_waves]
    exact getWave_leaveActive h i

/-! Electing (22 R400). -/

theorem OnlyCore.setCore {s t : State} {core : Nat} (h : OnlyCore s t core) (k : Core) : OnlyCore s (setCore t core k) core := by
  obtain ⟨ht, hj⟩ := h
  refine ⟨?_, fun j hne => (getCore_setCore_ne t k hne).trans (hj j hne)⟩
  rw [ht]
  rfl

theorem OnlyCore.refl (s : State) (core : Nat) : OnlyCore s s core := ⟨rfl, fun _ _ => rfl⟩

theorem topOf_mem {s : State} {l : List Context} {c : Context} (h : topOf s l = some c) : c ∈ l := List.mem_of_find?_eq_some h

/-- A core with an active context stays; otherwise an idle one enters, or FLOOR alone follows. -/
theorem electActive_cases (s : State) (core : Nat) : electActive s core = s ∨
    electActive s core = setCore s core (updateFloor (getCore s core)) ∨
    ∃ c ∈ (getCore s core).ctxs, c.idles = true ∧ electActive s core = setCore s core (enterActive (getCore s core) c.region) := by
  unfold electActive
  dsimp only
  split
  · exact .inl rfl
  · split
    next c hc =>
      have hl : c ∈ (getCore s core).ctxs.filter Context.idles := by
        rcases (Option.orElse_eq_some ..).mp hc with h | ⟨-, h⟩
        · exact mem_sortBy.mp (List.mem_of_mem_filter (topOf_mem h))
        · exact mem_sortBy.mp (topOf_mem h)
      obtain ⟨hm, hi⟩ := List.mem_filter.mp hl
      exact .inr (.inr ⟨c, hm, hi, rfl⟩)
    · exact .inr (.inl rfl)

theorem OnlyCore.electActive {s t : State} {core : Nat} (h : OnlyCore s t core) : OnlyCore s (electActive t core) core := by
  obtain e | e | ⟨_, _, _, e⟩ := electActive_cases t core <;> rw [e]
  · exact h
  · exact h.setCore _
  · exact h.setCore _

theorem electActive_waves (s : State) (core : Nat) : (getCore (electActive s core) core).waves = (getCore s core).waves := by
  obtain e | e | ⟨_, _, _, e⟩ := electActive_cases s core <;> rw [e] <;> simp

/-- A region's context stays as it is, or becomes active where one of its region is idle. -/
theorem ctxOf_electActive (s : State) (core : Nat) (rgn : Rgn) :
    ctxOf (getCore (electActive s core) core) rgn = ctxOf (getCore s core) rgn ∨
    (∃ x ∈ (getCore s core).ctxs, x.region = rgn ∧ x.idles = true) ∧
      ctxOf (getCore (electActive s core) core) rgn = (ctxOf (getCore s core) rgn).map activated := by
  obtain e | e | ⟨c, hc, hi, e⟩ := electActive_cases s core <;> rw [e]
  · exact .inl rfl
  · left
    simp [ctxOf]
  · rw [getCore_setCore_self, (enterActive_maps (getCore s core) c.region).ctxOf]
    by_cases hr : rgn = c.region
    · right
      refine ⟨⟨c, hc, hr.symm, hi⟩, Option.map_congr fun x hx => inRegion_of_eq _ ((ctxOf_some hx).2.trans hr)⟩
    · left
      refine (Option.map_congr fun x hx => ?_).trans Option.map_id_apply
      exact inRegion_of_ne _ (fun h => hr ((ctxOf_some hx).2.symm.trans h))

end Sys2Proof.Machine
end

section
/-! PROOFS. Contexts that stream out of a core and back (06 R113; 22 R401-R403). -/
namespace Sys2Proof.Machine

/-! Out (R113). -/

/-- The context of a region gets a save area where it has none and frames are found; nothing else changes on its core. -/
theorem allotSave_core {s : State} {core : Nat} {rgn : Rgn} {c : Context} (h : ctxOf (getCore s core) rgn = some c) :
    ∃ g, getCore (allotSave s core rgn) core = { getCore s core with ctxs := (getCore s core).ctxs.map g } ∧
      (∀ x, g x = { x with saveArea := (g x).saveArea }) ∧ (∀ x, x.saveArea.isSome = true → (g x).saveArea.isSome = true) ∧
      (c.saveArea.isSome = true ∨ (nextFrames s 0 saveFrames).isSome = true → (g c).saveArea.isSome = true) := by
  unfold allotSave
  simp only [h]
  split
  next ha => exact ⟨id, by simp, fun _ => rfl, fun _ h => h, fun _ => ha⟩
  next ha =>
    split
    next hf =>
      refine ⟨id, by simp, fun _ => rfl, fun _ h => h, fun hor => ?_⟩
      have hzero := List.findSome?_eq_none_iff.mp hf 0 (by simp)
      rw [Option.map_eq_none_iff] at hzero
      simp [hzero, ha] at hor
    next die n _ =>
      refine ⟨_, (getCore_setCore_self ..).trans rfl, fun x => ?_, fun x hx => ?_, fun _ => ?_⟩
      · dsimp only
        split <;> rfl
      · dsimp only
        split
        · rfl
        · exact hx
      · simp [(ctxOf_some h).2]

theorem allotSave_frame (s : State) (core : Nat) (rgn : Rgn) :
    OnlyCore { s with nextFrame := (allotSave s core rgn).nextFrame } (allotSave s core rgn) core := by
  unfold allotSave
  split
  · split
    · exact .refl s core
    · split
      · exact .refl s core
      next n _ => exact (OnlyCore.refl { s with nextFrame := n + saveFrames } core).setCore _
  · exact .refl s core

/-- A context as its waves and workgroups leave it for its save area. -/
def streamed (ws : List (Nat × Wave)) (wgs : List (Nat × Workgroup)) (c : Context) : Context :=
  { c with place := .streamed, savedWaves := c.savedWaves ++ ws, savedWgs := c.savedWgs ++ wgs }

/-- What of a region stands on a core leaves it: its contexts are out with its waves, and other contexts stay in place. -/
structure StreamsOut (rgn : Rgn) (k k' : Core) (g : Context → Context) : Prop where
  maps : MapsCtxs g k k'
  others : ∀ x, x.region ≠ rgn → (g x).place = x.place
  out : ∀ x, x.region = rgn → (g x).place = .streamed
  area : ∀ x, x.saveArea.isSome = true → (g x).saveArea.isSome = true
  saved : ∀ x, x.region = rgn → (g x).savedWaves = x.savedWaves ++ (ctxWaves k rgn).map (fun y => (y.1, switchedWave y.2))
  waves : ∀ x ∈ ctxWaves k rgn, getWave k' x.1 = none

/-- Where only the region that leaves was active, no context is left active. -/
theorem StreamsOut.inactive {rgn : Rgn} {k k' : Core} {g : Context → Context} (h : StreamsOut rgn k k' g)
    (hall : ∀ x ∈ k.ctxs, x.place = .active → x.region = rgn) : ∀ y ∈ k'.ctxs, y.place ≠ .active := by
  rw [h.maps.ctxs]
  intro y hy
  obtain ⟨x, hx, rfl⟩ := List.mem_map.mp hy
  by_cases hr : x.region = rgn
  · simp [h.out x hr]
  · rw [h.others x hr]
    exact fun hp => hr (hall x hx hp)

/-- A save area given first changes nothing of what then leaves. -/
theorem StreamsOut.after_allot {rgn : Rgn} {k k' : Core} {g h : Context → Context} (hh : ∀ x, h x = { x with saveArea := (h x).saveArea })
    (ha : ∀ x, x.saveArea.isSome = true → (h x).saveArea.isSome = true)
    (hs : StreamsOut rgn { k with ctxs := k.ctxs.map h } k' g) : StreamsOut rgn k k' (g ∘ h) := by
  have hreg (x : Context) : (h x).region = x.region := by rw [hh]
  refine ⟨.trans ⟨rfl, hreg⟩ hs.maps, fun x hx => ?_, fun x hx => hs.out _ ((hreg x).trans hx), fun x hx => hs.area _ (ha x hx),
    fun x hx => ?_, hs.waves⟩
  · rw [Function.comp_apply, hs.others _ ((hreg x).trans_ne hx), hh]
  · rw [Function.comp_apply, hs.saved _ ((hreg x).trans hx), hh]
    rfl

/-- Windows and tiles move first; then contexts and waves go. -/
theorem streamsOut_of_seats {k k1 k2 k' : Core} {rgn : Rgn} {wgs : List (Nat × Workgroup)} (h1 : KeepsSeats k k1)
    (hctxs : k2.ctxs = (updCtx k1 rgn (streamed ((ctxWaves k rgn).map (fun y => (y.1, switchedWave y.2))) wgs)).ctxs)
    (hwaves : k2.waves = ((ctxWaves k rgn).map (fun y => (y.1, switchedWave y.2))).foldl (fun m x => kset none m x.1 none) k1.waves)
    (h2 : KeepsSeats k2 k') : ∃ g, StreamsOut rgn k k' g := by
  obtain ⟨-, g1, hg1, e1⟩ := h1
  obtain ⟨hw2, g2, hg2, e2⟩ := h2
  have hmid : MapsCtxs _ k1 k2 := ⟨hctxs.trans (updCtx_ctxs ..), (updCtx_maps k1 rgn (h := streamed _ _) (fun _ => rfl)).region⟩
  refine ⟨_, (hg1.trans hmid).trans hg2, fun x hx => ?_, fun x hx => ?_, fun x hx => ?_, fun x hx => ?_, fun x hx => ?_⟩
  · rw [Function.comp_apply, Function.comp_apply, e2, inRegion_of_ne _ ((hg1.region x).trans_ne hx), e1]
  · rw [Function.comp_apply, Function.comp_apply, e2, inRegion_of_eq _ ((hg1.region x).trans hx)]
    rfl
  · rw [Function.comp_apply, Function.comp_apply, e2, e1]
    unfold inRegion
    split
    · exact hx
    · exact hx
  · rw [Function.comp_apply, Function.comp_apply, e2, inRegion_of_eq _ ((hg1.region x).trans hx), e1]
    rfl
  · rw [getWave, hw2, hwaves, List.foldl_map]
    exact foldl_kset_in none (fun y : Nat × Wave => y.1) (fun _ => none) (fun _ _ _ => rfl) _ _ x hx

theorem leaveCore_after_allot {s : State} {core : Nat} {rgn : Rgn} {c : Context}
    (h : ctxOf (getCore (allotSave s core rgn) core) rgn = some c) : ∃ k', leaveCore s core rgn = setCore (allotSave s core rgn) core k' ∧
      ∃ g, StreamsOut rgn (getCore (allotSave s core rgn) core) k' g := by
  unfold leaveCore
  simp only [h]
  refine ⟨_, rfl, ?_⟩
  refine streamsOut_of_seats (k1 := ?k1) (wgs := ?wgs) ?moves ?ctxs ?waves (.trans (l1Take_keepsSeats _) (startRamp_keepsSeats _ _))
  case ctxs => rfl
  case waves => rfl
  refine .trans (.trans ?banks (carryWindows_keepsSeats _ _)) (.foldl (fun k g => moveTiles_keepsSeats _ k) _ _)
  refine ⟨rfl, _, updCtx_maps _ _ (fun _ => rfl), fun x => ?_⟩
  unfold inRegion
  split <;> rfl

/-- A region leaves a core; its context then has a save area where it had one or frames are found. -/
theorem leaveCore_streams {s : State} {core : Nat} {rgn : Rgn} {c : Context} (h : ctxOf (getCore s core) rgn = some c) :
    ∃ g, StreamsOut rgn (getCore s core) (getCore (leaveCore s core rgn) core) g ∧
      (c.saveArea.isSome = true ∨ (nextFrames s 0 saveFrames).isSome = true → (g c).saveArea.isSome = true) := by
  obtain ⟨a, hcore, ha, hkeeps, harea⟩ := allotSave_core h
  have hreg (x : Context) : (a x).region = x.region := by rw [ha]
  have hctx : ctxOf (getCore (allotSave s core rgn) core) rgn = some (a c) := by
    rw [MapsCtxs.ctxOf (g := a) (k := getCore s core) ⟨by rw [hcore], hreg⟩, h]
    rfl
  obtain ⟨k', hk', g, hg⟩ := leaveCore_after_allot hctx
  rw [hcore] at hg
  refine ⟨g ∘ a, ?_, fun hor => hg.area _ (harea hor)⟩
  rw [hk', getCore_setCore_self]
  exact hg.after_allot ha hkeeps

theorem leaveCore_frame (s : State) (core : Nat) (rgn : Rgn) :
    OnlyCore { s with nextFrame := (leaveCore s core rgn).nextFrame } (leaveCore s core rgn) core := by
  cases h : ctxOf (getCore (allotSave s core rgn) core) rgn with
  | none =>
    have hs : leaveCore s core rgn = s := by simp only [leaveCore, h]
    rw [hs]
    exact .refl s core
  | some c =>
    obtain ⟨k', hk', -⟩ := leaveCore_after_allot h
    rw [hk']
    exact (allotSave_frame s core rgn).setCore k'

/-- No context that is out is elected. -/
theorem StreamsOut.ctxOf_elected {s t : State} {core : Nat} {rgn : Rgn} {g : Context → Context}
    (h : StreamsOut rgn (getCore s core) (getCore t core) g) :
    ctxOf (getCore (electActive t core) core) rgn = (ctxOf (getCore s core) rgn).map g := by
  obtain he | ⟨⟨x, hx, hr, hi⟩, -⟩ := ctxOf_electActive t core rgn
  · rw [he, h.maps.ctxOf]
  · rw [h.maps.ctxs] at hx
    obtain ⟨y, -, rfl⟩ := List.mem_map.mp hx
    have hout := h.out y ((h.maps.region y).symm.trans hr)
    simp [Context.idles, hout] at hi

theorem streamOut_eq {s : State} {core : Nat} {rgn : Rgn} {c : Context} (h : ctxOf (getCore s core) rgn = some c) :
    streamOut s core rgn = electActive (leaveCore s core rgn) core := by
  simp [streamOut, h]

theorem nextFrame_electActive (s : State) (core : Nat) : (electActive s core).nextFrame = s.nextFrame := by
  obtain e | e | ⟨_, _, _, e⟩ := electActive_cases s core <;> rw [e] <;> rfl

theorem streamOut_frame {s : State} {core : Nat} {rgn : Rgn} {c : Context} (h : ctxOf (getCore s core) rgn = some c) :
    OnlyCore { s with nextFrame := (streamOut s core rgn).nextFrame } (streamOut s core rgn) core := by
  rw [streamOut_eq h, nextFrame_electActive]
  exact (leaveCore_frame s core rgn).electActive

/-- The context of a region after it has streamed out (R113). -/
theorem streamOut_ctx {s : State} {core : Nat} {rgn : Rgn} {c : Context} (h : ctxOf (getCore s core) rgn = some c) :
    ∃ c', ctxOf (getCore (streamOut s core rgn) core) rgn = some c' ∧ c'.place = .streamed ∧
      (c.saveArea.isSome = true ∨ (nextFrames s 0 saveFrames).isSome = true → c'.saveArea.isSome = true) ∧
      c'.savedWaves = c.savedWaves ++ (ctxWaves (getCore s core) rgn).map (fun x => (x.1, switchedWave x.2)) ∧
      ∀ x ∈ ctxWaves (getCore s core) rgn, getWave (getCore (streamOut s core rgn) core) x.1 = none := by
  obtain ⟨g, hg, harea⟩ := leaveCore_streams h
  have hr := (ctxOf_some h).2
  rw [streamOut_eq h]
  refine ⟨g c, by rw [hg.ctxOf_elected, h]; rfl, hg.out c hr, harea, hg.saved c hr, fun x hx => ?_⟩
  rw [getWave, electActive_waves]
  exact hg.waves x hx

/-! Back (R402). -/

theorem returnWg_keepsSeats {k k' : Core} {g : Nat × Workgroup} (h : returnWg k g = some k') : KeepsSeats k k' := by
  unfold returnWg at h
  split at h
  · cases h
  next ms base _ =>
    cases h
    refine .trans (b := ?back) ?moves (.of_map (k := ?back) (g := ?blocks) ?waves ?ctxs fun x => ?_)
    case ctxs => rfl
    case waves => rfl
    case moves => exact .trans (.trans (makeRoom_keepsSeats k ms) (carryWindows_keepsSeats _ _)) (moveTiles_keepsSeats _ _)
    split <;> rfl

/-- A context as it stands on its core again. -/
def seated (c : Context) : Context :=
  { c with place := if c.place = .streamed then idlePlace c.fast else c.place, savedWaves := [], savedWgs := [] }

theorem seated_place (c : Context) : (seated c).place ≠ .streamed := by
  unfold seated idlePlace
  dsimp only
  split
  · split <;> decide
  · assumption

/-- The core to which a context comes back, before one is elected and FLOOR follows. -/
theorem streamIn_steps {s u : State} {core : Nat} {c : Context} (h : streamIn s core c = some u) :
    ∃ k1 k2, u = setCore (electActive (setCore s core k2) core) core (updateFloor (getCore (electActive (setCore s core k2) core) core)) ∧
      KeepsSeats (getCore s core) k1 ∧ k2.ctxs = (updCtx k1 c.region seated).ctxs ∧
      k2.waves = c.savedWaves.foldl (fun m x => kset none m x.1 (some x.2)) k1.waves := by
  unfold streamIn at h
  dsimp only at h
  split at h
  · cases h
  · split at h
    · cases h
    next k1 hk1 =>
      cases h
      exact ⟨k1, _, rfl, KeepsSeats.foldlM returnWg_keepsSeats hk1, rfl, rfl⟩

theorem streamIn_frame {s u : State} {core : Nat} {c : Context} (h : streamIn s core c = some u) : OnlyCore s u core := by
  obtain ⟨k1, k2, rfl, -, -, -⟩ := streamIn_steps h
  exact (((OnlyCore.refl s core).setCore k2).electActive).setCore _

/-- Entries of distinct keys, written one after another. -/
theorem kget_foldl_kset_nodup {α β : Type} [DecidableEq β] (d : β) (val : α → β) {l : List (Nat × α)} (hl : (l.map (·.1)).Nodup)
    (m : KMap β) {x : Nat × α} (hx : x ∈ l) : kget d (l.foldl (fun m y => kset d m y.1 (val y.2)) m) x.1 = val x.2 := by
  induction l generalizing m with
  | nil => cases hx
  | cons y l ih =>
    rw [List.map_cons, List.nodup_cons] at hl
    rcases List.mem_cons.mp hx with rfl | hx
    · have hother : ∀ z ∈ l, z.1 ≠ x.1 := fun z hz e => hl.1 (e ▸ List.mem_map_of_mem hz)
      exact (foldl_kset_in.foldl_kset_out d (·.1) (fun z : Nat × α => val z.2) l _ x.1 hother).trans (kget_kset_self ..)
    · exact ih hl.2 _ hx

theorem streamIn_waves {s u : State} {core : Nat} {c : Context} (h : streamIn s core c = some u)
    (hn : (c.savedWaves.map (·.1)).Nodup) {x : Nat × Wave} (hx : x ∈ c.savedWaves) : getWave (getCore u core) x.1 = some x.2 := by
  obtain ⟨k1, k2, rfl, -, -, hw⟩ := streamIn_steps h
  rw [getCore_setCore_self, getWave, updateFloor_waves, electActive_waves, getCore_setCore_self, hw]
  exact kget_foldl_kset_nodup none some hn _ hx

/-- The context of a region after it has come back. -/
theorem streamIn_ctx {s u : State} {core : Nat} {c x : Context} (h : streamIn s core c = some u)
    (hx : ctxOf (getCore s core) c.region = some x) :
    ∃ c', ctxOf (getCore u core) c.region = some c' ∧ c'.place ≠ .streamed ∧ c'.savedWaves = [] ∧ c'.savedWgs = [] := by
  obtain ⟨k1, k2, rfl, hk, hctxs, -⟩ := streamIn_steps h
  obtain ⟨-, g, hg, -⟩ := hk
  have hmaps : MapsCtxs _ k1 k2 := ⟨hctxs.trans (updCtx_ctxs ..), (updCtx_maps k1 c.region (h := seated) (fun _ => rfl)).region⟩
  have hseat : ctxOf k2 c.region = some (seated (g x)) := by
    rw [(hg.trans hmaps).ctxOf, hx, Option.map_some, Function.comp_apply,
      inRegion_of_eq _ ((hg.region x).trans (ctxOf_some hx).2)]
  have hfloor (k : Core) : ctxOf (updateFloor k) c.region = ctxOf k c.region := by simp only [ctxOf, updateFloor_ctxs]
  rw [getCore_setCore_self, hfloor]
  obtain he | ⟨-, he⟩ := ctxOf_electActive (setCore s core k2) core c.region
  · exact ⟨_, by rw [he, getCore_setCore_self, hseat], seated_place _, rfl, rfl⟩
  · exact ⟨_, by rw [he, getCore_setCore_self, hseat, Option.map_some], by simp [activated], rfl, rfl⟩

end Sys2Proof.Machine
end

section
/-! PROOFS. The events that switch, pre-empt and return contexts (22 R400-R403). -/
namespace Sys2Proof.Machine

/-! Switches (R400). -/

theorem mem_of_mem_rotateFrom {k : Core} {order : Nat} {c : Context} (h : c ∈ rotateFrom k order) : c ∈ k.ctxs := by
  have hidle : c ∈ sortBy (fun a b => decide (a.order < b.order)) (k.ctxs.filter Context.idles) := by
    rcases List.mem_append.mp h with h | h
    · exact List.mem_of_mem_filter h
    · exact List.mem_of_mem_filter h
  exact List.mem_of_mem_filter (mem_sortBy.mp hidle)

theorem mem_ctxs_of_topOf {s : State} {k : Core} {order : Nat} {p : Context → Bool} {c : Context}
    (h : topOf s ((rotateFrom k order).filter p) = some c) : c ∈ k.ctxs :=
  mem_of_mem_rotateFrom (List.mem_of_mem_filter (topOf_mem h))

section
variable {s : State} {core : Nat} {a c : Context}

theorem exec_contextPrioritySwitch (ha : activeCtx (getCore s core) = some a)
    (hc : topOf s ((rotateFrom (getCore s core) a.order).filter
      (fun x => decide (prioOf s a.region < prioOf s x.region) && ctxReady s core x.region)) = some c) :
    exec (.contextPrioritySwitch core) s = .next (switchTo s core a c.region) := by
  show execContextPrioritySwitch core s = _
  simp only [execContextPrioritySwitch, ha, hc]

theorem exec_contextIdleSwitch (ha : activeCtx (getCore s core) = some a) (hidle : 512 ≤ a.idle)
    (hc : topOf s ((rotateFrom (getCore s core) a.order).filter (fun x => ctxReady s core x.region)) = some c) :
    exec (.contextIdleSwitch core) s = .next (switchTo s core a c.region) := by
  show execContextIdleSwitch core s = _
  simp only [execContextIdleSwitch, ha, hc, if_neg (Nat.not_lt.mpr hidle)]

theorem exec_contextQuantum (ha : activeCtx (getCore s core) = some a) (hq : 65536 ≤ a.quantum) (hw : a.wanted = true)
    (hc : ((rotateFrom (getCore s core) a.order).filter (fun x => prioOf s x.region = prioOf s a.region)).head? = some c) :
    exec (.contextQuantum core) s = .next (switchTo s core a c.region) := by
  obtain ⟨l, hl⟩ := List.head?_eq_some_iff.mp hc
  show execContextQuantum core s = _
  simp [execContextQuantum, ha, hl, hw, Nat.not_lt.mpr hq]

theorem exec_contextQuantum_early (ha : activeCtx (getCore s core) = some a) (hq : a.quantum < 65536) :
    exec (.contextQuantum core) s = .next s := by
  show execContextQuantum core s = _
  simp only [execContextQuantum, ha, if_pos hq]

theorem switchTo_fast (rgn : Rgn) (hf : a.fast = true) (hp : atSwitchPoint (getCore s core) a.region = true) :
    switchTo s core a rgn = setCore s core (enterActive (leaveActive (getCore s core)) rgn) := by
  simp [switchTo, hf, hp]

/-- Before the point of R112 nothing happens, of either class. -/
theorem switchTo_early (rgn : Rgn) (hp : atSwitchPoint (getCore s core) a.region = false) : switchTo s core a rgn = s := by
  simp [switchTo, leaveReady, hp]

end

/-! Leaving launches (R403). -/

theorem markLeaving_frame (s : State) (wgs : List Workgroup) : markLeaving s wgs = { s with launches := (markLeaving s wgs).launches } :=
  foldl_rel (R := fun s t => t = { s with launches := t.launches }) (fun _ => rfl)
    (fun {a b c} hab hbc => by rw [hbc, hab]) (fun _ _ => rfl) (gridsOf s wgs) s

@[simp] theorem getCore_markLeaving (s : State) (wgs : List Workgroup) (n : Nat) : getCore (markLeaving s wgs) n = getCore s n := by
  rw [markLeaving_frame]
  rfl

/-- A context that is not of the fast-switch class streams out, and the other is active alone. -/
theorem switchTo_streams {s : State} {core : Nat} {a c : Context} (ha : activeCtx (getCore s core) = some a)
    (hall : ∀ x ∈ (getCore s core).ctxs, x.place = .active → x.region = a.region) (hc : c ∈ (getCore s core).ctxs)
    (hf : a.fast = false) (hready : leaveReady s a.region core = true) (hne : c.region ≠ a.region) :
    ∃ a' c', ctxOf (getCore (switchTo s core a c.region) core) a.region = some a' ∧ a'.place = .streamed ∧
      activeCtx (getCore (switchTo s core a c.region) core) = some c' ∧ c'.region = c.region := by
  obtain ⟨x, hx⟩ := exists_ctxOf (activeCtx_some ha).1
  have hx' : ctxOf (getCore (markLeaving s (wgsOfRgn (getCore s core) a.region)) core) a.region = some x := by simpa using hx
  obtain ⟨g, hg, -⟩ := leaveCore_streams hx'
  rw [getCore_markLeaving] at hg
  obtain ⟨c', hc', hcr⟩ := activeCtx_enterActive (hg.inactive hall) (hg.maps.mem hc)
  rw [hg.maps.region] at hc' hcr
  refine ⟨g x, c', ?_, hg.out x (ctxOf_some hx).2, ?_, hcr⟩
  · have hgx : (g x).region ≠ c.region := by rw [hg.maps.region, (ctxOf_some hx).2]; exact hne.symm
    simp [switchTo, hf, hready, (enterActive_maps _ c.region).ctxOf, hg.maps.ctxOf, hx, inRegion_of_ne _ hgx]
  · simpa [switchTo, hf, hready] using hc'

/-! Pre-emption (R401). -/

/-- The context of a region streams out, its grid-sync launches marked. -/
theorem streamOut_markLeaving {s : State} {core : Nat} {rgn : Rgn} {c : Context} (wgs : List Workgroup)
    (h : ctxOf (getCore s core) rgn = some c) :
    ∃ c', ctxOf (getCore (streamOut (markLeaving s wgs) core rgn) core) rgn = some c' ∧ c'.place = .streamed := by
  obtain ⟨c', hc', hp, -⟩ := streamOut_ctx (s := markLeaving s wgs) (by simpa using h)
  exact ⟨c', hc', hp⟩

theorem exec_preempt_leaving {s : State} {core : Nat} {rgn : Rgn}
    (h : (leavingCtxs s).find? (fun x => leaveReady s x.2 x.1) = some (core, rgn)) :
    exec .preempt s = .next (streamOut (markLeaving s (wgsOfRgn (getCore s core) rgn)) core rgn) := by
  show execPreempt s = _
  simp only [execPreempt, h]

theorem exec_preempt_victim {s : State} {r : Region} {core : Nat} {v : Context}
    (hleave : (leavingCtxs s).find? (fun x => leaveReady s x.2 x.1) = none)
    (hroom : (sortBy (fun a b => decide (b.budget.prio < a.budget.prio)) (s.regions.filter (waitsForRoom s))).findSome?
      (fun r => (preemptCore s r).map (fun n => (r, n))) = some (r, core))
    (hv : victim s core r.budget.prio = some v) : exec .preempt s = .next (pushAside s r core v) := by
  show execPreempt s = _
  simp only [execPreempt, hleave, hroom, hv]

theorem victim_mem {s : State} {core prio : Nat} {v : Context} (h : victim s core prio = some v) : v ∈ (getCore s core).ctxs :=
  List.mem_of_mem_filter (List.mem_of_mem_filter (mem_sortBy.mp (List.mem_of_mem_head? h)))

section
variable {s : State} {r : Region} {core : Nat} {v : Context}

theorem pushAside_shadow {u : State} (hf : v.fast = true) (hp : v.place = .active)
    (ht : tryPlace (setCore s core (leaveActive (getCore s core))) r = some u) :
    pushAside s r core v = if atSwitchPoint (getCore s core) v.region then u else s := by
  simp [pushAside, hf, hp, ht]

/-- Where no shadow makes the room, the context streams out at its point, and its launches are marked before. -/
theorem pushAside_streams (h : v.fast = false ∨ v.place ≠ .active ∨ tryPlace (setCore s core (leaveActive (getCore s core))) r = none) :
    pushAside s r core v =
      if leaveReady s v.region core then streamOut (markLeaving s (wgsOfRgn (getCore s core) v.region)) core v.region
      else markLeaving s (wgsOfRgn (getCore s core) v.region) := by
  have hnone : (if v.fast && v.place = .active then tryPlace (setCore s core (leaveActive (getCore s core))) r else none) = none := by
    rcases h with h | h | h <;> simp [h]
  simp only [pushAside, hnone]

end

/-! The return (R402, R403). -/

theorem exec_contextReturn {s u : State} {core : Nat} {c : Context} (hc : ctxOf (getCore s core) c.region = some c)
    (hout : c.savedWgs ≠ []) (hgrid : gridsOf s (c.savedWgs.map (·.2)) = [])
    (hbetter : betterWaits s core (prioOf s c.region) c.region = false) (hin : streamIn s core c = some u) :
    exec (.contextReturn core c.region.toNat) s = .next u := by
  show execContextReturn core c.region.toNat s = _
  simp [execContextReturn, BitVec.ofNat_toNat, hc, hgrid, hout, hbetter, returnAll, hin]

theorem exec_contextReturn_held {s : State} {core : Nat} {c : Context} {l : Launch} (hc : ctxOf (getCore s core) c.region = some c)
    (hgrid : gridsOf s (c.savedWgs.map (·.2)) ≠ []) (hl : l ∈ s.launches) (hleaving : l.leaving = true) (hended : l.ended = false)
    (hrgn : l.region = c.region) (hholds : coresHolding s l ≠ []) : exec (.contextReturn core c.region.toNat) s = .next s := by
  have hin : l ∈ s.launches.filter (fun l => l.leaving && !l.ended && l.region = c.region) := by
    simp [hl, hleaving, hended, hrgn]
  have hany : (s.launches.filter (fun l => l.leaving && !l.ended && l.region = c.region)).any
      (fun l => !(coresHolding s l).isEmpty) = true := List.any_eq_true.mpr ⟨l, hin, by simpa using hholds⟩
  show execContextReturn core c.region.toNat s = _
  simp only [execContextReturn, BitVec.ofNat_toNat, BitVec.setWidth_eq, hc, List.isEmpty_iff, hgrid, if_false, hany, Bool.or_true,
    Bool.true_or, if_true]

end Sys2Proof.Machine
end

section
/-! PROOFS. The obligation on contexts that share a core (06 R112-R114; 22 R400-R403). -/
open Sys2Proof Sys2Proof.Machine

/-- Settles O53: each event is its switch, its streaming or its return, and those map the core's contexts one by one. -/
theorem contextEvents : Obligations.ContextEvents := by
  unfold Obligations.ContextEvents
  refine ⟨?_, fun s core a ha hq => exec_contextQuantum_early ha hq, ?_, ?_, ?_, ?_, ?_⟩
  · intro s core a c e ha hall hdue
    have hmem : c ∈ (getCore s core).ctxs := by
      obtain ⟨-, htop⟩ | ⟨-, -, htop⟩ | ⟨-, -, -, hhead⟩ := hdue
      · exact mem_ctxs_of_topOf htop
      · exact mem_ctxs_of_topOf htop
      · exact mem_of_mem_rotateFrom (List.mem_of_mem_filter (List.mem_of_mem_head? hhead))
    have hexec : exec e s = .next (switchTo s core a c.region) := by
      obtain ⟨rfl, htop⟩ | ⟨rfl, hidle, htop⟩ | ⟨rfl, hq, hw, hhead⟩ := hdue
      · exact exec_contextPrioritySwitch ha htop
      · exact exec_contextIdleSwitch ha hidle htop
      · exact exec_contextQuantum ha hq hw hhead
    refine ⟨fun hf hp => ⟨_, hexec, ?_⟩, fun hp => ?_, fun hf hready hne => ?_⟩
    · rw [switchTo_fast _ hf hp, getCore_setCore_self]
      exact ⟨(OnlyCore.refl s core).setCore _, switches_enterActive_leaveActive ha hall⟩
    · rw [hexec, switchTo_early _ hp]
    · obtain ⟨a', c', h⟩ := switchTo_streams ha hall hmem hf hready hne
      exact ⟨_, a', c', hexec, h⟩
  · intro s core rgn c hfind hc
    obtain ⟨c', h⟩ := streamOut_markLeaving _ hc
    exact ⟨_, c', exec_preempt_leaving hfind, h⟩
  · intro s r core v hleave hroom hv
    have hexec := exec_preempt_victim hleave hroom hv
    refine ⟨fun hno => ⟨fun hready => ?_, fun hready => ?_⟩, fun u hf hp ht => by rw [hexec, pushAside_shadow hf hp ht]⟩
    · rw [hexec, pushAside_streams hno, hready]
      exact ⟨_, rfl, markLeaving_frame s _⟩
    · rw [hexec, pushAside_streams hno, hready]
      obtain ⟨x, hx⟩ := exists_ctxOf (victim_mem hv)
      obtain ⟨c', h⟩ := streamOut_markLeaving _ hx
      exact ⟨_, c', rfl, h⟩
  · intro s core rgn c hc
    exact ⟨streamOut_frame hc, streamOut_ctx hc⟩
  · intro s core c u hc hout hgrid hbetter hin hn
    exact ⟨exec_contextReturn hc hout hgrid hbetter hin, streamIn_frame hin, streamIn_ctx hin hc, fun x hx => streamIn_waves hin hn hx⟩
  · intro s core c l hc hgrid hl hleaving hended hrgn hholds
    exact exec_contextReturn_held hc hgrid hl hleaving hended hrgn hholds
end

section
/-! PROOFS. Lane masks by their bits, and the parts of a wave in the order of their lowest lanes (07 R107, R115, R123). -/
namespace Sys2Proof.Machine

/-! The lowest lane of a mask. -/

theorem tbit_lt {w : Nat} {x : BitVec w} {i : Nat} (h : tbit x i = true) : i < w := BitVec.lt_of_getLsbD h

theorem eq_of_tbit_iff {w : Nat} {a b : BitVec w} (h : ∀ i, tbit a i = true ↔ tbit b i = true) : a = b :=
  BitVec.eq_of_getLsbD_eq fun i _ => Bool.eq_iff_iff.mpr (h i)

theorem lowestLane_le {m : Lanes} {i : Nat} (h : tbit m i = true) : lowestLane m ≤ i := by
  have hfind : lowestLane m = ((List.range 64).find? (tbit m)).getD 64 := by
    rw [lowestLane, lanesOf, onesBelow, List.headD_eq_head?_getD, List.head?_filter]
  cases hf : (List.range 64).find? (tbit m) with
  | none => exact absurd h (by simpa using List.find?_range_eq_none.mp hf i (tbit_lt h))
  | some j =>
    obtain ⟨-, -, hbefore⟩ := List.find?_range_eq_some.mp hf
    rw [hfind, hf, Option.getD_some]
    by_contra hlt
    exact absurd h (by simpa using hbefore i (Nat.lt_of_not_le hlt))

theorem tbit_lowestLane {m : Lanes} {i : Nat} (h : tbit m i = true) : tbit m (lowestLane m) = true := by
  have hmem : i ∈ lanesOf m := mem_onesBelow.mpr ⟨tbit_lt h, h⟩
  obtain ⟨l, ls, hl⟩ := List.exists_cons_of_ne_nil (List.ne_nil_of_mem hmem)
  have hlow : lowestLane m = l := by rw [lowestLane, hl]; rfl
  rw [hlow]
  exact (mem_onesBelow.mp (hl ▸ List.mem_cons_self : l ∈ lanesOf m)).2

theorem lowestLane_of_none {m : Lanes} (h : ∀ i, tbit m i = false) : lowestLane m = 64 := by
  have hnil : lanesOf m = [] := List.filter_eq_nil_iff.mpr fun i _ => by simp [h i]
  rw [lowestLane, hnil]
  rfl

theorem lowestLane_le_64 (m : Lanes) : lowestLane m ≤ 64 := by
  by_cases h : ∃ i, tbit m i = true
  · obtain ⟨i, hi⟩ := h
    exact (lowestLane_le hi).trans (tbit_lt hi).le
  · exact (lowestLane_of_none (by simpa using h)).le

/-! Unions of masks. -/

theorem tbit_foldl_or {α : Type} {w : Nat} (f : α → BitVec w) (l : List α) (m : BitVec w) (i : Nat) :
    tbit (l.foldl (fun m x => m ||| f x) m) i = true ↔ tbit m i = true ∨ ∃ x ∈ l, tbit (f x) i = true := by
  induction l generalizing m with
  | nil => simp
  | cons x l ih => rw [List.foldl_cons, ih, tbit_or]; simp [or_assoc]

theorem tbit_foldl_or_zero {α : Type} {w : Nat} (f : α → BitVec w) (l : List α) (i : Nat) :
    tbit (l.foldl (fun m x => m ||| f x) 0) i = true ↔ ∃ x ∈ l, tbit (f x) i = true := by
  rw [tbit_foldl_or]
  simp [tbit]

theorem tbit_liveLanes (w : Wave) (i : Nat) : tbit (liveLanes w) i = true ↔ ∃ p ∈ w.parts, tbit p.lanes i = true :=
  tbit_foldl_or_zero ..

/-- The quads that a mask of quads loses take only their own lanes with them. -/
theorem quadLanes_and_left {a b : Quads} {i : Nat} (h : tbit (quadLanes (a &&& b)) i = true) : tbit (quadLanes a) i = true := by
  have hi : i < 64 := tbit_lt h
  rw [quadLanes, tbit_maskOf _ _ hi] at h ⊢
  simp only [List.mem_filter, List.mem_range, decide_eq_true_eq, tbit, BitVec.toNat_and, Nat.testBit_and, Bool.and_eq_true] at h ⊢
  obtain ⟨hi, ha, -⟩ := h
  exact ⟨hi, ha⟩

/-! Sorting. -/

theorem insert_pairwise {α : Type} (f : α → Nat) (x : α) {l : List α} (h : l.Pairwise (fun a b => f a ≤ f b)) :
    (l.takeWhile (fun y => decide (f y < f x)) ++ x :: l.dropWhile (fun y => decide (f y < f x))).Pairwise (fun a b => f a ≤ f b) := by
  induction l with
  | nil => simp
  | cons y l ih =>
    obtain ⟨hy, hl⟩ := List.pairwise_cons.mp h
    by_cases hyx : f y < f x
    · rw [List.takeWhile_cons_of_pos (by simpa using hyx), List.dropWhile_cons_of_pos (by simpa using hyx), List.cons_append,
        List.pairwise_cons]
      refine ⟨fun z hz => ?_, ih hl⟩
      rcases List.mem_append.mp hz with hz | hz
      · exact hy z ((List.takeWhile_sublist _).subset hz)
      · rcases List.mem_cons.mp hz with rfl | hz
        · exact hyx.le
        · exact hy z ((List.dropWhile_sublist _).subset hz)
    · rw [List.takeWhile_cons_of_neg (by simpa using hyx), List.dropWhile_cons_of_neg (by simpa using hyx), List.nil_append]
      refine List.pairwise_cons.mpr ⟨fun z hz => ?_, h⟩
      rcases List.mem_cons.mp hz with rfl | hz
      · exact Nat.le_of_not_lt hyx
      · exact (Nat.le_of_not_lt hyx).trans (hy z hz)

theorem sortBy_pairwise {α : Type} (f : α → Nat) (l : List α) :
    (sortBy (fun a b => decide (f a < f b)) l).Pairwise (fun a b => f a ≤ f b) := by
  unfold sortBy
  generalize l.reverse = r
  suffices h : ∀ acc : List α, acc.Pairwise (fun a b => f a ≤ f b) → (r.foldl (fun acc x =>
      acc.takeWhile (fun y => decide (f y < f x)) ++ x :: acc.dropWhile (fun y => decide (f y < f x))) acc).Pairwise
        (fun a b => f a ≤ f b) from h [] .nil
  induction r with
  | nil => exact fun _ => id
  | cons x r ih => exact fun acc h => ih _ (insert_pairwise f x h)

@[simp] theorem mem_sortParts {ps : List Part} {p : Part} : p ∈ sortParts ps ↔ p ∈ ps := mem_sortBy

/-- The first of the sorted parts has the lowest lane of all. -/
theorem sortParts_cons {ps rest : List Part} {b : Part} (h : sortParts ps = b :: rest) :
    b ∈ ps ∧ (∀ p, p ∈ ps ↔ p = b ∨ p ∈ rest) ∧ ∀ p ∈ ps, lowestLane b.lanes ≤ lowestLane p.lanes := by
  have hmem (p : Part) : p ∈ ps ↔ p = b ∨ p ∈ rest := by rw [← mem_sortParts, h, List.mem_cons]
  have hsorted : (sortParts ps).Pairwise (fun a b => lowestLane a.lanes ≤ lowestLane b.lanes) := sortBy_pairwise _ ps
  rw [h] at hsorted
  refine ⟨(hmem b).mpr (.inl rfl), hmem, fun p hp => ?_⟩
  rcases (hmem p).mp hp with rfl | hp
  · exact le_rfl
  · exact List.rel_of_pairwise_cons hsorted hp

end Sys2Proof.Machine
end

section
/-! PROOFS. Parts that fuse, and the rejoin stack: what each operation does to the parts and the entries of a wave
(07 R107, R121-R126). -/
namespace Sys2Proof.Machine

/-! One part by its lowest lane. -/

theorem getElem?_updPart (w : Wave) (lane : Nat) (g : Part → Part) (i : Nat) :
    (updPart w lane g).parts[i]? = (w.parts[i]?).map (fun p => if lowestLane p.lanes = lane then g p else p) := by
  simp [updPart, updateWhere]

theorem mem_updPart {w : Wave} {lane : Nat} {g : Part → Part} {p : Part} (hp : p ∈ w.parts) (hl : lowestLane p.lanes = lane) :
    g p ∈ (updPart w lane g).parts :=
  List.mem_map.mpr ⟨p, hp, if_pos (by simpa using hl)⟩

/-- Two changes of one part that leave its lanes are one change. -/
theorem updPart_updPart (w : Wave) (lane : Nat) (g h : Part → Part) (hg : ∀ p, (g p).lanes = p.lanes) :
    updPart (updPart w lane g) lane h = updPart w lane (h ∘ g) := by
  simp only [updPart, updateWhere, List.map_map]
  congr 2
  funext p
  by_cases hp : lowestLane p.lanes = lane <;> simp [hp, hg]

theorem updPart_lanes (w : Wave) (lane : Nat) {g : Part → Part} (hg : ∀ p, (g p).lanes = p.lanes) :
    (updPart w lane g).parts.map (·.lanes) = w.parts.map (·.lanes) := by
  simp only [updPart, updateWhere, List.map_map]
  refine List.map_congr_left fun p _ => ?_
  by_cases hp : lowestLane p.lanes = lane <;> simp [hp, hg]

theorem findPart_updPart (w : Wave) (lane : Nat) {g : Part → Part} (hg : ∀ p, (g p).lanes = p.lanes) :
    findPart (updPart w lane g) lane = (findPart w lane).map g := by
  simp only [findPart, updPart, updateWhere]
  induction w.parts with
  | nil => rfl
  | cons p l ih =>
    by_cases hp : lowestLane p.lanes = lane
    · simp [hp, hg]
    · simpa [hp] using ih

theorem findPart_some {w : Wave} {lane : Nat} {p : Part} (h : findPart w lane = some p) : p ∈ w.parts ∧ lowestLane p.lanes = lane :=
  ⟨List.mem_of_find?_eq_some h, by simpa using List.find?_some h⟩

/-- A change of each part of a list by its lowest lane changes each of them once. -/
theorem foldl_updPart {g : Part → Part} (hg : ∀ p, (g p).lanes = p.lanes) {l : List Part}
    (hl : (l.map (fun p => lowestLane p.lanes)).Nodup) (w : Wave) :
    l.foldl (fun w p => updPart w (lowestLane p.lanes) g) w =
      { w with parts := w.parts.map (fun p => if lowestLane p.lanes ∈ l.map (fun p => lowestLane p.lanes) then g p else p) } := by
  induction l generalizing w with
  | nil => simp
  | cons x l ih =>
    obtain ⟨hx, hl⟩ := List.nodup_cons.mp hl
    rw [List.foldl_cons, ih hl]
    simp only [updPart, updateWhere, List.map_map]
    congr 1
    refine List.map_congr_left fun p _ => ?_
    by_cases hp : lowestLane p.lanes = lowestLane x.lanes
    · have hno : lowestLane x.lanes ∉ l.map (fun p => lowestLane p.lanes) := hx
      simp only [Function.comp_apply, hp, hg, decide_true, if_true, hno, if_false, List.map_cons, List.mem_cons_self]
    · simp only [Function.comp_apply, hp, decide_false, Bool.false_eq_true, if_false, List.map_cons, List.mem_cons, false_or]

@[simp] theorem stepPast_lanes (cyc : Nat) (p : Part) : (stepPast cyc p).lanes = p.lanes := rfl
@[simp] theorem stepPast_wait (cyc : Nat) (p : Part) : (stepPast cyc p).wait = .ready := rfl
@[simp] theorem stepPast_pc (cyc : Nat) (p : Part) : (stepPast cyc p).pc = p.pc + 1 := rfl

theorem SameRegs.refl (p : Part) : SameRegs p p := ⟨rfl, rfl, rfl, rfl⟩

theorem SameRegs.trans {p q r : Part} (h : SameRegs p q) (h' : SameRegs q r) : SameRegs p r := by
  obtain ⟨hs, hm, hh, hp⟩ := h
  obtain ⟨hs', hm', hh', hp'⟩ := h'
  exact ⟨hs'.trans hs, hm'.trans hm, hh'.trans hh, hp'.trans hp⟩

/-! Fusion (R107, R123, R126). -/

/-- `q` is the fusion of some parts: their lanes, with the registers and the PC of the lowest, to issue from the next cycle. -/
structure IsFusion (cyc : Nat) (ps : List Part) (q : Part) : Prop where
  wait : q.wait = .ready
  next : cyc < q.nextIssue
  lanes : ∀ i, tbit q.lanes i = true ↔ ∃ p ∈ ps, tbit p.lanes i = true
  exec : ∀ i, tbit q.exec i = true ↔ ∃ p ∈ ps, tbit p.exec i = true
  base : ∃ b ∈ ps, (∀ p ∈ ps, lowestLane b.lanes ≤ lowestLane p.lanes) ∧ q.pc = b.pc ∧ SameRegs b q

theorem le_foldl_max {α : Type} (f : α → Nat) (l : List α) (m : Nat) : m ≤ l.foldl (fun m x => max m (f x)) m := by
  induction l generalizing m with
  | nil => exact le_rfl
  | cons x l ih => exact (le_max_left ..).trans (ih _)

theorem fuseParts_some (cyc : Nat) {ps : List Part} (h : ps ≠ []) : ∃ q, fuseParts cyc ps = some q ∧ IsFusion cyc ps q := by
  cases hs : sortParts ps with
  | nil =>
    obtain ⟨p, hp⟩ := List.exists_mem_of_ne_nil ps h
    rw [← mem_sortParts, hs] at hp
    exact absurd hp List.not_mem_nil
  | cons b rest =>
    obtain ⟨hb, hmem, hlow⟩ := sortParts_cons hs
    have hunion (f : Part → Lanes) (i : Nat) :
        tbit (rest.foldl (fun m p => m ||| f p) (f b)) i = true ↔ ∃ p ∈ ps, tbit (f p) i = true := by
      rw [tbit_foldl_or]
      simp [hmem]
    obtain ⟨q, hq⟩ : ∃ q, fuseParts cyc ps = some q := by simp [fuseParts, hs]
    refine ⟨q, hq, ?_⟩
    simp only [fuseParts, hs, Option.some.injEq] at hq
    subst hq
    exact ⟨rfl, (Nat.lt_of_succ_le (le_max_right ..)).trans_le (le_foldl_max (fun p : Part => p.nextIssue) rest _), hunion (·.lanes),
      hunion (·.exec), b, hb, hlow, rfl, SameRegs.refl b⟩

/-- A fusion's lowest lane is the lowest of its parts. -/
theorem IsFusion.lowestLane {cyc : Nat} {ps : List Part} {q b : Part} (h : IsFusion cyc ps q) (hb : b ∈ ps)
    (hlow : ∀ p ∈ ps, lowestLane b.lanes ≤ lowestLane p.lanes) : lowestLane q.lanes = lowestLane b.lanes := by
  apply le_antisymm
  · by_cases hbit : ∃ i, tbit b.lanes i = true
    · obtain ⟨i, hi⟩ := hbit
      exact lowestLane_le ((h.lanes _).mpr ⟨b, hb, tbit_lowestLane hi⟩)
    · rw [lowestLane_of_none (m := b.lanes) (by simpa using hbit)]
      exact lowestLane_le_64 _
  · by_cases hbit : ∃ i, tbit q.lanes i = true
    · obtain ⟨i, hi⟩ := hbit
      obtain ⟨p, hp, hpi⟩ := (h.lanes _).mp (tbit_lowestLane hi)
      exact (hlow p hp).trans (lowestLane_le hpi)
    · rw [lowestLane_of_none (m := q.lanes) (by simpa using hbit)]
      exact lowestLane_le_64 _

/-- A fusion of all the parts in a list holds the lanes of their union. -/
theorem IsFusion.lanes_eq {cyc : Nat} {ps : List Part} {q : Part} {m : Lanes} (h : IsFusion cyc ps q)
    (hm : ∀ i, tbit m i = true ↔ ∃ p ∈ ps, tbit p.lanes i = true) : q.lanes = m :=
  eq_of_tbit_iff fun i => (h.lanes i).trans (hm i).symm

/-- The lowest of the parts that were parked at an entry gives their fusion its PC and its registers. -/
theorem IsFusion.parked_base {ps : List Part} {n cyc : Nat} {q : Part} (h : IsFusion cyc (ps.filter (fun p => p.wait = .parked n)) q) :
    ∃ b ∈ ps, b.wait = .parked n ∧ (∀ p ∈ ps, p.wait = .parked n → Machine.lowestLane b.lanes ≤ Machine.lowestLane p.lanes) ∧
      q.pc = b.pc ∧ SameRegs b q := by
  obtain ⟨b, hb, hlow, hpc, hregs⟩ := h.base
  obtain ⟨hmem, hpark⟩ := List.mem_filter.mp hb
  exact ⟨b, hmem, of_decide_eq_true hpark, fun p hp hw => hlow p (List.mem_filter.mpr ⟨hp, decide_eq_true hw⟩), hpc, hregs⟩

/-- A part that tests its width again (R126). -/
def retested (p : Part) : Part := if p.wait = .width then { p with wait := .ready } else p

theorem retest_parts (w : Wave) : (retest w).parts = w.parts.map retested := by simp [retest, updateWhere, retested]

@[simp] theorem retested_lanes (p : Part) : (retested p).lanes = p.lanes := by unfold retested; split <;> rfl

theorem retested_of_ne {p : Part} (h : p.wait ≠ .width) : retested p = p := if_neg h

theorem retested_wait {p : Part} {n : Nat} : (retested p).wait = .parked n ↔ p.wait = .parked n := by
  unfold retested
  split
  next h => simp [h]
  next => rfl

/-- The parts that a test selects become their fusion, the others test their width again. -/
theorem fuseWhere_spec {w : Wave} (cyc : Nat) {sel : Part → Bool} (h : ∃ p ∈ w.parts, sel p = true) :
    ∃ q, IsFusion cyc (w.parts.filter sel) q ∧
      fuseWhere w cyc sel = { w with parts := (sortParts (q :: w.parts.filter (fun p => !sel p))).map retested } := by
  obtain ⟨p, hp, hsel⟩ := h
  obtain ⟨q, hq, hfus⟩ := fuseParts_some cyc (List.ne_nil_of_mem (List.mem_filter.mpr ⟨hp, hsel⟩))
  refine ⟨q, hfus, ?_⟩
  rw [fuseWhere, hq]
  simp [retest, updateWhere, retested]

/-- Where every part stands at `fuse`, the wave is their fusion, at the next instruction, and its stack is free (R127). -/
theorem fuseAll_spec {w : Wave} (cyc : Nat) (hne : w.parts ≠ []) (hall : ∀ p ∈ w.parts, p.wait = .fuse ∧ p.frozen = none) :
    ∃ q, IsFusion cyc w.parts q ∧ fuseAll w cyc = { w with parts := [stepPast cyc q], rejoin := [] } := by
  obtain ⟨p, hp⟩ := List.exists_mem_of_ne_nil _ hne
  obtain ⟨q, hq, hfused⟩ := fuseWhere_spec (w := { w with rejoin := [] }) cyc (sel := fun _ => true) ⟨p, hp, rfl⟩
  rw [List.filter_true] at hq
  have hstands : (!w.parts.isEmpty && w.parts.all (fun p => p.wait = .fuse && p.frozen.isNone)) = true := by
    simpa [hne] using hall
  have hlow : lowestLane q.lanes = lowestLane (liveLanes w) := by rw [hq.lanes_eq (tbit_liveLanes w)]
  refine ⟨q, hq, ?_⟩
  have hone : (sortParts [q]).map retested = [q] := by simp [sortParts, sortBy, retested, hq.wait]
  rw [fuseAll, if_pos hstands, hfused]
  simp [updPart, updateWhere, hone, hlow]

/-- A part that is not at `fuse` keeps the wave as it is. -/
theorem fuseAll_eq_self {w : Wave} {p : Part} (hp : p ∈ w.parts) (hw : p.wait ≠ .fuse) (cyc : Nat) : fuseAll w cyc = w := by
  refine if_neg fun h => hw ?_
  have hall := (Bool.and_eq_true_iff.mp h).2
  simpa using (Bool.and_eq_true_iff.mp (List.all_eq_true.mp hall p hp)).1

/-! The rejoin stack (R121-R124). -/

theorem matchEntry_some {w : Wave} {m : Lanes} {e : RejoinEntry} (h : matchEntry w m = some e) : e ∈ w.rejoin :=
  List.mem_of_find?_eq_some h

/-- An entry that replaces one of the same lanes and arrivals matches no more than that one. -/
theorem matchEntry_putEntry_none {w : Wave} {m : Lanes} {x e : RejoinEntry} (hx : x ∈ w.rejoin) (hl : e.lanes = x.lanes)
    (ha : e.arrived = x.arrived) (h : matchEntry w m = none) : matchEntry (putEntry w e) m = none := by
  have hno := List.find?_eq_none.mp h
  refine List.find?_eq_none.mpr fun y hy => ?_
  obtain ⟨z, hz, rfl | rfl⟩ := mem_updateWhere hy
  · exact hno y hz
  · rw [hl, ha]
    exact hno x hx

/-- The entry at which a part has arrived, the first arrival starting the deadline (R123, R124). -/
def arrivedAt (e : RejoinEntry) (p : Part) (rejoin : Nat) : RejoinEntry :=
  if e.started then { e with arrived := e.arrived ||| p.lanes }
  else { e with arrived := e.arrived ||| p.lanes, started := true, rpc := p.pc, deadline := BitVec.ofNat 16 rejoin }

@[simp] theorem arrivedAt_idx (e : RejoinEntry) (p : Part) (rejoin : Nat) : (arrivedAt e p rejoin).idx = e.idx := by
  unfold arrivedAt; split <;> rfl
@[simp] theorem arrivedAt_arrived (e : RejoinEntry) (p : Part) (rejoin : Nat) :
    (arrivedAt e p rejoin).arrived = e.arrived ||| p.lanes := by
  unfold arrivedAt; split <;> rfl
@[simp] theorem arrivedAt_started (e : RejoinEntry) (p : Part) (rejoin : Nat) : (arrivedAt e p rejoin).started = true := by
  unfold arrivedAt
  split
  · assumption
  · rfl

/-- A part that stands parked at an entry. -/
def parkedOn (n : Nat) (p : Part) : Part := { p with wait := .parked n }

@[simp] theorem parkedOn_lanes (n : Nat) (p : Part) : (parkedOn n p).lanes = p.lanes := rfl

theorem arrive_unmatched {w : Wave} {lane : Nat} {p : Part} (hp : findPart w lane = some p) (hm : matchEntry w p.lanes = none)
    (rejoin cyc : Nat) : arrive w lane rejoin cyc = updPart w lane (stepPast cyc) := by
  simp only [arrive, hp, hm]

theorem arrive_matched {w : Wave} {lane : Nat} {p : Part} {e : RejoinEntry} (hp : findPart w lane = some p)
    (hm : matchEntry w p.lanes = some e) (rejoin cyc : Nat) : arrive w lane rejoin cyc =
      updPart (putEntry w (arrivedAt e p rejoin)) lane (parkedOn e.idx) := by
  simp only [arrive, hp, hm, arrivedAt]
  rfl

theorem mem_putEntry {w : Wave} {e e' : RejoinEntry} (he : e ∈ w.rejoin) (hi : e'.idx = e.idx) : e' ∈ (putEntry w e').rejoin :=
  List.mem_map.mpr ⟨e, he, if_pos (by simpa using hi.symm)⟩

theorem leaveEntry_last {e : RejoinEntry} (h : e.miss = false) (w : Wave) (lane rejoin cyc : Nat) :
    leaveEntry w e lane rejoin cyc = updPart w lane (stepPast cyc) := by
  simp [leaveEntry, h]

/-- A part that leaves an entry of kind MISS, to issue from the next cycle. -/
def unparked (cyc : Nat) (p : Part) : Part := { p with wait := .ready, nextIssue := max p.nextIssue (cyc + 1) }

@[simp] theorem unparked_lanes (cyc : Nat) (p : Part) : (unparked cyc p).lanes = p.lanes := rfl

theorem leaveEntry_miss {e : RejoinEntry} (h : e.miss = true) (w : Wave) (lane rejoin cyc : Nat) :
    leaveEntry w e lane rejoin cyc = arrive (updPart w lane (unparked cyc)) lane rejoin cyc := if_pos h

theorem stepPast_comp_unparked (cyc : Nat) : stepPast cyc ∘ unparked cyc = stepPast cyc := by
  funext p
  simp [stepPast, unparked]

/-- A part that leaves an entry goes to the next instruction where no older entry takes it in. -/
theorem leaveEntry_unmatched {w : Wave} {e : RejoinEntry} {lane : Nat} {p : Part} (hp : findPart w lane = some p)
    (h : e.miss = true → matchEntry w p.lanes = none) (rejoin cyc : Nat) :
    leaveEntry w e lane rejoin cyc = updPart w lane (stepPast cyc) := by
  cases hmiss : e.miss with
  | false => exact leaveEntry_last hmiss ..
  | true =>
    have hfound := findPart_updPart w lane (unparked_lanes cyc)
    rw [hp] at hfound
    rw [leaveEntry_miss hmiss, arrive_unmatched hfound (h hmiss), updPart_updPart _ _ _ _ (unparked_lanes cyc), stepPast_comp_unparked]

/-! Passing through an entry (R122, R124). -/

theorem exists_findPart {w : Wave} {m : Lanes} (h : m ∈ w.parts.map (·.lanes)) : ∃ p, findPart w (lowestLane m) = some p := by
  obtain ⟨p, hp, rfl⟩ := List.mem_map.mp h
  exact Option.isSome_iff_exists.mp (List.find?_isSome.mpr ⟨p, hp, by simp⟩)

/-- Parts of the wave that no older entry takes in all go to the next instruction. -/
theorem foldl_leaveEntry {e : RejoinEntry} {l : List Part} {w : Wave} (hin : ∀ p ∈ l, p.lanes ∈ w.parts.map (·.lanes))
    (hno : e.miss = true → ∀ m ∈ w.parts.map (·.lanes), lowestLane m ∈ l.map (fun p => lowestLane p.lanes) → matchEntry w m = none)
    (rejoin cyc : Nat) : l.foldl (fun w p => leaveEntry w e (lowestLane p.lanes) rejoin cyc) w =
      l.foldl (fun w p => updPart w (lowestLane p.lanes) (stepPast cyc)) w := by
  induction l generalizing w with
  | nil => rfl
  | cons x l ih =>
    obtain ⟨p, hp⟩ := exists_findPart (hin x List.mem_cons_self)
    obtain ⟨hpw, hpx⟩ := findPart_some hp
    have hlanes := updPart_lanes w (lowestLane x.lanes) (stepPast_lanes cyc)
    rw [List.foldl_cons, List.foldl_cons, leaveEntry_unmatched hp (fun hm => hno hm _ (List.mem_map_of_mem hpw) (by simp [hpx]))]
    refine ih (fun y hy => ?_) (fun hm m hmem hl => ?_)
    · rw [hlanes]
      exact hin y (List.mem_cons_of_mem x hy)
    · rw [hlanes] at hmem
      exact hno hm m hmem (List.mem_cons_of_mem _ hl)

/-- The parts parked at an entry go on, where their lowest lanes are all different and no older entry takes them in. -/
theorem passThrough_eq {w : Wave} {e : RejoinEntry} (hnodup : (w.parts.map (fun p => lowestLane p.lanes)).Nodup)
    (hno : e.miss = true → ∀ p ∈ w.parts, p.wait = .parked e.idx → matchEntry w p.lanes = none) (rejoin cyc : Nat) :
    passThrough w e rejoin cyc = { w with parts := w.parts.map (fun p => if p.wait = .parked e.idx then stepPast cyc p else p) } := by
  have hparked {p : Part} (hp : p ∈ w.parts) : lowestLane p.lanes ∈
      (w.parts.filter (fun p => p.wait = .parked e.idx)).map (fun p => lowestLane p.lanes) ↔ p.wait = .parked e.idx := by
    simp only [List.mem_map, List.mem_filter, decide_eq_true_eq]
    refine ⟨fun ⟨x, ⟨hx, hw⟩, hl⟩ => ?_, fun hw => ⟨p, ⟨hp, hw⟩, rfl⟩⟩
    rwa [List.inj_on_of_nodup_map hnodup hx hp hl] at hw
  have hsub : ((w.parts.filter (fun p => p.wait = .parked e.idx)).map (fun p => lowestLane p.lanes)).Nodup :=
    hnodup.sublist (List.filter_sublist.map _)
  rw [passThrough, foldl_leaveEntry (fun p hp => List.mem_map_of_mem (List.mem_of_mem_filter hp)) ?_, foldl_updPart (stepPast_lanes cyc) hsub]
  · congr 1
    exact List.map_congr_left fun p hp => by simp only [hparked hp]
  · intro hm m hmem hl
    obtain ⟨p, hp, rfl⟩ := List.mem_map.mp hmem
    exact hno hm p hp ((hparked hp).mp hl)

/-! The end of a cycle at an entry (R125). -/

/-- An entry that expects only the quads that still have lanes (R129). -/
def trimmed (w : Wave) (e : RejoinEntry) : RejoinEntry := { e with expect := e.expect &&& quadsOf (liveLanes w) }

theorem freeEntry_putEntry (w : Wave) (e : RejoinEntry) : freeEntry (putEntry w e) e.idx = freeEntry w e.idx := by
  simp only [freeEntry, putEntry, updateWhere]
  congr 1
  induction w.rejoin with
  | nil => rfl
  | cons x l ih =>
    by_cases hx : x.idx = e.idx
    · simpa [hx] using ih
    · simpa [hx] using ih

theorem putEntry_putEntry (w : Wave) {e e' : RejoinEntry} (h : e'.idx = e.idx) : putEntry (putEntry w e) e' = putEntry w e' := by
  simp only [putEntry, updateWhere, List.map_map]
  congr 2
  funext x
  by_cases hx : x.idx = e.idx <;> simp [hx, h]

/-- An entry that is complete stays so when it expects fewer quads. -/
theorem entryComplete_trimmed {w : Wave} {e : RejoinEntry} (h : liveLanes w &&& quadLanes e.expect &&& ~~~e.arrived = 0) :
    entryComplete w (trimmed w e) = true := by
  refine decide_eq_true (eq_of_tbit_iff fun i => ?_)
  have hi : tbit (liveLanes w &&& quadLanes e.expect &&& ~~~e.arrived) i = false := by rw [h]; simp [tbit]
  have hleft := quadLanes_and_left (a := e.expect) (b := quadsOf (liveLanes w)) (i := i)
  simp only [tbit_eq_getLsbD, BitVec.getLsbD_and, trimmed] at hi hleft ⊢
  cases hq : (quadLanes (e.expect &&& quadsOf (liveLanes w))).getLsbD i with
  | false => simp
  | true => simpa [hleft hq] using hi

/-- The wave once the parts parked at an entry have become one part and the entry is gone. -/
def fusedAt (w : Wave) (idx : Nat) (q : Part) : Wave :=
  { freeEntry w idx with parts := (sortParts (q :: w.parts.filter (fun p => !decide (p.wait = .parked idx)))).map retested }

/-- At a complete entry the parked parts fuse, and their fusion leaves it. -/
theorem settleEntry_complete {w : Wave} {e : RejoinEntry} (hfind : w.rejoin.find? (fun x => x.idx = e.idx) = some e)
    (hexp : e.expect &&& quadsOf (liveLanes w) ≠ 0) (hdone : liveLanes w &&& quadLanes e.expect &&& ~~~e.arrived = 0)
    (hpark : ∃ p ∈ w.parts, p.wait = .parked e.idx) (rejoin cyc : Nat) (runs : Bool) :
    ∃ q, IsFusion cyc (w.parts.filter (fun p => p.wait = .parked e.idx)) q ∧
      settleEntry rejoin cyc runs w e.idx = leaveEntry (fusedAt w e.idx q) (trimmed w e) (lowestLane q.lanes) rejoin cyc := by
  obtain ⟨p, hp, hw⟩ := hpark
  obtain ⟨q, hq, hfused⟩ := fuseWhere_spec (w := freeEntry w e.idx) cyc (sel := fun p => p.wait = .parked e.idx) ⟨p, hp, by simpa using hw⟩
  refine ⟨q, hq, ?_⟩
  have hthere : (w.parts.filter (fun p => p.wait = .parked e.idx)).isEmpty = false := by simpa using ⟨p, hp, hw⟩
  have hunion : (w.parts.filter (fun p => p.wait = .parked e.idx)).foldl (fun m q => m ||| q.lanes) 0 = q.lanes :=
    (hq.lanes_eq (tbit_foldl_or_zero _ _)).symm
  have hfree : freeEntry (putEntry w (trimmed w e)) e.idx = freeEntry w e.idx := freeEntry_putEntry w (trimmed w e)
  have hcomplete : entryComplete (putEntry w (trimmed w e)) (trimmed w e) = true := entryComplete_trimmed hdone
  unfold trimmed at hfree hcomplete ⊢
  simp only [settleEntry, hfind, hexp, if_false, hcomplete, if_true, hfree, hfused]
  simp only [putEntry, hthere, hunion, Bool.false_eq_true, if_false]
  rfl

/-- A part of the wave after the fusion: the fused part, or one that was not parked there. -/
theorem mem_fusedAt {w : Wave} {idx : Nat} {q x : Part} (hq : q.wait = .ready) :
    x ∈ (fusedAt w idx q).parts ↔ x = q ∨ ∃ p ∈ w.parts, p.wait ≠ .parked idx ∧ retested p = x := by
  have hqr : retested q = q := retested_of_ne (by simp [hq])
  simp only [fusedAt, List.mem_map, mem_sortParts, List.mem_cons, List.mem_filter, Bool.not_eq_true', decide_eq_false_iff_not,
    or_and_right, exists_or, exists_eq_left, hqr, and_assoc, @eq_comm _ q x]

/-- After the fusion no part is parked at the entry. -/
theorem not_parked_of_mem_fusedAt {w : Wave} {idx : Nat} {q x : Part} (hq : q.wait = .ready) (hx : x ∈ (fusedAt w idx q).parts) :
    x.wait ≠ .parked idx := by
  rcases (mem_fusedAt hq).mp hx with rfl | ⟨p, -, hno, rfl⟩
  · simp [hq]
  · rwa [ne_eq, retested_wait]

/-- At an incomplete entry that has started and is expired, or where deadlines do not count, the parts pass through. -/
theorem settleEntry_passes {w : Wave} {x : RejoinEntry} {rejoin : Nat} {runs : Bool}
    (hfind : w.rejoin.find? (fun y => y.idx = x.idx) = some x) (hexp : (trimmed w x).expect ≠ 0)
    (hopen : entryComplete w (trimmed w x) = false) (hstart : x.started = true)
    (hlate : x.expired = true ∨ rejoin = 0 ∨ (runs = true ∧ x.deadline = 0)) (cyc : Nat) :
    settleEntry rejoin cyc runs w x.idx =
      passThrough (putEntry w { trimmed w x with expired := true }) (trimmed w x) rejoin cyc := by
  have hopen' : entryComplete (putEntry w (trimmed w x)) (trimmed w x) = false := hopen
  have hput : putEntry (putEntry w (trimmed w x)) { trimmed w x with expired := true } = putEntry w { trimmed w x with expired := true } :=
    putEntry_putEntry w rfl
  have hlate' : (x.started && (x.expired || decide (rejoin = 0) || runs && decide (x.deadline = 0))) = true := by
    simpa [hstart, or_assoc] using hlate
  unfold trimmed at hexp hopen' hput ⊢
  simp only [settleEntry, hfind, hexp, if_false, hopen', Bool.false_eq_true, hlate', if_true, hput]

/-- A complete entry is gone, and the parts parked there are one part, at the next instruction. -/
theorem settleEntry_fuses {w : Wave} {e : RejoinEntry} (hfind : w.rejoin.find? (fun x => x.idx = e.idx) = some e) (hlast : e.miss = false)
    (hexp : e.expect &&& quadsOf (liveLanes w) ≠ 0) (hdone : liveLanes w &&& quadLanes e.expect &&& ~~~e.arrived = 0)
    (hpark : ∃ p ∈ w.parts, p.wait = .parked e.idx) (rejoin cyc : Nat) (runs : Bool) :
    ∃ q, IsFusion cyc (w.parts.filter (fun p => p.wait = .parked e.idx)) q ∧
      settleEntry rejoin cyc runs w e.idx = updPart (fusedAt w e.idx q) (lowestLane q.lanes) (stepPast cyc) := by
  obtain ⟨q, hq, hsettle⟩ := settleEntry_complete hfind hexp hdone hpark rejoin cyc runs
  exact ⟨q, hq, hsettle.trans (leaveEntry_last hlast ..)⟩

theorem findPart_of_unique {w : Wave} {p : Part} {lane : Nat} (hp : p ∈ w.parts) (hl : lowestLane p.lanes = lane)
    (h : ∀ x ∈ w.parts, lowestLane x.lanes = lane → x = p) : findPart w lane = some p := by
  obtain ⟨x, hx⟩ := exists_findPart (List.mem_map_of_mem (f := (·.lanes)) hp)
  rw [hl] at hx
  obtain ⟨hmem, hlow⟩ := findPart_some hx
  rw [hx, h x hmem hlow]

/-- Where lowest lanes tell the parts of a wave apart, a fusion is the part of its lowest lane. -/
theorem findPart_fusedAt {w : Wave} {idx cyc : Nat} {q : Part} (hq : IsFusion cyc (w.parts.filter (fun p => p.wait = .parked idx)) q)
    (hinj : ∀ p ∈ w.parts, ∀ x ∈ w.parts, lowestLane p.lanes = lowestLane x.lanes → p = x) :
    findPart (fusedAt w idx q) (lowestLane q.lanes) = some q := by
  refine findPart_of_unique ((mem_fusedAt hq.wait).mpr (.inl rfl)) rfl fun x hx hl => ?_
  rcases (mem_fusedAt hq.wait).mp hx with rfl | ⟨p, hp, hno, rfl⟩
  · rfl
  · obtain ⟨b, hb, hlow, -⟩ := hq.base
    obtain ⟨hbw, hbp⟩ := List.mem_filter.mp hb
    rw [retested_lanes, hq.lowestLane hb hlow] at hl
    rw [hinj p hp b hbw hl] at hno
    exact absurd (of_decide_eq_true hbp) hno

/-- From a complete entry of kind MISS the fusion goes to the next instruction, or to the older entry that it matches. -/
theorem settleEntry_fuses_miss {w : Wave} {e : RejoinEntry} (hfind : w.rejoin.find? (fun x => x.idx = e.idx) = some e)
    (hmiss : e.miss = true) (hexp : e.expect &&& quadsOf (liveLanes w) ≠ 0)
    (hdone : liveLanes w &&& quadLanes e.expect &&& ~~~e.arrived = 0)
    (hinj : ∀ p ∈ w.parts, ∀ x ∈ w.parts, lowestLane p.lanes = lowestLane x.lanes → p = x)
    (hpark : ∃ p ∈ w.parts, p.wait = .parked e.idx) (rejoin cyc : Nat) (runs : Bool) :
    ∃ q, IsFusion cyc (w.parts.filter (fun p => p.wait = .parked e.idx)) q ∧
      (matchEntry (freeEntry w e.idx) q.lanes = none → settleEntry rejoin cyc runs w e.idx =
        updPart (fusedAt w e.idx q) (lowestLane q.lanes) (stepPast cyc)) ∧
      ∀ o, matchEntry (freeEntry w e.idx) q.lanes = some o → settleEntry rejoin cyc runs w e.idx =
        updPart (putEntry (updPart (fusedAt w e.idx q) (lowestLane q.lanes) (unparked cyc)) (arrivedAt o (unparked cyc q) rejoin))
          (lowestLane q.lanes) (parkedOn o.idx) := by
  obtain ⟨q, hq, hsettle⟩ := settleEntry_complete hfind hexp hdone hpark rejoin cyc runs
  have hfound := findPart_fusedAt hq hinj
  have hfound' := findPart_updPart (fusedAt w e.idx q) (lowestLane q.lanes) (unparked_lanes cyc)
  rw [hfound] at hfound'
  refine ⟨q, hq, fun hno => ?_, fun o ho => ?_⟩
  · exact hsettle.trans (leaveEntry_unmatched hfound (fun _ => hno) rejoin cyc)
  · exact hsettle.trans ((leaveEntry_miss (e := trimmed w e) hmiss ..).trans (arrive_matched hfound' ho rejoin cyc))

/-- At an incomplete entry whose deadline has passed, or that has expired, the parked parts go on unfused. -/
theorem settleEntry_expires {w : Wave} {x : RejoinEntry} {rejoin : Nat} {runs : Bool}
    (hfind : w.rejoin.find? (fun y => y.idx = x.idx) = some x) (hexp : (trimmed w x).expect ≠ 0)
    (hopen : entryComplete w (trimmed w x) = false) (hstart : x.started = true)
    (hlate : x.expired = true ∨ rejoin = 0 ∨ (runs = true ∧ x.deadline = 0)) (hnodup : (w.parts.map (fun p => lowestLane p.lanes)).Nodup)
    (hno : x.miss = true → ∀ p ∈ w.parts, p.wait = .parked x.idx → matchEntry w p.lanes = none) (cyc : Nat) :
    settleEntry rejoin cyc runs w x.idx = { w with
      rejoin := w.rejoin.map (fun y => if y.idx = x.idx then { trimmed w x with expired := true } else y)
      parts := w.parts.map (fun p => if p.wait = .parked x.idx then stepPast cyc p else p) } := by
  rw [settleEntry_passes hfind hexp hopen hstart hlate]
  refine (passThrough_eq (w := putEntry w { trimmed w x with expired := true }) (e := trimmed w x) hnodup (fun hm p hp hw =>
    matchEntry_putEntry_none (List.mem_of_find?_eq_some hfind) rfl rfl (hno hm p hp hw)) rejoin cyc).trans ?_
  simp only [putEntry, updateWhere, decide_eq_true_eq]
  rfl

end Sys2Proof.Machine
end

section
/-! PROOFS. The part in focus after a change of its own wave, and where it stands when its path parks (07 R123, R127, R131). -/
namespace Sys2Proof.Machine

/-- A part put back into the state leaves its wave as it then is. -/
theorem waveAfter_commit {s : State} {r : PartRef} {c d : Cx} (h : partAt s r = some c) (hd : WaveOnly c d) :
    WaveAfter s d.commit c d.waveAfter := by
  obtain ⟨hcs, -, hcsl, -, -, hcg, -, -⟩ := partAt_some h
  have hk : d.coreAfter = setWave (setWg { c.k with issued := d.k.issued, vecQuads := d.k.vecQuads } c.w.wg c.g) c.slot d.waveAfter := by
    rw [Cx.coreAfter, hd.cor, hd.wg, hd.g, hd.slot]
  have ht : d.commit = setCore { s with freeCount := d.s.freeCount } c.core d.coreAfter := by
    rw [commit_eq, hd.state, hd.core, hcs]
  have hcore : getCore d.commit c.core = d.coreAfter := by rw [ht, getCore_setCore_self]
  refine ⟨⟨by rw [ht]; rfl, fun j hj => by rw [ht, getCore_setCore_ne _ _ hj]; rfl⟩, ⟨?_, fun j hj => ?_, fun b => ?_⟩, ?_⟩
  · rw [hcore, hk]
    rfl
  · rw [hcore, hk, getWave_setWave_ne _ _ hj]
    rfl
  · rw [hcore, hk, getWg_setWave]
    by_cases hb : b = c.w.wg
    · rw [hb, getWg_setWg_self, hcg]
    · rw [getWg_setWg_ne _ _ hb]
      rfl
  · rw [hcore, hk, getWave_setWave_self]

/-- A change of one wave, with what it leaves. -/
theorem updWave_onlyWave {s : State} {core slot : Nat} {w : Wave} (h : getWave (getCore s core) slot = some w) (g : Wave → Wave) :
    OnlyWave (getCore s core) (getCore (updWave s core slot g) core) slot := by
  have hcore : getCore (updWave s core slot g) core = setWave (getCore s core) slot (g w) := by simp [updWave, h]
  rw [hcore]
  exact ⟨rfl, fun j hj => getWave_setWave_ne _ _ hj, fun _ => rfl⟩

theorem OnlyCore.trans {s t u : State} {core : Nat} (h : OnlyCore s t core) (h' : OnlyCore t u core) : OnlyCore s u core := by
  obtain ⟨ht, htc⟩ := h
  obtain ⟨hu, huc⟩ := h'
  exact ⟨by rw [hu, ht], fun j hj => (huc j hj).trans (htc j hj)⟩

theorem OnlyWave.trans {k k' k'' : Core} {slot : Nat} (h : OnlyWave k k' slot) (h' : OnlyWave k' k'' slot) : OnlyWave k k'' slot := by
  obtain ⟨hk, hw, hg⟩ := h
  obtain ⟨hk', hw', hg'⟩ := h'
  exact ⟨by rw [hk', hk], fun j hj => (hw' j hj).trans (hw j hj), fun b => (hg' b).trans (hg b)⟩

/-- A further change of the same wave. -/
theorem WaveAfter.updWave {s t : State} {c : Cx} {w : Wave} (h : WaveAfter s t c w) (g : Wave → Wave) :
    WaveAfter s (updWave t c.core c.slot g) c (g w) := by
  obtain ⟨hcore, hwave, hw⟩ := h
  exact ⟨hcore.trans (updWave_onlyCore ..), hwave.trans (updWave_onlyWave hw g), by rw [getWave_updWave, hw]; rfl⟩

/-- The part in focus, in the wave of which only it and its neighbours have been touched. -/
theorem WaveAfter.stands {s t : State} {r : PartRef} {c : Cx} {w : Wave} {p : Part} (ht : WaveAfter s t c w)
    (h : partAt s r = some c) (hwg : w.wg = c.w.wg) (hl : w.parts.map (·.lanes) = c.w.parts.map (·.lanes))
    (hp : w.parts[c.idx]? = some p) :
    ∃ d, partAt t r = some d ∧ OnlyCore s t c.core ∧ OnlyWave c.k d.k c.slot ∧ d.w = w ∧ d.p = p := by
  obtain ⟨-, hcore, hslot, -, -, hg, hi, -⟩ := partAt_some h
  obtain ⟨hoc, how, hw⟩ := ht
  obtain ⟨hk, hothers, hwgs⟩ := how
  have hidx : w.parts.findIdx? (fun p => lowestLane p.lanes = r.lane) = some c.idx := by
    have hcomp (ps : List Part) : ps.findIdx? (fun p => lowestLane p.lanes = r.lane) =
        (ps.map (·.lanes)).findIdx? (fun m => lowestLane m = r.lane) := by rw [List.findIdx?_map]; rfl
    rw [hcomp, hl, ← hcomp, hi]
  have hg' : getWg (getCore t r.core) w.wg = some c.g := by rw [← hcore, hwgs, hwg, hg]
  have hw' : getWave (getCore t r.core) r.slot = some w := by rw [← hcore, ← hslot, hw]
  refine ⟨⟨t, r.core, r.slot, c.idx, getCore t r.core, w, w.parts.getD c.idx {}, c.g⟩, ?_, hoc, ?_, rfl, ?_⟩
  · simp only [partAt, hw', hidx, hg']
  · show OnlyWave c.k (getCore t r.core) c.slot
    rw [← hcore]
    exact ⟨hk, hothers, hwgs⟩
  · simp [List.getD_eq_getElem?_getD, hp]

/-- The first part of its lowest lane is the one in focus, once it is put back. -/
theorem findPart_waveAfter {s : State} {r : PartRef} {c d : Cx} (h : partAt s r = some c) (hd : WaveOnly c d) :
    findPart d.waveAfter d.lane = some d.p := by
  obtain ⟨hi, hp, hlow, hbefore⟩ := partAt_idx h
  have hidx : d.idx < d.waveAfter.parts.length := by simpa [Cx.waveAfter, hd.parts, hd.idx] using hi
  refine List.find?_eq_some_iff_getElem.mpr ⟨by simp [Cx.lane], d.idx, hidx, by simp [Cx.waveAfter], fun j hj => ?_⟩
  have hne : d.idx ≠ j := by omega
  have hjc : j < c.w.parts.length := by rw [hd.idx] at hj; omega
  have hq := hbefore j (by rw [← hd.idx]; exact hj) _ (List.getElem?_eq_getElem hjc)
  simpa [Cx.waveAfter, Cx.lane, List.getElem_set, hne, hd.parts, hd.lanes, hlow] using hq

theorem waveAfter_parts {c d : Cx} (hd : WaveOnly c d) : d.waveAfter.parts = c.w.parts.set c.idx d.p := by
  rw [Cx.waveAfter, hd.parts, hd.idx]

/-- Putting the part back leaves which lanes each part holds. -/
theorem waveAfter_lanes {s : State} {r : PartRef} {c d : Cx} (h : partAt s r = some c) (hd : WaveOnly c d) :
    d.waveAfter.parts.map (·.lanes) = c.w.parts.map (·.lanes) := by
  obtain ⟨hi, hp, -, -⟩ := partAt_idx h
  rw [waveAfter_parts hd, List.map_set, hd.lanes]
  refine List.ext_getElem? fun j => ?_
  by_cases hj : c.idx = j
  · rw [← hj, List.getElem?_map, hp]
    exact List.getElem?_set_self (by simpa using hi)
  · exact List.getElem?_set_ne hj

theorem waveAfter_getElem {s : State} {r : PartRef} {c d : Cx} (h : partAt s r = some c) (hd : WaveOnly c d) :
    d.waveAfter.parts[c.idx]? = some d.p := by
  obtain ⟨hi, -, -, -⟩ := partAt_idx h
  rw [waveAfter_parts hd, List.getElem?_set_self hi]

/-! A path at `rejoin` or at `fuse` (R131). -/

theorem matchEntry_waveAfter {c d : Cx} (hw : d.w = c.w) (m : Lanes) : matchEntry d.waveAfter m = matchEntry c.w m := by
  rw [← hw]
  rfl

theorem resumePath_some {p : Part} (h : ∃ y ∈ p.paths, y.parkedAt = 0) :
    ∃ q, resumePath p = some q ∧ q.lanes = p.lanes ∧ SameRegs p q ∧ Resumes p.paths q := by
  obtain ⟨y, hy, hpark⟩ := h
  obtain ⟨x, hx⟩ := Option.isSome_iff_exists.mp (List.find?_isSome.mpr ⟨y, hy, by simpa using hpark⟩ :
    (p.paths.find? (fun x => x.parkedAt = 0)).isSome = true)
  have hat : (fun y : Path => decide (y.pc = x.pc) && decide (y.parkedAt = 0)) = waitsAt x.pc := by
    funext y
    simp [waitsAt, Bool.beq_eq_decide_eq]
  obtain ⟨q, hq⟩ : ∃ q, resumePath p = some q := by simp [resumePath, hx]
  refine ⟨q, hq, ?_⟩
  simp only [resumePath, hx, Option.some.injEq] at hq
  subst hq
  refine ⟨rfl, SameRegs.refl p, x, ?_, rfl, fun i => ?_, fun i => ?_, ?_⟩
  · simpa [Bool.beq_eq_decide_eq] using hx
  · simp only [mergePaths, hat, tbit_foldl_or_zero, List.mem_filter, and_assoc]
  · simp only [mergePaths, hat, tbit_foldl_or_zero, List.mem_filter, and_assoc]
  · have hnot : (fun y : Path => !(decide (y.pc = x.pc) && decide (y.parkedAt = 0))) = fun y => !waitsAt x.pc y := by
      rw [← hat]
    simp only [mergePaths, hnot]

/-- `q` is the part `p` with all its paths, those of a list, merged at the PC of the path of the lowest lane. -/
structure IsMerged (all : List Path) (p q : Part) : Prop where
  lanes : q.lanes = p.lanes
  paths : q.paths = []
  regs : SameRegs p q
  run : ∀ i, tbit q.run i = true ↔ ∃ y ∈ all, tbit y.lanes i = true
  exec : ∀ i, tbit q.exec i = true ↔ ∃ y ∈ all, tbit y.active i = true
  base : ∃ b ∈ all, tbit b.lanes (lowestLane q.run) = true ∧ q.pc = b.pc

/-- Paths that have a lane merge; they were parked as the path of the lowest lane was. -/
theorem mergeParked_spec {p : Part} {y : Path} {kind : Nat} (hy : y ∈ p.paths) (hlane : y.lanes ≠ 0)
    (hall : ∀ x ∈ p.paths, x.parkedAt = kind) : IsMerged p.paths p (mergeParked p) ∧ parkedKind p = kind := by
  obtain ⟨i, hi⟩ : ∃ i, tbit y.lanes i = true := by
    by_contra hno
    exact hlane (eq_of_tbit_iff fun i => by simp_all [tbit])
  have hbit : tbit (p.paths.foldl (fun m x => m ||| x.lanes) (0 : Lanes)) i = true := (tbit_foldl_or_zero ..).mpr ⟨y, hy, hi⟩
  obtain ⟨z, hz, hzl⟩ := (tbit_foldl_or_zero ..).mp (tbit_lowestLane hbit)
  obtain ⟨b, hb⟩ := Option.isSome_iff_exists.mp (List.find?_isSome.mpr ⟨z, hz, hzl⟩ : (p.paths.find? (fun x =>
    tbit x.lanes (lowestLane (p.paths.foldl (fun m x => m ||| x.lanes) (0 : Lanes))))).isSome = true)
  have hbmem := List.mem_of_find?_eq_some hb
  have hblow := List.find?_some hb
  constructor
  · simp only [mergeParked, hb]
    exact ⟨rfl, rfl, SameRegs.refl p, tbit_foldl_or_zero _ _, tbit_foldl_or_zero _ _, b, hbmem, hblow, rfl⟩
  · simp only [parkedKind, hb, Option.map_some, Option.getD_some, hall b hbmem]

/-- All the paths of a part whose running path parks at `rejoin` (1) or at `fuse` (2). -/
def parkedPaths (p : Part) (kind : Nat) : List Path := p.paths ++ [⟨p.pc, p.run, p.exec, kind⟩]

theorem parkPath_single {d : Cx} (h : d.p.paths = []) (kind : Nat) : d.parkPath kind = d.standAt kind := by
  simp [Cx.parkPath, h]

theorem parkPath_resumes {d : Cx} {kind : Nat} (h : ∃ y ∈ d.p.paths, y.parkedAt = 0) :
    ∃ q, d.parkPath kind = { d with p := q }.commit ∧ q.lanes = d.p.lanes ∧ SameRegs d.p q ∧ Resumes (parkedPaths d.p kind) q := by
  obtain ⟨y, hy, hpark⟩ := h
  obtain ⟨q, hq, hl, hr, hres⟩ := resumePath_some (p := { d.p with paths := parkedPaths d.p kind })
    ⟨y, List.mem_append_left _ hy, hpark⟩
  refine ⟨q, ?_, hl, hr, hres⟩
  have hne : d.p.paths.isEmpty = false := by simpa using List.ne_nil_of_mem hy
  unfold parkedPaths at hq
  simp only [Cx.parkPath, hne, Bool.false_eq_true, if_false, hq]

theorem parkPath_merges {d : Cx} {kind : Nat} (hkind : kind ≠ 0) (hne : d.p.paths ≠ []) (hrun : d.p.run ≠ 0)
    (hall : ∀ y ∈ d.p.paths, y.parkedAt = kind) :
    ∃ q, d.parkPath kind = { d with p := q }.standAt kind ∧ IsMerged (parkedPaths d.p kind) d.p q := by
  have hparked : ∀ x ∈ parkedPaths d.p kind, x.parkedAt = kind := by
    intro x hx
    rcases List.mem_append.mp hx with hx | hx
    · exact hall x hx
    · rw [List.mem_singleton.mp hx]
  obtain ⟨hmerged, hkindOf⟩ := mergeParked_spec (p := { d.p with paths := parkedPaths d.p kind })
    (List.mem_append_right _ List.mem_cons_self) hrun hparked
  have hnone : resumePath { d.p with paths := parkedPaths d.p kind } = none := by
    have hfind : (parkedPaths d.p kind).find? (fun x => x.parkedAt = 0) = none :=
      List.find?_eq_none.mpr fun x hx => by simpa [hparked x hx] using hkind
    rw [resumePath, hfind]
  refine ⟨mergeParked { d.p with paths := parkedPaths d.p kind }, ?_, hmerged.lanes, hmerged.paths, hmerged.regs, hmerged.run,
    hmerged.exec, hmerged.base⟩
  have hne' : d.p.paths.isEmpty = false := by simpa using hne
  unfold parkedPaths at hnone hkindOf ⊢
  simp only [Cx.parkPath, hne', Bool.false_eq_true, if_false, hnone, hkindOf]

/-! A part of one path at `rejoin` or at `fuse` (R123, R127). -/

theorem putEntry_parts (w : Wave) (e : RejoinEntry) : (putEntry w e).parts = w.parts := rfl

theorem liveLanes_congr {w w' : Wave} (h : w'.parts.map (·.lanes) = w.parts.map (·.lanes)) : liveLanes w' = liveLanes w := by
  have hmap (w : Wave) : liveLanes w = (w.parts.map (·.lanes)).foldl (fun m x => m ||| x) 0 := List.foldl_map.symm
  rw [hmap, hmap, h]

/-- The part stands at `fuse`. -/
def Cx.atFuse (d : Cx) : Cx := d.part (fun p => { p with wait := .fuse })

theorem WaveOnly.atFuse {c d : Cx} (h : WaveOnly c d) : WaveOnly c d.atFuse := h.trans (WaveOnly.part d _ rfl)

section
variable {s : State} {r : PartRef} {c d : Cx} (h : partAt s r = some c) (hd : WaveOnly c d) (hw : d.w = c.w)
include h hd

theorem standAt_rejoin : WaveAfter s (d.standAt 1) c (arrive d.waveAfter d.lane d.g.kernel.rejoin d.cyc) := by
  rw [Cx.standAt, if_pos rfl, hd.core, hd.slot]
  exact (waveAfter_commit h hd).updWave _

theorem standAt_fuse : WaveAfter s (d.standAt 2) c (fuseAll d.atFuse.waveAfter d.cyc) := by
  rw [Cx.standAt, if_neg (by decide), hd.core, hd.slot]
  exact (waveAfter_commit h hd.atFuse).updWave _

include hw

/-- Without an entry that it matches, a part goes on at `rejoin`. -/
theorem standAt_rejoin_unmatched (hm : matchEntry c.w c.p.lanes = none) : ∃ e, partAt (d.standAt 1) r = some e ∧
    OnlyCore s (d.standAt 1) c.core ∧ OnlyWave c.k e.k c.slot ∧ OnlyParts c.w e.w ∧ e.p = stepPast d.cyc d.p := by
  have ht := standAt_rejoin h hd
  rw [arrive_unmatched (findPart_waveAfter h hd) (by rw [matchEntry_waveAfter hw, hd.lanes, hm])] at ht
  obtain ⟨e, he, hoc, how, hew, hep⟩ := ht.stands h hd.wg ((updPart_lanes _ _ (stepPast_lanes d.cyc)).trans (waveAfter_lanes h hd))
    (p := stepPast d.cyc d.p) (by rw [getElem?_updPart, waveAfter_getElem h hd]; simp [Cx.lane])
  refine ⟨e, he, hoc, how, ?_, hep⟩
  rw [OnlyParts, hew, ← hw]
  rfl

/-- At an entry that it matches, a part has arrived and is parked. -/
theorem standAt_rejoin_matched {en : RejoinEntry} (hm : matchEntry c.w c.p.lanes = some en) : ∃ e, partAt (d.standAt 1) r = some e ∧
    OnlyCore s (d.standAt 1) c.core ∧ OnlyWave c.k e.k c.slot ∧ e.w = { c.w with parts := e.w.parts, rejoin := e.w.rejoin } ∧
    e.p = parkedOn en.idx d.p ∧ arrivedAt en d.p d.g.kernel.rejoin ∈ e.w.rejoin := by
  have ht := standAt_rejoin h hd
  rw [arrive_matched (findPart_waveAfter h hd) (by rw [matchEntry_waveAfter hw, hd.lanes, hm])] at ht
  obtain ⟨e, he, hoc, how, hew, hep⟩ := ht.stands h hd.wg ((updPart_lanes _ _ (parkedOn_lanes en.idx)).trans (waveAfter_lanes h hd))
    (p := parkedOn en.idx d.p) (by rw [getElem?_updPart, putEntry_parts, waveAfter_getElem h hd]; simp [Cx.lane])
  refine ⟨e, he, hoc, how, ?_, hep, ?_⟩
  · rw [hew, ← hw]
    rfl
  · rw [hew]
    refine mem_putEntry (e := en) ?_ (arrivedAt_idx ..)
    have := matchEntry_some hm
    rw [← hw] at this
    exact this

/-- Beside a part that is not there yet, a part waits at `fuse`. -/
theorem standAt_fuse_waits (hother : ∃ (i : Nat) (p : Part), i ≠ c.idx ∧ c.w.parts[i]? = some p ∧ p.wait ≠ .fuse) :
    ∃ e, partAt (d.standAt 2) r = some e ∧ OnlyCore s (d.standAt 2) c.core ∧ OnlyWave c.k e.k c.slot ∧ OnlyParts c.w e.w ∧
      e.p = { d.p with wait := .fuse } := by
  obtain ⟨i, p, hi, hp, hwait⟩ := hother
  have hmem : p ∈ d.atFuse.waveAfter.parts := by
    rw [waveAfter_parts hd.atFuse]
    exact List.mem_of_getElem? ((List.getElem?_set_ne (Ne.symm hi)).trans hp)
  have ht := standAt_fuse h hd
  rw [fuseAll_eq_self hmem hwait] at ht
  obtain ⟨e, he, hoc, how, hew, hep⟩ := ht.stands h hd.wg (waveAfter_lanes h hd.atFuse) (waveAfter_getElem h hd.atFuse)
  refine ⟨e, he, hoc, how, ?_, hep⟩
  rw [OnlyParts, hew, ← hw]
  rfl

/-- When every other part stands at `fuse`, the wave is one part again, which goes on. -/
theorem standAt_fuse_all (hpc : d.p.pc = c.p.pc) (hregs : SameRegs c.p d.p) (hfree : d.p.frozen = none)
    (hothers : ∀ (i : Nat) (p : Part), i ≠ c.idx → c.w.parts[i]? = some p → p.wait = .fuse ∧ p.frozen = none) :
    ∃ q, WaveAfter s (d.standAt 2) c { c.w with parts := [stepPast d.cyc q], rejoin := [] } ∧ q.lanes = liveLanes c.w ∧
      ∃ b ∈ c.w.parts, (∀ p ∈ c.w.parts, lowestLane b.lanes ≤ lowestLane p.lanes) ∧ q.pc = b.pc ∧ SameRegs b q := by
  have hlanes := waveAfter_lanes h hd.atFuse
  have hparts := waveAfter_parts hd.atFuse
  obtain ⟨hi, hp, -, -⟩ := partAt_idx h
  have hne : d.atFuse.waveAfter.parts ≠ [] := by
    rw [hparts, ← List.length_pos_iff, List.length_set]
    omega
  have hself : ∀ x ∈ d.atFuse.waveAfter.parts, x = d.atFuse.p ∨ ∃ i, i ≠ c.idx ∧ c.w.parts[i]? = some x := by
    intro x hx
    obtain ⟨i, hx⟩ := List.mem_iff_getElem?.mp (hparts ▸ hx)
    by_cases hic : c.idx = i
    · rw [← hic, List.getElem?_set_self hi] at hx
      exact .inl (Option.some.inj hx).symm
    · rw [List.getElem?_set_ne hic] at hx
      exact .inr ⟨i, Ne.symm hic, hx⟩
  obtain ⟨q, hq, hall⟩ := fuseAll_spec d.cyc hne (fun x hx => by
    rcases hself x hx with rfl | ⟨i, hic, hx⟩
    · exact ⟨rfl, hfree⟩
    · exact hothers i x hic hx)
  have ht := standAt_fuse h hd
  rw [hall] at ht
  obtain ⟨b, hb, hlow, hqpc, hqregs⟩ := hq.base
  have hlow' : ∀ p ∈ c.w.parts, lowestLane b.lanes ≤ lowestLane p.lanes := by
    intro p hp
    obtain ⟨x, hx, hxl⟩ := List.mem_map.mp (hlanes ▸ List.mem_map_of_mem hp : p.lanes ∈ d.atFuse.waveAfter.parts.map (·.lanes))
    rw [← hxl]
    exact hlow x hx
  refine ⟨q, ?_, ?_, ?_⟩
  · rw [← hw]
    exact ht
  · rw [hq.lanes_eq (tbit_liveLanes _), liveLanes_congr hlanes]
  · rcases hself b hb with rfl | ⟨i, -, hib⟩
    · exact ⟨c.p, List.mem_of_getElem? hp, fun p hp => hd.lanes ▸ hlow' p hp, hqpc.trans hpc, hregs.trans hqregs⟩
    · exact ⟨b, List.mem_of_getElem? hib, hlow', hqpc, hqregs⟩

end

/-! The instructions, outside handler mode. -/

theorem outsideHandler_of_none {c : Cx} (h : c.p.handler = none) (e : Effect) : outsideHandler c e = e := by
  simp [outsideHandler, h]

theorem exec_rejoin {s : State} {c : Cx} {f : Fields} (hi : Issues s c 0x008 f) (hh : c.p.handler = none) :
    exec (.rejoin f) s = .next ((c.issued 0x008 f).parkPath 1) :=
  runPart_whole hi (outsideHandler_of_none (c := c.issued 0x008 f) hh _)

theorem exec_fuse {s : State} {c : Cx} {f : Fields} (hi : Issues s c 0x009 f) (hh : c.p.handler = none) :
    exec (.fuse f) s = .next ((c.issued 0x009 f).parkPath 2) :=
  runPart_whole hi (outsideHandler_of_none (c := c.issued 0x009 f) hh _)

theorem exec_rejoin_single {s : State} {c : Cx} {f : Fields} (hi : Issues s c 0x008 f) (hh : c.p.handler = none)
    (hone : c.p.paths = []) : exec (.rejoin f) s = .next ((c.issued 0x008 f).standAt 1) := by
  rw [exec_rejoin hi hh, parkPath_single (d := c.issued 0x008 f) hone]

theorem exec_fuse_single {s : State} {c : Cx} {f : Fields} (hi : Issues s c 0x009 f) (hh : c.p.handler = none)
    (hone : c.p.paths = []) : exec (.fuse f) s = .next ((c.issued 0x009 f).standAt 2) := by
  rw [exec_fuse hi hh, parkPath_single (d := c.issued 0x009 f) hone]

/-- A part with another path to run parks the running one. -/
theorem issued_parkPath_resumes {s : State} {c : Cx} {op : Nat} {f : Fields} (h : partAt s s.cur = some c)
    (hpath : ∃ y ∈ c.p.paths, y.parkedAt = 0) (kind : Nat) : ∃ d, partAt ((c.issued op f).parkPath kind) s.cur = some d ∧
      OnlyCore s ((c.issued op f).parkPath kind) c.core ∧ OnlyWave c.k d.k c.slot ∧ OnlyParts c.w d.w ∧ d.p.lanes = c.p.lanes ∧
      SameRegs c.p d.p ∧ Resumes (parkedPaths c.p kind) d.p := by
  obtain ⟨q, hq, hl, hr, hres⟩ := parkPath_resumes (d := c.issued op f) (kind := kind) hpath
  have hd : WaveOnly c { c.issued op f with p := q } := (WaveOnly.issued c op f).trans (WaveOnly.part (c.issued op f) (fun _ => q) hl)
  obtain ⟨d, hp, hoc, how, hew, rfl⟩ := (waveAfter_commit h hd).stands h rfl (waveAfter_lanes h hd) (waveAfter_getElem h hd)
  rw [hq]
  exact ⟨d, hp, hoc, how, by rw [OnlyParts, hew]; rfl, hl, hr, hres⟩

/-- A part whose other paths are all parked there already is one path, and stands there. -/
theorem issued_parkPath_merges {c : Cx} {kind : Nat} (op : Nat) (f : Fields) (hkind : kind ≠ 0) (hne : c.p.paths ≠ [])
    (hrun : c.p.run ≠ 0) (hall : ∀ y ∈ c.p.paths, y.parkedAt = kind) : ∃ q, IsMerged (parkedPaths c.p kind) c.p q ∧
      WaveOnly c { c.issued op f with p := q } ∧
      (c.issued op f).parkPath kind = { c.issued op f with p := q }.standAt kind := by
  obtain ⟨q, hq, hm⟩ := parkPath_merges (d := c.issued op f) hkind hne hrun hall
  obtain ⟨hl, hpaths, hregs, hrun', hexec, hbase⟩ := hm
  exact ⟨q, ⟨hl, hpaths, hregs, hrun', hexec, hbase⟩,
    (WaveOnly.issued c op f).trans (WaveOnly.part (c.issued op f) (fun _ => q) hl), hq⟩

end Sys2Proof.Machine
end

section
/-! PROOFS. The obligation on `rejoin` and `fuse` (07 R123-R125, R127, R131; 09 R177, R178). -/
open Sys2Proof Sys2Proof.Machine

/-- Settles O19: a path parks, resumes or merges at `rejoin` and `fuse` (`parkPath`), a part of one path arrives or waits there
(`standAt`), and an entry is settled by a fusion or by passing through (`settleEntry`). -/
theorem rejoinAndFuse : Obligations.RejoinAndFuse := by
  unfold Obligations.RejoinAndFuse
  refine ⟨?goesOn, ?arrives, ?fuses, ?misses, ?expires, ?resumes, ?merges, ?waits, ?wholeWave⟩
  case goesOn =>
    intro s c f hi hh hone hm
    obtain ⟨d, hp, hoc, how, hop, hdp⟩ := standAt_rejoin_unmatched hi.1 (WaveOnly.issued c 0x008 f) rfl hm
    refine ⟨_, d, exec_rejoin_single hi hh hone, ?_⟩
    rw [hdp]
    exact ⟨hp, hoc, how, hop, ⟨rfl, rfl, rfl, rfl, rfl, rfl, rfl, rfl⟩, ⟨rfl, rfl, rfl, rfl, rfl⟩⟩
  case arrives =>
    intro s c f e hi hh hone hm
    obtain ⟨d, hp, hoc, how, hdw, hdp, he⟩ := standAt_rejoin_matched hi.1 (WaveOnly.issued c 0x008 f) rfl hm
    refine ⟨_, d, exec_rejoin_single hi hh hone, ?_⟩
    rw [hdp]
    refine ⟨hp, hoc, how, rfl, rfl, ⟨rfl, rfl, rfl, rfl, rfl⟩, hdw, _, he, arrivedAt_idx .., arrivedAt_arrived .., arrivedAt_started ..,
      fun hno => ?_, fun hyes => ?_⟩
    · simp [arrivedAt, hno]
    · simp [arrivedAt, hyes]
  case fuses =>
    intro w e rejoin cyc runs hfind hlast hexp hdone _ hpark
    obtain ⟨q, hq, hsettle⟩ := settleEntry_fuses hfind hlast hexp hdone hpark rejoin cyc runs
    obtain ⟨b, hb, hbpark, hlow, hpc, hregs⟩ := hq.parked_base
    dsimp only
    rw [hsettle]
    refine ⟨rfl, rfl, fun p hp => ?_, stepPast cyc q, mem_updPart ((mem_fusedAt hq.wait).mpr (.inl rfl)) rfl, rfl,
      hq.next.trans_le (le_max_left ..), fun i => (hq.lanes i).trans (by simp [and_assoc]),
      fun i => (hq.exec i).trans (by simp [and_assoc]), b, hb, hbpark, hlow, by rw [stepPast_pc, hpc], hregs⟩
    obtain ⟨x, hx, rfl | rfl⟩ := mem_updateWhere hp
    · exact not_parked_of_mem_fusedAt hq.wait hx
    · simp
  case misses =>
    intro w e rejoin cyc runs all hfind hmiss hexp hdone hdistinct hpark hall
    have hinj : ∀ p ∈ w.parts, ∀ x ∈ w.parts, lowestLane p.lanes = lowestLane x.lanes → p = x := fun p hp => (hdistinct p hp).2
    obtain ⟨q, hq, hnone, hsome⟩ := settleEntry_fuses_miss hfind hmiss hexp hdone hinj hpark rejoin cyc runs
    obtain ⟨b, hb, hbpark, hlow, hpc, hregs⟩ := hq.parked_base
    obtain rfl : q.lanes = all := hq.lanes_eq fun i => (hall i).trans (by simp [and_assoc])
    have hmem : q ∈ (fusedAt w e.idx q).parts := (mem_fusedAt hq.wait).mpr (.inl rfl)
    dsimp only
    cases hm : matchEntry (freeEntry w e.idx) q.lanes with
    | none =>
      rw [hnone hm]
      exact ⟨stepPast cyc q, mem_updPart hmem rfl, rfl, b, hb, hbpark, hlow, hregs,
        fun _ => ⟨rfl, by rw [stepPast_pc, hpc], rfl⟩, fun o ho => absurd (hm.symm.trans ho) nofun⟩
    | some o =>
      rw [hsome o hm]
      refine ⟨parkedOn o.idx (unparked cyc q), mem_updPart (w := putEntry _ _) (mem_updPart hmem rfl) rfl, rfl, b, hb, hbpark, hlow,
        hregs, fun hno => absurd (hm.symm.trans hno) nofun, fun o' ho' => ?_⟩
      obtain rfl : o = o' := Option.some.inj (hm.symm.trans ho')
      exact ⟨rfl, hpc, _, mem_putEntry (matchEntry_some hm) (arrivedAt_idx ..), arrivedAt_idx .., arrivedAt_arrived ..,
        arrivedAt_started ..⟩
  case expires =>
    intro w x rejoin cyc runs hfind e hexp hopen hstart hlate hnodup hno
    exact settleEntry_expires hfind hexp hopen hstart hlate hnodup hno cyc
  case resumes =>
    intro x hx s c f hi hh _ hpath
    rcases List.mem_cons.mp hx with rfl | hx
    · obtain ⟨d, h⟩ := issued_parkPath_resumes (op := 0x008) (f := f) hi.1 hpath 1
      exact ⟨_, d, exec_rejoin hi hh, h⟩
    · obtain rfl := List.mem_singleton.mp hx
      obtain ⟨d, h⟩ := issued_parkPath_resumes (op := 0x009) (f := f) hi.1 hpath 2
      exact ⟨_, d, exec_fuse hi hh, h⟩
  case merges =>
    intro s c f hh hne hrun
    refine ⟨fun hi hall hother => ?_, fun e hi hall hm => ?_⟩
    · obtain ⟨q, hq, hd, hpark⟩ := issued_parkPath_merges 0x009 f (by decide) hne hrun hall
      obtain ⟨d, hp, hoc, -, hop, hdp⟩ := standAt_fuse_waits hi.1 hd rfl hother
      refine ⟨_, d, exec_fuse hi hh, ?_⟩
      rw [hpark, hdp]
      exact ⟨hp, hoc, hop, rfl, hq.paths, hq.regs, hq.run, hq.exec, hq.base⟩
    · obtain ⟨q, hq, hd, hpark⟩ := issued_parkPath_merges 0x008 f (by decide) hne hrun hall
      obtain ⟨d, hp, hoc, -, -, hdp, -⟩ := standAt_rejoin_matched hi.1 hd rfl hm
      refine ⟨_, d, exec_rejoin hi hh, ?_⟩
      rw [hpark, hdp]
      exact ⟨hp, hoc, rfl, hq.paths, hq.regs, hq.run, hq.exec, hq.base⟩
  case waits =>
    intro s c f hi hh hone hother
    obtain ⟨d, hp, hoc, how, hop, hdp⟩ := standAt_fuse_waits hi.1 (WaveOnly.issued c 0x009 f) rfl hother
    refine ⟨_, d, exec_fuse_single hi hh hone, ?_⟩
    rw [hdp]
    exact ⟨hp, hoc, how, hop, rfl, rfl, rfl, rfl, rfl, rfl, rfl⟩
  case wholeWave =>
    intro s c f hi hh hone hfree hothers
    obtain ⟨q, ht, hlanes, b, hb, hlow, hpc, hregs⟩ := standAt_fuse_all hi.1 (WaveOnly.issued c 0x009 f) rfl rfl (SameRegs.refl c.p) hfree hothers
    refine ⟨_, _, stepPast _ q, exec_fuse_single hi hh hone, ht, rfl, rfl, rfl, hlanes, b, hb, hlow, ?_, hregs⟩
    rw [stepPast_pc, hpc]
end

section
/-! PROOFS. What the sequencer does to the shape of a wave: miss splits, the end of a deadline, forced fusion, starvation
(07 R118, R120, R124, R126, R128). -/
namespace Sys2Proof.Machine

/-! One wave of a core. -/

theorem OnlyWave.refl (k : Core) (slot : Nat) : OnlyWave k k slot := ⟨rfl, fun _ _ => rfl, fun _ => rfl⟩

theorem WaveAfter.refl {s : State} {r : PartRef} {c : Cx} (h : partAt s r = some c) : WaveAfter s s c c.w := by
  obtain ⟨-, hcore, hslot, hk, hw, -, -, -⟩ := partAt_some h
  rw [← hcore] at hk
  rw [hk, ← hslot] at hw
  exact ⟨OnlyCore.refl s _, hk ▸ OnlyWave.refl _ _, hw⟩

/-- A change of a wave changes nothing else. -/
theorem updWave_spec {s : State} {core slot : Nat} {w : Wave} (h : getWave (getCore s core) slot = some w) (g : Wave → Wave) :
    OnlyCore s (updWave s core slot g) core ∧ OnlyWave (getCore s core) (getCore (updWave s core slot g) core) slot ∧
      getWave (getCore (updWave s core slot g) core) slot = some (g w) :=
  ⟨updWave_onlyCore .., updWave_onlyWave h g, by rw [getWave_updWave, h]; rfl⟩

/-! Splitting on a miss (R120). -/

/-- The entry that a push makes (R122). -/
def newEntry (w : Wave) (lanes : Lanes) (miss : Bool) : RejoinEntry :=
  { idx := freeIdx w, lanes := lanes, token := w.token, expect := quadsOf lanes, miss := miss }

theorem pushEntry_room {w : Wave} (h : w.rejoin.length < 16) (lanes : Lanes) (miss : Bool) (rejoin cyc : Nat) :
    pushEntry w lanes miss rejoin cyc = { w with rejoin := newEntry w lanes miss :: w.rejoin, token := w.token + 1 } := by
  simp only [pushEntry, h, if_true]
  rfl

/-- A part cut to some of its lanes. -/
def cutTo (m : Lanes) (p : Part) : Part := { p with lanes := m, run := p.run &&& m, exec := p.exec &&& m }

/-- The lanes of a part that go on, where those of a load's complete quads do (R120). -/
def goingOn (c : Cx) (ld : Load) : Lanes := c.p.lanes &&& quadLanes (readyQuads c.p ld)

/-- The wave once a part has split on a load: its ready lanes may issue from the next cycle, the others wait on. -/
def splitOn (c : Cx) (ld : Load) (w : Wave) : Wave :=
  retest { updLoad w ld.id (fun x => { x with maySplit := false }) with
    parts := sortParts (unparked c.cyc (cutTo (goingOn c ld) c.p) :: cutTo (c.p.lanes &&& ~~~goingOn c ld) c.p ::
      w.parts.filter (fun q => lowestLane q.lanes != c.lane)) }

theorem missSplit_eq {s : State} {p : PartRef} {c : Cx} {ld : Load} (hp : partAt s p = some c) (hraised : c.p.raised = none)
    (hmode : c.g.kernel.splitMiss = true) (hquads : 2 ≤ popCount (quadsOf c.p.lanes)) (hpaths : c.p.paths = []) (hwindow : c.p.window = none)
    (hwait : c.p.wait = .score) (hfrozen : c.p.frozen = none) (hhalted : c.w.halted = false)
    (haside : ∀ h, c.p.handler = some h → h.aside = []) (hld : splitLoad s c = some ld) : missSplit p s =
      updWave s c.core c.slot (fun w => splitOn c ld (pushEntry w c.p.lanes true c.g.kernel.rejoin c.cyc)) := by
  have hmay : (c.g.kernel.splitMiss && decide (2 ≤ popCount c.qmask) && c.p.paths.isEmpty && c.p.window.isNone &&
      decide (c.p.wait = .score) && c.p.raised.isNone && c.p.frozen.isNone && !c.w.halted &&
      c.p.handler.all (fun h => h.aside.isEmpty)) = true := by
    simpa [hraised, hmode, Cx.qmask, hquads, hpaths, hwindow, hwait, hfrozen, hhalted, Option.all_eq_true] using haside
  simp only [missSplit, hp, hmay, hld, Bool.not_true, Bool.false_eq_true, if_false]
  rfl

/-- Both parts of a part that waited for the load are in the wave. -/
theorem mem_splitOn {c : Cx} (hwait : c.p.wait = .score) (ld : Load) (w : Wave) :
    unparked c.cyc (cutTo (goingOn c ld) c.p) ∈ (splitOn c ld w).parts ∧
      cutTo (c.p.lanes &&& ~~~goingOn c ld) c.p ∈ (splitOn c ld w).parts := by
  have hparts {x : Part} (hx : x.wait ≠ .width) (hmem : x ∈ unparked c.cyc (cutTo (goingOn c ld) c.p) ::
      cutTo (c.p.lanes &&& ~~~goingOn c ld) c.p :: w.parts.filter (fun q => lowestLane q.lanes != c.lane)) : x ∈ (splitOn c ld w).parts := by
    rw [splitOn, retest_parts]
    exact List.mem_map.mpr ⟨x, mem_sortParts.mpr hmem, retested_of_ne hx⟩
  exact ⟨hparts nofun List.mem_cons_self, hparts (fun h => absurd (hwait.symm.trans h) nofun) (List.mem_cons_of_mem _ List.mem_cons_self)⟩

/-! Forced fusion (R126). -/

/-- A part stalled at a width requirement, at one PC and inside one entry. -/
def stalledAt (w : Wave) (key : Word × Option Nat) (p : Part) : Bool :=
  p.wait = .width && p.frozen.isNone && decide ((p.pc, (matchEntry w p.lanes).map (·.idx)) = key)

theorem stalledAt_iff {w : Wave} {key : Word × Option Nat} {p : Part} : stalledAt w key p = true ↔
    p.wait = .width ∧ p.frozen = none ∧ (p.pc, (matchEntry w p.lanes).map (·.idx)) = key := by
  simp [stalledAt, and_assoc]

theorem fuseGroup_some {w : Wave} {key : Word × Option Nat} (h : fuseGroup w = some key) : ∃ p ∈ w.parts, stalledAt w key p = true := by
  obtain ⟨p, hp, hkey⟩ := Option.map_eq_some_iff.mp h
  obtain ⟨hw, hst⟩ := List.mem_filter.mp (List.mem_of_find?_eq_some hp)
  exact ⟨p, hw, Bool.and_eq_true_iff.mpr ⟨hst, decide_eq_true hkey⟩⟩

section
variable {s : State} {core slot : Nat} {w : Wave} (hw : getWave (getCore s core) slot = some w) (hfrozen : w.frozen = none)
  (hhalted : w.halted = false)
include hw hfrozen hhalted

theorem forceFuse_group {key : Word × Option Nat} (h : fuseGroup w = some key) :
    forceFuse s core slot = updWave s core slot (fun w => fuseWhere w (coreCyc s core) (stalledAt w key)) := by
  simp only [forceFuse, hw, hfrozen, hhalted, h, Option.isSome_none, Bool.or_self, Bool.false_eq_true, if_false]
  rfl

theorem forceFuse_deadlock (h : fuseGroup w = none) (hall : allStalled w = true) :
    forceFuse s core slot = raiseAll s core slot (w.parts.map (fun p => lowestLane p.lanes)) 0x0A := by
  simp only [forceFuse, hw, hfrozen, hhalted, h, hall, Option.isSome_none, Bool.or_self, Bool.false_eq_true, if_false, if_true]

end

/-! The events. -/

/-- A part that has been ready for 64 cycles ranks first at its port (R118). -/
def markStarved (q : Part) : Part := if 64 ≤ q.readyFor then { q with starved := true } else q

theorem markStarved_lanes (q : Part) : (markStarved q).lanes = q.lanes := by
  unfold markStarved
  split <;> rfl

theorem exec_issueStarvation {s : State} {p : PartRef} {c : Cx} (hp : partAt s p = some c) :
    exec (.issueStarvation p) s = .next (updWave s c.core c.slot (fun w => updPart w p.lane markStarved)) := by
  obtain ⟨-, hcore, hslot, -⟩ := partAt_some hp
  rw [hcore, hslot]
  rfl

theorem exec_missSplit_early {s : State} {p : PartRef} (h : issuesDone s p.core = false) : exec (.missSplit p) s = .next s := by
  show execMissSplit p s = _
  simp [execMissSplit, h]

theorem exec_missSplit {s : State} {p : PartRef} (h : issuesDone s p.core = true) : exec (.missSplit p) s = .next (missSplit p s) := by
  show execMissSplit p s = _
  simp [execMissSplit, h]

theorem exec_rejoinExpire {s : State} {core : Nat} (h : issuesDone s core = true) (slot entry : Nat) :
    exec (.rejoinExpire core slot entry) s = .next (updWave s core slot (fun w => settleEntry (waveKernel (getCore s core) w).rejoin
      (coreCyc s core) (waveActive (getCore s core) w && !w.halted && w.frozen.isNone) w entry)) := by
  show execRejoinExpire core slot entry s = _
  simp [execRejoinExpire, h]

end Sys2Proof.Machine
end

section
/-! PROOFS. The obligation on the events that change the shape of a wave (07 R118, R120, R124, R126, R128). -/
open Sys2Proof Sys2Proof.Machine

/-- Settles O47: each event changes one wave, and that by a split, a passage, a fusion or a mark. -/
theorem shapeEvents : Obligations.ShapeEvents := by
  unfold Obligations.ShapeEvents
  refine ⟨fun s p h => exec_missSplit_early h, ?splits, ?expires, ?forced, ?starves⟩
  case splits =>
    intro s p c ld hp hdone hraised hmode hquads hpaths hwindow hwait hfrozen hhalted haside hld hroom
    have hpush := pushEntry_room hroom c.p.lanes true c.g.kernel.rejoin c.cyc
    have ht := (WaveAfter.refl hp).updWave (fun w => splitOn c ld (pushEntry w c.p.lanes true c.g.kernel.rejoin c.cyc))
    rw [← missSplit_eq hp hraised hmode hquads hpaths hwindow hwait hfrozen hhalted haside hld, hpush] at ht
    obtain ⟨hgo, hstay⟩ := mem_splitOn hwait ld
      { c.w with rejoin := newEntry c.w c.p.lanes true :: c.w.rejoin, token := c.w.token + 1 }
    exact ⟨_, _, exec_missSplit hdone, ht, rfl, ⟨newEntry c.w c.p.lanes true, rfl, rfl, rfl, rfl, rfl⟩, _, hgo, _, hstay,
      SameRegs.refl c.p, SameRegs.refl c.p, rfl, rfl, rfl, rfl, rfl, Nat.lt_of_succ_le (le_max_right ..), rfl, rfl, hwait⟩
  case expires =>
    intro s core slot w e hw hfind hdone hactive hhalted hfrozen hstart hdeadline hlast hexp hopen hnodup
    have hruns : (waveActive (getCore s core) w && !w.halted && w.frozen.isNone) = true := by simp [hactive, hhalted, hfrozen]
    have hsettle := settleEntry_expires (rejoin := (waveKernel (getCore s core) w).rejoin) hfind hexp hopen hstart
      (.inr (.inr ⟨hruns, hdeadline⟩)) hnodup (fun hmiss => absurd (hlast.symm.trans hmiss) nofun) (coreCyc s core)
    obtain ⟨hoc, how, hw'⟩ := updWave_spec hw (fun w => settleEntry (waveKernel (getCore s core) w).rejoin
      (coreCyc s core) (waveActive (getCore s core) w && !w.halted && w.frozen.isNone) w e.idx)
    rw [hsettle] at hw'
    refine ⟨_, _, exec_rejoinExpire hdone slot e.idx, hoc, how, hw', rfl, List.length_map .., fun j p hj => ?_⟩
    refine ⟨_, by rw [List.getElem?_map, hj]; rfl, fun hno => if_neg hno, fun hpark => ?_⟩
    rw [if_pos hpark]
    exact ⟨rfl, rfl, rfl, rfl, SameRegs.refl p⟩
  case forced =>
    intro s core slot w hw hfrozen hhalted
    refine ⟨fun key hkey => ?_, fun hnone hall => congrArg Host.Outcome.next (forceFuse_deadlock hw hfrozen hhalted hnone hall)⟩
    obtain ⟨q, hq, hfused⟩ := fuseWhere_spec (coreCyc s core) (fuseGroup_some hkey)
    obtain ⟨b, hb, -, hpc, -⟩ := hq.base
    obtain ⟨-, -, hbkey⟩ := stalledAt_iff.mp (List.mem_filter.mp hb).2
    obtain ⟨hoc, how, hw'⟩ := updWave_spec hw (fun w => fuseWhere w (coreCyc s core) (stalledAt w key))
    rw [hfused] at hw'
    refine ⟨_, _, congrArg Host.Outcome.next (forceFuse_group hw hfrozen hhalted hkey), hoc, how, hw', rfl, q, ?_, hq.wait,
      by rw [hpc, ← hbkey], fun i => ?_, fun i => ?_⟩
    · exact List.mem_map.mpr ⟨q, mem_sortParts.mpr List.mem_cons_self, retested_of_ne (by simp [hq.wait])⟩
    · simp only [hq.lanes, List.mem_filter, stalledAt_iff, and_assoc]
    · simp only [hq.exec, List.mem_filter, stalledAt_iff, and_assoc]
  case starves =>
    intro s p c hp hready
    obtain ⟨d, hd, hoc, how, hw, hdp⟩ := (WaveAfter.refl hp).updWave (fun w => updPart w p.lane markStarved) |>.stands hp rfl
      (updPart_lanes _ _ markStarved_lanes) (p := { c.p with starved := true }) (by
        obtain ⟨-, hpart, hlow, -⟩ := partAt_idx hp
        rw [getElem?_updPart, hpart, Option.map_some, if_pos hlow, markStarved, if_pos hready])
    refine ⟨_, d, exec_issueStarvation hp, hd, hoc, how, ?_, hdp⟩
    rw [OnlyParts, hw]
    rfl
end

section
/-! PROOFS. Exact values and the codes of the formats: sums, products, scalings, magnitudes and the number that a code's fields
stand for (08 R134, R135). -/
namespace Sys2Proof.Machine

/-! Finite values (R135). -/

theorem FVal.finite_iff {v : FVal} : v.finite ↔ ∃ s m e, v = .num s m e := by
  cases v <;> simp [FVal.finite]

theorem notFinite_iff {v : FVal} : notFinite v = true ↔ ¬ v.finite := by
  cases v <;> simp [notFinite, FVal.finite]

theorem FVal.value_num (s : Bool) (m : Nat) (e : Int) : (FVal.num s m e).value = (if s then -1 else 1) * m * 2 ^ e := rfl

theorem FVal.abs_value_num (s : Bool) (m : Nat) (e : Int) : |(FVal.num s m e).value| = m * 2 ^ e := by
  have h : (0 : ℚ) ≤ m * 2 ^ e := by positivity
  cases s <;> simp [FVal.value_num, abs_of_nonneg h]

theorem FVal.value_num_eq_zero {s : Bool} {m : Nat} {e : Int} : (FVal.num s m e).value = 0 ↔ m = 0 := by
  cases s <;> simp [FVal.value_num, zpow_ne_zero]

theorem FVal.value_num_neg {s : Bool} {m : Nat} {e : Int} : (FVal.num s m e).value < 0 ↔ s = true ∧ m ≠ 0 := by
  have h : (0 : ℚ) < 2 ^ e := by positivity
  cases s
  · simp [FVal.value_num, not_lt.mpr (mul_nonneg (Nat.cast_nonneg (α := ℚ) m) h.le)]
  · simp [FVal.value_num, mul_pos_iff_of_pos_right h, Nat.pos_iff_ne_zero]

theorem isZeroVal_iff {v : FVal} (h : v.finite) : isZeroVal v = true ↔ v.value = 0 := by
  obtain ⟨s, m, e, rfl⟩ := FVal.finite_iff.mp h
  rw [FVal.value_num_eq_zero, isZeroVal, decide_eq_true_iff]

/-! Exact operations (R135). -/

/-- A number on a grid below its own exponent, as `FVal.add` and `FVal.cmp` write it. -/
theorem FVal.value_num_shift (s : Bool) (m : Nat) {e lo : Int} (h : lo ≤ e) :
    (((if s then -1 else 1) * (m * 2 ^ (e - lo).toNat : Nat) : Int) : ℚ) * 2 ^ lo = (FVal.num s m e).value := by
  have hpow : ((2 : ℚ) ^ (e - lo).toNat) * 2 ^ lo = 2 ^ e := by
    rw [← zpow_natCast, ← zpow_add₀ two_ne_zero, Int.toNat_of_nonneg (by omega)]
    congr 1
    omega
  rw [FVal.value_num, ← hpow]
  push_cast
  ring

theorem FVal.value_num_int (z e : Int) : (FVal.num (decide (z < 0)) z.natAbs e).value = z * 2 ^ e := by
  rcases lt_or_ge z 0 with hz | hz
  · simp [FVal.value_num, hz, Nat.cast_natAbs, abs_of_neg hz]
  · simp [FVal.value_num, not_lt.mpr hz, Nat.cast_natAbs, abs_of_nonneg hz]

/-- The grid sum of two numbers, which `FVal.add` signs. -/
def gridSum (s : Bool) (m : Nat) (e : Int) (t : Bool) (n : Nat) (d : Int) : Int :=
  (if s then -1 else 1) * (m * 2 ^ (e - min e d).toNat : Nat) + (if t then -1 else 1) * (n * 2 ^ (d - min e d).toNat : Nat)

theorem FVal.add_num (mode : Nat) (s : Bool) (m : Nat) (e : Int) (t : Bool) (n : Nat) (d : Int) :
    (FVal.num s m e).add mode (.num t n d) = if gridSum s m e t n d = 0 then
      .num (if m = 0 && n = 0 && s = t then s else decide (mode = 3)) 0 0
      else .num (decide (gridSum s m e t n d < 0)) (gridSum s m e t n d).natAbs (min e d) := rfl

theorem gridSum_value (s : Bool) (m : Nat) (e : Int) (t : Bool) (n : Nat) (d : Int) :
    (gridSum s m e t n d : ℚ) * 2 ^ min e d = (FVal.num s m e).value + (FVal.num t n d).value := by
  rw [← FVal.value_num_shift s m (min_le_left e d), ← FVal.value_num_shift t n (min_le_right e d), gridSum, Int.cast_add, add_mul]

theorem FVal.add_exact {a b : FVal} (mode : Nat) (ha : a.finite) (hb : b.finite) :
    (a.add mode b).finite ∧ (a.add mode b).value = a.value + b.value := by
  obtain ⟨s, m, e, rfl⟩ := FVal.finite_iff.mp ha
  obtain ⟨t, n, d, rfl⟩ := FVal.finite_iff.mp hb
  rw [FVal.add_num, ← gridSum_value]
  split
  next hz => exact ⟨trivial, by simp [hz, FVal.value_num]⟩
  next => exact ⟨trivial, FVal.value_num_int _ _⟩

/-- The sign of an exact zero sum. -/
theorem FVal.add_zero_sign {s t : Bool} {m n mode : Nat} {e d : Int} (h : ((FVal.num s m e).add mode (.num t n d)).value = 0) :
    (FVal.num s m e).add mode (.num t n d) = .num (if m = 0 ∧ n = 0 ∧ s = t then s else decide (mode = 3)) 0 0 := by
  have hz : gridSum s m e t n d = 0 := by
    have hsum := (FVal.add_exact mode (a := .num s m e) (b := .num t n d) trivial trivial).2
    rw [h, ← gridSum_value] at hsum
    simpa [zpow_ne_zero] using hsum.symm
  rw [FVal.add_num, if_pos hz]
  simp [and_assoc]

theorem FVal.add_eq_nan_iff {a b : FVal} {mode : Nat} :
    a.add mode b = .nan ↔ a = .nan ∨ b = .nan ∨ ∃ s, a = .inf s ∧ b = .inf !s := by
  cases a <;> cases b
  case num.num => rw [FVal.add_num]; split <;> simp
  case inf.inf s t => cases s <;> cases t <;> simp [FVal.add]
  all_goals simp [FVal.add]

theorem FVal.add_eq_inf_iff {a b : FVal} {mode : Nat} {s : Bool} :
    a.add mode b = .inf s ↔ (a = .inf s ∧ b ≠ .nan ∧ b ≠ .inf !s) ∨ (b = .inf s ∧ a ≠ .nan ∧ a ≠ .inf !s) := by
  cases a <;> cases b
  case num.num => rw [FVal.add_num]; split <;> simp
  case inf.inf t u => cases s <;> cases t <;> cases u <;> simp [FVal.add]
  all_goals simp [FVal.add]

theorem FVal.mul_exact {a b : FVal} (ha : a.finite) (hb : b.finite) :
    (a.mul b).finite ∧ (a.mul b).value = a.value * b.value := by
  obtain ⟨s, m, e, rfl⟩ := FVal.finite_iff.mp ha
  obtain ⟨t, n, d, rfl⟩ := FVal.finite_iff.mp hb
  refine ⟨trivial, ?_⟩
  have hsign : (if (s != t) = true then (-1 : ℚ) else 1) = (if s then -1 else 1) * (if t then -1 else 1) := by
    cases s <;> cases t <;> norm_num
  rw [FVal.mul, FVal.value_num, FVal.value_num, FVal.value_num, hsign, zpow_add₀ two_ne_zero]
  push_cast
  ring

/-- The infinities, NaN and the sign of a product (R135). -/
theorem FVal.mul_special (a b : FVal) :
    let infZero := fun (x y : FVal) => (∃ s, x = .inf s) ∧ isZeroVal y = true
    (a.mul b = .nan ↔ a = .nan ∨ b = .nan ∨ infZero a b ∨ infZero b a) ∧
    ((∃ s, a.mul b = .inf s) ↔ a.mul b ≠ .nan ∧ ((∃ s, a = .inf s) ∨ ∃ s, b = .inf s)) ∧
    (a.mul b ≠ .nan → (a.mul b).isNeg = (a.isNeg != b.isNeg)) := by
  cases a <;> cases b
  case inf.num s t n d => by_cases hn : n = 0 <;> simp [FVal.mul, isZeroVal, FVal.isNeg, hn]
  case num.inf s m e t => by_cases hm : m = 0 <;> simp [FVal.mul, isZeroVal, FVal.isNeg, hm]
  all_goals simp [FVal.mul, isZeroVal, FVal.isNeg]

theorem FVal.neg_exact {a : FVal} (ha : a.finite) : a.neg.finite ∧ a.neg.value = -a.value := by
  obtain ⟨s, m, e, rfl⟩ := FVal.finite_iff.mp ha
  refine ⟨trivial, ?_⟩
  cases s <;> simp [FVal.neg, FVal.value_num]

theorem FVal.scale_exact {a : FVal} {k : Int} (ha : a.finite) (hlo : -1024 ≤ k) (hhi : k ≤ 1024) :
    (a.scale k).finite ∧ (a.scale k).value = a.value * 2 ^ k := by
  obtain ⟨s, m, e, rfl⟩ := FVal.finite_iff.mp ha
  refine ⟨trivial, ?_⟩
  rw [FVal.scale, min_eq_right hhi, max_eq_right hlo, FVal.value_num, FVal.value_num, zpow_add₀ two_ne_zero]
  ring

/-! Codes (R134). -/

/-- The number with the fields of a magnitude code, as `Fmt.decode` reads them. -/
def Fmt.numOf (x : Fmt) (neg : Bool) (body : Nat) : FVal :=
  if body / 2 ^ x.m = 0 then .num neg (body % 2 ^ x.m) (1 - x.bias - x.m)
  else .num neg (2 ^ x.m + body % 2 ^ x.m) ((body / 2 ^ x.m : Nat) - x.bias - x.m)

theorem Fmt.numOf_finite (x : Fmt) (neg : Bool) (body : Nat) : (x.numOf neg body).finite := by
  unfold Fmt.numOf
  split <;> trivial

/-- How the magnitude codes past the largest finite one divide between infinity and NaN: as in IEEE 754, one NaN on top
as in E4M3, or no such code as in E2M1. -/
inductive Fmt.Past (x : Fmt) : Prop where
  | ieee (hinf : x.inf = some (x.maxCode + 1))
  | oneNan (hinf : x.inf = none) (hnan : x.nan = some (x.maxCode + 1)) (hlast : x.maxCode + 2 = 2 ^ (x.w - 1))
  | none (hinf : x.inf = none) (hnan : x.nan = none) (hlast : x.maxCode + 1 = 2 ^ (x.w - 1))

/-- What the rounding and the decoding of a format rest on: at least one fraction bit, a normal number as the largest finite
one, and the codes past it. -/
structure Fmt.Sound (x : Fmt) : Prop where
  frac : 1 ≤ x.m
  normal : 2 ^ x.m ≤ x.maxCode
  fits : x.maxCode < 2 ^ (x.w - 1)
  past : x.Past

theorem fp32_sound : fp32.Sound := ⟨by decide, by decide, by decide, .ieee rfl⟩

theorem sound_of_mem {x : Fmt} (hx : x ∈ [fp16, bf16, e5m2, e4m3, e2m1]) : x.Sound := by
  simp only [List.mem_cons, List.not_mem_nil, or_false] at hx
  rcases hx with rfl | rfl | rfl | rfl | rfl
  · exact ⟨by decide, by decide, by decide, .ieee rfl⟩
  · exact ⟨by decide, by decide, by decide, .ieee rfl⟩
  · exact ⟨by decide, by decide, by decide, .ieee rfl⟩
  · exact ⟨by decide, by decide, by decide, .oneNan rfl rfl rfl⟩
  · exact ⟨by decide, by decide, by decide, .none rfl rfl rfl⟩

/-- A magnitude code is that of a finite number exactly up to the largest one. -/
theorem Fmt.Sound.decode_of_le {x : Fmt} (hx : x.Sound) {code : Nat} (h : code % 2 ^ (x.w - 1) ≤ x.maxCode) :
    x.decode code = x.numOf (code.testBit (x.w - 1)) (code % 2 ^ (x.w - 1)) := by
  unfold Fmt.decode Fmt.numOf
  cases hx.past with
  | ieee hinf => simp [hinf, Nat.not_lt.mpr (Nat.le_succ_of_le h), (Nat.lt_succ_of_le h).ne']
  | oneNan hinf hnan hlast => simp [hinf, hnan, (Nat.lt_succ_of_le h).ne]
  | none hinf hnan hlast => simp [hinf, hnan]

theorem Fmt.Sound.decode_past {x : Fmt} (hx : x.Sound) {code : Nat} (h : x.maxCode < code % 2 ^ (x.w - 1)) :
    x.decode code = if x.inf = some (code % 2 ^ (x.w - 1)) then .inf (code.testBit (x.w - 1)) else .nan := by
  have hlt : code % 2 ^ (x.w - 1) < 2 ^ (x.w - 1) := Nat.mod_lt _ (by positivity)
  unfold Fmt.decode
  cases hx.past with
  | ieee hinf =>
    by_cases he : x.maxCode + 1 = code % 2 ^ (x.w - 1)
    · simp [hinf, ← he]
    · simp [hinf, he, lt_of_le_of_ne (Nat.succ_le_of_lt h) he]
  | oneNan hinf hnan hlast =>
    have he : code % 2 ^ (x.w - 1) = x.maxCode + 1 := by omega
    simp [hinf, hnan, he]
  | none hinf hnan hlast => omega

theorem Fmt.Sound.decode_finite_iff {x : Fmt} (hx : x.Sound) {code : Nat} :
    (x.decode code).finite ↔ code % 2 ^ (x.w - 1) ≤ x.maxCode := by
  refine ⟨fun hf => not_lt.mp fun h => ?_, fun h => by rw [hx.decode_of_le h]; exact x.numOf_finite _ _⟩
  rw [hx.decode_past h] at hf
  split at hf <;> exact hf

/-- The magnitude with the fields of a magnitude code. -/
def Fmt.magValue (x : Fmt) (body : Nat) : ℚ :=
  if body / 2 ^ x.m = 0 then (body % 2 ^ x.m : Nat) * 2 ^ (1 - x.bias - x.m)
  else (2 ^ x.m + body % 2 ^ x.m : Nat) * 2 ^ ((body / 2 ^ x.m : Nat) - x.bias - x.m)

theorem Fmt.numOf_value (x : Fmt) (neg : Bool) (body : Nat) :
    (x.numOf neg body).value = (if neg then -1 else 1) * x.magValue body := by
  unfold Fmt.numOf Fmt.magValue
  split <;> rw [FVal.value_num, mul_assoc]

theorem Fmt.numOf_isNeg (x : Fmt) (neg : Bool) (body : Nat) : (x.numOf neg body).isNeg = neg := by
  unfold Fmt.numOf
  split <;> rfl

/-! Fields of a code. -/

section
variable {x : Fmt} {eb : Nat} (hw : x.w - 1 = x.m + eb)
include hw

theorem Fmt.body_div (code : Nat) : code % 2 ^ (x.w - 1) / 2 ^ x.m = code / 2 ^ x.m % 2 ^ eb := by
  rw [hw, pow_add, Nat.mod_mul_right_div_self]

theorem Fmt.body_mod (code : Nat) : code % 2 ^ (x.w - 1) % 2 ^ x.m = code % 2 ^ x.m := by
  rw [hw, pow_add, Nat.mod_mul_right_mod]

/-- The sign and the value of a finite code, by its fields. -/
theorem Fmt.Sound.decode_value (hx : x.Sound) {code : Nat} (hf : (x.decode code).finite) :
    (x.decode code).isNeg = code.testBit (x.w - 1) ∧
    (x.decode code).value = (if code.testBit (x.w - 1) then -1 else 1) *
      (if code / 2 ^ x.m % 2 ^ eb = 0 then ((code % 2 ^ x.m : Nat) : ℚ) * 2 ^ (1 - x.bias - (x.m : Int))
       else ((2 ^ x.m + code % 2 ^ x.m : Nat) : ℚ) * 2 ^ (((code / 2 ^ x.m % 2 ^ eb : Nat) : Int) - x.bias - (x.m : Int))) := by
  rw [hx.decode_of_le (hx.decode_finite_iff.mp hf)]
  refine ⟨x.numOf_isNeg _ _, ?_⟩
  rw [Fmt.numOf_value, Fmt.magValue, Fmt.body_div hw, Fmt.body_mod hw]

/-- Infinities and NaNs as in IEEE 754: the top exponent, with a zero or another fraction. -/
theorem Fmt.Sound.decode_ieee (hx : x.Sound) (hinf : x.inf = some (x.maxCode + 1)) (htop : x.maxCode + 1 = 2 ^ x.m * (2 ^ eb - 1))
    (code : Nat) :
    (x.decode code = .nan ↔ code / 2 ^ x.m % 2 ^ eb = 2 ^ eb - 1 ∧ code % 2 ^ x.m ≠ 0) ∧
    (∀ s, x.decode code = .inf s ↔ code / 2 ^ x.m % 2 ^ eb = 2 ^ eb - 1 ∧ code % 2 ^ x.m = 0 ∧ s = code.testBit (x.w - 1)) := by
  have hle : code / 2 ^ x.m % 2 ^ eb ≤ 2 ^ eb - 1 := Nat.le_sub_one_of_lt (Nat.mod_lt _ (by positivity))
  have hsplit := Nat.div_add_mod (code % 2 ^ (x.w - 1)) (2 ^ x.m)
  rw [Fmt.body_div hw, Fmt.body_mod hw] at hsplit
  rcases hle.lt_or_eq with he | he
  · have hbody : code % 2 ^ (x.w - 1) ≤ x.maxCode := by
      have hlt := (Nat.div_lt_iff_lt_mul (by positivity)).mp (Fmt.body_div hw code ▸ he)
      rw [mul_comm, ← htop] at hlt
      omega
    obtain ⟨s, m, e, hnum⟩ := FVal.finite_iff.mp (hx.decode_finite_iff.mpr hbody)
    simp [hnum, he.ne]
  · rw [he, ← htop] at hsplit
    rw [hx.decode_past (by omega), hinf, ← hsplit, he]
    by_cases ht : code % 2 ^ x.m = 0 <;> simp [ht, eq_comm]

/-- One NaN on top and no infinity, as in E4M3. -/
theorem Fmt.Sound.decode_oneNan (hx : x.Sound) (hinf : x.inf = none) (hlast : x.maxCode + 2 = 2 ^ (x.w - 1)) (code : Nat) :
    (x.decode code = .nan ↔ code / 2 ^ x.m % 2 ^ eb = 2 ^ eb - 1 ∧ code % 2 ^ x.m = 2 ^ x.m - 1) ∧
    ∀ s, x.decode code ≠ .inf s := by
  have he : code / 2 ^ x.m % 2 ^ eb < 2 ^ eb := Nat.mod_lt _ (by positivity)
  have ht : code % 2 ^ x.m < 2 ^ x.m := Nat.mod_lt _ (by positivity)
  have hsplit := Nat.div_add_mod (code % 2 ^ (x.w - 1)) (2 ^ x.m)
  rw [Fmt.body_div hw, Fmt.body_mod hw] at hsplit
  have hprod : x.maxCode + 2 = 2 ^ x.m * (2 ^ eb - 1) + 2 ^ x.m := by
    rw [hlast, hw, pow_add, Nat.mul_sub_one, Nat.sub_add_cancel (Nat.le_mul_of_pos_right _ (by positivity))]
  rcases le_or_gt (code % 2 ^ (x.w - 1)) x.maxCode with hle | hgt
  · obtain ⟨s, m, e, hnum⟩ := FVal.finite_iff.mp (hx.decode_finite_iff.mpr hle)
    refine ⟨by rw [hnum]; refine ⟨nofun, fun ⟨h1, h2⟩ => ?_⟩; rw [h1, h2] at hsplit; omega, by simp [hnum]⟩
  · rw [hx.decode_past hgt, hinf]
    simp only [reduceCtorEq, if_false, ne_eq, not_false_eq_true, implies_true, and_true, true_iff]
    have hlt := Nat.mod_lt code (show 0 < 2 ^ (x.w - 1) by positivity)
    have htop : code / 2 ^ x.m % 2 ^ eb = 2 ^ eb - 1 := by
      by_contra hne
      have := Nat.mul_le_mul_left (2 ^ x.m) (show code / 2 ^ x.m % 2 ^ eb + 1 ≤ 2 ^ eb - 1 by omega)
      rw [mul_add] at this
      omega
    rw [htop] at hsplit
    exact ⟨htop, by omega⟩

end

/-- A format without other codes, as E2M1, has finite values only. -/
theorem Fmt.Sound.decode_all_finite {x : Fmt} (hx : x.Sound) (hlast : x.maxCode + 1 = 2 ^ (x.w - 1)) (code : Nat) :
    (x.decode code).finite :=
  hx.decode_finite_iff.mpr (Nat.le_of_lt_succ (hlast ▸ Nat.mod_lt _ (by positivity)))

/-- The codes of FP16, BF16 and E5M2, as R134's table lays them out. -/
theorem codes_of_ieee {x : Fmt} {eb : Nat} (hx : x.Sound) (hw : x.w - 1 = x.m + eb) (hinf : x.inf = some (x.maxCode + 1))
    (htop : x.maxCode + 1 = 2 ^ x.m * (2 ^ eb - 1)) (hkind : (x = fp16 ∨ x = bf16 ∨ x = e5m2) ∧ x ≠ e4m3) (code : Nat) :
    let e : Nat := code / 2 ^ x.m % 2 ^ eb
    let t : Nat := code % 2 ^ x.m
    let top := e = 2 ^ eb - 1 ∧ (x = fp16 ∨ x = bf16 ∨ x = e5m2)
    (x.decode code = .nan ↔ (top ∧ t ≠ 0) ∨ (x = e4m3 ∧ e = 15 ∧ t = 7)) ∧
    (∀ s, x.decode code = .inf s ↔ top ∧ t = 0 ∧ s = code.testBit (x.w - 1)) ∧
    ((x.decode code).finite → (x.decode code).isNeg = code.testBit (x.w - 1) ∧
      (x.decode code).value = (if code.testBit (x.w - 1) then -1 else 1) *
        (if e = 0 then (t : ℚ) * 2 ^ (1 - x.bias - (x.m : Int))
         else ((2 ^ x.m + t : Nat) : ℚ) * 2 ^ ((e : Int) - x.bias - (x.m : Int)))) := by
  obtain ⟨hnan, hinf⟩ := hx.decode_ieee hw hinf htop code
  refine ⟨?_, fun s => ?_, hx.decode_value hw⟩
  · rw [hnan]; simp [hkind]
  · rw [hinf]; simp [hkind]

/-! FP32 words by their fields. -/

theorem testBit_sign (a : Word) : a.toNat.testBit 31 = Reference.sign a :=
  (BitVec.msb_eq_getLsbD_last a).symm.trans (BitVec.msb_eq_decide a)

theorem f32_ieee (a : Word) : (Reference.isNan a = true ↔ f32 a = .nan) ∧
    ∀ s, f32 a = .inf s ↔ Reference.expo a = 255 ∧ Reference.frac a = 0 ∧ s = Reference.sign a := by
  obtain ⟨hnan, hinf⟩ := fp32_sound.decode_ieee (eb := 8) rfl rfl rfl a.toNat
  rw [← testBit_sign]
  exact ⟨by rw [Reference.isNan, decide_eq_true_iff]; exact hnan.symm, hinf⟩

theorem f32_normal {a : Word} (h : Reference.expo a < 255) : (f32 a).finite ∧
    (f32 a).value = (if Reference.sign a then -1 else 1) *
      (if Reference.expo a = 0 then (Reference.frac a : ℚ) * 2 ^ (-149 : Int)
       else ((2 ^ 23 + Reference.frac a : Nat) : ℚ) * 2 ^ ((Reference.expo a : Int) - 150)) := by
  have hf : (f32 a).finite := by
    cases hv : f32 a with
    | num s m e => trivial
    | inf s => exact absurd (((f32_ieee a).2 s).mp hv).1 h.ne
    | nan =>
      have hn := (f32_ieee a).1.mpr hv
      rw [Reference.isNan, decide_eq_true_iff] at hn
      exact absurd hn.1 h.ne
  refine ⟨hf, ?_⟩
  rw [← testBit_sign, show (Reference.expo a : Int) - 150 = Reference.expo a - 127 - 23 by omega]
  exact (fp32_sound.decode_value (eb := 8) rfl hf).2

end Sys2Proof.Machine
end

section
/-! PROOFS. The obligation on exact values (08 R134, R135). -/
open Sys2Proof Sys2Proof.Machine

/-- Settles O6: each exact operation by the constructors of its operands, each format's codes by the kind of its codes past the
largest finite one. -/
theorem exactValues : Obligations.ExactValues := by
  unfold Obligations.ExactValues
  refine ⟨fun a b mode => FVal.add_exact mode, fun a b => FVal.mul_exact, fun a => FVal.neg_exact, fun a k => FVal.scale_exact,
    fun a => (f32_ieee a).1, fun a he hf => ((f32_ieee a).2 _).mpr ⟨he, hf, rfl⟩, fun a => f32_normal,
    fun s m e t n d mode => FVal.add_zero_sign, fun a b mode => ⟨FVal.add_eq_nan_iff, fun s => FVal.add_eq_inf_iff⟩,
    FVal.mul_special, ⟨rfl, fun s k => ⟨rfl, rfl, rfl⟩⟩, fun x hx code _ => ?_⟩
  simp only [List.mem_cons, List.not_mem_nil, or_false] at hx
  rcases hx with rfl | rfl | rfl | rfl | rfl
  · exact codes_of_ieee (sound_of_mem (by decide)) rfl rfl rfl (by decide) code
  · exact codes_of_ieee (sound_of_mem (by decide)) rfl rfl rfl (by decide) code
  · exact codes_of_ieee (sound_of_mem (by decide)) rfl rfl rfl (by decide) code
  · have hs : e4m3.Sound := sound_of_mem (by decide)
    obtain ⟨hnan, hinf⟩ := hs.decode_oneNan (eb := 4) rfl rfl rfl code
    have hne : e4m3 ≠ fp16 ∧ e4m3 ≠ bf16 ∧ e4m3 ≠ e5m2 := by decide
    refine ⟨?_, fun s => ?_, hs.decode_value (eb := 4) rfl⟩
    · simpa [hne, show 2 ^ e4m3.m - 1 = 7 from rfl] using hnan
    · simpa [hne] using hinf s
  · have hs : e2m1.Sound := sound_of_mem (by decide)
    obtain ⟨s, m, e, hnum⟩ := FVal.finite_iff.mp (hs.decode_all_finite rfl code)
    have hne : e2m1 ≠ fp16 ∧ e2m1 ≠ bf16 ∧ e2m1 ≠ e5m2 ∧ e2m1 ≠ e4m3 := by decide
    exact ⟨by simp [hne, hnum], by simp [hne, hnum], hs.decode_value (eb := 2) rfl⟩
end

section
/-! PROOFS. One rounding: a magnitude to a whole number, a value to the place of its last digit, and what passes the largest
finite number of a format (08 R138-R140). -/
namespace Sys2Proof.Machine

/-! Rounding to a whole number (R138). -/

/-- n is the whole number that a mode makes of a magnitude with a sign: the nearest, at a tie the even one, or that below or
above. -/
def RoundsMag (mode : Nat) (neg : Bool) (y : ℚ) (n : Nat) : Prop :=
  match mode with
  | 0 => |(n : ℚ) - y| ≤ 1 / 2 ∧ (|(n : ℚ) - y| = 1 / 2 → n % 2 = 0)
  | 1 => n = ⌊y⌋₊
  | 2 => n = if neg then ⌊y⌋₊ else ⌈y⌉₊
  | _ => n = if neg then ⌈y⌉₊ else ⌊y⌋₊

theorem roundsMag_nearest_iff {neg : Bool} {y : ℚ} {n : Nat} :
    RoundsMag 0 neg y n ↔ |(n : ℚ) - y| ≤ 1 / 2 ∧ (|(n : ℚ) - y| = 1 / 2 → n % 2 = 0) := Iff.rfl

theorem roundsMag_natCast (mode : Nat) (neg : Bool) (n : Nat) : RoundsMag mode neg n n := by
  unfold RoundsMag
  split <;> simp

/-- Rounding stays on the side of a whole number on which the magnitude lies. -/
theorem RoundsMag.le_of_le {mode n k : Nat} {neg : Bool} {y : ℚ} (h : RoundsMag mode neg y n) (hk : y ≤ k) : n ≤ k := by
  have hfloor : ⌊y⌋₊ ≤ k := Nat.floor_le_of_le hk
  have hceil : ⌈y⌉₊ ≤ k := Nat.ceil_le.mpr hk
  unfold RoundsMag at h
  split at h
  · have h1 := (abs_le.mp h.1).2
    have h2 : (n : ℚ) < (k + 1 : Nat) := by push_cast; linarith
    exact Nat.le_of_lt_succ (by exact_mod_cast h2)
  all_goals grind

theorem RoundsMag.le_of_ge {mode n k : Nat} {neg : Bool} {y : ℚ} (h : RoundsMag mode neg y n) (hk : k ≤ y) : k ≤ n := by
  have hfloor : k ≤ ⌊y⌋₊ := Nat.le_floor hk
  have hceil : k ≤ ⌈y⌉₊ := by exact_mod_cast hk.trans (Nat.le_ceil y)
  unfold RoundsMag at h
  split at h
  · have h1 := (abs_le.mp h.1).1
    have h2 : (k : ℚ) < (n + 1 : Nat) := by push_cast; linarith
    exact Nat.le_of_lt_succ (by exact_mod_cast h2)
  all_goals grind

/-- When rounding passes a whole number, odd where ties count. -/
def PassesAt (mode : Nat) (neg : Bool) (k : Nat) (y : ℚ) : Prop :=
  match mode with
  | 0 => (k : ℚ) + 1 / 2 ≤ y
  | 1 => (k : ℚ) + 1 ≤ y
  | 2 => if neg then (k : ℚ) + 1 ≤ y else k < y
  | _ => if neg then (k : ℚ) < y else k + 1 ≤ y

theorem RoundsMag.lt_iff {mode n k : Nat} {neg : Bool} {y : ℚ} (h : RoundsMag mode neg y n) (hodd : k % 2 = 1) (hy : 0 ≤ y) :
    k < n ↔ PassesAt mode neg k y := by
  have hfloor : k < ⌊y⌋₊ ↔ (k : ℚ) + 1 ≤ y := by
    rw [← Nat.succ_le_iff, Nat.le_floor_iff hy, Nat.cast_succ]
  have hceil : k < ⌈y⌉₊ ↔ (k : ℚ) < y := Nat.lt_ceil
  unfold RoundsMag at h
  unfold PassesAt
  split at h
  · obtain ⟨hnear, htie⟩ := h
    obtain ⟨hlo, hhi⟩ := abs_le.mp hnear
    refine ⟨fun hlt => ?_, fun hle => ?_⟩
    · have : ((k + 1 : Nat) : ℚ) ≤ n := by exact_mod_cast hlt
      push_cast at this
      linarith
    · have hkn : k ≤ n := (by
        have : (k : ℚ) < (n + 1 : Nat) := by push_cast; linarith
        exact Nat.le_of_lt_succ (by exact_mod_cast this))
      refine lt_of_le_of_ne hkn fun heq => ?_
      subst heq
      have := htie (by rw [abs_sub_comm, abs_of_nonneg (by linarith)]; linarith)
      omega
  all_goals subst h
  · exact hfloor
  · cases neg
    · exact hceil
    · exact hfloor
  · cases neg
    · exact hfloor
    · exact hceil

theorem roundsMag_nearest (n : Nat) {neg : Bool} {r : ℚ} (h0 : 0 ≤ r) (h1 : r < 1) :
    RoundsMag 0 neg (n + r) (if 1 / 2 < r ∨ r = 1 / 2 ∧ n % 2 = 1 then n + 1 else n) := by
  rw [roundsMag_nearest_iff]
  split
  next hup =>
    have hr : 1 / 2 ≤ r := hup.elim le_of_lt (fun h => h.1.ge)
    rw [Nat.cast_succ, abs_of_nonneg (by linarith)]
    refine ⟨by linarith, fun htie => ?_⟩
    obtain h | ⟨-, hodd⟩ := hup
    · linarith
    · omega
  next hdown =>
    rw [not_or, not_lt, not_and] at hdown
    rw [abs_sub_comm, abs_of_nonneg (by linarith)]
    exact ⟨by linarith [hdown.1], fun htie => by have := hdown.2 (by linarith); omega⟩

theorem passesAt_of_succ_le {mode k : Nat} {neg : Bool} {y : ℚ} (h : (k : ℚ) + 1 ≤ y) : PassesAt mode neg k y := by
  unfold PassesAt
  split
  · linarith
  · exact h
  all_goals split <;> linarith

theorem PassesAt.le {mode k : Nat} {neg : Bool} {y : ℚ} (h : PassesAt mode neg k y) : (k : ℚ) ≤ y := by
  unfold PassesAt at h
  split at h
  · linarith
  · linarith
  all_goals split at h <;> linarith

theorem natFloor_add_fraction (n : Nat) {r : ℚ} (h0 : 0 ≤ r) (h1 : r < 1) : ⌊(n : ℚ) + r⌋₊ = n := by
  rw [add_comm, Nat.floor_add_natCast h0, Nat.floor_eq_zero.mpr h1, Nat.zero_add]

theorem natCeil_add_fraction (n : Nat) {r : ℚ} (h0 : 0 ≤ r) (h1 : r < 1) : ⌈(n : ℚ) + r⌉₊ = if r = 0 then n else n + 1 := by
  split
  next hr => rw [hr, add_zero, Nat.ceil_natCast]
  next hr =>
    have hpos := lt_of_le_of_ne h0 (Ne.symm hr)
    rw [Nat.ceil_eq_iff (Nat.succ_ne_zero n), Nat.succ_sub_one, Nat.cast_succ]
    constructor <;> linarith

/-- What `roundMag` does without a sticky remainder. -/
theorem roundMag_spec {mode : Nat} (hmode : mode < 4) (neg : Bool) (h : Word) (mag shift : Nat) :
    RoundsMag mode neg (mag / 2 ^ shift) (roundMag mode neg h mag shift false) := by
  have hp : (0 : ℚ) < 2 ^ shift := by positivity
  obtain ⟨n, rem, hmag, hrem, hn, hr⟩ : ∃ n rem : Nat, mag = 2 ^ shift * n + rem ∧ rem < 2 ^ shift ∧ mag >>> shift = n ∧
      mag % 2 ^ shift = rem :=
    ⟨_, _, (Nat.div_add_mod mag (2 ^ shift)).symm, Nat.mod_lt _ (by positivity), Nat.shiftRight_eq_div_pow _ _, rfl⟩
  have hremq : (rem : ℚ) < 2 ^ shift := by exact_mod_cast hrem
  have hy : (mag : ℚ) / 2 ^ shift = n + rem / 2 ^ shift := by
    rw [hmag]; push_cast; field_simp
  have hy0 : 0 ≤ (rem : ℚ) / 2 ^ shift := by positivity
  have hy1 : (rem : ℚ) / 2 ^ shift < 1 := (div_lt_one hp).mpr hremq
  have hfloor : ⌊(mag : ℚ) / 2 ^ shift⌋₊ = n := hy ▸ natFloor_add_fraction n hy0 hy1
  have hceil : ⌈(mag : ℚ) / 2 ^ shift⌉₊ = if rem = 0 then n else n + 1 := by
    rw [hy, natCeil_add_fraction n hy0 hy1]
    simp only [div_eq_zero_iff, hp.ne', or_false, Nat.cast_eq_zero]
  unfold roundMag RoundsMag
  rw [hn, hr]
  interval_cases mode
  · have hgt : 2 * rem > 2 ^ shift ↔ 1 / 2 < (rem : ℚ) / 2 ^ shift := by
      rw [div_lt_div_iff₀ two_pos hp, gt_iff_lt, ← @Nat.cast_lt ℚ]; push_cast; rw [one_mul, mul_comm]
    have heq : 2 * rem = 2 ^ shift ↔ (rem : ℚ) / 2 ^ shift = 1 / 2 := by
      rw [div_eq_div_iff hp.ne' two_ne_zero, ← @Nat.cast_inj ℚ]; push_cast; rw [one_mul, mul_comm]
    have := roundsMag_nearest_iff.mp (roundsMag_nearest (neg := neg) n hy0 hy1)
    rw [← hy] at this
    simpa only [Bool.or_eq_true, Bool.and_eq_true, decide_eq_true_iff, hgt, heq, Bool.false_or] using this
  all_goals simp only [hfloor, hceil]
  · simp
  all_goals cases neg <;> simp

theorem roundInt_spec {mode : Nat} (hmode : mode < 4) (neg : Bool) (h : Word) (mag : Nat) (exp : Int) :
    RoundsMag mode neg (mag * 2 ^ exp) (roundInt mode neg h mag exp false) := by
  unfold roundInt
  split
  next he =>
    obtain ⟨k, rfl⟩ := Int.eq_ofNat_of_zero_le he
    simpa using roundsMag_natCast mode neg (mag * 2 ^ k)
  next he =>
    obtain ⟨k, hk⟩ := Int.eq_ofNat_of_zero_le (show 0 ≤ -exp by omega)
    obtain rfl : exp = -k := by omega
    simpa [div_eq_mul_inv] using roundMag_spec hmode neg h mag k

/-! The place of the last digit (R138). -/

/-- The exponent of the last place of a number in a format. -/
def Fmt.place (x : Fmt) (v : ℚ) : Int := max (Int.log 2 |v| - x.m) (1 - x.bias - x.m)

theorem FVal.log_value {s : Bool} {m : Nat} {e : Int} (hm : m ≠ 0) : Int.log 2 |(FVal.num s m e).value| = Nat.log2 m + e := by
  have hpos : (0 : ℚ) < m * 2 ^ e := mul_pos (Nat.cast_pos.mpr (Nat.pos_of_ne_zero hm)) (by positivity)
  have hlo : ((2 ^ m.log2 : Nat) : ℚ) ≤ m := by exact_mod_cast Nat.log2_self_le hm
  have hhi : (m : ℚ) < ((2 ^ (m.log2 + 1) : Nat) : ℚ) := by exact_mod_cast Nat.lt_log2_self
  have he : (0 : ℚ) < 2 ^ e := by positivity
  rw [FVal.abs_value_num]
  apply le_antisymm
  · rw [← Int.lt_add_one_iff, ← Int.lt_zpow_iff_log_lt one_lt_two hpos, add_right_comm, zpow_add₀ (by norm_num)]
    push_cast at hhi ⊢
    exact mul_lt_mul_of_pos_right (by exact_mod_cast hhi) he
  · rw [← Int.zpow_le_iff_le_log one_lt_two hpos, zpow_add₀ (by norm_num)]
    push_cast at hlo ⊢
    exact mul_le_mul_of_nonneg_right (by exact_mod_cast hlo) he.le

/-- A number lies below 2^(m + 1) of its last places. -/
theorem Fmt.lt_place (x : Fmt) (v : ℚ) : |v| < 2 ^ (x.m + 1) * 2 ^ x.place v := by
  have h := Int.lt_zpow_succ_log_self one_lt_two |v|
  refine h.trans_le ?_
  rw [← zpow_natCast, ← zpow_add₀ two_ne_zero, Nat.cast_ofNat]
  refine zpow_le_zpow_right₀ one_le_two ?_
  have : Int.log 2 |v| - x.m ≤ x.place v := le_max_left _ _
  push_cast
  omega

/-- Above the least place a number has 2^m of its last places. -/
theorem Fmt.place_le (x : Fmt) {v : ℚ} (hv : v ≠ 0) (h : x.place v ≠ 1 - x.bias - x.m) : 2 ^ x.m * 2 ^ x.place v ≤ |v| := by
  have hq : x.place v = Int.log 2 |v| - x.m := (max_choice _ _).resolve_right h
  rw [hq, ← zpow_natCast, ← zpow_add₀ two_ne_zero, add_sub_cancel]
  exact_mod_cast Int.zpow_log_le_self one_lt_two (abs_pos.mpr hv)

/-! Codes by their place. -/

/-- The magnitude code that `Fmt.round` makes of n places. -/
def Fmt.codeOf (x : Fmt) (q : Int) (n : Nat) : Nat := if n < 2 ^ x.m then n else ((q + x.m + x.bias).toNat - 1) * 2 ^ x.m + n

/-- One rounding, by the whole number of places it leaves. -/
theorem Fmt.round_eq (x : Fmt) {mode : Nat} (hmode : mode < 4) (h : Word) (sat : Bool) {v : FVal} (hf : v.finite) (h0 : v.value ≠ 0) :
    ∃ n, RoundsMag mode (decide (v.value < 0)) (|v.value| / 2 ^ x.place v.value) n ∧
      x.round mode h sat v = if x.maxCode < x.codeOf (x.place v.value) n then x.overflow mode sat (decide (v.value < 0))
        else x.sign (decide (v.value < 0)) + x.codeOf (x.place v.value) n := by
  obtain ⟨s, m, e, rfl⟩ := FVal.finite_iff.mp hf
  have hm : m ≠ 0 := fun hm => h0 (FVal.value_num_eq_zero.mpr hm)
  have hneg : decide ((FVal.num s m e).value < 0) = s := by
    cases s <;> simp [FVal.value_num_neg, hm]
  have hplace : x.place (FVal.num s m e).value = max (Nat.log2 m + e - x.m) (1 - x.bias - x.m) := by
    rw [Fmt.place, FVal.log_value hm]
  rw [hneg, FVal.abs_value_num, mul_div_assoc, ← zpow_sub₀ two_ne_zero]
  refine ⟨_, roundInt_spec hmode s h m (e - x.place _), ?_⟩
  rw [hplace, Fmt.round, if_neg hm]
  simp only [Fmt.codeOf, roundInt, sub_nonneg, neg_sub]

/-! The order of codes. -/

theorem Fmt.magValue_normal (x : Fmt) {e t : Nat} (he : e ≠ 0) (ht : t < 2 ^ x.m) :
    x.magValue (e * 2 ^ x.m + t) = (2 ^ x.m + t : Nat) * 2 ^ (e - x.bias - x.m : Int) := by
  have hdiv : (e * 2 ^ x.m + t) / 2 ^ x.m = e := by
    rw [mul_comm, Nat.mul_add_div (by positivity), Nat.div_eq_of_lt ht, add_zero]
  rw [Fmt.magValue, hdiv, if_neg he, Nat.mul_add_mod', Nat.mod_eq_of_lt ht]

/-- The last code of an exponent is one place below the first of the next. -/
theorem Fmt.magValue_normal_le (x : Fmt) {e n : Nat} (he : e ≠ 0) (hlo : 2 ^ x.m ≤ n) (hhi : n ≤ 2 ^ (x.m + 1)) :
    x.magValue ((e - 1) * 2 ^ x.m + n) = n * 2 ^ (e - x.bias - x.m : Int) := by
  obtain ⟨k, rfl⟩ := Nat.exists_eq_succ_of_ne_zero he
  obtain ⟨t, rfl⟩ := Nat.exists_eq_add_of_le hlo
  rw [pow_succ] at hhi
  have hcode : (k + 1 - 1) * 2 ^ x.m + (2 ^ x.m + t) = (k + 1) * 2 ^ x.m + t := by rw [Nat.add_sub_cancel]; ring
  rcases (show t ≤ 2 ^ x.m by omega).lt_or_eq with ht | rfl
  · rw [Nat.succ_eq_add_one, hcode, x.magValue_normal he ht]
  · have hnext : (k + 1) * 2 ^ x.m + 2 ^ x.m = (k + 2) * 2 ^ x.m + 0 := by ring
    rw [Nat.succ_eq_add_one, hcode, hnext, x.magValue_normal (by omega) (by positivity)]
    rw [show ((k + 2 : Nat) : Int) - x.bias - x.m = 1 + ((k + 1 : Nat) - x.bias - x.m) by push_cast; ring, zpow_add₀ two_ne_zero]
    push_cast
    ring

theorem Fmt.magValue_of_le (x : Fmt) {n : Nat} (h : n ≤ 2 ^ x.m) : x.magValue n = n * 2 ^ (1 - x.bias - x.m) := by
  rcases h.lt_or_eq with hlt | rfl
  · rw [Fmt.magValue, if_pos (Nat.div_eq_of_lt hlt), Nat.mod_eq_of_lt hlt]
  · simpa using x.magValue_normal_le one_ne_zero le_rfl (Nat.pow_le_pow_right two_pos (Nat.le_succ x.m))

theorem Fmt.magValue_strictMono (x : Fmt) : StrictMono x.magValue := by
  refine strictMono_nat_of_lt_succ fun b => ?_
  rcases lt_or_ge b (2 ^ x.m) with hlow | hge
  · rw [x.magValue_of_le hlow.le, x.magValue_of_le (Nat.succ_le_of_lt hlow)]
    exact mul_lt_mul_of_pos_right (by exact_mod_cast Nat.lt_succ_self b) (by positivity)
  · have ht : b % 2 ^ x.m < 2 ^ x.m := Nat.mod_lt _ (by positivity)
    have he : b / 2 ^ x.m ≠ 0 := (Nat.div_pos hge (by positivity)).ne'
    have hb : (b / 2 ^ x.m - 1) * 2 ^ x.m + (2 ^ x.m + b % 2 ^ x.m) = b := by
      have hmul : 2 ^ x.m ≤ b / 2 ^ x.m * 2 ^ x.m := Nat.le_mul_of_pos_left _ (Nat.pos_of_ne_zero he)
      have hsplit := Nat.div_add_mod' b (2 ^ x.m)
      rw [Nat.sub_one_mul]
      omega
    have h1 := x.magValue_normal_le he (Nat.le_add_right _ (b % 2 ^ x.m)) (by rw [pow_succ]; omega)
    have h2 := x.magValue_normal_le he (Nat.le_add_right _ (b % 2 ^ x.m + 1)) (by rw [pow_succ]; omega)
    rw [hb] at h1
    rw [show (b / 2 ^ x.m - 1) * 2 ^ x.m + (2 ^ x.m + (b % 2 ^ x.m + 1)) = b + 1 from congrArg Nat.succ hb] at h2
    rw [h1, h2]
    exact mul_lt_mul_of_pos_right (by exact_mod_cast Nat.lt_succ_self _) (by positivity)

/-- The code of a whole number of places stands for that number, when it is one that rounding leaves. -/
theorem Fmt.magValue_codeOf (x : Fmt) {q : Int} {n : Nat} (hq : 1 - x.bias - x.m ≤ q) (hlow : n < 2 ^ x.m → q = 1 - x.bias - x.m)
    (hhi : n ≤ 2 ^ (x.m + 1)) : x.magValue (x.codeOf q n) = n * 2 ^ q := by
  unfold Fmt.codeOf
  split
  next hlt => rw [x.magValue_of_le hlt.le, hlow hlt]
  next hge =>
    rw [x.magValue_normal_le (by omega) (not_lt.mp hge) hhi]
    congr 2
    omega

theorem Fmt.codeOf_even {x : Fmt} (hm : 1 ≤ x.m) {q : Int} {n : Nat} (h : n % 2 = 0) : x.codeOf q n % 2 = 0 := by
  obtain ⟨k, hk⟩ := Nat.exists_eq_add_of_le' hm
  unfold Fmt.codeOf
  split
  · exact h
  · rw [hk, pow_succ, ← mul_assoc, Nat.mul_add_mod', h]

/-! The largest finite number (R140). -/

/-- The places of the largest finite number, and their exponent. -/
def Fmt.topMant (x : Fmt) : Nat := 2 ^ x.m + x.maxCode % 2 ^ x.m
def Fmt.topPlace (x : Fmt) : Int := (x.maxCode / 2 ^ x.m : Nat) - x.bias - x.m

theorem Fmt.topMant_lt (x : Fmt) : x.topMant < 2 ^ (x.m + 1) := by
  have : x.maxCode % 2 ^ x.m < 2 ^ x.m := Nat.mod_lt _ (by positivity)
  rw [Fmt.topMant, pow_succ]
  omega

theorem Fmt.Sound.magValue_maxCode {x : Fmt} (hx : x.Sound) : x.magValue x.maxCode = x.topMant * 2 ^ x.topPlace := by
  rw [Fmt.magValue, if_neg (Nat.div_pos hx.normal (by positivity)).ne']
  rfl

theorem Fmt.Sound.topPlace_ge {x : Fmt} (hx : x.Sound) : 1 - x.bias - x.m ≤ x.topPlace := by
  have := Nat.div_pos hx.normal (show 0 < 2 ^ x.m by positivity)
  unfold Fmt.topPlace
  omega

/-- The largest finite number is a whole number of lesser places. -/
theorem Fmt.Sound.maxCode_grid {x : Fmt} (hx : x.Sound) {q : Int} (h : q ≤ x.topPlace) : ∃ k : Nat, x.magValue x.maxCode / 2 ^ q = k := by
  obtain ⟨d, hd⟩ := Int.eq_ofNat_of_zero_le (sub_nonneg.mpr h)
  refine ⟨x.topMant * 2 ^ d, ?_⟩
  rw [hx.magValue_maxCode, mul_div_assoc, ← zpow_sub₀ two_ne_zero, hd]
  push_cast
  rfl

theorem Fmt.Sound.maxCode_lt {x : Fmt} (hx : x.Sound) : x.magValue x.maxCode < 2 ^ (x.m + 1) * 2 ^ x.topPlace := by
  rw [hx.magValue_maxCode]
  exact mul_lt_mul_of_pos_right (by exact_mod_cast x.topMant_lt) (by positivity)

section
variable {x : Fmt} {mode n : Nat} {neg : Bool} {v : ℚ} (hn : RoundsMag mode neg (|v| / 2 ^ x.place v) n) (hv : v ≠ 0)
include hn

theorem Fmt.rounded_le : n ≤ 2 ^ (x.m + 1) := by
  refine hn.le_of_le ?_
  rw [div_le_iff₀ (by positivity)]
  push_cast
  exact (x.lt_place v).le

include hv

theorem Fmt.le_rounded (h : x.place v ≠ 1 - x.bias - x.m) : 2 ^ x.m ≤ n := by
  refine hn.le_of_ge ?_
  rw [le_div_iff₀ (by positivity)]
  push_cast
  exact x.place_le hv h

theorem Fmt.magValue_rounded : x.magValue (x.codeOf (x.place v) n) = n * 2 ^ x.place v :=
  x.magValue_codeOf (le_max_right _ _) (fun h => not_not.mp fun hne => absurd (x.le_rounded hn hv hne) (not_le.mpr h))
    (x.rounded_le hn)

/-- Rounding passes the largest finite number only where it passes its magnitude. -/
theorem Fmt.codeOf_gt_iff : x.maxCode < x.codeOf (x.place v) n ↔ x.magValue x.maxCode < n * 2 ^ x.place v := by
  rw [← x.magValue_rounded hn hv, x.magValue_strictMono.lt_iff_lt]

variable (hx : x.Sound)
include hx

/-- A number with a greater last place than the largest finite one lies past it, and so does its rounding. -/
theorem Fmt.Sound.top_lt_of_place (h : x.topPlace < x.place v) :
    (2 : ℚ) ^ (x.m + 1) * 2 ^ x.topPlace ≤ |v| ∧ (2 : ℚ) ^ (x.m + 1) * 2 ^ x.topPlace ≤ n * 2 ^ x.place v := by
  have hne : x.place v ≠ 1 - x.bias - x.m := by have := hx.topPlace_ge; omega
  have hstep : (2 : ℚ) ^ (x.m + 1) * 2 ^ x.topPlace ≤ 2 ^ x.m * 2 ^ x.place v := by
    rw [pow_succ, mul_assoc, ← zpow_one_add₀ two_ne_zero]
    exact mul_le_mul_of_nonneg_left (zpow_le_zpow_right₀ one_le_two (by omega)) (by positivity)
  have hmant : (2 : ℚ) ^ x.m ≤ n := by exact_mod_cast x.le_rounded hn hv hne
  exact ⟨hstep.trans (x.place_le hv hne), hstep.trans (mul_le_mul_of_nonneg_right hmant (by positivity))⟩

theorem Fmt.Sound.codeOf_le (h : |v| ≤ x.magValue x.maxCode) : x.codeOf (x.place v) n ≤ x.maxCode := by
  have hplace : x.place v ≤ x.topPlace := not_lt.mp fun hgt =>
    absurd ((hx.top_lt_of_place hn hv hgt).1.trans h) (not_le.mpr hx.maxCode_lt)
  obtain ⟨k, hk⟩ := hx.maxCode_grid hplace
  rw [← x.magValue_strictMono.le_iff_le, x.magValue_rounded hn hv, ← le_div_iff₀ (by positivity), hk]
  exact_mod_cast hn.le_of_le (hk ▸ div_le_div_of_nonneg_right h (by positivity))

theorem Fmt.Sound.le_codeOf (h : x.magValue x.maxCode ≤ |v|) : x.maxCode ≤ x.codeOf (x.place v) n := by
  rw [← x.magValue_strictMono.le_iff_le, x.magValue_rounded hn hv]
  rcases lt_or_ge x.topPlace (x.place v) with hgt | hle
  · exact hx.maxCode_lt.le.trans (hx.top_lt_of_place hn hv hgt).2
  · obtain ⟨k, hk⟩ := hx.maxCode_grid hle
    rw [← div_le_iff₀ (by positivity), hk]
    exact_mod_cast hn.le_of_ge (hk ▸ div_le_div_of_nonneg_right h (by positivity))

/-- Where rounding overflows: an odd whole number of the greatest places is passed. -/
theorem Fmt.Sound.overflows_iff (hodd : x.topMant % 2 = 1) (hall : x.topMant + 1 = 2 ^ (x.m + 1)) :
    x.maxCode < x.codeOf (x.place v) n ↔ PassesAt mode neg x.topMant (|v| / 2 ^ x.topPlace) := by
  have hpos : (0 : ℚ) < 2 ^ x.topPlace := by positivity
  rcases lt_trichotomy (x.place v) x.topPlace with hlt | heq | hgt
  · have hbelow : |v| < x.magValue x.maxCode := by
      have hmant : (2 : ℚ) ^ x.m ≤ x.topMant := by exact_mod_cast Nat.le_add_right _ _
      calc |v| < 2 ^ (x.m + 1) * 2 ^ x.place v := x.lt_place v
        _ = 2 ^ x.m * 2 ^ (1 + x.place v) := by rw [zpow_one_add₀ two_ne_zero, pow_succ, mul_assoc]
        _ ≤ x.topMant * 2 ^ x.topPlace :=
          mul_le_mul hmant (zpow_le_zpow_right₀ one_le_two (by omega)) (by positivity) (by positivity)
        _ = x.magValue x.maxCode := hx.magValue_maxCode.symm
    refine iff_of_false (not_lt.mpr (hx.codeOf_le hn hv hbelow.le)) fun hp => not_le.mpr hbelow ?_
    rw [hx.magValue_maxCode]
    exact (le_div_iff₀ hpos).mp hp.le
  · rw [x.codeOf_gt_iff hn hv, hx.magValue_maxCode, heq, mul_lt_mul_iff_left₀ hpos, Nat.cast_lt]
    rw [heq] at hn
    exact hn.lt_iff hodd (by positivity)
  · obtain ⟨habove, hround⟩ := hx.top_lt_of_place hn hv hgt
    refine iff_of_true ((x.codeOf_gt_iff hn hv).mpr (hx.maxCode_lt.trans_le hround)) (passesAt_of_succ_le ?_)
    rw [le_div_iff₀ hpos]
    exact (congrArg (· * (2 : ℚ) ^ x.topPlace) (by exact_mod_cast hall)).trans_le habove

end

end Sys2Proof.Machine
end

section
/-! PROOFS. The codes that rounding gives: signed codes, a rounding that fits its format, and FP32 where it overflows
(08 R138-R140). -/
namespace Sys2Proof.Machine

/-! Signed codes (R134). -/

theorem Fmt.sign_add_testBit (x : Fmt) (neg : Bool) {c : Nat} (h : c < 2 ^ (x.w - 1)) :
    (x.sign neg + c).testBit (x.w - 1) = neg := by
  cases neg
  · simpa [Fmt.sign] using Nat.testBit_lt_two_pow h
  · simp [Fmt.sign, Nat.testBit_two_pow_add_eq, Nat.testBit_lt_two_pow h]

theorem Fmt.sign_add_mod (x : Fmt) (neg : Bool) {c : Nat} (h : c < 2 ^ (x.w - 1)) : (x.sign neg + c) % 2 ^ (x.w - 1) = c := by
  cases neg <;> simp [Fmt.sign, Nat.mod_eq_of_lt h]

theorem Fmt.Sound.decode_sign_add {x : Fmt} (hx : x.Sound) (neg : Bool) {c : Nat} (h : c ≤ x.maxCode) :
    x.decode (x.sign neg + c) = x.numOf neg c := by
  have hlt := h.trans_lt hx.fits
  have hmod := x.sign_add_mod neg hlt
  rw [hx.decode_of_le (by rw [hmod]; exact h), hmod, x.sign_add_testBit neg hlt]

theorem Fmt.Sound.sign_even {x : Fmt} (hx : x.Sound) (neg : Bool) : x.sign neg % 2 = 0 := by
  have hm : x.m < x.w - 1 := (Nat.pow_lt_pow_iff_right one_lt_two).mp (hx.normal.trans_lt hx.fits)
  obtain ⟨k, hk⟩ := Nat.exists_eq_succ_of_ne_zero (show x.w - 1 ≠ 0 by omega)
  cases neg
  · rfl
  · simp [Fmt.sign, hk, pow_succ]

theorem Fmt.Sound.maxCode_value {x : Fmt} (hx : x.Sound) : (x.decode x.maxCode).value = x.magValue x.maxCode := by
  have h := hx.decode_sign_add false le_rfl
  rw [Fmt.sign, if_neg Bool.false_ne_true, zero_add] at h
  rw [h, Fmt.numOf_value, if_neg Bool.false_ne_true, one_mul]

/-! A rounding that fits (R138). -/

theorem abs_signed_sub (n v : ℚ) {u : ℚ} (hu : 0 < u) : |(if v < 0 then -1 else 1) * (n * u) - v| = |n - |v| / u| * u := by
  have habs : |n - |v| / u| * u = |n * u - (|v|)| := by
    nth_rewrite 2 [← abs_of_pos hu]
    rw [← abs_mul, sub_mul, div_mul_cancel₀ _ hu.ne']
  rw [habs]
  split
  next hneg => rw [abs_of_neg hneg, ← abs_neg]; congr 1; ring
  next hpos => rw [abs_of_nonneg (not_lt.mp hpos), one_mul]

/-- A whole number of last places, signed, is what its mode asks for. -/
theorem RoundsMag.roundsTo {mode m n : Nat} {lo : Int} {v : ℚ} (hmode : mode < 4)
    (h : RoundsMag mode (decide (v < 0)) (|v| / ulpOf m lo v) n) :
    roundsTo m lo mode v ((if v < 0 then -1 else 1) * (n * ulpOf m lo v)) := by
  have hu : 0 < ulpOf m lo v := by unfold ulpOf; positivity
  have hdist := abs_signed_sub n v hu
  unfold Machine.roundsTo
  generalize ulpOf m lo v = u at *
  have hy : |v| / u * u = |v| := div_mul_cancel₀ _ hu.ne'
  have hy0 : 0 ≤ |v| / u := by positivity
  generalize |v| / u = y at *
  have hfloor : n = ⌊y⌋₊ → n * u ≤ |v| ∧ |v| - n * u < u := by
    rintro rfl
    constructor <;> nlinarith [Nat.floor_le hy0, Nat.lt_floor_add_one y]
  have hceil : n = ⌈y⌉₊ → |v| ≤ n * u ∧ n * u - |v| < u := by
    rintro rfl
    constructor <;> nlinarith [Nat.le_ceil y, Nat.ceil_lt_add_one hy0]
  have hnu : 0 ≤ n * u := by positivity
  refine ⟨⟨if v < 0 then -n else n, by split <;> push_cast <;> ring⟩, ?_⟩
  rcases eq_or_ne mode 0 with rfl | h0
  · have hnear := mul_le_mul_of_nonneg_right (roundsMag_nearest_iff.mp h).1 hu.le
    rw [← hdist, one_div_mul_eq_div] at hnear
    exact hnear
  rcases lt_or_ge v 0 with hv | hv
  · simp only [hv, abs_of_neg, decide_true, if_true, neg_one_mul, abs_neg, abs_of_nonneg hnu] at *
    interval_cases mode
    · exact absurd rfl h0
    · exact hfloor h
    · obtain ⟨h1, h2⟩ := hfloor h
      constructor <;> linarith
    · obtain ⟨h1, h2⟩ := hceil h
      constructor <;> linarith
  · simp only [hv.not_gt, abs_of_nonneg hv, decide_false, if_false, one_mul, abs_of_nonneg hnu] at *
    interval_cases mode
    · exact absurd rfl h0
    · exact hfloor h
    · exact hceil h
    · exact hfloor h

/-- A rounded value whose code is at most the largest one. -/
theorem Fmt.Sound.rounded_spec {x : Fmt} (hx : x.Sound) {mode n : Nat} (hmode : mode < 4) {v : ℚ} (hv : v ≠ 0)
    (hn : RoundsMag mode (decide (v < 0)) (|v| / 2 ^ x.place v) n) (hle : x.codeOf (x.place v) n ≤ x.maxCode) :
    let r := x.sign (decide (v < 0)) + x.codeOf (x.place v) n
    (x.decode r).finite ∧ roundsTo x.m (1 - x.bias - x.m) mode v (x.decode r).value ∧
      (mode = 0 → |(x.decode r).value - v| = ulpOf x.m (1 - x.bias - x.m) v / 2 → r % 2 = 0) := by
  have hval : (x.numOf (decide (v < 0)) (x.codeOf (x.place v) n)).value = (if v < 0 then -1 else 1) * (n * 2 ^ x.place v) := by
    rw [Fmt.numOf_value, x.magValue_rounded hn hv]
    simp only [decide_eq_true_iff]
  intro r
  rw [hx.decode_sign_add _ hle, hval]
  refine ⟨Fmt.numOf_finite _ _ _, RoundsMag.roundsTo hmode hn, fun h0 htie => ?_⟩
  subst h0
  have hu : (0 : ℚ) < 2 ^ x.place v := by positivity
  have hhalf : |(n : ℚ) - |v| / 2 ^ x.place v| = 1 / 2 := by
    have hdist := abs_signed_sub n v hu
    rw [htie] at hdist
    exact mul_right_cancel₀ hu.ne' (hdist.symm.trans (div_eq_mul_one_div _ _ |>.trans (mul_comm _ _)))
  rw [Nat.add_mod, hx.sign_even, Fmt.codeOf_even hx.frac ((roundsMag_nearest_iff.mp hn).2 hhalf)]

theorem Fmt.sign_decide (x : Fmt) (v : ℚ) : x.sign (decide (v < 0)) = if v < 0 then 2 ^ (x.w - 1) else 0 := by
  simp only [Fmt.sign, decide_eq_true_iff]

/-! Saturating rounding (R140). -/

/-- A magnitude up to the largest finite one rounds within its last place. -/
theorem Fmt.Sound.round_within {x : Fmt} (hx : x.Sound) {mode : Nat} (hmode : mode < 4) (h : Word) {v : FVal} (hf : v.finite)
    (h0 : v.value ≠ 0) (hle : |v.value| ≤ (x.decode x.maxCode).value) :
    (x.decode (x.round mode h true v)).finite ∧
      roundsTo x.m (1 - x.bias - x.m) mode v.value (x.decode (x.round mode h true v)).value ∧
      (mode = 0 → |(x.decode (x.round mode h true v)).value - v.value| = ulpOf x.m (1 - x.bias - x.m) v.value / 2 →
        x.round mode h true v % 2 = 0) := by
  obtain ⟨n, hn, hr⟩ := x.round_eq hmode h true hf h0
  have hcode := hx.codeOf_le hn h0 (hx.maxCode_value ▸ hle)
  rw [hr, if_neg (not_lt.mpr hcode)]
  exact hx.rounded_spec hmode h0 hn hcode

/-- A magnitude from the largest finite one on saturates. -/
theorem Fmt.Sound.round_beyond {x : Fmt} (hx : x.Sound) {mode : Nat} (hmode : mode < 4) (h : Word) {v : FVal} (hf : v.finite)
    (h0 : v.value ≠ 0) (hge : (x.decode x.maxCode).value ≤ |v.value|) :
    x.round mode h true v = (if v.value < 0 then 2 ^ (x.w - 1) else 0) + x.maxCode := by
  obtain ⟨n, hn, hr⟩ := x.round_eq hmode h true hf h0
  rw [← x.sign_decide, hr]
  split
  next => rfl
  next hcode => rw [le_antisymm (not_lt.mp hcode) (hx.le_codeOf hn h0 (hx.maxCode_value ▸ hge))]

theorem decode_infCode : ∀ x ∈ [fp16, bf16, e5m2], ∀ neg, x.decode (x.infCode neg) = .inf neg := by decide

/-- NaN and the infinities in a narrow format (R140). -/
theorem round_special {x : Fmt} (hx : x ∈ [fp16, bf16, e5m2, e4m3, e2m1]) (mode : Nat) (h : Word) (sat neg : Bool) :
    x.round mode h sat .nan = x.nan.getD 0 ∧
    x.round mode h true (.inf neg) = (if neg then 2 ^ (x.w - 1) else 0) + x.maxCode ∧
    (x.inf.isSome = true → x.decode (x.round mode h false (.inf neg)) = .inf neg) ∧
    (x = e4m3 → x.round mode h false (.inf neg) = if neg then 0xFF else 0x7F) := by
  refine ⟨rfl, rfl, ?_, ?_⟩
  · simp only [List.mem_cons, List.not_mem_nil, or_false] at hx
    rcases hx with rfl | rfl | rfl | rfl | rfl
    · exact fun _ => decode_infCode _ (by decide) neg
    · exact fun _ => decode_infCode _ (by decide) neg
    · exact fun _ => decode_infCode _ (by decide) neg
    · exact nofun
    · exact nofun
  · rintro rfl
    cases neg <;> rfl

/-! FP32 (R138, R140). -/

/-- An overflow in a mode ends at infinity, where results do not saturate. -/
def goesInfinite (mode : Nat) (neg : Bool) : Bool :=
  match mode with
  | 1 => false
  | 2 => !neg
  | 3 => neg
  | _ => true

/-- The rounding of a number passes FP32's largest finite one. -/
def PastFp32 (mode : Nat) (v : ℚ) : Prop := PassesAt mode (decide (v < 0)) fp32.topMant (|v| / 2 ^ fp32.topPlace)

theorem fp32_top : fp32.topMant = 16777215 ∧ fp32.topPlace = 104 := by decide

theorem fp32_overflow {mode : Nat} (hmode : mode < 4) (neg : Bool) :
    fp32.overflow mode false neg = fp32.sign neg + if goesInfinite mode neg then fp32.maxCode + 1 else fp32.maxCode := by
  interval_cases mode <;> cases neg <;> rfl

/-- One rounding into FP32. -/
theorem toF32_eq {mode : Nat} (hmode : mode < 4) {v : FVal} (hf : v.finite) (h0 : v.value ≠ 0) :
    ∃ n, RoundsMag mode (decide (v.value < 0)) (|v.value| / 2 ^ fp32.place v.value) n ∧
      (PastFp32 mode v.value → toF32 mode v = BitVec.ofNat 32 (fp32.sign (decide (v.value < 0)) +
        if goesInfinite mode (decide (v.value < 0)) then fp32.maxCode + 1 else fp32.maxCode)) ∧
      (¬ PastFp32 mode v.value → fp32.codeOf (fp32.place v.value) n ≤ fp32.maxCode ∧
        (toF32 mode v).toNat = fp32.sign (decide (v.value < 0)) + fp32.codeOf (fp32.place v.value) n) := by
  obtain ⟨n, hn, hr⟩ := fp32.round_eq hmode 0 false hf h0
  have hiff : fp32.maxCode < fp32.codeOf (fp32.place v.value) n ↔ PastFp32 mode v.value :=
    fp32_sound.overflows_iff hn h0 (by rw [fp32_top.1]) (by rw [fp32_top.1]; rfl)
  refine ⟨n, hn, fun hp => ?_, fun hp => ?_⟩
  · rw [toF32, hr, if_pos (hiff.mpr hp), fp32_overflow hmode]
  · have hle := not_lt.mp (mt hiff.mp hp)
    refine ⟨hle, ?_⟩
    rw [toF32, hr, if_neg (not_lt.mpr hle), BitVec.toNat_ofNat, Nat.mod_eq_of_lt]
    have hsign : fp32.sign (decide (v.value < 0)) ≤ 2 ^ 31 := by rw [fp32.sign_decide]; split <;> simp [fp32]
    have := fp32_sound.fits
    simp only [fp32] at this hle hsign ⊢
    omega

/-- The word of an infinity and that of the largest finite magnitude. -/
theorem f32_limits (neg : Bool) : f32 (BitVec.ofNat 32 (fp32.sign neg + (fp32.maxCode + 1))) = .inf neg ∧
    f32 (BitVec.ofNat 32 (fp32.sign neg + fp32.maxCode)) = .num neg 16777215 104 := by
  revert neg
  decide

/-- R140's table for FP32: the finite numbers that become infinities. -/
def infinitePast (mode : Nat) (v : ℚ) : Prop :=
  match mode with
  | 0 => (2 ^ 25 - 1 : ℚ) * 2 ^ (103 : Int) ≤ |v|
  | 1 => False
  | 2 => (2 ^ 24 - 1 : ℚ) * 2 ^ (104 : Int) < v
  | _ => v < -((2 ^ 24 - 1 : ℚ) * 2 ^ (104 : Int))

theorem pastFp32_infinite_iff {mode : Nat} (hmode : mode < 4) (v : ℚ) :
    (PastFp32 mode v ∧ goesInfinite mode (decide (v < 0)) = true) ↔ infinitePast mode v := by
  have hp : (0 : ℚ) < 2 ^ (104 : Int) := by positivity
  have hlt (a : ℚ) : ((16777215 : Nat) : ℚ) < a / 2 ^ (104 : Int) ↔ (2 ^ 24 - 1 : ℚ) * 2 ^ (104 : Int) < a := by
    rw [lt_div_iff₀ hp]
    norm_num
  unfold PastFp32 PassesAt goesInfinite infinitePast
  rw [fp32_top.1, fp32_top.2]
  interval_cases mode
  · simp only [le_div_iff₀ hp]
    norm_num
  · simp
  all_goals rcases lt_or_ge v 0 with hv | hv
  · simp [hv]
    linarith
  · simp only [hlt, hv.not_gt, abs_of_nonneg hv, decide_false, Bool.not_false, Bool.false_eq_true, if_false, and_true]
  · simp only [hlt, hv, abs_of_neg hv, decide_true, if_true, and_true]
    exact lt_neg
  · simp [hv.not_gt]
    linarith

theorem pastFp32_finite {mode : Nat} (hmode : mode < 4) {v : ℚ} (h : PastFp32 mode v)
    (hg : goesInfinite mode (decide (v < 0)) = false) : 2 ^ 128 ≤ |v| := by
  have hp : (0 : ℚ) < 2 ^ (104 : Int) := by positivity
  have hfloor : (fp32.topMant : ℚ) + 1 ≤ |v| / 2 ^ fp32.topPlace → 2 ^ 128 ≤ |v| := by
    rw [fp32_top.1, fp32_top.2, le_div_iff₀ hp]
    norm_num
  unfold PastFp32 PassesAt at h
  unfold goesInfinite at hg
  interval_cases mode
  · cases hg
  · exact hfloor h
  · exact hfloor ((if_pos (by simpa using hg)).mp h)
  · exact hfloor ((if_neg (by simpa using hg)).mp h)

theorem pastFp32_infinite_gt {mode : Nat} (hmode : mode < 4) {v : ℚ}
    (h : PastFp32 mode v ∧ goesInfinite mode (decide (v < 0)) = true) : (2 ^ 24 - 1 : ℚ) * 2 ^ (104 : Int) < |v| := by
  rw [pastFp32_infinite_iff hmode] at h
  unfold infinitePast at h
  interval_cases mode
  · refine lt_of_lt_of_le ?_ h
    norm_num
  · exact h.elim
  · exact lt_abs.mpr (.inl h)
  · exact lt_abs.mpr (.inr (lt_neg.mpr h))

/-- What FP32 gives a finite number that is not zero. -/
theorem toF32_finite {mode : Nat} (hmode : mode < 4) {v : FVal} (hf : v.finite) (h0 : v.value ≠ 0) :
    (PastFp32 mode v.value ∧ (f32 (toF32 mode v) = .inf (decide (v.value < 0)) ∧ goesInfinite mode (decide (v.value < 0)) = true ∨
      f32 (toF32 mode v) = .num (decide (v.value < 0)) 16777215 104 ∧ goesInfinite mode (decide (v.value < 0)) = false)) ∨
    (¬ PastFp32 mode v.value ∧ (f32 (toF32 mode v)).finite ∧ roundsTo 23 (-149) mode v.value (f32 (toF32 mode v)).value ∧
      (mode = 0 → |(f32 (toF32 mode v)).value - v.value| = ulpOf 23 (-149) v.value / 2 → (toF32 mode v).toNat % 2 = 0)) := by
  obtain ⟨n, hn, hpast, hfits⟩ := toF32_eq hmode hf h0
  by_cases hp : PastFp32 mode v.value
  · refine .inl ⟨hp, ?_⟩
    rw [hpast hp]
    cases hg : goesInfinite mode (decide (v.value < 0))
    · exact .inr ⟨(f32_limits _).2, rfl⟩
    · exact .inl ⟨(f32_limits _).1, rfl⟩
  · obtain ⟨hle, hword⟩ := hfits hp
    refine .inr ⟨hp, ?_⟩
    rw [f32, hword]
    exact fp32_sound.rounded_spec hmode h0 hn hle

/-- FP32 at its largest magnitude and beyond. -/
theorem toF32_large {mode : Nat} (hmode : mode < 4) {v : FVal} (hf : v.finite) (h0 : v.value ≠ 0)
    (hbig : (2 ^ 24 - 1 : ℚ) * 2 ^ (104 : Int) ≤ |v.value|) :
    (PastFp32 mode v.value ∧ goesInfinite mode (decide (v.value < 0)) = true →
      toF32 mode v = if v.value < 0 then 0xFF800000 else 0x7F800000) ∧
    (¬ (PastFp32 mode v.value ∧ goesInfinite mode (decide (v.value < 0)) = true) →
      toF32 mode v = if v.value < 0 then 0xFF7FFFFF else 0x7F7FFFFF) := by
  obtain ⟨n, hn, hpast, hfits⟩ := toF32_eq hmode hf h0
  have hlast : (BitVec.ofNat 32 (fp32.sign (decide (v.value < 0)) + fp32.maxCode) : Word) =
      if v.value < 0 then 0xFF7FFFFF else 0x7F7FFFFF := by rw [fp32.sign_decide]; split <;> rfl
  refine ⟨fun ⟨hp, hg⟩ => ?_, fun hno => ?_⟩
  · rw [hpast hp, if_pos hg, fp32.sign_decide]
    split <;> rfl
  · by_cases hp : PastFp32 mode v.value
    · rw [hpast hp, if_neg fun hg => hno ⟨hp, hg⟩, hlast]
    · obtain ⟨hle, hword⟩ := hfits hp
      have hmax : fp32.magValue fp32.maxCode = (2 ^ 24 - 1 : ℚ) * 2 ^ (104 : Int) := by
        rw [fp32_sound.magValue_maxCode, fp32_top.1, fp32_top.2]; norm_num
      rw [← hlast, ← le_antisymm hle (fp32_sound.le_codeOf hn h0 (hmax ▸ hbig)), ← hword, BitVec.ofNat_toNat, BitVec.setWidth_eq]

end Sys2Proof.Machine
end

section
/-! PROOFS. The obligation on rounding (08 R138-R140). -/
open Sys2Proof Sys2Proof.Machine

/-- Settles O7: a rounding is a whole number of last places (`RoundsMag`), and codes are in the order of their magnitudes. -/
theorem roundedOnce : Obligations.RoundedOnce := by
  unfold Obligations.RoundedOnce
  refine ⟨fun _ => rfl, fun _ neg => by cases neg <;> rfl, fun _ neg _ => by cases neg <;> rfl, ?within, ?tie, ?beyond, ?narrow,
    fun x hx mode h sat neg => round_special hx mode h sat neg, by decide⟩
  case within =>
    intro mode v hmode hf h0
    rw [← Bool.not_eq_true, (f32_ieee _).1]
    rcases toF32_finite hmode hf h0 with ⟨hp, ⟨hword, hg⟩ | ⟨hword, hg⟩⟩ | ⟨-, hfin, hround, -⟩
    · exact ⟨by rw [hword]; nofun, fun hfin => absurd hfin (by rw [hword]; exact id), fun _ => pastFp32_infinite_gt hmode ⟨hp, hg⟩⟩
    · exact ⟨by rw [hword]; nofun, fun _ hlt => absurd (pastFp32_finite hmode hp hg) (not_le.mpr hlt),
        fun hno => absurd (by rw [hword]; trivial) hno⟩
    · exact ⟨fun hnan => by rw [hnan] at hfin; exact hfin, fun _ _ => hround, fun hno => absurd hfin hno⟩
  case tie =>
    intro v hf h0 hfin htie
    rcases toF32_finite four_pos hf h0 with ⟨-, ⟨hword, -⟩ | ⟨-, hg⟩⟩ | ⟨-, -, -, heven⟩
    · rw [hword] at hfin
      exact hfin.elim
    · cases hg
    · exact heven rfl htie
  case beyond =>
    intro mode v hmode hf h0 big past
    have hpast : past ↔ PastFp32 mode v.value ∧ goesInfinite mode (decide (v.value < 0)) = true :=
      (pastFp32_infinite_iff hmode v.value).symm
    refine ⟨fun hp => ?_, fun hno hbig => (toF32_large hmode hf h0 hbig).2 (mt hpast.mpr hno)⟩
    exact (toF32_large hmode hf h0 (pastFp32_infinite_gt hmode (hpast.mp hp)).le).1 (hpast.mp hp)
  case narrow =>
    intro x hx mode v hmode hf h0 big lo r
    have hs := sound_of_mem hx
    exact ⟨hs.round_within hmode 0 hf h0, hs.round_beyond hmode 0 hf h0⟩
end

section
/-! PROOFS. Blocks as numbers: the greatest magnitude, the shared exponent, and the elements of MX and PX (08 R143-R146). -/
namespace Sys2Proof.Machine

/-! The greatest magnitude of a block. -/

theorem FVal.abs_spec {a : FVal} (ha : a.finite) : a.abs.finite ∧ a.abs.value = |a.value| := by
  obtain ⟨s, m, e, rfl⟩ := FVal.finite_iff.mp ha
  exact ⟨trivial, by rw [FVal.abs_value_num, FVal.abs, FVal.value_num, if_neg Bool.false_ne_true, one_mul]⟩

theorem threeWay_neg_iff (x y : Int) : (if x < y then (-1 : Int) else if x = y then 0 else 1) < 0 ↔ x < y := by
  split_ifs <;> simp [*]

theorem FVal.cmp_neg_iff {a b : FVal} (ha : a.finite) (hb : b.finite) : a.cmp b < 0 ↔ a.value < b.value := by
  obtain ⟨s, m, e, rfl⟩ := FVal.finite_iff.mp ha
  obtain ⟨t, n, d, rfl⟩ := FVal.finite_iff.mp hb
  have hp : (0 : ℚ) < 2 ^ min e d := by positivity
  rw [← FVal.value_num_shift s m (min_le_left e d), ← FVal.value_num_shift t n (min_le_right e d),
    mul_lt_mul_iff_left₀ hp, Int.cast_lt]
  exact threeWay_neg_iff _ _

theorem FVal.maxAbs_spec {a b : FVal} (ha : a.finite) (hb : b.finite) :
    (a.maxAbs b).finite ∧ (a.maxAbs b).value = max |a.value| |b.value| := by
  obtain ⟨hfa, hva⟩ := FVal.abs_spec ha
  obtain ⟨hfb, hvb⟩ := FVal.abs_spec hb
  unfold FVal.maxAbs
  split
  next h =>
    rw [FVal.cmp_neg_iff hfa hfb, hva, hvb] at h
    exact ⟨hfb, by rw [hvb, max_eq_right h.le]⟩
  next h =>
    rw [FVal.cmp_neg_iff hfa hfb, hva, hvb] at h
    exact ⟨hfa, by rw [hva, max_eq_left (not_lt.mp h)]⟩

theorem amaxOf_spec {xs : List FVal} (h : ∀ x ∈ xs, x.finite) :
    (amaxOf xs).finite ∧ 0 ≤ (amaxOf xs).value ∧ (∀ x ∈ xs, |x.value| ≤ (amaxOf xs).value) ∧
      ((amaxOf xs).value = 0 ∨ ∃ x ∈ xs, |x.value| = (amaxOf xs).value) := by
  induction xs using List.reverseRecOn with
  | nil => exact ⟨trivial, by simp [amaxOf, FVal.value_num], nofun, .inl (by simp [amaxOf, FVal.value_num])⟩
  | append_singleton xs x ih =>
    obtain ⟨hf, h0, hle, hsome⟩ := ih fun y hy => h y (List.mem_append_left _ hy)
    have hcat : amaxOf (xs ++ [x]) = (amaxOf xs).maxAbs x := by simp [amaxOf]
    obtain ⟨hmf, hmv⟩ := FVal.maxAbs_spec hf (h x (by simp))
    rw [abs_of_nonneg h0] at hmv
    rw [hcat, hmv]
    refine ⟨hmf, le_max_of_le_left h0, fun y hy => ?_, ?_⟩
    · rcases List.mem_append.mp hy with hy | hy
      · exact le_max_of_le_left (hle y hy)
      · rw [List.mem_singleton.mp hy]; exact le_max_right _ _
    · rcases le_total (amaxOf xs).value |x.value| with hx | hx
      · exact .inr ⟨x, by simp, (max_eq_right hx).symm⟩
      · rw [max_eq_left hx]
        exact hsome.imp_right fun ⟨y, hy, he⟩ => ⟨y, List.mem_append_left _ hy, he⟩

theorem any_notFinite {xs : List FVal} : xs.any notFinite = true ↔ ∃ x ∈ xs, ¬ x.finite := by
  simp only [List.any_eq_true, notFinite_iff]

/-! The shared exponent (R144, R146). -/

theorem FVal.log2_eq {v : FVal} (hf : v.finite) (h0 : v.value ≠ 0) : v.log2 = Int.log 2 |v.value| := by
  obtain ⟨s, m, e, rfl⟩ := FVal.finite_iff.mp hf
  rw [FVal.log_value (fun hm => h0 (FVal.value_num_eq_zero.mpr hm)), FVal.log2]

/-- The exponent of a block from its greatest magnitude, at least `lo`. -/
def blockExp (lo c : Int) (xs : List FVal) : Int :=
  if isZeroVal (amaxOf xs) then lo else max lo ((amaxOf xs).log2 + c)

theorem blockExp_spec (lo c : Int) {xs : List FVal} (h : ∀ x ∈ xs, x.finite ∧ |x.value| < 2 ^ 128) :
    lo ≤ blockExp lo c xs ∧ blockExp lo c xs ≤ max lo (127 + c) ∧ ((∀ x ∈ xs, x.value = 0) → blockExp lo c xs = lo) ∧
      ∀ a ∈ xs, a.value ≠ 0 → (∀ x ∈ xs, |x.value| ≤ |a.value|) → blockExp lo c xs = max lo (Int.log 2 |a.value| + c) := by
  obtain ⟨hf, h0, hle, hsome⟩ := amaxOf_spec fun x hx => (h x hx).1
  unfold blockExp
  simp only [isZeroVal_iff hf]
  split
  next hz =>
    refine ⟨le_rfl, le_max_left _ _, fun _ => rfl, fun a ha hne _ => absurd (abs_nonpos_iff.mp (hz ▸ hle a ha)) hne⟩
  next hz =>
    obtain ⟨b, hb, hbv⟩ := hsome.resolve_left hz
    have hbne : b.value ≠ 0 := fun hb0 => hz (by rw [← hbv, hb0, abs_zero])
    have hlog : (amaxOf xs).log2 = Int.log 2 |b.value| := by rw [FVal.log2_eq hf hz, abs_of_nonneg h0, hbv]
    have hlt : Int.log 2 |b.value| < 128 :=
      (Int.lt_zpow_iff_log_lt one_lt_two (abs_pos.mpr hbne)).mp (by exact_mod_cast (h b hb).2)
    rw [hlog]
    refine ⟨le_max_left _ _, max_le_max_left _ (by omega), fun hall => absurd (hall b hb) hbne, fun a ha _ hmax => ?_⟩
    rw [le_antisymm (hmax b hb) (hbv ▸ hle a ha)]

/-! MX (R143, R144). -/

theorem mxQuant_special {t mode : Nat} {h : Nat → Word} {xs : List FVal} (hx : ∃ x ∈ xs, ¬ x.finite) :
    mxQuant t mode h xs = (0xFF, xs.map (fun _ => 0)) := if_pos (any_notFinite.mpr hx)

theorem mxQuant_finite {t mode : Nat} {h : Nat → Word} {xs : List FVal} (hx : ∀ x ∈ xs, x.finite) :
    mxQuant t mode h xs = ((blockExp (-127) (-mxEmax t) xs + 127).toNat,
      xs.mapIdx (fun j x => (mxFmt t).round mode (h j) true (x.scale (-blockExp (-127) (-mxEmax t) xs)))) :=
  if_neg fun hany => by
    obtain ⟨x, hmem, hno⟩ := any_notFinite.mp hany
    exact hno (hx x hmem)

theorem mxValue_spec (t s code : Nat) : (s = 0xFF → mxValue t s code = .nan) ∧
    (s < 0xFF → (((mxFmt t).decode code).finite → (mxValue t s code).finite ∧
        (mxValue t s code).value = ((mxFmt t).decode code).value * 2 ^ ((s : Int) - 127)) ∧
      (¬ ((mxFmt t).decode code).finite → mxValue t s code = (mxFmt t).decode code)) := by
  refine ⟨fun hs => if_pos hs, fun hs => ?_⟩
  rw [mxValue, if_neg hs.ne]
  refine ⟨fun hf => FVal.scale_exact hf (by omega) (by omega), fun hf => ?_⟩
  cases hd : (mxFmt t).decode code with
  | num s m e => exact absurd (by rw [hd]; trivial) hf
  | inf s => rfl
  | nan => rfl

/-! Bit streams. -/

theorem joinBits_div_mod (w : Nat) (l : List Nat) (j : Nat) : joinBits w l / 2 ^ (w * j) % 2 ^ w = l.getD j 0 % 2 ^ w := by
  induction l generalizing j with
  | nil => simp [joinBits]
  | cons a l ih =>
    cases j with
    | zero => simp [joinBits, Nat.add_mul_mod_self_left]
    | succ j =>
      have hlt : a % 2 ^ w < 2 ^ w := Nat.mod_lt _ (by positivity)
      rw [joinBits, Nat.mul_succ, Nat.add_comm (w * j), pow_add, ← Nat.div_div_eq_div_mul, Nat.add_mul_div_left _ _ (by positivity),
        Nat.div_eq_of_lt hlt, Nat.zero_add, ih, List.getD_cons_succ]

theorem joinBits_lt (w : Nat) (l : List Nat) : joinBits w l < 2 ^ (w * l.length) := by
  induction l with
  | nil => simp [joinBits]
  | cons a l ih =>
    have hlt : a % 2 ^ w < 2 ^ w := Nat.mod_lt _ (by positivity)
    have hstep := Nat.mul_le_mul_left (2 ^ w) (Nat.succ_le_of_lt ih)
    rw [joinBits, List.length_cons, Nat.mul_succ, Nat.add_comm (w * _), pow_add]
    rw [Nat.mul_succ] at hstep
    omega

/-! Signed rounding to a whole number (R138, R146). -/

/-- n is the integer that a mode makes of y. -/
def RoundsInt (mode : Nat) (y : ℚ) (n : Int) : Prop :=
  match mode with
  | 0 => |(n : ℚ) - y| ≤ 1 / 2 ∧ (|(n : ℚ) - y| = 1 / 2 → n % 2 = 0)
  | 1 => |(n : ℚ)| ≤ |y| ∧ |y| - |(n : ℚ)| < 1
  | 2 => n = ⌈y⌉
  | _ => n = ⌊y⌋

theorem RoundsMag.roundsInt {mode k : Nat} (hmode : mode < 4) {neg : Bool} {y : ℚ} (hneg : if neg then y ≤ 0 else 0 ≤ y)
    (h : RoundsMag mode neg |y| k) : RoundsInt mode y (if neg then -k else k) := by
  have hdist : |((if neg then -k else k : Int) : ℚ) - y| = |(k : ℚ) - (|y|)| := by
    cases neg
    · rw [if_neg Bool.false_ne_true] at hneg ⊢
      rw [abs_of_nonneg hneg, Int.cast_natCast]
    · rw [if_pos rfl] at hneg ⊢
      rw [abs_of_nonpos hneg, ← abs_neg, Int.cast_neg, Int.cast_natCast]
      congr 1
      ring
  have hmag : |((if neg then -k else k : Int) : ℚ)| = k := by cases neg <;> simp
  interval_cases mode
  · obtain ⟨hnear, htie⟩ := roundsMag_nearest_iff.mp h
    refine ⟨hdist ▸ hnear, fun ht => ?_⟩
    have hk := htie (hdist ▸ ht)
    cases neg <;> simp <;> omega
  · obtain rfl : k = ⌊|y|⌋₊ := h
    rw [RoundsInt, hmag]
    exact ⟨Nat.floor_le (abs_nonneg y), by linarith [Nat.lt_floor_add_one |y|]⟩
  · cases neg
    · obtain rfl : k = ⌈|y|⌉₊ := h
      exact (Int.natCast_ceil_eq_ceil (abs_nonneg y)).trans (by rw [abs_of_nonneg hneg])
    · obtain rfl : k = ⌊|y|⌋₊ := h
      exact (congrArg Neg.neg (Int.natCast_floor_eq_floor (abs_nonneg y))).trans (by rw [abs_of_nonpos hneg, Int.floor_neg, neg_neg])
  · cases neg
    · obtain rfl : k = ⌊|y|⌋₊ := h
      exact (Int.natCast_floor_eq_floor (abs_nonneg y)).trans (by rw [abs_of_nonneg hneg])
    · obtain rfl : k = ⌈|y|⌉₊ := h
      exact (congrArg Neg.neg (Int.natCast_ceil_eq_ceil (abs_nonneg y))).trans (by rw [abs_of_nonpos hneg, Int.ceil_neg, neg_neg])

theorem pxRound_spec {mode : Nat} (hmode : mode < 4) (h : Word) {v : FVal} (hf : v.finite) :
    RoundsMag mode v.isNeg |v.value| (pxRound mode h v) := by
  obtain ⟨s, m, e, rfl⟩ := FVal.finite_iff.mp hf
  rw [FVal.abs_value_num]
  exact roundInt_spec hmode s h m e

theorem FVal.isNeg_sign {v : FVal} (hf : v.finite) : if v.isNeg then v.value ≤ 0 else 0 ≤ v.value := by
  obtain ⟨s, m, e, rfl⟩ := FVal.finite_iff.mp hf
  have hp : (0 : ℚ) ≤ m * 2 ^ e := by positivity
  cases s <;> simpa [FVal.isNeg, FVal.value_num] using hp

theorem FVal.isNeg_iff {v : FVal} (hf : v.finite) (h0 : v.value ≠ 0) : v.isNeg = true ↔ v.value < 0 := by
  have hs := FVal.isNeg_sign hf
  cases hn : v.isNeg
  · simpa [hn] using hs
  · simpa [hn, lt_iff_le_and_ne, h0] using hs

/-! PX (R145, R146). -/

theorem pxM_of_mem {t m : Nat} (h : (t, m) ∈ [(0x0E, 2), (0x0F, 4), (0x10, 7)]) : m = pxM t ∧ 2 ≤ pxM t := by
  simp only [List.mem_cons, Prod.mk.injEq, List.not_mem_nil, or_false] at h
  rcases h with ⟨rfl, rfl⟩ | ⟨rfl, rfl⟩ | ⟨rfl, rfl⟩ <;> decide

/-- The parts of a PX block: the shared exponent, the micro-exponent of a pair, an element's code. -/
def pxShared (t : Nat) (xs : List FVal) : Int := blockExp 0 (128 - pxM t) xs
def pxMicro (t : Nat) (xs : List FVal) (j : Nat) : Nat :=
  if pxRound 0 0 (((xs.getD (2 * j) (.zero false)).maxAbs (xs.getD (2 * j + 1) (.zero false))).scale (128 - pxShared t xs)) ≤
    2 ^ pxM t - 1 then 1 else 0
def pxCode (t mode : Nat) (h : Nat → Word) (xs : List FVal) (i : Nat) (x : FVal) : Nat :=
  let mag := min (2 ^ pxM t - 1) (pxRound mode (h i) (x.scale (127 + pxMicro t xs (i / 2) - pxShared t xs)))
  if mag = 0 then 0 else (if x.isNeg then 2 ^ pxM t else 0) + mag

theorem pxQuant_special {t mode : Nat} {h : Nat → Word} {xs : List FVal} (hx : ∃ x ∈ xs, ¬ x.finite) :
    pxQuant t mode h xs = (0xFF, xs.map (fun _ => 0)) := if_pos (any_notFinite.mpr hx)

theorem pxQuant_finite {t mode : Nat} {h : Nat → Word} {xs : List FVal} (hx : ∀ x ∈ xs, x.finite) :
    pxQuant t mode h xs = ((pxShared t xs).toNat + joinBits 1 ((List.range 8).map (pxMicro t xs)) * 256,
      xs.mapIdx (pxCode t mode h xs)) := by
  have hexp : (if isZeroVal (amaxOf xs) then 0 else max 0 ((amaxOf xs).log2 - pxM t + 128)) = pxShared t xs := by
    rw [pxShared, blockExp, sub_add_eq_add_sub, add_sub_assoc]
  unfold pxQuant
  rw [if_neg fun hany => by obtain ⟨x, hmem, hno⟩ := any_notFinite.mp hany; exact hno (hx x hmem)]
  dsimp only
  rw [hexp]
  rfl

theorem pxMicro_le (t : Nat) (xs : List FVal) (j : Nat) : pxMicro t xs j < 2 := by
  unfold pxMicro
  split <;> decide

theorem getD_finite {xs : List FVal} (h : ∀ x ∈ xs, x.finite) (i : Nat) : (xs.getD i (.zero false)).finite := by
  rcases lt_or_ge i xs.length with hi | hi
  · rw [List.getD_eq_getElem _ _ hi]
    exact h _ (List.getElem_mem hi)
  · rw [List.getD_eq_default _ _ hi]
    trivial

section
variable {t : Nat} {xs : List FVal} (hx : ∀ x ∈ xs, x.finite ∧ |x.value| < 2 ^ 128) (hm : 2 ≤ pxM t)
include hx hm

theorem pxShared_range : 0 ≤ pxShared t xs ∧ pxShared t xs < 254 := by
  obtain ⟨hlo, hhi, -⟩ := blockExp_spec 0 (128 - pxM t) hx
  exact ⟨hlo, hhi.trans_lt (max_lt (by norm_num) (by omega))⟩

theorem pxQuant_scale (mode : Nat) (h : Nat → Word) :
    ((pxQuant t mode h xs).1 % 256 : Nat) = pxShared t xs ∧ (pxQuant t mode h xs).1 < 2 ^ 16 ∧
      ∀ j < 8, (pxQuant t mode h xs).1 / 2 ^ (8 + j) % 2 = pxMicro t xs j := by
  obtain ⟨h0, hlt⟩ := pxShared_range hx hm
  have hjoin : joinBits 1 ((List.range 8).map (pxMicro t xs)) < 256 := by
    simpa using joinBits_lt 1 ((List.range 8).map (pxMicro t xs))
  rw [pxQuant_finite fun x hmem => (hx x hmem).1]
  refine ⟨by omega, by omega, fun j hj => ?_⟩
  have hbits := joinBits_div_mod 1 ((List.range 8).map (pxMicro t xs)) j
  have hget : ((List.range 8).map (pxMicro t xs)).getD j 0 = pxMicro t xs j := by
    simp [List.getD_eq_getElem?_getD, hj]
  rw [hget, pow_one, one_mul, Nat.mod_eq_of_lt (pxMicro_le t xs j)] at hbits
  dsimp only
  rw [pow_add, ← Nat.div_div_eq_div_mul, show 2 ^ 8 = 256 from rfl, Nat.add_mul_div_right _ _ (by decide),
    Nat.div_eq_of_lt (show (pxShared t xs).toNat < 256 by omega), Nat.zero_add]
  exact hbits

/-- The test of a pair is that of R146, in exact numbers. -/
theorem pxMicro_iff (j : Nat) : pxMicro t xs j = 1 ↔
    max |(xs.getD (2 * j) (.zero false)).value| |(xs.getD (2 * j + 1) (.zero false)).value| * 2 ^ (128 - pxShared t xs) <
      2 ^ pxM t - 1 / 2 := by
  obtain ⟨h0, hlt⟩ := pxShared_range hx hm
  have hfin := fun i => getD_finite (fun x hmem => (hx x hmem).1) i
  obtain ⟨hpf, hpv⟩ := FVal.maxAbs_spec (hfin (2 * j)) (hfin (2 * j + 1))
  obtain ⟨hsf, hsv⟩ := FVal.scale_exact (k := 128 - pxShared t xs) hpf (by omega) (by omega)
  have hodd : (2 ^ pxM t - 1) % 2 = 1 := by
    obtain ⟨k, hk⟩ := Nat.exists_eq_add_of_le' (one_le_two.trans hm)
    rw [hk, pow_succ]
    have := Nat.one_le_two_pow (n := k)
    omega
  have hpass := (pxRound_spec four_pos 0 hsf).lt_iff hodd (abs_nonneg _)
  rw [hsv, hpv, abs_of_nonneg (by positivity), ← not_iff_not, not_lt, PassesAt, not_le, Nat.cast_pred (by positivity)] at hpass
  push_cast at hpass
  rw [show (2 : ℚ) ^ pxM t - 1 + 1 / 2 = 2 ^ pxM t - 1 / 2 by ring] at hpass
  rw [← hpass, pxMicro]
  split
  next h => exact iff_of_true rfl h
  next h => exact iff_of_false zero_ne_one h

/-- An element's code: its signed value rounded in the mode's direction, its magnitude limited (R146). -/
theorem pxCode_spec {mode : Nat} (hmode : mode < 4) (h : Nat → Word) (i : Nat) {x : FVal} (hf : x.finite) :
    ∃ n : Int, RoundsInt mode (x.value * 2 ^ (127 + (pxMicro t xs (i / 2) : Int) - pxShared t xs)) n ∧
      (let big := min (2 ^ pxM t - 1) n.natAbs
       pxCode t mode h xs i x = if big = 0 then 0 else (if x.value < 0 then 2 ^ pxM t else 0) + big) := by
  obtain ⟨h0, hlt⟩ := pxShared_range hx hm
  have hd := pxMicro_le t xs (i / 2)
  obtain ⟨hsf, hsv⟩ := FVal.scale_exact (k := 127 + (pxMicro t xs (i / 2) : Int) - pxShared t xs) hf (by omega) (by omega)
  have hround := pxRound_spec hmode (h i) hsf
  refine ⟨_, hsv ▸ hround.roundsInt hmode (FVal.isNeg_sign hsf), ?_⟩
  have habs (neg : Bool) (k : Nat) : (if neg then -(k : Int) else k).natAbs = k := by cases neg <;> simp
  rw [habs]
  dsimp only [pxCode]
  split
  next => rfl
  next hne =>
    have hv : x.value ≠ 0 := fun hv => hne (by
      have hle := hround.le_of_le (k := 0) (by rw [hsv, hv, zero_mul, abs_zero, Nat.cast_zero])
      rw [Nat.le_zero.mp hle, Nat.min_zero])
    simp only [FVal.isNeg_iff hf hv]

end

theorem pxValue_spec (t scale i code : Nat) : (scale % 256 = 255 → pxValue t scale i code = .nan) ∧
    (scale % 256 ≠ 255 → (pxValue t scale i code).finite ∧ (pxValue t scale i code).value =
      (if code.testBit (pxM t) then -1 else 1) * (code % 2 ^ pxM t : Nat) *
        2 ^ ((scale % 256 : Nat) - 127 - (scale / 2 ^ (8 + i / 2) % 2 : Nat) : Int)) := by
  refine ⟨fun hs => if_pos hs, fun hs => ?_⟩
  rw [pxValue, if_neg hs, pow_add, ← Nat.div_div_eq_div_mul]
  exact ⟨trivial, rfl⟩

end Sys2Proof.Machine
end

section
/-! PROOFS. Runs of registers: reading after a bit stream has been written, and the instructions that end with such writes
(10 R187, R188, R207). -/
namespace Sys2Proof.Machine

/-- An instruction whose own effect changes vector registers and their tags alone. -/
theorem computes_registers {mk : Fields → Instr} {op : Nat} {regs : Cx → Fields → List Nat} {at_ : Cx → Fields → Nat → Prop}
    {h : Cx → Fields → Nat → Nat → Word} {tag : Cx → Fields → Nat → Nat → Tag} (run : Fields → Cx → Cx)
    (he : ∀ f s, exec (mk f) s = runPart op f s (fun c => .next (run f c)))
    (hrun : ∀ f c, run f c = { c with w := { c.w with v := (run f c).w.v, tags := (run f c).w.tags } })
    (hv : ∀ c f n l, l < 64 → (n ∈ regs c f ∧ at_ c f l → (run f (c.issued op f)).readV n l = h c f n l) ∧
      (¬ (n ∈ regs c f ∧ at_ c f l) → (run f (c.issued op f)).readV n l = c.readV n l))
    (ht : ∀ c f n q, q < 16 →
      (n ∈ regs c f ∧ (∃ l, at_ c f l ∧ l / 4 = q) → (run f (c.issued op f)).readTag n q = tag c f n q) ∧
      (¬ (n ∈ regs c f ∧ ∃ l, at_ c f l ∧ l / 4 = q) → (run f (c.issued op f)).readTag n q = c.readTag n q)) :
    Computes mk op (LanesPost regs at_ h tag) := by
  refine computes_of (fun f c => .next (run f c)) he fun s c f _ => ⟨_, rfl, ?_⟩
  have hread (e : Cx) (hw : e.w = { (run f (c.issued op f)).w with parts := e.w.parts }) :
      (∀ n l, e.readV n l = (run f (c.issued op f)).readV n l) ∧ ∀ n q, e.readTag n q = (run f (c.issued op f)).readTag n q := by
    simp only [Cx.readV, Cx.readTag]
    rw [hw]
    exact ⟨fun _ _ => rfl, fun _ _ => rfl⟩
  have hp : (run f (c.issued op f)).p = (c.issued op f).p := by rw [hrun]
  refine ⟨by rw [hrun]; exact WaveOnly.wave _ _ rfl rfl, by rw [hp]; rfl, by rw [hp]; rfl, by rw [hp]; rfl, by rw [hp]; rfl,
    by rw [hp]; rfl, by rw [hp]; rfl, by rw [hp]; rfl, fun e hep hew => ?_⟩
  obtain ⟨hreadV, hreadTag⟩ := hread e hew
  refine ⟨fun n l hl => by rw [hreadV]; exact hv c f n l hl, fun n q hq => by rw [hreadTag]; exact ht c f n q hq, ?_, ?_⟩
  · rw [hep, hp]
    exact ⟨rfl, rfl, rfl, rfl, rfl⟩
  · rw [hrun] at hew
    rw [hew]
    rfl

theorem writeRun_succ (c : Cx) (first k : Nat) (vals : List (Nat × Nat)) (tag : Tag) : c.writeRun first (k + 1) vals tag =
    (c.writeRun first k vals tag).writeV (first + k) (vals.map (fun x => (x.1, BitVec.ofNat 32 (x.2 / 2 ^ (32 * k)))))
      (fun _ => tag) := by
  simp only [Cx.writeRun, List.range_succ, List.foldl_concat]

theorem writeRun_frame (c : Cx) (first k : Nat) (vals : List (Nat × Nat)) (tag : Tag) : c.writeRun first k vals tag =
    { c with w := { c.w with v := (c.writeRun first k vals tag).w.v, tags := (c.writeRun first k vals tag).w.tags } } := by
  induction k with
  | zero => rfl
  | succ k ih =>
    rw [writeRun_succ, Cx.writeV, waveWriteV_rest, ih]

/-- What stands at n after k registers from `first` have been written one by one, where the write is of concern. -/
theorem read_run {α : Type} {P : Prop} [Decidable P] {first n : Nat} (read : Nat → α) (val : Nat → α)
    (hstep : ∀ k, read (k + 1) = if n = first + k ∧ P then val k else read k) (k : Nat) :
    read k = if (first ≤ n ∧ n < first + k) ∧ P then val (n - first) else read 0 := by
  induction k with
  | zero => rw [if_neg (by omega)]
  | succ k ih =>
    rw [hstep, ih]
    by_cases hn : n = first + k
    · subst hn
      simp
    · have hiff : first ≤ n ∧ n < first + (k + 1) ↔ first ≤ n ∧ n < first + k := by omega
      simp only [hn, false_and, if_false, hiff]

/-- A run of k registers and the one after it. -/
theorem read_run_last {α : Type} {P : Prop} [Decidable P] {first k n : Nat} (last : Nat → α) (val old : α) :
    (if n = first + k ∧ P then last (first + k) else if (first ≤ n ∧ n < first + k) ∧ P then val else old) =
      if n ∈ List.range' first (k + 1) ∧ P then (if n = first + k then last n else val) else old := by
  by_cases hn : n = first + k
  · subst hn
    simp [List.mem_range'_1]
  · have hiff : n ∈ List.range' first (k + 1) ↔ first ≤ n ∧ n < first + k := by rw [List.mem_range'_1]; omega
    simp only [hn, false_and, if_false, hiff]

/-! One register. -/

section
variable {ls : List Nat} (hl : ∀ l ∈ ls, l < 64)
include hl

theorem readV_writeV (c : Cx) (n : Nat) (h : Nat → Word) (tag : Nat → Tag) (n' : Nat) {l : Nat} (hlt : l < 64) :
    (c.writeV n (ls.map (fun l => (l, h l))) tag).readV n' l = if n' = n ∧ l ∈ ls then h l else c.readV n' l := by
  obtain ⟨hin, hout⟩ := waveWriteV_v c.w n ls h tag hl n' l hlt
  split
  next hm => exact hin hm
  next hm => exact hout hm

theorem readTag_writeV (c : Cx) (n : Nat) (h : Nat → Word) (tag : Nat → Tag) (n' : Nat) {q : Nat} (hlt : q < 16) :
    (c.writeV n (ls.map (fun l => (l, h l))) tag).readTag n' q =
      if n' = n ∧ ∃ l ∈ ls, l / 4 = q then tag q else c.readTag n' q := by
  obtain ⟨hin, hout⟩ := waveWriteV_tags c.w n ls h tag hl n' q hlt
  split
  next hm => exact hin hm
  next hm => exact hout hm

/-! A run of registers. -/

theorem readV_writeRun (c : Cx) (first : Nat) (h : Nat → Nat) (tag : Tag) (n : Nat) {l : Nat} (hlt : l < 64) (k : Nat) :
    (c.writeRun first k (ls.map (fun l => (l, h l))) tag).readV n l =
      if (first ≤ n ∧ n < first + k) ∧ l ∈ ls then BitVec.ofNat 32 (h l / 2 ^ (32 * (n - first))) else c.readV n l := by
  refine read_run (fun k => (c.writeRun first k (ls.map (fun l => (l, h l))) tag).readV n l)
    (fun k => BitVec.ofNat 32 (h l / 2 ^ (32 * k))) (fun k => ?_) k
  rw [writeRun_succ, List.map_map]
  exact readV_writeV hl _ _ (fun l => BitVec.ofNat 32 (h l / 2 ^ (32 * k))) _ _ hlt

theorem readTag_writeRun (c : Cx) (first : Nat) (h : Nat → Nat) (tag : Tag) (n : Nat) {q : Nat} (hlt : q < 16) (k : Nat) :
    (c.writeRun first k (ls.map (fun l => (l, h l))) tag).readTag n q =
      if (first ≤ n ∧ n < first + k) ∧ ∃ l ∈ ls, l / 4 = q then tag else c.readTag n q := by
  refine read_run (fun k => (c.writeRun first k (ls.map (fun l => (l, h l))) tag).readTag n q) (fun _ => tag) (fun k => ?_) k
  rw [writeRun_succ, List.map_map]
  exact readTag_writeV hl _ _ (fun l => BitVec.ofNat 32 (h l / 2 ^ (32 * k))) _ _ hlt

end

end Sys2Proof.Machine
end

section
/-! PROOFS. The instructions that pack and unpack blocks (10 R207-R210). -/
namespace Sys2Proof.Machine

/-- The modifiers of the pack and unpack instructions, FROM, TO, the mode and SPOS (R207). -/
theorem blockModifiers (f : Fields) : modOf f % 32 = f.x.toNat % 2 ^ 5 ∧ modOf f / 32 % 32 = f.x.toNat / 2 ^ 5 % 2 ^ 5 ∧
    modOf f / 1024 % 8 = f.x.toNat / 2 ^ 10 % 2 ^ 3 ∧ modOf f / 8192 % 4 = f.x.toNat / 2 ^ 13 % 4 := by
  unfold modOf bits
  omega

/-- A scale put into its place of the register after the element run. -/
def putScale (mx : Bool) (spos : Nat) (old : Word) (scale : Nat) : Word :=
  if mx then putBits old (8 * spos) 8 scale else putBits old (16 * spos) 16 scale

/-- The element width of a block format. -/
def blockWidth (mx : Bool) (t : Nat) : Nat := if mx then (mxFmt t).w else pxM t + 1

/-- The registers after a block has been packed. -/
def Cx.packTo (c : Cx) (mx : Bool) (f : Fields) : Cx :=
  let to_ := f.x.toNat / 2 ^ 5 % 2 ^ 5
  let last := f.d.toNat + elemRun to_
  let ls := lanesOf (c.activeLanes f)
  (c.writeRun f.d.toNat (elemRun to_) (ls.map (fun l => (l, joinBits (blockWidth mx to_) (c.packed mx f l).2)))
    (BitVec.ofNat 5 to_)).writeV last
      (ls.map (fun l => (l, putScale mx (f.x.toNat / 2 ^ 13 % 4) (c.readV last l) (c.packed mx f l).1)))
      (fun _ => if mx then tagE8m0x4 else tagPxScale)

theorem packBlock_eq (mx : Bool) (op : Nat) (f : Fields) (s : State) :
    packBlock mx op f s = runPart op f s (fun c => .next (c.packTo mx f)) := by
  obtain ⟨hfrom, hto, hmode, hspos⟩ := blockModifiers f
  unfold packBlock
  congr 1
  funext c
  dsimp only
  rw [hfrom, hto, hmode, hspos, List.map_map, List.map_map]
  cases mx <;> rfl

theorem readV_packTo (c : Cx) (mx : Bool) (f : Fields) (n : Nat) {l : Nat} (hl : l < 64) :
    (c.packTo mx f).readV n l =
      if n ∈ List.range' f.d.toNat (elemRun (f.x.toNat / 2 ^ 5 % 2 ^ 5) + 1) ∧ l ∈ lanesOf (c.activeLanes f) then
        if n = f.d.toNat + elemRun (f.x.toNat / 2 ^ 5 % 2 ^ 5) then
          putScale mx (f.x.toNat / 2 ^ 13 % 4) (c.readV n l) (c.packed mx f l).1
        else BitVec.ofNat 32 (joinBits (blockWidth mx (f.x.toNat / 2 ^ 5 % 2 ^ 5)) (c.packed mx f l).2 / 2 ^ (32 * (n - f.d.toNat)))
      else c.readV n l := by
  have hls : ∀ l ∈ lanesOf (c.activeLanes f), l < 64 := fun l => mem_lanesOf
  refine (readV_writeV hls _ _ (fun l => putScale mx _ (c.readV _ l) (c.packed mx f l).1) _ n hl).trans ?_
  rw [readV_writeRun hls c _ (fun l => joinBits _ (c.packed mx f l).2) _ n hl]
  exact read_run_last (fun n => putScale mx _ (c.readV n l) (c.packed mx f l).1) _ _

theorem readTag_packTo (c : Cx) (mx : Bool) (f : Fields) (n : Nat) {q : Nat} (hq : q < 16) :
    (c.packTo mx f).readTag n q =
      if n ∈ List.range' f.d.toNat (elemRun (f.x.toNat / 2 ^ 5 % 2 ^ 5) + 1) ∧ ∃ l ∈ lanesOf (c.activeLanes f), l / 4 = q then
        if n = f.d.toNat + elemRun (f.x.toNat / 2 ^ 5 % 2 ^ 5) then (if mx then tagE8m0x4 else tagPxScale)
        else BitVec.ofNat 5 (f.x.toNat / 2 ^ 5 % 2 ^ 5)
      else c.readTag n q := by
  have hls : ∀ l ∈ lanesOf (c.activeLanes f), l < 64 := fun l => mem_lanesOf
  refine (readTag_writeV hls _ _ (fun l => putScale mx _ (c.readV _ l) (c.packed mx f l).1) _ n hq).trans ?_
  rw [readTag_writeRun hls c _ (fun l => joinBits _ (c.packed mx f l).2) _ n hq]
  exact read_run_last (fun _ => if mx then tagE8m0x4 else tagPxScale) _ _

theorem packOf_of {mk : Fields → Instr} {op : Nat} (mx : Bool) (he : ∀ f s, exec (mk f) s = packBlock mx op f s) :
    PackOf mk op mx (blockWidth mx) (if mx then tagE8m0x4 else tagPxScale) := by
  refine computes_registers (fun f c => c.packTo mx f) (fun f s => (he f s).trans (packBlock_eq mx op f s)) (fun f c => ?_)
    (fun c f n l hl => ?_) (fun c f n q hq => ?_)
  · rw [Cx.packTo, Cx.writeV, waveWriteV_rest, writeRun_frame]
  · have hread := readV_packTo (c.issued op f) mx f n hl
    exact ⟨fun hm => hread.trans (if_pos hm), fun hm => hread.trans (if_neg hm)⟩
  · have hread := readTag_packTo (c.issued op f) mx f n hq
    exact ⟨fun hm => hread.trans (if_pos hm), fun hm => hread.trans (if_neg hm)⟩

/-- The scale of the block that a lane unpacks. -/
def Cx.scaleOf (c : Cx) (mx : Bool) (f : Fields) (l : Nat) : Nat :=
  let sreg := (c.readV (f.a.toNat + elemRun (f.x.toNat % 2 ^ 5)) l).toNat
  let spos := f.x.toNat / 2 ^ 13 % 4
  if mx then sreg / 2 ^ (8 * spos) % 2 ^ 8 else sreg / 2 ^ (16 * spos) % 2 ^ 16

/-- The value of element j with a scale. -/
def blockValue (mx : Bool) (t scale j code : Nat) : FVal := if mx then mxValue t scale code else pxValue t scale j code

/-- The values that a lane unpacks, as one bit stream. -/
def Cx.unpacked (c : Cx) (mx : Bool) (f : Fields) (l : Nat) : Nat :=
  let from_ := f.x.toNat % 2 ^ 5
  let fmt := runFmt (f.x.toNat / 2 ^ 5 % 2 ^ 5)
  joinBits fmt.w ((splitBits (blockWidth mx from_) (if mx then 32 else 16) (c.runBits f.a.toNat (elemRun from_) l)).mapIdx
    (fun j x => fmt.round (f.x.toNat / 2 ^ 10 % 2 ^ 3) (c.rs (BitVec.ofNat 32 x) l j) false
      (blockValue mx from_ (c.scaleOf mx f l) j x)))

/-- The registers after a block has been unpacked. -/
def Cx.unpackTo (c : Cx) (mx : Bool) (f : Fields) : Cx :=
  c.writeRun f.d.toNat (valueRun mx (f.x.toNat / 2 ^ 5 % 2 ^ 5))
    ((lanesOf (c.activeLanes f)).map (fun l => (l, c.unpacked mx f l))) (BitVec.ofNat 5 (f.x.toNat / 2 ^ 5 % 2 ^ 5))

theorem unpackBlock_eq (mx : Bool) (op : Nat) (f : Fields) (s : State) :
    unpackBlock mx op f s = runPart op f s (fun c => .next (c.unpackTo mx f)) := by
  obtain ⟨hfrom, hto, hmode, hspos⟩ := blockModifiers f
  unfold unpackBlock
  congr 1
  funext c
  dsimp only
  rw [hfrom, hto, hmode, hspos]
  cases mx <;> rfl

theorem unpackOf_of {mk : Fields → Instr} {op : Nat} (mx : Bool) (he : ∀ f s, exec (mk f) s = unpackBlock mx op f s) :
    UnpackOf mk op mx (blockWidth mx) (blockValue mx) := by
  refine computes_registers (fun f c => c.unpackTo mx f) (fun f s => (he f s).trans (unpackBlock_eq mx op f s))
    (fun f c => writeRun_frame ..) (fun c f n l hl => ?_) (fun c f n q hq => ?_)
  all_goals have hls : ∀ l ∈ lanesOf ((c.issued op f).activeLanes f), l < 64 := fun l => mem_lanesOf
  · have hread := readV_writeRun hls (c.issued op f) f.d.toNat ((c.issued op f).unpacked mx f)
      (BitVec.ofNat 5 (f.x.toNat / 2 ^ 5 % 2 ^ 5)) n hl (valueRun mx (f.x.toNat / 2 ^ 5 % 2 ^ 5))
    rw [List.mem_range'_1]
    exact ⟨fun hm => hread.trans (if_pos hm), fun hm => hread.trans (if_neg hm)⟩
  · have hread := readTag_writeRun hls (c.issued op f) f.d.toNat ((c.issued op f).unpacked mx f)
      (BitVec.ofNat 5 (f.x.toNat / 2 ^ 5 % 2 ^ 5)) n hq (valueRun mx (f.x.toNat / 2 ^ 5 % 2 ^ 5))
    rw [List.mem_range'_1]
    exact ⟨fun hm => hread.trans (if_pos hm), fun hm => hread.trans (if_neg hm)⟩

end Sys2Proof.Machine
end

section
/-! PROOFS. The obligation on blocks (08 R143-R146; 10 R208-R210). -/
open Sys2Proof Sys2Proof.Machine

/-- Settles O14: the four instructions write runs of registers, and a block's parts are its shared exponent (`blockExp`) and one
rounding for each element. -/
theorem blockConversion : Obligations.BlockConversion := by
  unfold Obligations.BlockConversion
  refine ⟨packOf_of true fun _ _ => rfl, packOf_of false fun _ _ => rfl, unpackOf_of true fun _ _ => rfl, unpackOf_of false fun _ _ => rfl,
    fun t mode h xs hx => ⟨mxQuant_special hx, pxQuant_special hx⟩, ?mx, fun t _ s code => mxValue_spec t s code, ?px, ?pxValues⟩
  case mx =>
    intro t ht mode h xs hx
    have hemax : 2 ≤ mxEmax t := by revert t; decide
    obtain ⟨hlo, hhi, hzero, hmax⟩ := blockExp_spec (-127) (-mxEmax t) hx
    exact ⟨_, mxQuant_finite fun x hmem => (hx x hmem).1, hlo, hhi.trans_lt (max_lt (by decide) (by omega)), hzero, hmax⟩
  case px =>
    rintro ⟨t, m⟩ ht mode h xs hmode hlen hx
    obtain ⟨rfl, hm⟩ := pxM_of_mem ht
    obtain ⟨hshared, hlt, hmicro⟩ := pxQuant_scale hx hm mode h
    obtain ⟨-, -, hzero, hmax⟩ := blockExp_spec 0 (128 - pxM t) hx
    have hfin := fun x hmem => (hx x hmem).1
    have hcodes : (pxQuant t mode h xs).2 = xs.mapIdx (pxCode t mode h xs) := by rw [pxQuant_finite hfin]
    intro m q e d v
    have he : (e : Int) = pxShared t xs := hshared
    refine ⟨?_, hlt, by rw [hcodes, List.length_mapIdx, hlen], ?_, ?_, ?_, ?_⟩
    · have := (pxShared_range hx hm).2
      omega
    · intro hall
      exact Int.natCast_eq_zero.mp (he.trans (hzero hall))
    · intro a ha hne hle
      rw [he, sub_add_eq_add_sub, add_sub_assoc]
      exact hmax a ha hne hle
    · intro j hj
      rw [he, show d j = pxMicro t xs j from hmicro j hj]
      exact pxMicro_iff hx hm j
    · intro i hi
      rw [he, show d (i / 2) = pxMicro t xs (i / 2) from hmicro _ (by omega)]
      obtain ⟨n, hn, hcode⟩ := pxCode_spec hx hm hmode h i (getD_finite hfin i)
      have hget : q.2.getD i 0 = pxCode t mode h xs i (xs.getD i (.zero false)) := by
        simp [q, hcodes, List.getD_eq_getElem?_getD, hlen, hi]
      exact ⟨n, hn, hget.trans hcode⟩
  case pxValues =>
    rintro ⟨t, m⟩ ht scale i code
    obtain ⟨rfl, -⟩ := pxM_of_mem ht
    exact pxValue_spec t scale i code
end

section
/-! PROOFS. Scalar results on plain numbers: the machine's words against the arithmetic of 09 R156-R160. -/
namespace Sys2Proof.Machine

theorem bits_eq {w : Nat} (x : BitVec w) (lo n : Nat) : bits x lo n = x.toNat / 2 ^ lo % 2 ^ n := rfl

/-! Sums, products and logic (R156-R158). -/

theorem add_eq_nat (a b : Word) : a + b = Reference.nat (a.toNat + b.toNat) := BitVec.eq_of_toNat_eq (by simp [Reference.nat])

theorem sub_eq_int (a b : Word) : a - b = Reference.int (a.toInt - b.toInt) := by
  refine BitVec.eq_of_toInt_eq ?_
  rw [Reference.int, BitVec.toInt_sub, BitVec.toInt_ofInt]

theorem mul_eq_nat (a b : Word) : a * b = Reference.nat (a.toNat * b.toNat) := BitVec.eq_of_toNat_eq (by simp [Reference.nat])

theorem mad_eq (a b c : Word) : a * b + c = Reference.mad a b c :=
  BitVec.eq_of_toNat_eq (by simp [Reference.mad, Reference.nat])

theorem nat_of_toNat (a : Word) {n : Nat} (h : a.toNat = n) : a = Reference.nat n := by
  rw [← h, Reference.nat, BitVec.ofNat_toNat, BitVec.setWidth_eq]

theorem and_eq_nat (a b : Word) : a &&& b = Reference.nat (a.toNat &&& b.toNat) := nat_of_toNat _ (BitVec.toNat_and a b)
theorem or_eq_nat (a b : Word) : a ||| b = Reference.nat (a.toNat ||| b.toNat) := nat_of_toNat _ (BitVec.toNat_or a b)
theorem xor_eq_nat (a b : Word) : a ^^^ b = Reference.nat (a.toNat ^^^ b.toNat) := nat_of_toNat _ (BitVec.toNat_xor a b)
theorem not_eq_nat (a : Word) : ~~~a = Reference.nat (2 ^ 32 - 1 - a.toNat) := nat_of_toNat _ BitVec.toNat_not

/-! Shifts (R156). -/

theorem shiftLeft_eq (a b : Word) : a <<< bits b 0 5 = Reference.shl a b :=
  BitVec.eq_of_toNat_eq (by simp [Reference.shl, Reference.nat, bits_eq, Nat.shiftLeft_eq])

theorem shiftRight_eq (a b : Word) : a >>> bits b 0 5 = Reference.shr a b :=
  nat_of_toNat _ (by simp [bits_eq, Nat.shiftRight_eq_div_pow])

theorem int_of_toInt (a : Word) {i : Int} (h : a.toInt = i) : a = Reference.int i := by
  rw [← h, Reference.int, BitVec.ofInt_toInt]

theorem sshiftRight_eq (a b : Word) : a.sshiftRight (bits b 0 5) = Reference.sra a b :=
  int_of_toInt _ (by simp [bits_eq, BitVec.toInt_sshiftRight, Int.shiftRight_eq_div_pow])

/-! Minimum and maximum (R156). -/

theorem minS_eq (a b : Word) : minS a b = Reference.minS a b := by
  refine int_of_toInt _ ?_
  unfold minS
  split
  next h => rw [min_eq_right (BitVec.slt_iff_toInt_lt.mp h).le]
  next h => rw [min_eq_left (not_lt.mp (mt BitVec.slt_iff_toInt_lt.mpr h))]

theorem maxS_eq (a b : Word) : maxS a b = Reference.maxS a b := by
  refine int_of_toInt _ ?_
  unfold maxS
  split
  next h => rw [max_eq_right (BitVec.slt_iff_toInt_lt.mp h).le]
  next h => rw [max_eq_left (not_lt.mp (mt BitVec.slt_iff_toInt_lt.mpr h))]

theorem minU_eq (a b : Word) : minU a b = Reference.minU a b := by
  refine nat_of_toNat _ ?_
  unfold minU
  split
  next h => rw [min_eq_right (BitVec.ult_iff_toNat_lt.mp h).le]
  next h => rw [min_eq_left (not_lt.mp (mt BitVec.ult_iff_toNat_lt.mpr h))]

theorem maxU_eq (a b : Word) : maxU a b = Reference.maxU a b := by
  refine nat_of_toNat _ ?_
  unfold maxU
  split
  next h => rw [max_eq_right (BitVec.ult_iff_toNat_lt.mp h).le]
  next h => rw [max_eq_left (not_lt.mp (mt BitVec.ult_iff_toNat_lt.mpr h))]

theorem mulHigh_eq (unsigned : Bool) (a b : Word) : mulHigh unsigned a b = Reference.mulHigh unsigned a b := rfl

/-! Counts (R158, R163). -/

theorem leadingZeros_eq (a : Word) : BitVec.ofNat 32 (leadingZeros a) = Reference.clz a := by
  unfold leadingZeros Reference.clz Reference.nat
  by_cases h : a = 0
  · simp [h]
  · have hne : a.toNat ≠ 0 := fun h0 => h (BitVec.eq_of_toNat_eq (by simpa using h0))
    have hsize : Nat.size a.toNat = Nat.log2 a.toNat + 1 :=
      le_antisymm (Nat.size_le.mpr Nat.lt_log2_self) (Nat.lt_size.mpr (Nat.log2_self_le hne))
    rw [if_neg h, hsize, Nat.sub_sub, Nat.add_comm 1]

theorem popCount_eq {w : Nat} (a : BitVec w) : BitVec.ofNat 32 (popCount a) = Reference.popc a := by
  rw [popCount, onesBelow, ← List.countP_eq_length_filter]
  rfl

theorem lowestOne_eq (m : Dword) : lowestOne m = Reference.lowestOne m := by
  have hlow : lowestLane m = ((List.range 64).find? m.toNat.testBit).getD 64 := by
    rw [lowestLane, lanesOf, onesBelow, List.headD_eq_head?_getD, List.head?_filter]
    rfl
  unfold lowestOne Reference.lowestOne
  cases hf : (List.range 64).find? m.toNat.testBit with
  | none =>
    have hzero : m = 0 := eq_of_tbit_iff fun i => by
      by_cases hi : i < 64
      · have := List.find?_range_eq_none.mp hf i hi
        simpa [tbit] using this
      · exact ⟨fun h => absurd (tbit_lt h) hi, fun h => absurd (tbit_lt h) hi⟩
    rw [if_pos hzero]
    rfl
  | some i =>
    have hne : m ≠ 0 := by
      rintro rfl
      have := List.find?_some hf
      simp at this
    rw [if_neg hne, hlow, hf]
    rfl

/-! Bit fields (R159). -/

theorem fieldPos_eq (b : Word) : fieldPos b = Reference.pos b := by simp [fieldPos, Reference.pos, bits_eq]
theorem fieldLen_eq (b : Word) : fieldLen b = Reference.len b := by simp [fieldLen, Reference.len, fieldPos_eq, bits_eq]

theorem bitExtract_eq (sign : Bool) (a b : Word) : bitExtract sign a b = Reference.fieldOf sign a b := by
  have hx : bits a (fieldPos b) (fieldLen b) = a.toNat / 2 ^ Reference.pos b % 2 ^ Reference.len b := by
    rw [bits_eq, fieldPos_eq, fieldLen_eq]
  unfold bitExtract Reference.fieldOf
  rw [hx, fieldLen_eq]
  generalize a.toNat / 2 ^ Reference.pos b = x
  by_cases hl : Reference.len b = 0
  · simp [hl, Nat.mod_one, Reference.nat]
  · cases sign with
    | false => simp [hl, Reference.nat]
    | true =>
      rw [if_neg hl]
      simp only [if_true, signed, Nat.mod_mod, hl, if_false, true_and, ne_eq, not_false_eq_true]
      by_cases hs : x % 2 ^ Reference.len b < 2 ^ (Reference.len b - 1)
      · rw [if_pos hs, if_neg (Nat.not_le.mpr hs), Reference.nat, BitVec.ofInt_natCast]
      · rw [if_neg hs, if_pos (Nat.not_lt.mp hs), Reference.int]

/-- Bits of a word with some of them replaced. -/
theorem tbit_putBits {w : Nat} (x : BitVec w) (lo n v : Nat) {i : Nat} (hi : i < w) :
    tbit (putBits x lo n v) i = if lo ≤ i ∧ i < lo + n then v.testBit (i - lo) else tbit x i := by
  have hmask : (BitVec.ofNat w ((2 ^ n - 1) * 2 ^ lo)).getLsbD i = (decide (lo ≤ i) && decide (i < lo + n)) := by
    rw [BitVec.getLsbD_ofNat, Nat.testBit_mul_two_pow, Nat.testBit_two_pow_sub_one]
    by_cases h : lo ≤ i
    · simp [h, hi, Nat.sub_lt_iff_lt_add' h]
    · simp [h]
  have hval : (BitVec.ofNat w (v % 2 ^ n * 2 ^ lo)).getLsbD i = (decide (lo ≤ i) && (decide (i < lo + n) && v.testBit (i - lo))) := by
    rw [BitVec.getLsbD_ofNat, Nat.testBit_mul_two_pow, Nat.testBit_mod_two_pow]
    by_cases h : lo ≤ i
    · simp [h, hi, Nat.sub_lt_iff_lt_add' h]
    · simp [h]
  simp only [putBits, tbit_eq_getLsbD, BitVec.getLsbD_or, BitVec.getLsbD_and, BitVec.getLsbD_not, hmask, hval, hi, decide_true,
    Bool.true_and]
  by_cases hlo : lo ≤ i <;> by_cases hhi : i < lo + n <;> simp [hlo, hhi]

/-- The number that such a word is. -/
theorem putBits_toNat {w : Nat} (x : BitVec w) {lo n : Nat} (v : Nat) (h : lo + n ≤ w) : (putBits x lo n v).toNat =
    x.toNat % 2 ^ lo + 2 ^ lo * (v % 2 ^ n) + 2 ^ (lo + n) * (x.toNat / 2 ^ (lo + n)) := by
  have hsum : x.toNat % 2 ^ lo + 2 ^ lo * (v % 2 ^ n) + 2 ^ (lo + n) * (x.toNat / 2 ^ (lo + n)) =
      2 ^ lo * (2 ^ n * (x.toNat / 2 ^ (lo + n)) + v % 2 ^ n) + x.toNat % 2 ^ lo := by ring
  refine Nat.eq_of_testBit_eq fun i => ?_
  rw [hsum, Nat.testBit_two_pow_mul_add _ (Nat.mod_lt _ (Nat.two_pow_pos lo)), Nat.testBit_two_pow_mul_add _ (Nat.mod_lt _ (Nat.two_pow_pos n))]
  by_cases hi : i < w
  · have hbit := tbit_putBits x lo n v hi
    unfold tbit at hbit
    rw [hbit, Nat.testBit_mod_two_pow, Nat.testBit_mod_two_pow, Nat.testBit_div_two_pow]
    by_cases hlo : i < lo
    · simp [hlo, Nat.not_le.mpr hlo]
    · have hle : lo ≤ i := Nat.not_lt.mp hlo
      by_cases hhi : i < lo + n
      · simp [hlo, hle, hhi, Nat.sub_lt_iff_lt_add' hle]
      · have hback : i - lo - n + (lo + n) = i := by omega
        simp [hlo, hle, hhi, Nat.sub_lt_iff_lt_add' hle, hback]
  · have hnot : ¬ i < lo := by omega
    have hnot' : ¬ i - lo < n := by omega
    have hpow : x.toNat < 2 ^ (i - lo - n + (lo + n)) := x.isLt.trans_le (Nat.pow_le_pow_right (by decide) (by omega))
    rw [if_neg hnot, if_neg hnot', Nat.testBit_div_two_pow, Nat.testBit_lt_two_pow hpow]
    exact Nat.testBit_lt_two_pow ((putBits x lo n v).isLt.trans_le (Nat.pow_le_pow_right (by decide) (by omega)))

theorem bitInsert_eq (a b c : Word) : bitInsert a b c = Reference.fieldInto a b c := by
  have hle : Reference.pos b + Reference.len b ≤ 32 := by
    have hpos : Reference.pos b < 32 := Nat.mod_lt _ (by decide)
    have hlen : Reference.len b ≤ 32 - Reference.pos b := min_le_right ..
    omega
  refine nat_of_toNat _ ?_
  unfold bitInsert
  rw [fieldPos_eq, fieldLen_eq]
  split
  next h =>
    rw [h, Nat.add_zero, pow_zero, Nat.mod_one, Nat.mul_zero, Nat.add_zero]
    exact (Nat.mod_add_div ..).symm
  next h => rw [putBits_toNat c _ hle, bits_eq, pow_zero, Nat.div_one, Nat.mod_mod]

/-! The shapes of the instructions: one operand, two, three, the last of them an immediate or not (05 R98). -/

section
variable {mk : Fields → Instr} {op : Nat}

theorem scalarOf_unary {g r : Word → Word} (hr : ∀ a, g a = r a) (he : ∀ f s, exec (mk f) s = scalarOp op f s (fun a _ _ => g a)) :
    ScalarOf mk op (fun _ a _ _ => r a) := scalarOf_of (g := fun _ a _ _ => g a) he fun _ _ => hr _

theorem scalarOf_binary {g r : Word → Word → Word} (hr : ∀ a b, g a b = r a b)
    (he : ∀ f s, exec (mk f) s = scalarOp op f s (fun a b _ => g a b)) : ScalarOf mk op (fun _ a b _ => r a b) :=
  scalarOf_of (g := fun _ a b _ => g a b) he fun _ _ => hr _ _

theorem scalarOf_binaryImm {g r : Word → Word → Word} (hr : ∀ a b, g a b = r a b) (himm : (opInfo op).imm = .b)
    (he : ∀ f s, exec (mk f) s = scalarOp op f s (fun a b _ => g a b)) : ScalarOf mk op (fun f a _ _ => r a f.x) :=
  scalarOf_of (g := fun _ a b _ => g a b) he fun _ _ => by rw [operand_immB himm, hr]

theorem scalarOf_ternary {g r : Word → Word → Word → Word} (hr : ∀ a b c, g a b c = r a b c)
    (he : ∀ f s, exec (mk f) s = scalarOp op f s g) : ScalarOf mk op (fun _ a b c => r a b c) :=
  scalarOf_of (g := fun _ => g) he fun _ _ => hr _ _ _

theorem scalarOf_ternaryImm {g r : Word → Word → Word → Word} (hr : ∀ a b c, g a b c = r a b c) (himm : (opInfo op).imm = .c)
    (he : ∀ f s, exec (mk f) s = scalarOp op f s g) : ScalarOf mk op (fun f a b _ => r a b f.x) :=
  scalarOf_of (g := fun _ => g) he fun _ _ => by rw [operand_immC himm, hr]

end

end Sys2Proof.Machine
end

section
/-! PROOFS. The obligation on scalar instructions (09 R156-R160). -/
open Sys2Proof Sys2Proof.Machine

/-- Settles O1: each instruction is `scalarOp` of a function of its operands, which is the rule's arithmetic; an immediate stands
for the operand that its opcode names. -/
theorem scalarResults : Obligations.ScalarResults := by
  unfold Obligations.ScalarResults
  exact ⟨
    scalarOf_binary add_eq_nat fun _ _ => rfl,
    scalarOf_binary sub_eq_int fun _ _ => rfl,
    scalarOf_binary mul_eq_nat fun _ _ => rfl,
    scalarOf_binary and_eq_nat fun _ _ => rfl,
    scalarOf_binary or_eq_nat fun _ _ => rfl,
    scalarOf_binary xor_eq_nat fun _ _ => rfl,
    scalarOf_binary shiftLeft_eq fun _ _ => rfl,
    scalarOf_binary shiftRight_eq fun _ _ => rfl,
    scalarOf_binary sshiftRight_eq fun _ _ => rfl,
    scalarOf_binary minS_eq fun _ _ => rfl,
    scalarOf_binary maxS_eq fun _ _ => rfl,
    scalarOf_binary minU_eq fun _ _ => rfl,
    scalarOf_binary maxU_eq fun _ _ => rfl,
    scalarOf_binaryImm add_eq_nat rfl fun _ _ => rfl,
    scalarOf_binaryImm sub_eq_int rfl fun _ _ => rfl,
    scalarOf_binaryImm mul_eq_nat rfl fun _ _ => rfl,
    scalarOf_binaryImm and_eq_nat rfl fun _ _ => rfl,
    scalarOf_binaryImm or_eq_nat rfl fun _ _ => rfl,
    scalarOf_binaryImm xor_eq_nat rfl fun _ _ => rfl,
    scalarOf_binaryImm shiftLeft_eq rfl fun _ _ => rfl,
    scalarOf_binaryImm shiftRight_eq rfl fun _ _ => rfl,
    scalarOf_binaryImm sshiftRight_eq rfl fun _ _ => rfl,
    scalarOf_binaryImm minS_eq rfl fun _ _ => rfl,
    scalarOf_binaryImm maxS_eq rfl fun _ _ => rfl,
    scalarOf_binaryImm minU_eq rfl fun _ _ => rfl,
    scalarOf_binaryImm maxU_eq rfl fun _ _ => rfl,
    scalarOf_of (g := fun f a b _ => mulHigh (tbit f.x 0) a b) (fun _ _ => rfl) fun _ f => mulHigh_eq (tbit f.x 0) _ _,
    scalarOf_binaryImm (mulHigh_eq false) rfl fun _ _ => rfl,
    scalarOf_ternary mad_eq fun _ _ => rfl,
    scalarOf_ternaryImm mad_eq rfl fun _ _ => rfl,
    scalarOf_unary not_eq_nat fun _ _ => rfl,
    scalarOf_unary leadingZeros_eq fun _ _ => rfl,
    scalarOf_unary popCount_eq fun _ _ => rfl,
    scalarOf_unary (fun _ => rfl) fun _ _ => rfl,
    scalarOf_of (g := fun f _ _ _ => f.x) (fun _ _ => rfl) fun _ _ => rfl,
    scalarOf_of (g := fun f a b _ => bitExtract (tbit f.x 0) a b) (fun _ _ => rfl) fun _ f => bitExtract_eq (tbit f.x 0) _ _,
    scalarOf_binaryImm (bitExtract_eq false) rfl fun _ _ => rfl,
    scalarOf_ternary bitInsert_eq fun _ _ => rfl,
    scalarOf_ternaryImm bitInsert_eq rfl fun _ _ => rfl,
    computes_scalar (fun f c => if tbit (c.readP (fieldC f - 392)) (lowestLane (c.activeLanes f)) then c.opn 0x036 f 0 .int 0
      else c.opn 0x036 f 1 .int 0) fun _ _ => rfl⟩
end


section
/-! PROOFS. Instructions of a single effect, predicates, masks and special registers (04 R70; 06 R104, R105; 09 R161-R169). -/
namespace Sys2Proof.Machine

/-! Single-effect instructions (R70). -/

/-- What an effect on a part's registers leaves: where the part stands, its modes and what it waits for. -/
def SamePlace (p p' : Part) : Prop :=
  p'.pc = p.pc ∧ p'.run = p.run ∧ p'.paths = p.paths ∧ p'.handler = p.handler ∧ p'.frozen = p.frozen ∧ p'.holds = p.holds ∧
  p'.relScope = p.relScope

/-- `e` is the part as an effect `d` leaves it, at the next instruction. -/
structure StandsAfter (d e : Cx) : Prop where
  p : e.p = { d.p with pc := d.p.pc + 1, buffer := [] }
  w : e.w = { d.w with parts := e.w.parts }

theorem StandsAfter.readS {d e : Cx} (h : StandsAfter d e) (n : Nat) : e.readS n = d.readS n := by rw [Cx.readS, h.p]; rfl
theorem StandsAfter.readM {d e : Cx} (h : StandsAfter d e) (n : Nat) : e.readM n = d.readM n := by rw [Cx.readM, h.p]; rfl
theorem StandsAfter.readP {d e : Cx} (h : StandsAfter d e) (n : Nat) : e.readP n = d.readP n := by rw [Cx.readP, h.w]; rfl
theorem StandsAfter.exec {d e : Cx} (h : StandsAfter d e) : e.p.exec = d.p.exec := by rw [h.p]

section
variable {mk : Fields → Instr} {op : Nat} {cond : Cx → Fields → Prop} {post : Cx → Fields → Cx → Prop}

/-- An instruction of a single effect computes, where it takes effect and where no active lane has its guard true. -/
theorem computesWhen_single {body : Fields → Cx → Effect} (h : Fields → Cx → Cx)
    (he : ∀ f s, exec (mk f) s = runPart op f s (fun c => single f c (body f c)))
    (hb : ∀ c f, cond c f → c.activeLanes f ≠ 0 → body f (c.issued op f) = .next (h f (c.issued op f)))
    (hw : ∀ f c, WaveOnly c (h f c)) (hp : ∀ f c, SamePlace c.p (h f c).p)
    (hno : ∀ c f e, c.activeLanes f = 0 → StandsAfter (c.issued op f) e → post c f e)
    (hyes : ∀ c f e, c.activeLanes f ≠ 0 → StandsAfter (h f (c.issued op f)) e → post c f e) : ComputesWhen mk op cond post := by
  refine computesWhen_of (fun f c => single f c (body f c)) he (fun s c f _ hc => ?_)
  by_cases ha : c.activeLanes f = 0
  · exact ⟨c.issued op f, by simp [single, ha], WaveOnly.part _ id rfl, rfl, rfl, rfl, rfl, rfl, rfl, rfl,
      fun e hep hew => hno c f e ha ⟨hep, hew⟩⟩
  · obtain ⟨hpc, hrun, hpaths, hhand, hfroz, hholds, hrel⟩ := hp f (c.issued op f)
    exact ⟨h f (c.issued op f), (if_neg ha).trans (hb c f hc ha), hw .., hpc, hrun, hpaths, hhand, hfroz, hholds, hrel,
      fun e hep hew => hyes c f e ha ⟨hep, hew⟩⟩

/-- An instruction without an effect. -/
theorem computesWhen_idle {body : Fields → Cx → Effect} (he : ∀ f s, exec (mk f) s = runPart op f s (body f))
    (hb : ∀ c f, cond c f → body f (c.issued op f) = .next (c.issued op f)) :
    ComputesWhen mk op cond (fun c _ d => PartRegs c.p d.p ∧ OnlyParts c.w d.w) := by
  refine computesWhen_of body he (fun s c f _ hc => ⟨c.issued op f, hb c f hc, WaveOnly.part _ id rfl, rfl, rfl, rfl, rfl, rfl, rfl,
    rfl, fun e hep hew => ⟨?_, hew⟩⟩)
  rw [hep]
  exact ⟨rfl, rfl, rfl, rfl, rfl⟩

end

/-! Masks and predicates by their bits. -/

theorem tbit_and {w : Nat} (a b : BitVec w) (i : Nat) : tbit (a &&& b) i = (tbit a i && tbit b i) := by
  simp [tbit_eq_getLsbD]

theorem tbit_xor {w : Nat} (a b : BitVec w) (i : Nat) : tbit (a ^^^ b) i = (tbit a i ^^ tbit b i) := by
  simp [tbit_eq_getLsbD]

theorem tbit_not {w : Nat} (a : BitVec w) {i : Nat} (h : i < w) : tbit (~~~a) i = !tbit a i := by
  simp [tbit_eq_getLsbD, h]

theorem tbit_ite_allOnes (b : Bool) {w i : Nat} (h : i < w) : tbit (if b then BitVec.allOnes w else 0) i = b := by
  cases b <;> simp [tbit_eq_getLsbD, h]

/-- The ten conditions (R161). -/
theorem cmpInt_eq (cc : Nat) (a b : Word) : cmpInt cc a b = Reference.holds cc a b := by
  unfold cmpInt Reference.holds
  split <;> simp [BitVec.slt_eq_decide, BitVec.sle_eq_decide, BitVec.ult_eq_decide, BitVec.ule_eq_decide]

/-! Moves between masks (R165, R166). -/

/-- The bits that `mmov` reads. -/
theorem tbit_maskSource (c : Cx) (n l : Nat) : tbit (c.maskSource n) l = true ↔ c.sourceBit n l := by
  unfold Cx.maskSource Cx.sourceBit
  split
  · exact Iff.rfl
  split
  · exact Iff.rfl
  split
  · rw [tbit_and, Bool.and_eq_true]
  · rw [tbit_eq_getLsbD, BitVec.getLsbD_append]
    split <;> rfl

/-- What `mmov` does with the bits it has read. -/
def Cx.mmovTo (c : Cx) (d : Nat) (v : Dword) : Cx :=
  if d = 466 then c.setExec v
  else if 400 ≤ d then c.writeM (d - 400) v
  else c.writeP (d - 392) ((c.readP (d - 392) &&& ~~~c.p.lanes) ||| (v &&& c.p.lanes))

theorem WaveOnly.mmovTo (c : Cx) (d : Nat) (v : Dword) : WaveOnly c (c.mmovTo d v) := by
  unfold Cx.mmovTo
  split
  · exact WaveOnly.setExec ..
  split
  · exact WaveOnly.writeM ..
  · exact WaveOnly.writeP ..

/-- Every field but the mask registers and $exec. -/
theorem mmovTo_p (c : Cx) (d : Nat) (v : Dword) :
    (c.mmovTo d v).p = { c.p with m := (c.mmovTo d v).p.m, exec := (c.mmovTo d v).p.exec } := by
  unfold Cx.mmovTo
  split
  · rfl
  split
  · rfl
  · rw [writeP_p]

theorem mmovTo_w (c : Cx) (d : Nat) (v : Dword) : (c.mmovTo d v).w = { c.w with p := (c.mmovTo d v).w.p } := by
  unfold Cx.mmovTo
  split
  · rfl
  split
  · rfl
  · exact writeP_w ..

theorem mmovTo_exec (c : Cx) (d : Nat) (v : Dword) : (c.mmovTo d v).p.exec = if d = 466 then v &&& c.p.run else c.p.exec := by
  unfold Cx.mmovTo
  split
  · rfl
  split
  · rfl
  · rw [writeP_p]

theorem readM_mmovTo (c : Cx) (d : Nat) (v : Dword) {n : Nat} (hn : n < 8) :
    (c.mmovTo d v).readM n = if n + 400 = d then v else c.readM n := by
  have hne : d = 466 → n + 400 ≠ d := by omega
  unfold Cx.mmovTo
  split
  next h => rw [if_neg (hne h)]; rfl
  next h =>
    split
    next h4 =>
      rw [readM_writeM]
      have : n = d - 400 ↔ n + 400 = d := by omega
      simp only [this]
    next h4 =>
      rw [if_neg (by omega), Cx.readM, writeP_p]
      rfl

theorem tbit_readP_mmovTo (c : Cx) (d : Nat) (v : Dword) {n l : Nat} (hn : n < 7) (hl : l < 64) : tbit ((c.mmovTo d v).readP n) l =
    if n = d - 392 ∧ d < 400 ∧ tbit c.p.lanes l = true then tbit v l else tbit (c.readP n) l := by
  unfold Cx.mmovTo
  split
  next h => rw [if_neg (by omega)]; rfl
  next h =>
    split
    next h4 => rw [if_neg (by omega)]; rfl
    next h4 =>
      by_cases h7 : d - 392 = 7
      · rw [if_neg (by omega), Cx.writeP, if_pos h7]
      · rw [readP_writeP _ _ _ _ h7]
        by_cases hd : n = d - 392
        · rw [if_pos hd, tbit_mux _ _ _ _ hl, ← hd]
          have : d < 400 := by omega
          simp only [this, true_and]
        · rw [if_neg hd, if_neg (fun h => hd h.1)]

end Sys2Proof.Machine
end

section
/-! PROOFS. The obligation on predicates and masks (09 R161-R163, R165, R166). -/
open Sys2Proof Sys2Proof.Machine

/-- Settles O2: results lane by lane (`computes_pred`), masks whole (`computes_mask`), and the two moves of a single effect. -/
theorem predicatesAndMasks : Obligations.PredicatesAndMasks := by
  unfold Obligations.PredicatesAndMasks
  refine ⟨?scmp, ?pand, ?por, ?pxor, ?pnot, ?mand, ?mor, ?mxor, ?mpopc, ?mffs, ?mexec, ?mmov⟩
  case scmp =>
    refine computes_pred (fun f c => if cmpInt (bits f.x 0 4) (c.opn 0x037 f 0 .int 0) (c.opn 0x037 f 1 .int 0)
      then BitVec.allOnes 64 else 0) _ (fun c f l hl => ?_) fun _ _ => rfl
    have hcc : bits f.x 0 4 = f.x.toNat % 16 := by simp [bits_eq]
    rw [tbit_ite_allOnes _ (takes_iff.mp hl).1, cmpInt_eq, hcc]
    rfl
  case pand =>
    refine computes_pred (fun f c => c.readP (f.a.toNat - 392) &&& c.readP (f.b.toNat - 392)) _ (fun c f l _ => ?_) fun _ _ => rfl
    rw [tbit_and, Bool.and_eq_true]
    rfl
  case por =>
    refine computes_pred (fun f c => c.readP (f.a.toNat - 392) ||| c.readP (f.b.toNat - 392)) _ (fun c f l _ => ?_) fun _ _ => rfl
    rw [tbit_or, Bool.or_eq_true]
    rfl
  case pxor =>
    refine computes_pred (fun f c => c.readP (f.a.toNat - 392) ^^^ c.readP (f.b.toNat - 392)) _ (fun c f l _ => ?_) fun _ _ => rfl
    rw [tbit_xor, Bool.xor_iff_ne]
    rfl
  case pnot =>
    refine computes_pred (fun f c => ~~~c.readP (f.a.toNat - 392)) _ (fun c f l hl => ?_) fun _ _ => rfl
    rw [tbit_not _ (takes_iff.mp hl).1, Bool.not_eq_true']
    rfl
  case mand => exact computes_mask (fun f c => c.readM (f.a.toNat - 400) &&& c.readM (f.b.toNat - 400)) fun _ _ => rfl
  case mor => exact computes_mask (fun f c => c.readM (f.a.toNat - 400) ||| c.readM (f.b.toNat - 400)) fun _ _ => rfl
  case mxor => exact computes_mask (fun f c => c.readM (f.a.toNat - 400) ^^^ c.readM (f.b.toNat - 400)) fun _ _ => rfl
  case mpopc =>
    have h := computes_scalar (mk := .mpopc) (op := 0x018) (fun f c => BitVec.ofNat 32 (popCount (c.readM (f.a.toNat - 400)))) fun _ _ => rfl
    simp only [popCount_eq] at h
    exact h
  case mffs =>
    have h := computes_scalar (mk := .mffs) (op := 0x019) (fun f c => lowestOne (c.readM (f.a.toNat - 400))) fun _ _ => rfl
    simp only [lowestOne_eq] at h
    exact h
  case mexec =>
    refine computesWhen_single (fun f c => (c.writeM (f.d.toNat - 400) c.p.exec).setExec (c.p.exec &&& c.readM (f.a.toNat - 400)))
      (fun _ _ => rfl) (fun _ _ _ _ => rfl) (fun _ _ => (WaveOnly.writeM ..).trans (WaveOnly.setExec ..))
      (fun _ _ => ⟨rfl, rfl, rfl, rfl, rfl, rfl, rfl⟩) (fun c f e ha he => ?_) (fun c f e ha he => ?_)
    · simp only [Cx.readM, he.p, ha, ne_eq, not_true_eq_false, and_false, if_false]
      exact ⟨fun _ => rfl, rfl, rfl, rfl, rfl, he.w⟩
    · simp only [Cx.readM, he.p, ha, ne_eq, not_false_eq_true, and_true, if_true]
      exact ⟨fun n => kget_kset 0 c.p.m (f.d.toNat - 400) n c.p.exec, rfl, rfl, rfl, rfl, he.w⟩
  case mmov =>
    refine computesWhen_single (fun f c => c.mmovTo f.d.toNat (c.maskSource f.a.toNat))
      (fun _ _ => rfl) (fun _ _ _ _ => rfl) (fun _ _ => WaveOnly.mmovTo ..)
      (fun f c => by rw [mmovTo_p]; exact ⟨rfl, rfl, rfl, rfl, rfl, rfl, rfl⟩) (fun c f e ha he => ?_) (fun c f e ha he => ?_)
    · simp only [ha, ne_eq, not_true_eq_false, and_false, false_and, not_false_eq_true, true_imp_iff, false_imp_iff,
        true_and, he.readM, he.readP, he.exec]
      refine ⟨fun _ _ _ _ => rfl, fun _ _ _ _ => rfl, fun _ _ => rfl, by rw [he.p]; rfl, by rw [he.p]; rfl, by rw [he.p]; rfl, by rw [he.w]; rfl⟩
    · have hv (l : Nat) : tbit ((c.issued 0x017 f).maskSource f.a.toNat) l = true ↔ c.sourceBit f.a.toNat l := tbit_maskSource ..
      refine ⟨fun n l hn hl => ?_, fun n l hn hl => ?_, fun l hl => ?_, ?_, ?_, ?_, ?_⟩
      · rw [he.readM, readM_mmovTo _ _ _ hn]
        exact ⟨fun h => by rw [if_pos h.1, hv], fun h => if_neg fun hn => h ⟨hn, ha⟩⟩
      · rw [he.readP, tbit_readP_mmovTo _ _ _ hn hl]
        exact ⟨fun ⟨hn, hd, _, hlane⟩ => by rw [if_pos ⟨hn, hd, hlane⟩, hv],
          fun h => if_neg fun ⟨hn, hd, hlane⟩ => h ⟨hn, hd, ha, hlane⟩⟩
      · rw [he.exec, mmovTo_exec]
        refine ⟨fun h => ?_, fun h => by rw [if_neg fun hd => h ⟨hd, ha⟩]; rfl⟩
        rw [if_pos h.1, tbit_and, Bool.and_eq_true, hv]
        rfl
      · rw [he.p, mmovTo_p]; rfl
      · rw [he.p, mmovTo_p]; rfl
      · rw [he.p, mmovTo_p]; rfl
      · rw [he.w, mmovTo_w]; rfl
end

section
/-! PROOFS. Halves of special registers (06 R104, R105; 09 R164, R167-R169). -/
namespace Sys2Proof.Machine

theorem halfOf_eq (v : Dword) (high : Bool) : halfOf v high = Reference.half high v := by
  cases high <;> exact BitVec.eq_of_toNat_eq (by simp [halfOf, Reference.half, Reference.nat, bits_eq])

theorem putHalf_eq (v : Dword) (high : Bool) (x : Word) : putHalf v high x = Reference.putHalf high v x := by
  have hx : x.toNat % 2 ^ 32 = x.toNat := Nat.mod_eq_of_lt x.isLt
  have hv : v.toNat < 2 ^ 64 := v.isLt
  have hlt : x.toNat < 2 ^ 32 := x.isLt
  refine BitVec.eq_of_toNat_eq ?_
  cases high with
  | true =>
    have h := putBits_toNat v (lo := 32) (n := 32) x.toNat (by decide)
    rw [hx] at h
    refine h.trans ?_
    simp only [Reference.putHalf, Reference.dnat, if_true, BitVec.toNat_ofNat]
    omega
  | false =>
    have h := putBits_toNat v (lo := 0) (n := 32) x.toNat (by decide)
    rw [hx] at h
    refine h.trans ?_
    simp only [Reference.putHalf, Reference.dnat, Bool.false_eq_true, if_false, BitVec.toNat_ofNat]
    omega

theorem issued_cyc (c : Cx) (op : Nat) (f : Fields) : (c.issued op f).cyc = c.cyc := by
  rw [Cx.cyc, issued_s_of]
  rfl

theorem issued_residencyReported (c : Cx) (op : Nat) (f : Fields) : (c.issued op f).residencyReported = c.residencyReported := rfl
theorem issued_peersReported (c : Cx) (op : Nat) (f : Fields) : (c.issued op f).peersReported = c.peersReported := rfl

/-- A special register reads alike before and after its issue is booked. -/
theorem issued_special (c : Cx) (op : Nat) (f : Fields) (n : Nat) (gridX : Bool) :
    (c.issued op f).special n gridX = c.special n gridX := by
  unfold Cx.special
  rw [issued_cyc]
  rfl

end Sys2Proof.Machine
end

section
/-! PROOFS. The obligation on special registers (06 R104, R105; 09 R167-R169). -/
open Sys2Proof Sys2Proof.Machine

/-- Settles O3: each is a single effect (`computesWhen_single`), on a half of a register (`halfOf_eq`, `putHalf_eq`). -/
theorem specialRegisters : Obligations.SpecialRegisters := by
  unfold Obligations.SpecialRegisters
  refine ⟨?srd, ?scyc, ?exec, ?resid, ?pstat⟩
  case srd =>
    have h := computes_scalar (mk := .srd) (op := 0x01B) (fun f c => halfOf (c.special f.a.toNat (tbit f.x 15)) (tbit f.x 0))
      fun _ _ => rfl
    simp only [halfOf_eq, issued_special] at h
    refine (iff_of_eq (congrArg (fun v => Computes Instr.srd 0x01B (ScalarPost v)) (funext₂ fun c f => ?_))).mp h
    cases hg : tbit f.x 15 <;> simp only [Cx.special, if_true, Bool.false_eq_true, if_false] <;> rfl
  case scyc =>
    refine computesWhen_single (fun f c => (c.writeS (f.d.toNat - 256) (halfOf (BitVec.ofNat 64 c.cyc) false)).writeS (f.d.toNat - 255)
      (halfOf (BitVec.ofNat 64 c.cyc) true)) (fun _ _ => rfl) (fun _ _ _ _ => rfl)
      (fun _ _ => (WaveOnly.writeS ..).trans (WaveOnly.writeS ..)) (fun _ _ => ⟨rfl, rfl, rfl, rfl, rfl, rfl, rfl⟩)
      (fun c f e ha he => ?_) (fun c f e ha he => ?_)
    · refine ⟨fun n => ?_, by rw [he.p]; rfl, by rw [he.p]; rfl, by rw [he.p]; rfl, by rw [he.p]; rfl, he.w⟩
      simp only [he.readS, ha, ne_eq, not_true_eq_false, and_false, if_false]
      rfl
    · refine ⟨fun n => ?_, by rw [he.p]; rfl, by rw [he.p]; rfl, by rw [he.p]; rfl, by rw [he.p]; rfl, he.w⟩
      simp only [he.readS, ha, ne_eq, not_false_eq_true, and_true, readS_writeS, halfOf_eq, issued_cyc]
      rfl
  case exec =>
    refine computesWhen_single (fun f c => c.setExec (putHalf c.p.exec (tbit f.x 0) (c.opn 0x01C f 0 .int 0))) (fun _ _ => rfl)
      (fun _ _ _ _ => rfl) (fun _ _ => WaveOnly.setExec ..) (fun _ _ => ⟨rfl, rfl, rfl, rfl, rfl, rfl, rfl⟩)
      (fun c f e ha he => ?_) (fun c f e ha he => ?_)
    · refine ⟨?_, by rw [he.p]; rfl, by rw [he.p]; rfl, by rw [he.p]; rfl, by rw [he.p]; rfl, he.w⟩
      rw [he.exec, if_neg (not_not.mpr ha)]
      rfl
    · refine ⟨?_, by rw [he.p]; rfl, by rw [he.p]; rfl, by rw [he.p]; rfl, by rw [he.p]; rfl, he.w⟩
      rw [he.exec, if_pos ha]
      exact congrArg (· &&& c.p.run) (putHalf_eq ..)
  case resid =>
    refine computesWhen_single (fun f c => { c with w := { c.w with resid := putHalf c.w.resid (tbit f.x 0) (c.opn 0x01C f 0 .int 0) } })
      (fun _ _ => rfl) (fun c f hc _ => if_pos ((issued_residencyReported c 0x01C f).trans hc))
      (fun _ _ => WaveOnly.wave _ _ rfl rfl) (fun _ _ => ⟨rfl, rfl, rfl, rfl, rfl, rfl, rfl⟩)
      (fun c f e ha he => ?_) (fun c f e ha he => ?_)
    · refine ⟨?_, by rw [he.p]; exact ⟨rfl, rfl, rfl, rfl, rfl⟩, by rw [he.w]; rfl⟩
      rw [he.w, if_neg (not_not.mpr ha)]
      rfl
    · refine ⟨?_, by rw [he.p]; exact ⟨rfl, rfl, rfl, rfl, rfl⟩, by rw [he.w]; rfl⟩
      rw [he.w, if_pos ha]
      exact putHalf_eq ..
  case pstat =>
    refine computesWhen_single (fun f c => c.part (fun p => { p with pstat := BitVec.ofNat 16 (bits (c.opn 0x01C f 0 .int 0) 0 16) }))
      (fun _ _ => rfl) (fun c f hc _ => if_pos ((issued_peersReported c 0x01C f).trans hc))
      (fun _ _ => WaveOnly.part _ _ rfl) (fun _ _ => ⟨rfl, rfl, rfl, rfl, rfl, rfl, rfl⟩)
      (fun c f e ha he => ?_) (fun c f e ha he => ?_)
    · refine ⟨?_, by rw [he.p]; rfl, by rw [he.p]; rfl, by rw [he.p]; rfl, by rw [he.p]; rfl, he.w⟩
      rw [he.p, if_neg (not_not.mpr ha)]
      rfl
    · refine ⟨?_, by rw [he.p]; rfl, by rw [he.p]; rfl, by rw [he.p]; rfl, by rw [he.p]; rfl, he.w⟩
      rw [he.p, if_pos ha]
      simp [bits_eq, Cx.operand]
end

section
/-! PROOFS. Where the running path goes: switch points, branches, and the part that stands after them (07 R130, R131; 09 R170). -/
namespace Sys2Proof.Machine

/-! The part in focus, put back. -/

/-- The part in focus after it has been put back with its wave. -/
theorem commit_stands {s : State} {r : PartRef} {c d : Cx} (h : partAt s r = some c) (hd : WaveOnly c d) :
    ∃ e, partAt d.commit r = some e ∧ OnlyCore s d.commit c.core ∧ OnlyWave c.k e.k c.slot ∧ e.w = d.waveAfter ∧ e.p = d.p :=
  (waveAfter_commit h hd).stands h hd.wg (waveAfter_lanes h hd) (waveAfter_getElem h hd)

theorem WaveOnly.withPart (c : Cx) {p : Part} (h : p.lanes = c.p.lanes) : WaveOnly c { c with p := p } :=
  WaveOnly.part c (fun _ => p) h

/-- An instruction that moves its path ends with the part put back. -/
theorem movesWhen_of {mk : Fields → Instr} {op : Nat} {cond : Cx → Fields → Prop} {post : Cx → Fields → Part → Prop}
    (h : ∀ s c f, Issues s c op f → cond c f → ∃ q : Part, exec (mk f) s = .next { c.issued op f with p := q }.commit ∧
      q.lanes = c.p.lanes ∧ post c f q) : MovesWhen mk op cond post := by
  intro s c f hi hc
  obtain ⟨q, hexec, hl, hpost⟩ := h s c f hi hc
  obtain ⟨e, hp, hoc, how, hew, hep⟩ := commit_stands hi.1 ((WaveOnly.issued c op f).trans (WaveOnly.withPart _ hl))
  refine ⟨_, e, hexec, hp, hoc, how, ?_, fun i hne => ?_, hep ▸ hl, hep ▸ hpost⟩
  · rw [OnlyParts, hew]
    rfl
  · rw [hew]
    exact List.getElem?_set_ne (Ne.symm hne)

theorem movesWhen_at {mk : Fields → Instr} {op : Nat} {cond : Cx → Fields → Prop} {post : Cx → Fields → Part → Prop}
    (body : Fields → Cx → Effect) (he : ∀ f s, exec (mk f) s = runPart op f s (body f))
    (hb : ∀ c f, cond c f → ∃ q : Part, body f (c.issued op f) = .at { c.issued op f with p := q } ∧ q.lanes = c.p.lanes ∧
      post c f { q with buffer := [] }) : MovesWhen mk op cond post := by
  refine movesWhen_of fun s c f hi hc => ?_
  obtain ⟨q, hq, hl, hpost⟩ := hb c f hc
  exact ⟨{ q with buffer := [] }, (he f s).trans (runPart_at hi hq), hl, hpost⟩

/-- An instruction that takes no latch writes none. -/
theorem Issues.lw_false {s : State} {c : Cx} {op : Nat} {f : Fields} (h : Issues s c op f)
    (hop : (operandCls op (modField (opInfo op).x f.x)).lw = false) : f.lw = false := by
  obtain ⟨-, -, -, -, hlatch, -⟩ := h
  by_contra hlw
  simp [latchCheck, hop, Bool.not_eq_false _ ▸ hlw] at hlatch

/-! Switch points (R131). -/

/-- At a switch point the running path gives way to the first that waits. -/
theorem switchPath_spec (p : Part) : (switchPath p).lanes = p.lanes ∧ SameRegs p (switchPath p) ∧
    GoesOn p.pc p.run p.exec p.paths True (switchPath p) := by
  by_cases hp : p.paths = []
  · have hself : switchPath p = p := if_pos (by simp [hp])
    rw [hself]
    exact ⟨rfl, SameRegs.refl p, fun _ => ⟨rfl, rfl, rfl, rfl⟩, fun hne => absurd hp hne⟩
  · obtain ⟨q, hq, hl, hr, hres⟩ := resumePath_some (p := { p with paths := p.paths ++ [⟨p.pc, p.run, p.exec, 0⟩] })
      ⟨_, List.mem_append_right _ List.mem_cons_self, rfl⟩
    have hto : switchPath p = q := by simp [switchPath, hp, hq]
    rw [hto]
    exact ⟨hl, hr, fun hor => absurd trivial (hor.resolve_left hp), fun _ _ => hres⟩

/-- A path goes to a PC, which is a switch point where it does not lie ahead. -/
theorem goto_spec (c : Cx) (target : Word) : ∃ q, c.goto target = { c with p := q } ∧ q.lanes = c.p.lanes ∧ SameRegs c.p q ∧
    GoesOn target c.p.run c.p.exec c.p.paths (target.toNat ≤ c.p.pc.toNat) q := by
  by_cases ht : target.toNat ≤ c.p.pc.toNat
  · obtain ⟨hl, hr, hstay, hswitch⟩ := switchPath_spec { c.p with pc := target }
    exact ⟨_, if_pos ht, hl, hr, fun hor => hstay (hor.imp id fun hno => absurd ht hno), fun hne _ => hswitch hne trivial⟩
  · exact ⟨{ c.p with pc := target }, if_neg ht, rfl, SameRegs.refl c.p, fun _ => ⟨rfl, rfl, rfl, rfl⟩, fun _ hle => absurd hle ht⟩

/-- A branch (R170). -/
theorem branch_spec (c : Cx) (target : Word) (take : Lanes) : ∃ q, c.branch target take = { c with p := q } ∧ q.lanes = c.p.lanes ∧
    SameRegs c.p q ∧ Branches c.p target take q := by
  unfold Branches Cx.branch
  split
  · exact ⟨{ c.p with pc := c.p.pc + 1 }, rfl, rfl, SameRegs.refl c.p, fun _ => ⟨rfl, rfl, rfl, rfl⟩, fun _ hno => hno.elim⟩
  split
  · exact goto_spec c target
  · exact goto_spec (c.part fun p => { p with run := take, exec := take, paths := p.paths ++ [⟨c.p.pc + 1, c.p.run &&& ~~~take,
      c.p.exec &&& ~~~take, 0⟩] }) target

/-- A call saves the next index where some lane goes (R175). -/
theorem call_spec (c : Cx) (f : Fields) (target : Word) : ∃ q, c.call f target = { c with p := q } ∧ q.lanes = c.p.lanes ∧
    Branches c.p target (c.activeLanes f) q ∧
    (∀ n, kget 0 q.s n = if n = f.d.toNat - 256 ∧ c.activeLanes f ≠ 0 then c.p.pc + 1 else c.readS n) ∧
    q.m = c.p.m ∧ q.h = c.p.h ∧ q.pstat = c.p.pstat := by
  unfold Cx.call
  dsimp only
  split
  next h =>
    obtain ⟨q, hq, hl, ⟨hs, hm, hh, hps⟩, hb⟩ := branch_spec c target (c.activeLanes f)
    exact ⟨q, hq, hl, hb, fun n => by rw [hs, if_neg (fun hn => hn.2 h)]; rfl, hm, hh, hps⟩
  next h =>
    obtain ⟨q, hq, hl, ⟨hs, hm, hh, hps⟩, hb⟩ := branch_spec (c.writeS (f.d.toNat - 256) (c.p.pc + 1)) target (c.activeLanes f)
    refine ⟨q, hq, hl, hb, fun n => ?_, hm, hh, hps⟩
    rw [hs]
    simp only [h, ne_eq, not_false_eq_true, and_true]
    exact readS_writeS c (f.d.toNat - 256) n (c.p.pc + 1)

section
variable {mk : Fields → Instr} {op : Nat} (target : Fields → Cx → Word)

theorem moves_branch (he : ∀ f s, exec (mk f) s = runPart op f s (fun c => .at (c.branch (target f c) (c.activeLanes f)))) :
    Moves mk op (fun c f p => Branches c.p (target f (c.issued op f)) (c.activeLanes f) p ∧ SameRegs c.p p) :=
  movesWhen_at _ he fun c f _ => by
    obtain ⟨q, hq, hl, hr, hb⟩ := branch_spec (c.issued op f) (target f (c.issued op f)) (c.activeLanes f)
    exact ⟨q, congrArg Effect.at hq, hl, hb, hr⟩

theorem moves_call (he : ∀ f s, exec (mk f) s = runPart op f s (fun c => .at (c.call f (target f c)))) :
    Moves mk op (fun c f p => Branches c.p (target f (c.issued op f)) (c.activeLanes f) p ∧
      (∀ n, kget 0 p.s n = if n = f.d.toNat - 256 ∧ c.activeLanes f ≠ 0 then c.p.pc + 1 else c.readS n) ∧
      p.m = c.p.m ∧ p.h = c.p.h ∧ p.pstat = c.p.pstat) :=
  movesWhen_at _ he fun c f _ => by
    obtain ⟨q, hq, hl, hpost⟩ := call_spec (c.issued op f) f (target f (c.issued op f))
    exact ⟨q, congrArg Effect.at hq, hl, hpost⟩

end

end Sys2Proof.Machine
end

section
/-! PROOFS. The obligation on branches, jumps, calls and returns (09 R170-R176, R179, R183). -/
open Sys2Proof Sys2Proof.Machine

/-- Settles O17: every branch is `Cx.branch` (`branch_spec`), a jump takes its path whole, and a yield is a switch point. -/
theorem controlFlow : Obligations.ControlFlow := by
  unfold Obligations.ControlFlow
  refine ⟨?bra, ?brx, ?ret, ?jmp, ?call, ?callIndirect, ?yield, ?nop⟩
  case bra => exact moves_branch (fun f c => c.p.pc + f.x) fun _ _ => rfl
  case brx => exact moves_branch (fun f c => c.opn 0x003 f 0 .int 0) fun _ _ => rfl
  case ret => exact moves_branch (fun f c => c.opn 0x007 f 0 .int 0) fun _ _ => rfl
  case jmp =>
    refine movesWhen_of fun s c f hi _ => ?_
    by_cases ha : c.activeLanes f = 0
    · refine ⟨{ (c.issued 0x004 f).p with pc := c.p.pc + 1, buffer := [] }, ?_, rfl, ?_, SameRegs.refl c.p⟩
      · have hlw : f.lw = false := hi.lw_false rfl
        refine (runPart_next (d := c.issued 0x004 f) hi (if_pos ha)).trans ?_
        rw [Cx.retire, hlw]
        rfl
      · rw [if_pos ha, Branches, if_pos rfl]
        exact ⟨fun _ => ⟨rfl, rfl, rfl, rfl⟩, fun _ hno => hno.elim⟩
    · obtain ⟨q, hq, hl, hr, hg⟩ := goto_spec (c.issued 0x004 f) (c.p.pc + f.x)
      refine ⟨{ q with buffer := [] }, ?_, hl, ?_, hr⟩
      · exact runPart_at (d := { c.issued 0x004 f with p := q }) hi ((if_neg ha).trans (congrArg Effect.at hq))
      · have hexec : c.p.exec ≠ 0 := fun h0 => ha (by simp [Cx.activeLanes, h0])
        rw [if_neg ha, Branches, if_neg hexec, if_pos rfl]
        exact hg
  case call => exact moves_call (fun f c => c.p.pc + f.x) fun _ _ => rfl
  case callIndirect => exact moves_call (fun f c => c.opn 0x006 f 0 .int 0) fun _ _ => rfl
  case yield =>
    refine movesWhen_at _ (fun _ _ => rfl) fun c f _ => ?_
    obtain ⟨hl, hr, hg⟩ := switchPath_spec { (c.issued 0x00A f).p with pc := c.p.pc + 1 }
    exact ⟨_, rfl, hl, hg, hr⟩
  case nop => exact computesWhen_idle (fun _ _ => rfl) fun _ _ _ => rfl
end

section
/-! PROOFS. `bra.s`: the entry that it pushes, and its split or its branch (07 R119, R121, R122; 09 R172). -/
namespace Sys2Proof.Machine

/-- Some lanes of a mask are left where others are taken. -/
theorem and_not_eq_zero_iff {m take : Lanes} (h : ∀ i, tbit take i = true → tbit m i = true) : m &&& ~~~take = 0 ↔ take = m := by
  refine ⟨fun h0 => eq_of_tbit_iff fun i => ⟨h i, fun hi => ?_⟩, ?_⟩
  · have hbit : tbit (m &&& ~~~take) i = false := by rw [h0]; simp [tbit]
    rw [tbit_and, hi, tbit_not _ (tbit_lt hi)] at hbit
    simpa using hbit
  · rintro rfl
    exact BitVec.and_not_self take

theorem tbit_activeLanes {c : Cx} {f : Fields} {i : Nat} (h : tbit (c.activeLanes f) i = true) : tbit c.p.exec i = true := by
  rw [Cx.activeLanes, tbit_and, Bool.and_eq_true] at h
  exact h.1

/-- Where `bra.s` splits: some active lanes are taken and some not, in a kernel of split branches, on a part of one path, with no
quad in three parts (R119, R172). -/
def Cx.splits (c : Cx) (f : Fields) : Prop :=
  c.activeLanes f ≠ 0 ∧ c.activeLanes f ≠ c.p.exec ∧ c.g.kernel.splitBr = true ∧ c.p.paths = [] ∧ splitFits c (c.activeLanes f) = true

theorem splits_iff (c : Cx) (f : Fields) : (c.activeLanes f != 0 && (c.p.exec &&& ~~~c.activeLanes f) != 0 && c.g.kernel.splitBr &&
    c.p.paths.isEmpty && splitFits c (c.activeLanes f)) = true ↔ c.splits f := by
  have hfall := and_not_eq_zero_iff (m := c.p.exec) (take := c.activeLanes f) fun i => tbit_activeLanes
  simp only [Cx.splits, Bool.and_eq_true, bne_iff_ne, ne_eq, hfall, List.isEmpty_iff, and_assoc]

/-- The wave once a part has split at a branch: the entry for its lanes, and its two parts in its place. -/
def braSplit (c : Cx) (f : Fields) (w : Wave) : Wave :=
  let two := splitParts c.p (c.p.pc + f.x) (c.activeLanes f)
  let w1 := pushEntry w c.p.lanes false c.g.kernel.rejoin c.cyc
  retest { w1 with parts := sortParts (two.1 :: two.2 :: w1.parts.filter (fun p => lowestLane p.lanes != c.lane)) }

/-- `bra.s` outside handler mode. -/
theorem exec_braS {s : State} {c : Cx} {f : Fields} (hi : Issues s c 0x002 f) (hh : c.p.handler = none) :
    let d := c.issued 0x002 f
    (c.splits f → exec (.braS f) s = .next (updWave d.commit c.core c.slot (braSplit d f))) ∧
    (¬ c.splits f → exec (.braS f) s = .next (updWave (d.branch (c.p.pc + f.x) (c.activeLanes f)).commit c.core c.slot
      (fun w => pushEntry w c.p.lanes false c.g.kernel.rejoin d.cyc))) := by
  intro d
  exact ⟨fun hsp => runPart_whole hi ((outsideHandler_of_none (c := d) hh _).trans (if_pos ((splits_iff d f).mpr hsp))),
    fun hno => runPart_whole hi ((outsideHandler_of_none (c := d) hh _).trans (if_neg fun h => hno ((splits_iff d f).mp h)))⟩

/-- Both parts of the split stand in the wave. -/
theorem mem_braSplit {c : Cx} (hwait : c.p.wait = .ready) (f : Fields) (w : Wave) :
    (splitParts c.p (c.p.pc + f.x) (c.activeLanes f)).1 ∈ (braSplit c f w).parts ∧
      (splitParts c.p (c.p.pc + f.x) (c.activeLanes f)).2 ∈ (braSplit c f w).parts := by
  have hstays {p : Part} (hp : p.wait = .ready) : retested p = p := retested_of_ne (by simp [hp])
  unfold braSplit
  dsimp only
  rw [retest_parts]
  exact ⟨List.mem_map.mpr ⟨_, mem_sortParts.mpr List.mem_cons_self, hstays hwait⟩,
    List.mem_map.mpr ⟨_, mem_sortParts.mpr (List.mem_cons_of_mem _ List.mem_cons_self), hstays hwait⟩⟩

theorem braSplit_rest (c : Cx) (f : Fields) (w : Wave) : braSplit c f w =
    { pushEntry w c.p.lanes false c.g.kernel.rejoin c.cyc with parts := (braSplit c f w).parts } := rfl

end Sys2Proof.Machine
end

section
/-! PROOFS. The obligation on `bra.s` (07 R119, R121, R122; 09 R172). -/
open Sys2Proof Sys2Proof.Machine

/-- Settles O18: the push has room (`pushEntry_room`), beside the two parts of the split or the part after its branch. -/
theorem splitBranch : Obligations.SplitBranch := by
  unfold Obligations.SplitBranch
  intro s c f hi hh hroom
  obtain ⟨hsplit, hbranch⟩ := exec_braS hi hh
  by_cases hsp : c.splits f
  · have ht := (waveAfter_commit hi.1 (WaveOnly.issued c 0x002 f)).updWave (braSplit (c.issued 0x002 f) f)
    obtain ⟨hp, hq⟩ := mem_braSplit (c := c.issued 0x002 f) rfl f (c.issued 0x002 f).waveAfter
    have hrest := braSplit_rest (c.issued 0x002 f) f (c.issued 0x002 f).waveAfter
    rw [pushEntry_room (w := (c.issued 0x002 f).waveAfter) hroom] at hrest
    refine ⟨_, _, hsplit hsp, ht, ?_, ⟨newEntry (c.issued 0x002 f).waveAfter c.p.lanes false, ?_, rfl, rfl, rfl, rfl, rfl, rfl, rfl⟩, ?_⟩
    · rw [hrest]; rfl
    · rw [hrest]; rfl
    · refine (if_pos hsp).mpr ?_
      obtain ⟨-, -, -, hpaths, -⟩ := hsp
      exact ⟨_, hp, _, hq, SameRegs.refl c.p, SameRegs.refl c.p, rfl, rfl, rfl, hpaths, rfl, rfl, rfl, rfl, hpaths, rfl⟩
  · obtain ⟨q, hq, hl, hr, hb⟩ := branch_spec (c.issued 0x002 f) (c.p.pc + f.x) (c.activeLanes f)
    have hd : WaveOnly c { c.issued 0x002 f with p := q } := (WaveOnly.issued c 0x002 f).trans (WaveOnly.withPart _ hl)
    have ht := (waveAfter_commit hi.1 hd).updWave fun w => pushEntry w c.p.lanes false c.g.kernel.rejoin (c.issued 0x002 f).cyc
    have hexec := hbranch hsp
    rw [hq] at hexec
    rw [pushEntry_room (w := Cx.waveAfter { c.issued 0x002 f with p := q }) hroom] at ht
    refine ⟨_, _, hexec, ht, rfl, ⟨_, rfl, rfl, rfl, rfl, rfl, rfl, rfl, rfl⟩, ?_⟩
    exact (if_neg hsp).mpr ⟨q, List.mem_of_getElem? (waveAfter_getElem hi.1 hd), hr, hl, hb⟩
end

section
/-! PROOFS. Traps: when they are taken, the record that is written, and the return (09 R184-R186; 22 R392-R396). -/
namespace Sys2Proof.Machine

/-! Taking a trap (R392). -/

theorem takeTrap_alone {c : Cx} (i : TrapInfo) (hone : c.w.parts.length ≤ 1) (hrun : c.w.frozen = none) :
    takeTrap c i = enterTrap c i := if_pos (by simp [hone, hrun])

theorem takeTrap_raised {c : Cx} (i : TrapInfo) (h : 1 < c.w.parts.length ∨ c.w.frozen ≠ none) :
    takeTrap c i = (c.part (fun p => { p with raised := some i, nextIssue := c.cyc + 1 })).commit := by
  refine if_neg fun hand => ?_
  obtain ⟨hone, hrun⟩ := Bool.and_eq_true_iff.mp hand
  rcases h with h | h
  · exact absurd (of_decide_eq_true hone) (Nat.not_le.mpr h)
  · exact h (Option.isNone_iff_eq_none.mp hrun)

section
variable {s : State} {c : Cx} {op : Nat} {f : Fields}

/-- A trap without failing lanes names no access. -/
theorem runPart_trap_plain (hi : Issues s c op f) {body : Cx → Effect} {i : TrapInfo} (hl : i.lanes = none) (ha : i.access = 0)
    (hb : body (c.issued op f) = .trap i) : runPart op f s body = .next (takeTrap (c.inWindow op f) i) := by
  rw [runPart_trap hi hb]
  congr 2
  obtain ⟨⟩ := i
  subst hl ha
  rfl

theorem runPart_handlerIllegal (hi : Issues s c op f) (hh : c.p.handler ≠ none) (e : Cx → Effect) :
    runPart op f s (fun c => outsideHandler c (e c)) = .next (takeTrap (c.inWindow op f) { cause := 0x1A }) :=
  runPart_trap_plain hi rfl rfl (if_pos (Option.isSome_iff_ne_none.mpr hh))

end

/-! The record (R394). -/

theorem trapRecord_length (p : Part) (i : TrapInfo) (s0 s1 : Word) (hmode : Bool) : (trapRecord p i s0 s1 hmode).length = 48 := by
  simp [trapRecord]

theorem trapRecord_cause (p : Part) (i : TrapInfo) (s0 s1 : Word) (hmode : Bool) :
    field (trapRecord p i s0 s1 hmode) 24 24 = i.cause.toNat ∧ field (trapRecord p i s0 s1 hmode) 25 25 = if hmode then 1 else 0 := by
  refine ⟨by simp [trapRecord, field, toBytes, ofBytes], ?_⟩
  cases hmode <;> simp [trapRecord, field, toBytes, ofBytes]

/-- The store that writes a part's record: of its lowest lane, to the record's place, with the cause and without handler mode. -/
structure IsRecord (c : Cx) (i : TrapInfo) (e : QEntry) (l : Nat) (va : Dword) (bs : List Byte) : Prop where
  kind : e.kind = .store [⟨l, va, bs⟩]
  place : va = trapVa (((ctxOf c.k c.g.region).map (·.trapBase)).getD 0) c.slot (lowestLane c.p.lanes)
  length : bs.length = 48
  cause : field bs 24 24 = i.cause.toNat
  mode : field bs 25 25 = 0

/-- What a trap leaves of a part's wave where no handler is entered: its record at the end of the store queue, unless the part is
in handler mode. -/
def Cx.recorded (c : Cx) (i : TrapInfo) : Cx := if c.p.handler.isSome then c else c.pushRecord i false

theorem WaveOnly.recorded (c : Cx) (i : TrapInfo) : WaveOnly c (c.recorded i) := by
  unfold Cx.recorded
  split
  · exact WaveOnly.part c id rfl
  · exact WaveOnly.wave c _ rfl rfl

theorem recorded_p (c : Cx) (i : TrapInfo) : (c.recorded i).p = c.p := by
  unfold Cx.recorded
  split <;> rfl

theorem recorded_queue (c : Cx) (i : TrapInfo) : (c.p.handler ≠ none → (c.recorded i).w.queue = c.w.queue) ∧
    (c.p.handler = none → ∃ e l va bs, (c.recorded i).w.queue = c.w.queue ++ [e] ∧ IsRecord c i e l va bs) := by
  constructor
  · intro h
    rw [Cx.recorded, if_pos (Option.isSome_iff_ne_none.mpr h)]
  · intro h
    obtain ⟨hcause, hmode⟩ := trapRecord_cause c.p i (c.readS 0) (c.readS 1) false
    rw [Cx.recorded, if_neg (by simp [h])]
    exact ⟨_, _, _, _, rfl, rfl, rfl, trapRecord_length .., hcause, hmode⟩

/-! The end of a cycle for a raised trap (R392). -/

section
variable {s : State} {r : PartRef} {c : Cx} {i : TrapInfo} (h : partAt s r = some c) (hr : c.p.raised = some i)
include h hr

theorem resolveTrap_runs (hrun : c.w.frozen = none) :
    resolveTrap s r = enterTrap (c.part (fun p => { p with raised := none, marked := false })) i := by
  simp only [resolveTrap, h, hr, hrun, Option.isNone_none, if_true]

theorem resolveTrap_frozen (hfrozen : c.w.frozen ≠ none) (hm : c.p.marked = false) :
    resolveTrap s r = ((c.recorded i).part (fun p => { p with marked := true })).commit := by
  simp only [resolveTrap, h, hr, Option.isNone_iff_eq_none, hfrozen, hm, Bool.false_eq_true, if_false]
  rfl

end

/-! The return (R396). -/

theorem readS_returnFromTrap (c : Cx) (h : Handler) (rec' : List Byte) (n : Nat) : kget 0 (returnFromTrap c h rec').p.s n =
    if n = 0 then Reference.nat (field rec' 0 3) else if n = 1 then Reference.nat (field rec' 4 7) else c.readS n := by
  have hs : kget 0 (returnFromTrap c h rec').p.s n =
      if n = 1 then Reference.nat (field rec' 4 7) else (c.writeS 0 (Reference.nat (field rec' 0 3))).readS n := readS_writeS ..
  rw [hs, readS_writeS]
  by_cases h0 : n = 0 <;> simp [h0]

/-- What a return with a record leaves of a part. -/
structure Returned (c : Cx) (h : Handler) (rec' : List Byte) (q : Part) : Prop where
  s : ∀ n, kget 0 q.s n =
    if n = 0 then Reference.nat (field rec' 0 3) else if n = 1 then Reference.nat (field rec' 4 7) else c.readS n
  exec : q.exec = Reference.dnat (field rec' 8 15) &&& c.p.run
  pc : q.pc = Reference.nat (field rec' 20 23)
  handler : q.handler = none
  paths : q.paths = h.aside
  lanes : q.lanes = c.p.lanes
  run : q.run = c.p.run
  m : q.m = c.p.m
  h : q.h = c.p.h
  pstat : q.pstat = c.p.pstat

theorem returnFromTrap_returned (c : Cx) (h : Handler) (rec' : List Byte) :
    ∃ q, returnFromTrap c h rec' = { c with p := q } ∧ Returned c h rec' q :=
  ⟨_, rfl, readS_returnFromTrap c h rec', rfl, rfl, rfl, rfl, rfl, rfl, rfl, rfl, rfl⟩

/-- What `trapret` does once it has issued. -/
def returnEffect (c : Cx) : Effect :=
  match c.p.handler with
  | none => .trap { cause := 0x19 }
  | some h =>
    if !c.p.paths.isEmpty then .trap { cause := 0x19 }
    else if c.readRecord.2 then
      .whole (freezeWave c.nextPc.commit c.core c.slot cCheck
        (partFault c cCheck 1 1 c.p.exec (trapVa (((ctxOf c.k c.g.region).map (·.trapBase)).getD 0) c.slot c.lane) 0 none))
    else .at (returnFromTrap c h c.readRecord.1)

theorem exec_trapret (f : Fields) (s : State) : exec (.trapret f) s = runPart 0x00F f s returnEffect := rfl

theorem returnEffect_pending {c : Cx} (hpaths : c.p.paths ≠ []) : returnEffect c = .trap { cause := 0x19 } := by
  unfold returnEffect
  cases c.p.handler with
  | none => rfl
  | some h => exact if_pos (by simp [hpaths])

theorem returnEffect_noHandler {c : Cx} (hh : c.p.handler = none) : returnEffect c = .trap { cause := 0x19 } := by
  simp only [returnEffect, hh]

theorem returnEffect_returns {c : Cx} {h : Handler} (hh : c.p.handler = some h) (hpaths : c.p.paths = [])
    (hgood : c.readRecord.2 = false) : ∃ q, returnEffect c = .at { c with p := q } ∧ Returned c h c.readRecord.1 q := by
  obtain ⟨q, hq, hret⟩ := returnFromTrap_returned c h c.readRecord.1
  refine ⟨q, ?_, hret⟩
  simp only [returnEffect, hh, hpaths, hgood, List.isEmpty_nil, Bool.not_true, Bool.false_eq_true, if_false, hq]

end Sys2Proof.Machine
end

section
/-! PROOFS. The obligation on `bpt`, `trap` and `trapret` (09 R184; 22 R392, R395, R396). -/
open Sys2Proof Sys2Proof.Machine

/-- Settles O25: a trap of an instruction is taken (`runPart_trap_plain`), at once or at the end of its cycle; a return is a move of
its part alone. -/
theorem trapEntryAndReturn : Obligations.TrapEntryAndReturn := by
  unfold Obligations.TrapEntryAndReturn
  refine ⟨?bpt, ?trap, fun c i => takeTrap_alone i, fun c i => takeTrap_raised i, fun s r c i h hr => resolveTrap_runs h hr, ?marked,
    ?bptIdle, ?trapIdle, ?illegal, ?noHandler, ?trapret⟩
  case bpt => exact fun s c f hi ha => runPart_trap_plain hi rfl rfl (if_neg ha)
  case trap => exact fun s c f hi ha => runPart_trap_plain hi rfl rfl (if_neg ha)
  case marked =>
    intro s r c i h hr hfrozen hm
    obtain ⟨d, hd⟩ : ∃ d, d = (c.recorded i).part (fun p => { p with marked := true }) := ⟨_, rfl⟩
    have hwave : WaveOnly c d := hd ▸ (WaveOnly.recorded c i).trans (WaveOnly.part _ _ rfl)
    obtain ⟨e, he, hoc, how, hew, hep⟩ := commit_stands h hwave
    obtain ⟨hmode, hrec⟩ := recorded_queue c i
    have hq : e.w.queue = (c.recorded i).w.queue := by rw [hew, hd]; rfl
    rw [resolveTrap_frozen h hr hfrozen hm, ← hd]
    refine ⟨e, he, hoc, how, ?_, fun hh => hq.trans (hmode hh), fun hh => ?_⟩
    · rw [hep, hd, part_p, recorded_p]
    · obtain ⟨en, l, va, bs, hqueue, hkind, hplace, hlen, hcause, hmode⟩ := hrec hh
      exact ⟨en, l, va, bs, hq.trans hqueue, hkind, hlen, hplace, hcause, hmode⟩
  case bptIdle => exact computesWhen_idle (fun _ _ => rfl) fun _ _ ha => if_pos ha
  case trapIdle => exact computesWhen_idle (fun _ _ => rfl) fun _ _ ha => if_pos ha
  case illegal =>
    intro s c f hh
    refine ⟨fun hi => runPart_handlerIllegal hi hh _, fun hi => runPart_handlerIllegal hi hh _, fun hi => runPart_handlerIllegal hi hh _,
      fun hi => runPart_handlerIllegal hi hh _, fun hi => runPart_handlerIllegal hi hh _, fun hi hpaths => ?_⟩
    exact (exec_trapret f s).trans (runPart_trap_plain hi rfl rfl (returnEffect_pending hpaths))
  case noHandler =>
    intro s c f hh hi
    exact (exec_trapret f s).trans (runPart_trap_plain hi rfl rfl (returnEffect_noHandler hh))
  case trapret =>
    refine movesWhen_at (fun _ => returnEffect) exec_trapret fun c f ⟨hh, hpaths, hgood⟩ => ?_
    obtain ⟨h, hsome⟩ := Option.ne_none_iff_exists'.mp hh
    obtain ⟨q, hq, hret⟩ := returnEffect_returns (c := c.issued 0x00F f) hsome hpaths hgood
    refine ⟨q, hq, hret.lanes, fun h' hsome' => ?_⟩
    obtain rfl := Option.some.inj (hsome.symm.trans hsome')
    exact ⟨hret.s, hret.exec, hret.pc, hret.handler, hret.paths, hret.run, hret.m, hret.h, hret.pstat⟩
end

section
/-! PROOFS. A breakpoint under CATCH whose fault record reaches a line that a load of the wave has joined (11 R233; 22 R391, R397). -/
namespace Sys2Proof.Machine

/-- A load of lane 0 from virtual address 0, at its home slice, that has not been performed. -/
def joinedLoad : Load :=
  { id := 0, seq := 0, dst := .vec (some 9) 0 0, part := BitVec.allOnes 64, regs := [9], acq := none, maySplit := false, mask := 1
    lanes := [{ lane := 0, va := 0, arrived := true, phys := [{ va := 0, n := 4, key := some 0x10000, data := none }] }]
    settled := true }

/-- The region of the wave; its fault ring lies at virtual address 64. -/
def ringRegion : Region := { rcb := fetchRegion, asn := 1, chain := [fetchRegion], budget := { faultDomain := 64 } }

/-- A wave under CATCH with that load, which waits in the combining entry of its line. The page at 0 may be read and written; it
holds the fault ring, of 16 records, in the same line. -/
def joinedRing : State :=
  setCore { State.reset with
    cur := ⟨0, 0, 0⟩
    leaves := [(leafKey 0 1 0, 0x10007)]
    mem := writeBytes [] 0x10040 (toBytes 4 16)
    regions := [ringRegion]
    combines := [{ id := 0, line := 0x200, region := fetchRegion, joined := [(0, 0, 0, 0)] }] } 0
    { fetchCore {} with catchBpt := true, waves := [(0, some { fetchWave with loads := [joinedLoad] })] }

theorem joinedRing_some : (partAt joinedRing joinedRing.cur).isSome = true := by decide +kernel

/-- The part of that wave. -/
def joinedCx : Cx := (partAt joinedRing joinedRing.cur).get joinedRing_some

theorem partAt_joinedRing : partAt joinedRing joinedRing.cur = some joinedCx := (Option.some_get _).symm

theorem joinedCx_catches : joinedCx.k.catchBpt = true ∧ joinedCx.w.loads = [joinedLoad] := by decide +kernel

/-- The breakpoint's fault record, written to the ring, closes the entry, and the load is performed. -/
theorem joinedRing_performs : (partAt (enterTrap joinedCx { cause := 0x20 }) joinedRing.cur).map (fun d => d.w.loads) ≠
    some [joinedLoad] := by decide +kernel

end Sys2Proof.Machine
end

section
/-! PROOFS. The obligation on a trap that freezes its part or halts its wave (09 R186; 22 R391, R394). -/
open Sys2Proof Sys2Proof.Machine

/-- Refutes O24: a caught breakpoint changes more of its wave than `halted` and its parts. Where the fault ring lies in a line that
a load of the wave has joined, the write of the record closes that line's combining entry (11 R233) and so performs the load. -/
theorem not_trapFreeze : ¬ Obligations.TrapFreeze := by
  unfold Obligations.TrapFreeze
  rintro ⟨hcaught, _⟩
  obtain ⟨hcatch, hloads⟩ := joinedCx_catches
  obtain ⟨d, -, -, hd, -, -, hw, -⟩ := hcaught joinedRing joinedCx { cause := 0x20 } partAt_joinedRing rfl hcatch
  refine joinedRing_performs ?_
  rw [hd, Option.map_some, hw]
  exact congrArg some hloads
end

section
/-! PROOFS. A wave whose lanes have ended (09 R180, R181; 07 R129): what its end brings about leaves it ended, and its stores queued. -/
namespace Sys2Proof.Machine

/-- No part of the wave is left, no kill or freeze is due, and its store queue holds these entries. -/
structure WaveEnded (q : List QEntry) (w : Wave) : Prop where
  parts : w.parts = []
  killed : w.killed = none
  frozen : w.frozen = none
  queue : w.queue = q

/-- The wave of a slot has ended. -/
def EndedAt (core slot : Nat) (q : List QEntry) (s : State) : Prop := ∃ w, getWave (getCore s core) slot = some w ∧ WaveEnded q w

/-- Every wave that has ended stays so. -/
structure KeepsEnded (s t : State) : Prop where
  ended : ∀ core slot q, EndedAt core slot q s → EndedAt core slot q t

theorem KeepsEnded.refl (s : State) : KeepsEnded s s := ⟨fun _ _ _ h => h⟩

theorem KeepsEnded.trans {s t u : State} (h : KeepsEnded s t) (h' : KeepsEnded t u) : KeepsEnded s u :=
  ⟨fun core slot q he => h'.ended core slot q (h.ended core slot q he)⟩

theorem KeepsEnded.foldl {α : Type} {f : State → α → State} (hf : ∀ s x, KeepsEnded s (f s x)) (l : List α) (s : State) :
    KeepsEnded s (l.foldl f s) := foldl_rel KeepsEnded.refl KeepsEnded.trans hf l s

/-! One core, one wave. -/

/-- States with the same cores hold the same waves. -/
theorem keepsEnded_of_cores {s t : State} (h : t.cores = s.cores) : KeepsEnded s t := by
  refine ⟨fun core slot q he => ?_⟩
  unfold EndedAt getCore at *
  rwa [h]

/-- A core whose wave slots are as they were. -/
theorem setCore_keepsEnded {s : State} {n : Nat} {k : Core} (h : k.waves = (getCore s n).waves) : KeepsEnded s (setCore s n k) := by
  refine ⟨fun core slot q ⟨w, hw, he⟩ => ?_⟩
  refine ⟨w, ?_, he⟩
  by_cases hn : core = n
  · subst hn
    rw [getCore_setCore_self, getWave, h]
    exact hw
  · rw [getCore_setCore_ne _ _ hn]
    exact hw

/-- A core with one wave changed, which has not ended or stays so. -/
theorem setWave_keepsEnded {s : State} {n slot : Nat} {k : Core} {w w' : Wave} (hk : k.waves = (getCore s n).waves)
    (hw : getWave (getCore s n) slot = some w) (h : ∀ q, WaveEnded q w → WaveEnded q w') :
    KeepsEnded s (setCore s n (setWave k slot w')) := by
  refine ⟨fun core slot' q ⟨x, hx, he⟩ => ?_⟩
  by_cases hn : core = n
  · subst hn
    rw [EndedAt, getCore_setCore_self]
    by_cases hs : slot' = slot
    · subst hs
      obtain rfl := Option.some.inj (hw.symm.trans hx)
      exact ⟨w', getWave_setWave_self .., h q he⟩
    · refine ⟨x, ?_, he⟩
      rw [getWave_setWave_ne _ _ hs, getWave, hk]
      exact hx
  · refine ⟨x, ?_, he⟩
    rw [getCore_setCore_ne _ _ hn]
    exact hx

theorem updWave_keepsEnded (s : State) (core slot : Nat) {g : Wave → Wave} (h : ∀ q w, WaveEnded q w → WaveEnded q (g w)) :
    KeepsEnded s (updWave s core slot g) := by
  unfold updWave
  dsimp only
  split
  · exact KeepsEnded.refl s
  next w hw => exact setWave_keepsEnded rfl hw fun q => h q w

theorem updWg_keepsEnded (s : State) (core bar : Nat) (g : Workgroup → Workgroup) : KeepsEnded s (updWg s core bar g) := by
  unfold updWg
  dsimp only
  split
  · exact KeepsEnded.refl s
  · exact setCore_keepsEnded rfl

/-! Loads that are performed. -/

theorem takeHint_keepsEnded (s : State) (c asn page : Nat) (writable : Bool) (line : Nat) :
    KeepsEnded s (takeHint s c asn page writable line) := by
  unfold takeHint
  refine KeepsEnded.trans ?_ (setCore_keepsEnded ?_)
  · exact keepsEnded_of_cores rfl
  · rfl

theorem fillLine_keepsEnded (s : State) (c asn : Nat) (va : Dword) : KeepsEnded s (fillLine s c asn va) := by
  unfold fillLine
  dsimp only
  split
  · split
    · exact KeepsEnded.refl s
    · exact (takeHint_keepsEnded ..).trans (setCore_keepsEnded rfl)
  · exact KeepsEnded.refl s

theorem fillConst_keepsEnded (s : State) (core asn : Nat) (va : Dword) : KeepsEnded s (fillConst s core asn va) := by
  unfold fillConst
  dsimp only
  split
  · split
    · exact KeepsEnded.refl s
    · refine KeepsEnded.trans ?_ (setCore_keepsEnded rfl)
      split
      · exact KeepsEnded.refl s
      · exact takeHint_keepsEnded ..
  · exact KeepsEnded.refl s

theorem fillFor_keepsEnded (core asn : Nat) (ld : Load) (s : State) (va : Nat) : KeepsEnded s (fillFor core asn ld s va) := by
  unfold fillFor
  dsimp only
  split
  · exact setCore_keepsEnded rfl
  split
  · exact fillConst_keepsEnded ..
  split
  · exact fillLine_keepsEnded ..
  · exact KeepsEnded.refl s

theorem performLoad_keepsEnded (core slot id : Nat) (sel : LoadLane → Bool) (s : State) :
    KeepsEnded s (performLoad core slot id sel s) := by
  unfold performLoad
  dsimp only
  split
  · exact KeepsEnded.refl s
  next w hw =>
    split
    · split
      · exact KeepsEnded.refl s
      · refine KeepsEnded.trans ?_ (KeepsEnded.foldl (fillFor_keepsEnded _ _ _) _ _)
        exact setWave_keepsEnded rfl hw fun q h => ⟨h.parts, h.killed, h.frozen, h.queue⟩
    · exact KeepsEnded.refl s

theorem closeLine_keepsEnded (s : State) (line : Nat) : KeepsEnded s (closeLine s line) := by
  refine KeepsEnded.foldl (fun s e => ?_) _ s
  have hdrop : KeepsEnded s { s with combines := s.combines.filter (fun x => x.id != e.id) } := keepsEnded_of_cores rfl
  exact hdrop.trans ((KeepsEnded.foldl (fun _ _ => performLoad_keepsEnded ..) _ _).trans
    (KeepsEnded.foldl (fun _ _ => fillLine_keepsEnded ..) _ _))

/-! Writes and fault records. -/

theorem homeWrite_keepsEnded (s : State) (key : Nat) (bs : List Byte) : KeepsEnded s (homeWrite s key bs) :=
  (KeepsEnded.foldl closeLine_keepsEnded _ s).trans (keepsEnded_of_cores rfl)

theorem vmWrite_keepsEnded (s : State) (asn : Nat) (k : Access) (va : Nat) (bs : List Byte) :
    KeepsEnded s (vmWrite s asn k va bs) := by
  unfold vmWrite
  generalize pieces va bs.length = l
  suffices h : ∀ acc : State × List Byte, KeepsEnded acc.1 (l.foldl _ acc).1 from h (s, bs)
  induction l with
  | nil => exact fun acc => KeepsEnded.refl _
  | cons p l ih =>
    refine fun acc => KeepsEnded.trans ?_ (ih _)
    dsimp only
    split
    · exact homeWrite_keepsEnded ..
    · exact KeepsEnded.refl _

theorem ringPost_keepsEnded {s t : State} {asn ring : Nat} {rec : List Byte} (h : ringPost s asn ring rec = some t) :
    KeepsEnded s t := by
  unfold ringPost at h
  dsimp only at h
  split at h
  · split at h
    · cases h
    split at h <;> obtain rfl := Option.some.inj h
    · exact (vmWrite_keepsEnded ..).trans (homeWrite_keepsEnded ..)
    · exact homeWrite_keepsEnded ..
  · cases h

theorem faultMessage_keepsEnded (s : State) (ctx : Option Nat) (r : FaultRec) : KeepsEnded s (faultMessage s ctx r) := by
  cases ctx <;> exact keepsEnded_of_cores rfl

theorem postFault_keepsEnded (s : State) (region : Rgn) (host : Option Nat) (r : FaultRec) :
    KeepsEnded s (postFault s region host r) := by
  unfold postFault
  split
  · exact faultMessage_keepsEnded ..
  dsimp only
  split
  next h => exact (ringPost_keepsEnded h).trans (faultMessage_keepsEnded ..)
  next =>
    refine KeepsEnded.trans ?_ (faultMessage_keepsEnded ..)
    cases hp : ringPost s _ _ _ with
    | none => exact KeepsEnded.refl s
    | some t => exact ringPost_keepsEnded hp

/-! Traps, which only a wave with parts takes. -/

/-- The part in focus stands in a wave of its state. -/
structure Seated (c : Cx) : Prop where
  waves : c.k.waves = (getCore c.s c.core).waves
  stands : ∃ w, getWave (getCore c.s c.core) c.slot = some w ∧ w.parts ≠ []

theorem seated_of_partAt {s : State} {r : PartRef} {c : Cx} (h : partAt s r = some c) : Seated c := by
  obtain ⟨rfl, hcore, hslot, hk, hw, -⟩ := partAt_some h
  obtain ⟨hlt, -⟩ := partAt_idx h
  rw [← hcore] at hk
  refine ⟨congrArg Core.waves hk, c.w, ?_, fun hnil => ?_⟩
  · rw [← hk, hslot]
    exact hw
  · rw [hnil] at hlt
    exact Nat.not_lt_zero _ hlt

theorem Seated.wave {c : Cx} (h : Seated c) (w : Wave) (p : Part) : Seated { c with w := w, p := p } := ⟨h.waves, h.stands⟩
theorem Seated.part {c : Cx} (h : Seated c) (g : Part → Part) : Seated (c.part g) := ⟨h.waves, h.stands⟩
theorem Seated.writeS {c : Cx} (h : Seated c) (n : Nat) (v : Word) : Seated (c.writeS n v) := ⟨h.waves, h.stands⟩
theorem Seated.pushRecord {c : Cx} (h : Seated c) (i : TrapInfo) (hmode : Bool) : Seated (c.pushRecord i hmode) := ⟨h.waves, h.stands⟩

theorem commit_keepsEnded {c : Cx} (h : Seated c) : KeepsEnded c.s c.commit := by
  obtain ⟨hk, w, hw, hne⟩ := h
  exact setWave_keepsEnded hk hw fun q he => absurd he.parts hne

theorem freezePart_keepsEnded {c : Cx} (h : Seated c) (i : TrapInfo) : KeepsEnded c.s (freezePart c i) := by
  unfold freezePart
  dsimp only
  refine KeepsEnded.trans ?_ (postFault_keepsEnded ..)
  split
  · exact commit_keepsEnded (h.part _)
  · exact commit_keepsEnded ((h.pushRecord i false).part _)

theorem catchHalt_keepsEnded {c : Cx} (h : Seated c) (i : TrapInfo) : KeepsEnded c.s (catchHalt c i) := by
  have hput (w : Wave) (p : Part) : KeepsEnded c.s { c with w := w, p := p }.commit := commit_keepsEnded (h.wave w p)
  exact (hput _ _).trans (postFault_keepsEnded ..)

theorem enterHandler_keepsEnded {c : Cx} (h : Seated c) (i : TrapInfo) (code : Option CodeSeg) (index : Nat) :
    KeepsEnded c.s (enterHandler c i code index) :=
  commit_keepsEnded ((((h.pushRecord i true).writeS _ _).writeS _ _).part _)

theorem enterTrap_keepsEnded {c : Cx} (h : Seated c) (i : TrapInfo) : KeepsEnded c.s (enterTrap c i) := by
  unfold enterTrap
  split
  · exact catchHalt_keepsEnded h i
  dsimp only
  split
  · exact freezePart_keepsEnded (h.part _) i
  split
  · exact enterHandler_keepsEnded (h.part _) i _ _
  · exact freezePart_keepsEnded (h.part _) i

theorem takeTrap_keepsEnded {c : Cx} (h : Seated c) (i : TrapInfo) : KeepsEnded c.s (takeTrap c i) := by
  unfold takeTrap
  split
  · exact enterTrap_keepsEnded h i
  · exact commit_keepsEnded (h.part _)

theorem raiseAll_keepsEnded (s : State) (core slot : Nat) (lanes : List Nat) (cause : Byte) :
    KeepsEnded s (raiseAll s core slot lanes cause) := by
  refine KeepsEnded.foldl (fun s l => ?_) lanes s
  split
  next c h =>
    obtain ⟨rfl, -⟩ := partAt_some h
    exact takeTrap_keepsEnded ((seated_of_partAt h).part _) _
  next => exact KeepsEnded.refl s

/-! The barrier and the grid. -/

theorem openBarrier_keepsEnded (s : State) (core bar : Nat) : KeepsEnded s (openBarrier s core bar) := by
  unfold openBarrier
  split
  · exact KeepsEnded.refl s
  refine (KeepsEnded.foldl (fun _ _ => updWave_keepsEnded _ _ _ fun q w h => ?_) _ s).trans (updWg_keepsEnded ..)
  exact ⟨by simp [h.parts], h.killed, h.frozen, h.queue⟩

theorem barrierTest_keepsEnded (s : State) (core bar : Nat) : KeepsEnded s (barrierTest s core bar) := by
  unfold barrierTest
  dsimp only
  split
  · exact KeepsEnded.refl s
  split
  · exact updWg_keepsEnded ..
  split
  · exact (updWg_keepsEnded ..).trans (openBarrier_keepsEnded ..)
  split
  · exact (updWg_keepsEnded ..).trans (updWg_keepsEnded ..)
  refine ((updWg_keepsEnded ..).trans (updWg_keepsEnded ..)).trans (KeepsEnded.foldl (fun s sl => ?_) _ _)
  split
  · exact KeepsEnded.refl s
  · exact raiseAll_keepsEnded ..

theorem setCapstan_keepsEnded (s : State) (i : Nat) (x : Capstan) : KeepsEnded s (setCapstan s i x) := keepsEnded_of_cores rfl

theorem capstanTest_keepsEnded (s : State) (i : Nat) : KeepsEnded s (capstanTest s i) := by
  unfold capstanTest
  dsimp only
  split
  · split
    · exact setCapstan_keepsEnded ..
    · exact (setCapstan_keepsEnded ..).trans (KeepsEnded.foldl (fun _ _ => updWg_keepsEnded ..) _ _)
  · exact KeepsEnded.refl s

theorem gridWgEnded_keepsEnded (s : State) (acc : Nat) : KeepsEnded s (gridWgEnded s acc) := by
  unfold gridWgEnded
  split
  · exact KeepsEnded.refl s
  · exact (setCapstan_keepsEnded ..).trans (capstanTest_keepsEnded ..)

theorem afterEnd_keepsEnded (s : State) (core slot : Nat) : KeepsEnded s (afterEnd s core slot) := by
  unfold afterEnd
  dsimp only
  split
  · exact KeepsEnded.refl s
  next w _ =>
    generalize hs1 : (if w.parts.isEmpty = true then _ else s) = s1
    have h1 : KeepsEnded s s1 := by
      rw [← hs1]
      split
      · exact updWave_keepsEnded _ _ _ fun q w h => ⟨h.parts, h.killed, rfl, h.queue⟩
      · exact KeepsEnded.refl s
    split
    · exact h1
    · refine KeepsEnded.trans (t := barrierTest s1 core w.wg) (h1.trans (barrierTest_keepsEnded ..)) ?_
      split
      · exact gridWgEnded_keepsEnded ..
      · exact KeepsEnded.refl _

/-! Draws and bins. -/

theorem flushDraw_keepsEnded (s : State) (d : Draw) : KeepsEnded s (flushDraw s d) := by
  have hbatches (s : State) (ts : List Tri) : KeepsEnded s (addBatches s d ts) := by
    refine KeepsEnded.foldl (fun s x => ?_) _ s
    exact keepsEnded_of_cores rfl
  have hbump (s : State) (flushes prims : Nat) : KeepsEnded s (bumpDraw s d.asn d.d flushes prims) := by
    unfold bumpDraw
    split
    · exact homeWrite_keepsEnded ..
    · exact KeepsEnded.refl s
  exact KeepsEnded.trans (t := setDraw s _) (keepsEnded_of_cores rfl) ((hbatches ..).trans (hbump ..))

theorem groupsEnded_keepsEnded (s : State) (a : Nat) : KeepsEnded s (groupsEnded s a) := by
  unfold groupsEnded
  split
  · exact KeepsEnded.refl s
  · exact KeepsEnded.foldl flushDraw_keepsEnded _ s

theorem launchFrom_cores (all : Bool) (fuel : Nat) (s : State) (b : Bin) : (launchFrom all fuel s b).1.cores = s.cores := by
  induction fuel generalizing s b with
  | zero => rfl
  | succ fuel ih =>
    unfold launchFrom
    dsimp only
    split
    · exact ih ..
    · split <;> rfl

theorem creelTest_keepsEnded (s : State) (root : Nat) : KeepsEnded s (creelTest s root) := by
  refine KeepsEnded.foldl (fun s key => keepsEnded_of_cores ?_) _ s
  unfold binTest
  split
  · rfl
  · exact launchFrom_cores ..

theorem afterWave_keepsEnded (s : State) (core slot : Nat) : KeepsEnded s (afterWave s core slot) := by
  unfold afterWave
  dsimp only
  split
  · exact KeepsEnded.refl s
  split
  · exact (groupsEnded_keepsEnded ..).trans (creelTest_keepsEnded ..)
  · exact KeepsEnded.refl s

theorem rampAfterKill_keepsEnded (s : State) (core : Nat) (region : Rgn) : KeepsEnded s (rampAfterKill s core region) := by
  unfold rampAfterKill
  dsimp only
  split
  · exact KeepsEnded.refl s
  · exact setCore_keepsEnded rfl

end Sys2Proof.Machine
end

section
/-! PROOFS. The lanes that end, and the instructions that end them (09 R180, R181; 07 R129). -/
namespace Sys2Proof.Machine

/-! What is left of a wave. -/

theorem liveLanes_retest (w : Wave) : liveLanes (retest w) = liveLanes w :=
  eq_of_tbit_iff fun i => by simp [tbit_liveLanes, retest_parts]

theorem fuseAll_of_nil {w : Wave} (h : w.parts = []) (cyc : Nat) : fuseAll w cyc = w := if_neg (by simp [h])

/-- A fusion at `fuse` keeps every lane. -/
theorem liveLanes_fuseAll (w : Wave) (cyc : Nat) : liveLanes (fuseAll w cyc) = liveLanes w := by
  by_cases hall : (!w.parts.isEmpty && w.parts.all (fun p => p.wait = .fuse && p.frozen.isNone)) = true
  · obtain ⟨hne, hstand⟩ : w.parts ≠ [] ∧ ∀ p ∈ w.parts, p.wait = .fuse ∧ p.frozen = none := by simpa using hall
    obtain ⟨q, hq, hfused⟩ := fuseAll_spec cyc hne hstand
    refine eq_of_tbit_iff fun i => ?_
    rw [hfused, tbit_liveLanes, tbit_liveLanes, ← hq.lanes]
    simp
  · exact congrArg liveLanes (if_neg hall)

/-- The parts that ending lanes leave. -/
def partsLeft (dead : Lanes) (ps : List Part) : List Part := (ps.map (partWithout dead)).filter (fun p => p.lanes != 0)

theorem mem_partsLeft {dead : Lanes} {ps : List Part} {i : Nat} : (∃ q ∈ partsLeft dead ps, tbit q.lanes i = true) ↔
    ∃ p ∈ ps, tbit (p.lanes &&& ~~~dead) i = true := by
  constructor
  · rintro ⟨q, hq, hi⟩
    obtain ⟨p, hp, rfl⟩ := List.mem_map.mp (List.mem_filter.mp hq).1
    exact ⟨p, hp, hi⟩
  · rintro ⟨p, hp, hi⟩
    refine ⟨partWithout dead p, List.mem_filter.mpr ⟨List.mem_map_of_mem hp, ?_⟩, hi⟩
    refine bne_iff_ne.mpr fun (h0 : p.lanes &&& ~~~dead = 0) => ?_
    simp [h0, tbit] at hi

theorem liveLanes_endLanes (w : Wave) (dead : Lanes) (cyc : Nat) : liveLanes (endLanes w dead cyc) = liveLanes w &&& ~~~dead := by
  refine eq_of_tbit_iff fun i => ?_
  have hparts : tbit (liveLanes (endLanes w dead cyc)) i = true ↔ ∃ q ∈ partsLeft dead w.parts, tbit q.lanes i = true := by
    rw [endLanes, liveLanes_fuseAll, liveLanes_retest]
    exact tbit_liveLanes ..
  simp [hparts, mem_partsLeft, tbit_and, tbit_liveLanes, ← exists_and_right, and_assoc]

theorem partsLeft_liveLanes (w : Wave) : partsLeft (liveLanes w) w.parts = [] := by
  refine List.filter_eq_nil_iff.mpr fun q hq => ?_
  obtain ⟨p, hp, rfl⟩ := List.mem_map.mp hq
  have hbit (i : Nat) : tbit (p.lanes &&& ~~~liveLanes w) i = false := by
    rw [tbit_and]
    cases hi : tbit p.lanes i with
    | false => rfl
    | true => rw [tbit_not _ (tbit_lt hi), (tbit_liveLanes w i).mpr ⟨p, hp, hi⟩]; rfl
  have hzero : p.lanes &&& ~~~liveLanes w = 0 := eq_of_tbit_iff fun i => by
    rw [hbit]
    simp [tbit]
  simp [partWithout, hzero]

/-- With all its lanes a wave ends. -/
theorem endLanes_ended {w : Wave} (hk : w.killed = none) (hf : w.frozen = none) (cyc : Nat) :
    WaveEnded w.queue (endLanes w (liveLanes w) cyc) := by
  have hends (ls : List Load) :
      WaveEnded w.queue (fuseAll (retest { w with parts := partsLeft (liveLanes w) w.parts, loads := ls }) cyc) := by
    have hnil : (retest { w with parts := partsLeft (liveLanes w) w.parts, loads := ls }).parts = [] := by
      simp [retest_parts, partsLeft_liveLanes]
    rw [fuseAll_of_nil hnil]
    exact ⟨hnil, hk, hf, rfl⟩
  exact hends _

/-! A killed wave. -/

theorem killWave_ended {s : State} {core slot : Nat} {w : Wave} {g : Workgroup} (hw : getWave (getCore s core) slot = some w)
    (hg : getWg (getCore s core) w.wg = some g) : EndedAt core slot w.queue (killWave s core slot) := by
  obtain ⟨s1, hs1⟩ : ∃ s1, s1 = updWave s core slot (fun w => { w with killed := none, frozen := none }) := ⟨_, rfl⟩
  have hw1 : getWave (getCore s1 core) slot = some { w with killed := none, frozen := none } := by
    rw [hs1, getWave_updWave, hw]
    rfl
  have hkill : killWave s core slot = rampAfterKill (endWaveLanes s1 core slot (liveLanes w)) core g.region := by
    simp only [killWave, hw, hg, Option.bind_some, Option.map_some, hs1]
  have hended : EndedAt core slot w.queue (updWave s1 core slot (fun w' => endLanes w' (liveLanes w) (coreCyc s1 core))) := by
    refine ⟨_, (getWave_updWave ..).trans (congrArg _ hw1), ?_⟩
    exact endLanes_ended (w := { w with killed := none, frozen := none }) rfl rfl _
  rw [hkill]
  exact (((afterEnd_keepsEnded ..).trans (afterWave_keepsEnded ..)).trans (rampAfterKill_keepsEnded ..)).ended _ _ _ hended

theorem tickKills_one {s : State} {core slot : Nat} {w : Wave} (h : (getCore s core).waves = [(slot, some w)])
    (hk : w.killed ≠ none) : tickKills s core = killWave s core slot := by
  rw [tickKills, h]
  exact if_pos (Option.isSome_iff_ne_none.mpr hk)

/-! `exit` (R180). -/

theorem exit_of_some {c : Cx} {f : Fields} (hsome : c.activeLanes f ≠ c.p.exec) : c.exit f =
    if c.activeLanes f = 0 then c.nextPc.commit else endWaveLanes c.nextPc.commit c.core c.slot (c.activeLanes f) :=
  if_pos (bne_iff_ne.mpr hsome)

/-- The paths that wait while one runs: those pending, or those that a trap has set aside. -/
def Part.waiting (p : Part) : List Path := if p.paths = [] then (p.handler.map (·.aside)).getD [] else p.paths

/-- A part whose running path has ended: the waiting paths are pending. -/
def Part.pathEnded (p : Part) : Part :=
  { p with lanes := p.lanes &&& ~~~p.run
           paths := p.paths ++ (if p.paths.isEmpty then (p.handler.map (·.aside)).getD [] else [])
           handler := if p.paths.isEmpty then none else p.handler }

theorem pathEnded_paths (p : Part) : p.pathEnded.paths = p.waiting := by
  unfold Part.pathEnded Part.waiting
  by_cases h : p.paths = [] <;> simp [h]

theorem pathEnded_handler (p : Part) : p.pathEnded.handler = if p.paths = [] then none else p.handler := by
  simp [Part.pathEnded]

theorem resumePath_handler {p q : Part} (h : resumePath p = some q) : q.handler = p.handler := by
  unfold resumePath at h
  split at h
  · cases h
  · obtain rfl := Option.some.inj h
    rfl

section
variable {c : Cx} {f : Fields} (hall : c.activeLanes f = c.p.exec)
include hall

theorem exit_ends (hnone : c.p.waiting = []) : c.exit f = endWaveLanes c.commit c.core c.slot c.p.lanes :=
  (if_neg (by simp [hall])).trans (if_pos (List.isEmpty_iff.mpr ((pathEnded_paths c.p).trans hnone)))

/-- The first path that waits, unless it is parked, runs. -/
theorem exit_resumes (hx : ∃ x ∈ c.p.waiting, x.parkedAt = 0) :
    ∃ p', Resumes c.p.waiting p' ∧ p'.lanes = c.p.lanes ∧ SameRegs c.p p' ∧
      p'.handler = (if c.p.paths = [] then none else c.p.handler) ∧
      c.exit f = endWaveLanes { c with p := p' }.commit c.core c.slot c.p.run := by
  rw [← pathEnded_paths] at hx ⊢
  obtain ⟨r, hr, -, hregs, hres⟩ := resumePath_some hx
  refine ⟨{ r with lanes := c.p.lanes }, hres, rfl, hregs, (resumePath_handler hr).trans (pathEnded_handler c.p), ?_⟩
  obtain ⟨x, hmem, -⟩ := hx
  refine (if_neg (by simp [hall])).trans ((if_neg fun h => List.ne_nil_of_mem hmem (List.isEmpty_iff.mp h)).trans ?_)
  split
  next r' hr' =>
    obtain rfl := Option.some.inj (hr.symm.trans hr')
    rfl
  next hno => cases hr.symm.trans hno

end

end Sys2Proof.Machine
end

section
/-! PROOFS. The obligation on `exit` and `kill` (09 R180, R181; 07 R129). -/
open Sys2Proof Sys2Proof.Machine

/-- Settles O20: `exit` ends a path or the part (`exit_ends`, `exit_resumes`), `kill` the wave (`killWave_ended`), and lanes that
end leave the others (`liveLanes_endLanes`). -/
theorem endingLanes : Obligations.EndingLanes := by
  unfold Obligations.EndingLanes
  have hexit {s c f} (hi : Issues s c 0x00B f) : exec (.exit f) s = .next ((c.issued 0x00B f).exit f) := runPart_whole hi rfl
  refine ⟨?idle, ?some, ?path, ?part, ?alone, ?beside, fun s core slot w => tickKills_one, ?killed, ?killIdle, liveLanes_endLanes⟩
  case idle =>
    intro s c f hi h0 hne
    have hgoes : (c.issued 0x00B f).exit f = (c.issued 0x00B f).nextPc.commit :=
      (exit_of_some (c := c.issued 0x00B f) (h0 ▸ hne.symm)).trans (if_pos h0)
    obtain ⟨e, he, hoc, how, hew, hep⟩ := commit_stands (d := (c.issued 0x00B f).nextPc) hi.1
      ((WaveOnly.issued c 0x00B f).trans (WaveOnly.part _ _ rfl))
    refine ⟨_, e, (hexit hi).trans (congrArg _ hgoes), he, hoc, how, ?_, ?_, ?_⟩
    · rw [OnlyParts, hew]
      rfl
    · rw [hep]
      exact ⟨rfl, rfl, rfl, rfl, rfl, rfl, rfl, rfl⟩
    · rw [hep]
      exact ⟨rfl, rfl, rfl, rfl, rfl⟩
  case some =>
    intro s c f hi h0 hne
    exact (hexit hi).trans (congrArg _ ((exit_of_some (c := c.issued 0x00B f) hne).trans (if_neg h0)))
  case path =>
    rintro s c f l hi hall rfl hx
    obtain ⟨p', hres, hl, hregs, hh, he⟩ := exit_resumes (c := c.issued 0x00B f) hall hx
    exact ⟨p', hres, hl, hregs, hh, (hexit hi).trans (congrArg _ he)⟩
  case part =>
    intro s c f hi hall hp haside
    refine (hexit hi).trans (congrArg _ (exit_ends (c := c.issued 0x00B f) hall ?_))
    rw [Part.waiting, issued_paths, if_pos hp, issued_handler]
    cases hh : c.p.handler with
    | none => rfl
    | some h => exact haside h hh
  case alone =>
    intro s c f hi h0 hone
    exact runPart_whole hi ((if_neg h0).trans (if_pos hone))
  case beside =>
    intro s c f hi h0 hmany
    obtain ⟨e, he, hoc, how, hew, hep⟩ := commit_stands hi.1 ((WaveOnly.issued c 0x00C f).trans
      (WaveOnly.wave _ { c.w with killed := some (c.issued 0x00C f).cyc } rfl rfl))
    refine ⟨_, e, runPart_whole hi ((if_neg h0).trans (if_neg (Nat.not_le.mpr hmany))), he, hoc, how, ?_, ?_, ?_⟩
    · rw [hew, ← issued_cyc c 0x00C f]
      rfl
    · rw [hep]
      exact ⟨rfl, rfl, rfl, rfl, rfl⟩
    · rw [hep]
      rfl
  case killed =>
    intro s core slot w g hw hg
    obtain ⟨w', hw', he⟩ := killWave_ended hw hg
    exact ⟨w', hw', he.parts, he.killed, he.frozen, he.queue⟩
  case killIdle =>
    intro s c f hi h0
    have hidle : ComputesWhen .kill 0x00C (fun c f => c.activeLanes f = 0) (fun c _ d => PartRegs c.p d.p ∧ OnlyParts c.w d.w) :=
      computesWhen_idle (fun _ _ => rfl) fun _ _ h => if_pos h
    obtain ⟨t, d, hexec, hd, hoc, how, -, hnext, hregs, -⟩ := hidle s c f hi h0
    exact ⟨t, d, hexec, hd, hoc, how, hnext, hregs⟩
end

section
/-! PROOFS. Vector results: the shapes of the per-lane instructions, and the arithmetic of bytes (10 R187-R197). -/
namespace Sys2Proof.Machine

/-! Shapes: an instruction of one result, with one operand, two or three, the last of them an immediate or not (05 R98). -/

section
variable {mk : Fields → Instr} {op : Nat} {k : OpKind} {t : Tag}

theorem vectorOf_unary {g r : Word → Word} (hr : ∀ a, g a = r a) (he : ∀ f s, exec (mk f) s = vecOp op k t f s (fun a _ _ => g a)) :
    VectorOf mk op k (fun _ => t) (fun _ a _ _ => r a) := vectorOf_of (g := fun _ a _ _ => g a) _ he (fun _ => rfl) fun _ _ _ => hr _

theorem vectorOf_binary {g r : Word → Word → Word} (hr : ∀ a b, g a b = r a b)
    (he : ∀ f s, exec (mk f) s = vecOp op k t f s (fun a b _ => g a b)) : VectorOf mk op k (fun _ => t) (fun _ a b _ => r a b) :=
  vectorOf_of (g := fun _ a b _ => g a b) _ he (fun _ => rfl) fun _ _ _ => hr _ _

theorem vectorOf_binaryImm {g r : Word → Word → Word} (hr : ∀ a b, g a b = r a b) (himm : (opInfo op).imm = .b)
    (he : ∀ f s, exec (mk f) s = vecOp op k t f s (fun a b _ => g a b)) : VectorOf mk op k (fun _ => t) (fun f a _ _ => r a f.x) :=
  vectorOf_of (g := fun _ a b _ => g a b) _ he (fun _ => rfl) fun _ _ _ => by rw [operand_immB himm, hr]

theorem vectorOf_ternary {g r : Word → Word → Word → Word} (hr : ∀ a b c, g a b c = r a b c)
    (he : ∀ f s, exec (mk f) s = vecOp op k t f s g) : VectorOf mk op k (fun _ => t) (fun _ a b c => r a b c) :=
  vectorOf_of (g := fun _ => g) _ he (fun _ => rfl) fun _ _ _ => hr _ _ _

theorem vectorOf_ternaryImm {g r : Word → Word → Word → Word} (hr : ∀ a b c, g a b c = r a b c) (himm : (opInfo op).imm = .c)
    (he : ∀ f s, exec (mk f) s = vecOp op k t f s g) : VectorOf mk op k (fun _ => t) (fun f a b _ => r a b f.x) :=
  vectorOf_of (g := fun _ => g) _ he (fun _ => rfl) fun _ _ _ => by rw [operand_immC himm, hr]

/-- A per-lane comparison or test, as the lanes in which it holds (10 R187, R197). -/
theorem computes_test {v : Fields → Cx → Nat → Bool} {h : Cx → Fields → Nat → Prop}
    (hv : ∀ c f l, v f (c.issued op f) l = true ↔ h c f l)
    (he : ∀ f s, exec (mk f) s = runPart op f s (fun c =>
      .next (c.putP f (c.activeLanes f) (lanesWhere (c.activeLanes f) (v f c))))) : Computes mk op (PredPost h) := by
  refine computes_pred (fun f c => lanesWhere (c.activeLanes f) (v f c)) h (fun c f l hl => ?_) he
  rw [lanesWhere, tbit_maskOf _ _ (takes_iff.mp hl).1, decide_eq_true_iff, List.mem_filter, hv]
  exact and_iff_right hl

end

/-! Signs (R191). -/

theorem abs_eq_int (a : Word) : (if a.msb then 0 - a else a) = Reference.abs a := by
  rw [BitVec.msb_eq_toInt]
  unfold Reference.abs
  by_cases h : a.toInt < 0
  · rw [abs_of_neg h, if_pos (decide_eq_true h), sub_eq_int]
    simp
  · rw [abs_of_nonneg (not_lt.mp h), if_neg (by simpa using h)]
    exact int_of_toInt _ rfl

theorem neg_eq_int (a : Word) : 0 - a = Reference.neg a := by
  rw [sub_eq_int, Reference.neg]
  simp

theorem intTag_eq (u : Bool) : intTag u = if u then tagU32 else tagI32 := rfl

/-! Bytes (R194, R195). -/

theorem byteOf_eq (x : Word) (i : Nat) : byteOf x i = Reference.byte x i := rfl

theorem permute_eq (a b c : Word) : permute a b c = Reference.perm a b c := by
  have hone (i : Nat) : (if 8 ≤ bits c (4 * i) 4 then
      (if 128 ≤ byteOf (if bits c (4 * i) 4 % 8 < 4 then a else b) (bits c (4 * i) 4 % 4) then 0xFF else 0)
      else byteOf (if bits c (4 * i) 4 % 8 < 4 then a else b) (bits c (4 * i) 4 % 4)) = Reference.permByte a b c i := by
    have hsel : c.toNat / 2 ^ (4 * i) % 16 = bits c (4 * i) 4 := rfl
    unfold Reference.permByte
    rw [hsel]
    generalize bits c (4 * i) 4 = sel
    have hbyte : byteOf (if sel % 8 < 4 then a else b) (sel % 4) =
        if sel % 8 < 4 then Reference.byte a (sel % 8) else Reference.byte b (sel % 8 - 4) := by
      split
      · rw [byteOf_eq, show sel % 4 = sel % 8 by omega]
      · rw [byteOf_eq, show sel % 4 = sel % 8 - 4 by omega]
    rw [hbyte]
    dsimp only
    generalize (if sel % 8 < 4 then Reference.byte a (sel % 8) else Reference.byte b (sel % 8 - 4)) = x
    split_ifs <;> omega
  unfold permute Reference.perm Reference.nat
  simp only [hone, Finset.sum_range_succ, Finset.sum_range_zero]
  congr 1
  ring

theorem add_ofInt_eq (c : Word) (i : Int) : c + BitVec.ofInt 32 i = Reference.int (c.toInt + i) := by
  rw [Reference.int, BitVec.ofInt_add, BitVec.ofInt_toInt]

theorem byteInt_eq (u : Bool) (x : Word) (i : Nat) :
    (if u then (byteOf x i : Int) else signed 8 (byteOf x i)) = Reference.byteInt u x i := by
  have hlt : Reference.byte x i < 2 ^ 8 := Nat.mod_lt _ (by decide)
  unfold Reference.byteInt signed
  rw [byteOf_eq]
  rw [Nat.mod_eq_of_lt hlt]
  cases u <;> simp

theorem dot4_eq (ua ub : Bool) (a b c : Word) : dot4 ua ub a b c = Reference.dot4 ua ub a b c := by
  unfold dot4 Reference.dot4
  rw [add_ofInt_eq]
  simp only [byteInt_eq, Finset.sum_range_succ, Finset.sum_range_zero]
  rfl

theorem sad4_eq (a b c : Word) : sad4 a b c = Reference.sad4 a b c := by
  unfold sad4 Reference.sad4
  rw [← BitVec.ofInt_natCast, add_ofInt_eq]
  simp only [Finset.sum_range_succ, Finset.sum_range_zero, byteOf_eq, ← Int.natCast_natAbs]
  rfl

end Sys2Proof.Machine
end

section
/-! PROOFS. What operands read and latches take (04 R71-R76; 05 R98). -/
namespace Sys2Proof.Machine

/-! Inline constants (R74). -/

/-- The fraction that `smallFloat` gives a magnitude. -/
def smallFrac (m a : Nat) : Nat := if a.log2 ≤ m then a * 2 ^ (m - a.log2) - 2 ^ m else a / 2 ^ (a.log2 - m) - 2 ^ m

theorem smallFloat_eq (e m bias : Nat) (i : Int) : smallFloat e m bias i = if i.natAbs = 0 then 0 else
    (if i < 0 then 2 ^ (e + m) else 0) + (i.natAbs.log2 + bias) * 2 ^ m + smallFrac m i.natAbs := rfl

theorem log2_le_eight {a : Nat} (h0 : a ≠ 0) (ha : a ≤ 256) : a.log2 ≤ 8 := by
  have h : 2 ^ a.log2 < 2 ^ 9 := (Nat.log2_self_le h0).trans_lt (by omega)
  exact Nat.lt_succ_iff.mp ((Nat.pow_lt_pow_iff_right one_lt_two).mp h)

/-- With 7 fraction bits or more no bit of a magnitude up to 256 is lost: 256 itself is a power of two. -/
theorem smallFrac_spec {m a : Nat} (h7 : 7 ≤ m) (h0 : a ≠ 0) (ha : a ≤ 256) :
    smallFrac m a < 2 ^ m ∧ ((2 ^ m + smallFrac m a : Nat) : ℚ) * 2 ^ ((a.log2 : Int) - m) = a := by
  have hlo : 2 ^ a.log2 ≤ a := Nat.log2_self_le h0
  have hhi : a < 2 ^ (a.log2 + 1) := Nat.lt_log2_self
  have hk := log2_le_eight h0 ha
  unfold smallFrac
  generalize a.log2 = k at *
  split
  next hle =>
    obtain ⟨d, rfl⟩ := Nat.exists_eq_add_of_le hle
    have hmlo : 2 ^ (k + d) ≤ a * 2 ^ d := by rw [pow_add]; exact Nat.mul_le_mul_right _ hlo
    have hmhi : a * 2 ^ d < 2 ^ (k + d) * 2 := by
      rw [← pow_succ, Nat.add_right_comm, pow_add]
      exact Nat.mul_lt_mul_of_pos_right hhi (by positivity)
    rw [Nat.add_sub_cancel_left]
    refine ⟨by omega, ?_⟩
    rw [Nat.add_sub_cancel' hmlo, show (k : Int) - (k + d : Nat) = -(d : Int) by push_cast; ring, zpow_neg, zpow_natCast]
    push_cast
    field_simp
  next hgt =>
    obtain ⟨rfl, rfl⟩ : m = 7 ∧ k = 8 := by omega
    obtain rfl : a = 256 := by omega
    norm_num

/-- The code of a small whole number stands for it, in every format with at least 7 fraction bits and room for 256. -/
theorem Fmt.Sound.decode_smallFloat {x : Fmt} (hx : x.Sound) {eb bias : Nat} (hw : x.w - 1 = eb + x.m) (hb : x.bias = bias)
    (hpos : 0 < bias) (h7 : 7 ≤ x.m) (hroom : (bias + 9) * 2 ^ x.m ≤ x.maxCode) {i : Int} (hi : i.natAbs ≤ 256) :
    (x.decode (smallFloat eb x.m bias i)).finite ∧ (x.decode (smallFloat eb x.m bias i)).value = i := by
  have hsign : (if i < 0 then 2 ^ (eb + x.m) else 0) = x.sign (decide (i < 0)) := by
    simp only [Fmt.sign, decide_eq_true_iff, hw]
  rw [smallFloat_eq, hsign]
  by_cases h0 : i.natAbs = 0
  · have hzero := hx.decode_sign_add false (Nat.zero_le _)
    rw [if_pos h0]
    obtain rfl := Int.natAbs_eq_zero.mp h0
    rw [show x.sign false + 0 = 0 from rfl] at hzero
    rw [hzero]
    exact ⟨x.numOf_finite _ _, by simp [Fmt.numOf_value, x.magValue_of_le (Nat.zero_le _)]⟩
  · obtain ⟨hfrac, hval⟩ := smallFrac_spec h7 h0 hi
    have hcode : (i.natAbs.log2 + bias) * 2 ^ x.m + smallFrac x.m i.natAbs ≤ x.maxCode := by
      have hstep := Nat.mul_le_mul_right (2 ^ x.m) (show i.natAbs.log2 + bias + 1 ≤ bias + 9 by
        have := log2_le_eight h0 hi
        omega)
      rw [Nat.succ_mul] at hstep
      omega
    rw [if_neg h0, Nat.add_assoc, hx.decode_sign_add _ hcode, Fmt.numOf_value, x.magValue_normal (by omega) hfrac, hb]
    refine ⟨x.numOf_finite _ _, ?_⟩
    rw [Nat.cast_add i.natAbs.log2, add_sub_cancel_right, hval]
    rcases lt_or_ge i 0 with hneg | hneg
    · simp [hneg, Nat.cast_natAbs, abs_of_neg hneg]
    · simp [hneg.not_gt, Nat.cast_natAbs, abs_of_nonneg hneg]

theorem smallFloat_lt {eb m bias : Nat} (h7 : 7 ≤ m) (hroom : bias + 9 ≤ 2 ^ eb) {i : Int} (hi : i.natAbs ≤ 256) :
    smallFloat eb m bias i < 2 ^ (eb + m + 1) := by
  rw [smallFloat_eq]
  split
  · positivity
  next h0 =>
    have hfrac := (smallFrac_spec h7 h0 hi).1
    have hstep := Nat.mul_le_mul_right (2 ^ m) (show i.natAbs.log2 + bias + 1 ≤ 2 ^ eb by
      have := log2_le_eight h0 hi
      omega)
    rw [Nat.succ_mul, ← pow_add] at hstep
    rw [pow_succ]
    split <;> omega

theorem elem16_pair {n e : Nat} (hn : n < 2 ^ 16) (he : e < 2) : elem16 (BitVec.ofNat 32 (n * 65537)) e = n := by
  have hlt : n * 65537 < 2 ^ 32 := by omega
  rw [elem16, bits_eq, BitVec.toNat_ofNat, Nat.mod_eq_of_lt hlt]
  interval_cases e
  · norm_num
    omega
  · have hdiv : n * 65537 / 2 ^ (16 * 1) = n := by
      rw [show n * 65537 = 2 ^ (16 * 1) * n + n by omega, Nat.mul_add_div (by decide), Nat.div_eq_of_lt hn, Nat.add_zero]
    rw [hdiv, Nat.mod_eq_of_lt hn]

/-- An inline constant in the form that an operand reads. -/
theorem constantIn_inlineVal (k : OpKind) {n : Nat} (hlo : 1536 ≤ n) (hhi : n ≤ 2047) :
    constantIn k ((n : Int) - 1792) (inlineVal k n) := by
  have hi : ((n : Int) - 1792).natAbs ≤ 256 := by omega
  cases k with
  | int =>
    show (BitVec.ofInt 32 ((n : Int) - 1792)).toInt = _
    rw [BitVec.toInt_ofInt, Int.bmod_eq_of_le (by omega) (by omega)]
  | f32 =>
    have h := fp32_sound.decode_smallFloat (eb := 8) (bias := 127) rfl rfl (by decide) (by decide) (by decide) hi
    have hlt := smallFloat_lt (eb := 8) (m := 23) (bias := 127) (by decide) (by decide) hi
    have hv : f32 (inlineVal .f32 n) = fp32.decode (smallFloat 8 23 127 ((n : Int) - 1792)) := by
      rw [f32, inlineVal, BitVec.toNat_ofNat, Nat.mod_eq_of_lt hlt]
    rw [constantIn, hv]
    exact h
  | f16 =>
    intro e he
    have hs : fp16.Sound := sound_of_mem (by decide)
    rw [inlineVal, elem16_pair (smallFloat_lt (eb := 5) (m := 10) (bias := 15) (by decide) (by decide) hi) he]
    exact hs.decode_smallFloat rfl rfl (by decide) (by decide) (by decide) hi
  | b16 =>
    intro e he
    have hs : bf16.Sound := sound_of_mem (by decide)
    rw [inlineVal, elem16_pair (smallFloat_lt (eb := 8) (m := 7) (bias := 127) (by decide) (by decide) hi) he]
    exact hs.decode_smallFloat rfl rfl (by decide) (by decide) (by decide) hi

/-! Sources (R71, R72, R76). -/

theorem latchVal_of_latched {c : Cx} {n l : Nat} {v : Word} (h : c.latched n l v) : latchVal c n l = v := by
  obtain ⟨w, x, hw, hx, hv⟩ := h
  rw [latchVal, hw]
  simp [hx, hv]

theorem gives_src (c : Cx) (op : Nat) (f : Fields) (k : OpKind) (latch : Bool) (n l : Nat) :
    c.gives op f k latch n l ((c.issued op f).src k latch n 0 l) := by
  unfold Cx.gives Cx.src
  refine ⟨?_, ?_, ?_, ?_⟩
  · rintro rfl hn
    simp [hn, Cx.readV]
  · rintro rfl hlo hhi
    simp [hlo.not_gt, hhi, Cx.readS]
  · rintro rfl hlo hhi
    simp only [Bool.false_eq_true, if_false, show ¬ n < 256 by omega, show ¬ n < 384 by omega]
    exact constantIn_inlineVal k hlo hhi
  · rintro rfl x hx
    simpa using latchVal_of_latched hx

section
variable {op : Nat} (c : Cx) (f : Fields) (k : OpKind) (l : Nat)

theorem operand_a (h : (opInfo op).imm ≠ .a) : c.operand op f 0 k l = (c.issued op f).src k f.al f.a.toNat 0 l := by
  unfold Cx.operand Cx.opn
  cases hi : (opInfo op).imm with
  | none => rfl
  | a => exact absurd hi h
  | b => rfl
  | c => rfl

theorem operand_b (h : (opInfo op).imm ≠ .b) : c.operand op f 1 k l = (c.issued op f).src k f.bl f.b.toNat 0 l := by
  unfold Cx.operand Cx.opn
  cases hi : (opInfo op).imm with
  | none => rfl
  | a => rfl
  | b => exact absurd hi h
  | c => rfl

theorem operand_c (h : (opInfo op).imm ≠ .c) : c.operand op f 2 k l = (c.issued op f).src k (fieldCL f) (fieldC f) 0 l := by
  unfold Cx.operand Cx.opn
  cases hi : (opInfo op).imm with
  | none => rfl
  | a => rfl
  | b => rfl
  | c => exact absurd hi h

end

/-! Latches (R76). -/

theorem find_assocSet {α : Type} (m : List (Nat × α)) (k l : Nat) (v : α) :
    (assocSet m k v).find? (fun y => y.1 = l) = if k = l then some (l, v) else m.find? (fun y => y.1 = l) := by
  unfold assocSet
  by_cases h : k = l
  · simp [h]
  · simp only [List.find?_cons, h, decide_false, if_false, List.find?_filter]
    congr 1
    funext y
    by_cases hy : y.1 = l <;> simp [hy, Ne.symm h]

/-- Values by lane, set one after the other in an association list. -/
theorem find_foldl_assocSet {α : Type} (h : Nat → α) (ls : List Nat) (m : List (Nat × α)) {l : Nat} (hl : l ∈ ls) :
    ((ls.map (fun i => (i, h i))).foldl (fun m x => assocSet m x.1 x.2) m).find? (fun y => y.1 = l) = some (l, h l) := by
  induction ls using List.reverseRecOn with
  | nil => cases hl
  | append_singleton ls i ih =>
    rw [List.map_append, List.foldl_append, List.map_singleton, List.foldl_cons, List.foldl_nil, find_assocSet]
    by_cases hi : i = l
    · rw [if_pos hi, hi]
    · rw [if_neg hi]
      exact ih ((List.mem_append.mp hl).resolve_right fun hm => hi (List.mem_singleton.mp hm).symm)

/-- An instruction with LW = 1 that issues has a window. -/
theorem issued_window_some {s : State} {c : Cx} {op : Nat} {f : Fields} (hi : Issues s c op f) (hlw : f.lw = true) :
    ∃ w, (c.issued op f).p.window = some w := by
  obtain ⟨-, -, -, -, hlatch, -, -, -⟩ := hi
  cases hw : windowFor c.p (operandCls op (modField (opInfo op).x f.x)) f c.s.freeCount with
  | some w => exact ⟨_, congrArg (Option.map _) hw⟩
  | none => simp [latchCheck, hw, hlw] at hlatch

/-- What a vector instruction with LW = 1 leaves in its latch. -/
theorem latched_putV {c : Cx} {op : Nat} {f : Fields} {w : Window} (hw : c.p.window = some w) (hlw : f.lw = true) (h : Nat → Word)
    (tag : Nat → Tag) {l : Nat} (hl : l ∈ lanesOf (c.activeLanes f)) :
    (c.putV op f (perLane f c h) tag).latched f.lout.toNat l (h l) := by
  have hp : (c.putV op f (perLane f c h) tag).p.window =
      some (w.write f.lout.toNat (opInfo op).unit c.cyc (perLane f c h) tag) := by
    have hlatch : (c.writeLatch f (opInfo op).unit (perLane f c h) tag).p.window =
        some (w.write f.lout.toNat (opInfo op).unit c.cyc (perLane f c h) tag) := by
      rw [Cx.writeLatch, if_pos hlw]
      exact congrArg (Option.map _) hw
    unfold Cx.putV
    split
    · exact hlatch
    · exact hlatch
  exact ⟨_, _, hp, List.find?_cons_of_pos (decide_eq_true rfl), find_foldl_assocSet h _ _ hl⟩

end Sys2Proof.Machine
end

section
/-! PROOFS. The obligations on vector integer instructions (04 R71-R76; 10 R190-R197, R206). -/
open Sys2Proof Sys2Proof.Machine

/-- Settles O4: each instruction is `vecOp` of a function of its operands, which is the rule's arithmetic (`vectorOf_binary` and
its like); an operand is a source (`gives_src`), and LW = 1 leaves each lane's result in the window's latch (`latched_putV`). -/
theorem vectorIntegers : Obligations.VectorIntegers := by
  unfold Obligations.VectorIntegers
  refine ⟨fun c op f k l => ⟨fun h => ?_, fun h => ?_, fun h => ?_, fun h => operand_immA h .., fun h => operand_immB h ..,
      fun h => operand_immC h ..⟩, ?latch,
    vectorOf_binary add_eq_nat fun _ _ => rfl,
    vectorOf_binary sub_eq_int fun _ _ => rfl,
    vectorOf_binary mul_eq_nat fun _ _ => rfl,
    vectorOf_of (g := fun f a b _ => mulHigh (tbit f.x 0) a b) _ (fun _ _ => rfl) (fun f => intTag_eq (tbit f.x 0))
      fun _ f _ => mulHigh_eq (tbit f.x 0) _ _,
    vectorOf_ternary mad_eq fun _ _ => rfl,
    vectorOf_binary and_eq_nat fun _ _ => rfl,
    vectorOf_binary or_eq_nat fun _ _ => rfl,
    vectorOf_binary xor_eq_nat fun _ _ => rfl,
    vectorOf_unary not_eq_nat fun _ _ => rfl,
    vectorOf_binary shiftLeft_eq fun _ _ => rfl,
    vectorOf_binary shiftRight_eq fun _ _ => rfl,
    vectorOf_binary sshiftRight_eq fun _ _ => rfl,
    vectorOf_of (g := fun f a b _ => if tbit f.x 0 then minU a b else minS a b) _ (fun _ _ => rfl)
      (fun f => intTag_eq (tbit f.x 0)) fun _ _ _ => by rw [minU_eq, minS_eq],
    vectorOf_of (g := fun f a b _ => if tbit f.x 0 then maxU a b else maxS a b) _ (fun _ _ => rfl)
      (fun f => intTag_eq (tbit f.x 0)) fun _ _ _ => by rw [maxU_eq, maxS_eq],
    vectorOf_unary abs_eq_int fun _ _ => rfl,
    vectorOf_unary neg_eq_int fun _ _ => rfl,
    vectorOf_unary leadingZeros_eq fun _ _ => rfl,
    vectorOf_unary popCount_eq fun _ _ => rfl,
    vectorOf_binaryImm add_eq_nat rfl fun _ _ => rfl,
    vectorOf_binaryImm sub_eq_int rfl fun _ _ => rfl,
    vectorOf_binaryImm mul_eq_nat rfl fun _ _ => rfl,
    vectorOf_binaryImm (mulHigh_eq false) rfl fun _ _ => rfl,
    vectorOf_ternaryImm mad_eq rfl fun _ _ => rfl,
    vectorOf_binaryImm and_eq_nat rfl fun _ _ => rfl,
    vectorOf_binaryImm or_eq_nat rfl fun _ _ => rfl,
    vectorOf_binaryImm xor_eq_nat rfl fun _ _ => rfl,
    vectorOf_binaryImm shiftLeft_eq rfl fun _ _ => rfl,
    vectorOf_binaryImm shiftRight_eq rfl fun _ _ => rfl,
    vectorOf_binaryImm sshiftRight_eq rfl fun _ _ => rfl,
    vectorOf_binaryImm minS_eq rfl fun _ _ => rfl,
    vectorOf_binaryImm maxS_eq rfl fun _ _ => rfl,
    vectorOf_of (g := fun _ a _ _ => a) _ (fun _ _ => rfl) (fun _ => rfl) fun _ _ _ => operand_immA rfl ..⟩
  · exact operand_a c f k l h ▸ gives_src ..
  · exact operand_b c f k l h ▸ gives_src ..
  · exact operand_c c f k l h ▸ gives_src ..
  case latch =>
    intro s c f hi hlw
    obtain ⟨w, hw⟩ := issued_window_some hi hlw
    obtain ⟨e, hpart, -, -, -, hep, -⟩ := retire_spec (f := f) hi.1 ((WaveOnly.issued c 0x040 f).trans (WaveOnly.putV ..))
    refine ⟨_, e, runPart_next (op := 0x040) hi rfl, hpart, fun l hl => ?_⟩
    obtain ⟨w', x, hwin, hrest⟩ := latched_putV (op := 0x040) hw hlw
      (fun l => (c.issued 0x040 f).opn 0x040 f 0 .int l + (c.issued 0x040 f).opn 0x040 f 1 .int l) (fun _ => tagI32) hl
    rw [← Cx.operand, ← Cx.operand, add_eq_nat] at hrest
    exact ⟨w', x, by rw [hep]; exact hwin, hrest⟩

/-- Settles O5: fields, bytes and comparisons are the rule's arithmetic on an instruction of one shape; a move and a selection
hand on their source's tag (`computes_vector`). -/
theorem vectorFields : Obligations.VectorFields := by
  unfold Obligations.VectorFields
  refine ⟨
    vectorOf_of (g := fun f a b _ => bitExtract (tbit f.x 0) a b) _ (fun _ _ => rfl) (fun _ => rfl)
      fun _ f _ => bitExtract_eq (tbit f.x 0) _ _,
    vectorOf_binaryImm (bitExtract_eq false) rfl fun _ _ => rfl,
    vectorOf_ternary bitInsert_eq fun _ _ => rfl,
    vectorOf_ternaryImm bitInsert_eq rfl fun _ _ => rfl,
    vectorOf_ternary permute_eq fun _ _ => rfl,
    vectorOf_ternaryImm permute_eq rfl fun _ _ => rfl,
    vectorOf_of (g := fun f a b c => dot4 (tbit f.x 0) (tbit f.x 1) a b c) _ (fun _ _ => rfl) (fun _ => rfl)
      fun _ _ _ => dot4_eq ..,
    vectorOf_ternaryImm (dot4_eq false false) rfl fun _ _ => rfl,
    vectorOf_ternary sad4_eq fun _ _ => rfl,
    vectorOf_ternaryImm sad4_eq rfl fun _ _ => rfl,
    vectorOf_of (g := fun _ a _ _ => a) _ (fun _ _ => rfl) (fun f => by simp [bits_eq]) fun _ _ _ => rfl,
    computes_vector (fun f c l => c.opn 0x055 f 0 .int l) (fun f c q => c.opnTag 0x055 f 0 q) fun _ _ => rfl,
    computes_vector (fun f c l => if tbit (c.readP (fieldC f - 392)) l then c.opn 0x054 f 0 .int l else c.opn 0x054 f 1 .int l)
      (fun f c q => if c.opnTag 0x054 f 0 q = c.opnTag 0x054 f 1 q then c.opnTag 0x054 f 0 q else tagAny) fun _ _ => rfl,
    computes_test (v := fun f c l => cmpInt (bits f.x 0 4) (c.opn 0x059 f 0 .int l) (c.opn 0x059 f 1 .int l))
      (fun c f l => ?_) fun _ _ => rfl⟩
  have hcc : bits f.x 0 4 = f.x.toNat % 16 := by simp [bits_eq]
  rw [cmpInt_eq, hcc]
  rfl
end

section
/-! PROOFS. FP32 and packed instructions: modes, words by their fields, choice, comparison and class (10 R198-R202). -/
namespace Sys2Proof.Machine

/-! Modes (R198). -/

/-- MOD[2:0], where the word's form has a MOD field. -/
theorem fpMode_mod {op : Nat} (h : ∀ x, modField (opInfo op).x x = bits x 0 20) (f : Fields) : fpMode op f = f.x.toNat % 8 := by
  rw [fpMode, h, bits_eq, pow_zero, Nat.div_one]
  omega

theorem fpMode_imm {op : Nat} (h : (opInfo op).x = .imm) (f : Fields) : fpMode op f = 0 := by
  rw [fpMode, h]
  rfl

/-! FP32 words by their fields (08 R134). -/

/-- What a word stands for, by its exponent. -/
theorem f32_of_expo (a : Word) : f32 a =
    if Reference.expo a = 255 then (if Reference.frac a = 0 then .inf (Reference.sign a) else .nan)
    else if Reference.expo a = 0 then .num (Reference.sign a) (Reference.frac a) (-149)
    else .num (Reference.sign a) (2 ^ 23 + Reference.frac a) ((Reference.expo a : Int) - 150) := by
  obtain ⟨hnan, hinf⟩ := f32_ieee a
  have hlt : Reference.expo a < 256 := Nat.mod_lt _ (by decide)
  split
  next he =>
    split
    next hf => exact (hinf _).mpr ⟨he, hf, rfl⟩
    next hf => exact hnan.mp (decide_eq_true ⟨he, hf⟩)
  next he =>
    have hfin := (f32_normal (show Reference.expo a < 255 by omega)).1
    have hdec := fp32_sound.decode_of_le (fp32_sound.decode_finite_iff.mp hfin)
    have hdiv : a.toNat % 2 ^ (fp32.w - 1) / 2 ^ fp32.m = Reference.expo a := Fmt.body_div (eb := 8) rfl a.toNat
    have hmod : a.toNat % 2 ^ (fp32.w - 1) % 2 ^ fp32.m = Reference.frac a := Fmt.body_mod (eb := 8) rfl a.toNat
    have hsign : a.toNat.testBit (fp32.w - 1) = Reference.sign a := testBit_sign a
    rw [f32, hdec, Fmt.numOf, hdiv, hmod, hsign]
    split
    · rfl
    · rw [show (Reference.expo a : Int) - fp32.bias - fp32.m = Reference.expo a - 150 by simp only [fp32]; omega]
      rfl

theorem frac_lt (a : Word) : Reference.frac a < 2 ^ 23 := Nat.mod_lt _ (by decide)
theorem expo_lt (a : Word) : Reference.expo a < 256 := Nat.mod_lt _ (by decide)

/-- A number that a word stands for: its sign, a magnitude of 24 bits, an exponent, and a full magnitude above the least one. -/
theorem f32_num {a : Word} {s : Bool} {m : Nat} {e : Int} (h : f32 a = .num s m e) :
    s = Reference.sign a ∧ m < 2 ^ 24 ∧ -149 ≤ e ∧ e ≤ 104 ∧ (e = -149 ∨ 2 ^ 23 ≤ m) := by
  have hf := frac_lt a
  have he := expo_lt a
  rw [f32_of_expo] at h
  split_ifs at h
  all_goals
    obtain ⟨rfl, rfl, rfl⟩ := FVal.num.inj h
    refine ⟨rfl, ?_, ?_, ?_, ?_⟩
    all_goals omega

/-! Choice (R199). -/

theorem isNan_f32 (a : Word) : (fp32.decode a.toNat).isNan = Reference.isNan a := by
  rw [Bool.eq_iff_iff, (f32_ieee a).1, f32]
  cases fp32.decode a.toNat <;> simp [FVal.isNan]

theorem orderKey_eq (a : Word) : fp32.orderKey a.toNat = Reference.rank a := by
  have hlt := a.isLt
  have hsign : a.toNat.testBit (fp32.w - 1) = Reference.sign a := testBit_sign a
  unfold Fmt.orderKey Reference.rank
  rw [hsign]
  simp only [Reference.sign, decide_eq_true_iff, fp32]
  split <;> omega

theorem select_eq (max : Bool) (a b : Word) : BitVec.ofNat 32 (fp32.select max a.toNat b.toNat) = Reference.pick max a b := by
  unfold Fmt.select Reference.pick
  rw [isNan_f32, isNan_f32, orderKey_eq, orderKey_eq]
  have hword (x : Word) : (BitVec.ofNat 32 x.toNat : Word) = x := by rw [BitVec.ofNat_toNat, BitVec.setWidth_eq]
  cases Reference.isNan a
  · cases Reference.isNan b
    · simp only [Bool.false_eq_true, and_self, if_false]
      split_ifs <;> exact hword _
    · simp
  · cases Reference.isNan b
    · simp
    · rfl

/-! Comparison (R200). -/

theorem threeWay_swap (x y : Int) :
    (if x < y then (-1 : Int) else if x = y then 0 else 1) = -(if y < x then (-1 : Int) else if y = x then 0 else 1) := by
  split_ifs <;> omega

theorem FVal.cmp_swap (a b : FVal) : a.cmp b = -b.cmp a := by
  cases a with
  | nan =>
    cases b with
    | nan => rfl
    | inf t => cases t <;> rfl
    | num t n d => rfl
  | inf s =>
    cases b with
    | nan => cases s <;> simp [FVal.cmp]
    | inf t => cases s <;> cases t <;> simp [FVal.cmp]
    | num t n d => cases s <;> simp [FVal.cmp]
  | num s m e =>
    cases b with
    | nan => simp [FVal.cmp]
    | inf t => cases t <;> simp [FVal.cmp]
    | num t n d =>
      unfold FVal.cmp
      dsimp only
      rw [min_comm d e]
      exact threeWay_swap _ _

theorem FVal.cmp_neg_iff_lt {a b : FVal} (h : FVal.ordered a b) : a.cmp b < 0 ↔ a.lt b := by
  obtain ⟨ha, hb⟩ := h
  cases a with
  | nan => exact absurd rfl ha
  | inf s =>
    cases b with
    | nan => exact absurd rfl hb
    | inf t => cases s <;> cases t <;> simp [FVal.cmp, FVal.lt]
    | num t n d => cases s <;> simp [FVal.cmp, FVal.lt]
  | num s m e =>
    cases b with
    | nan => exact absurd rfl hb
    | inf t => cases t <;> simp [FVal.cmp, FVal.lt]
    | num t n d => exact FVal.cmp_neg_iff trivial trivial

theorem FVal.cmp_pos_iff_lt {a b : FVal} (h : FVal.ordered a b) : 0 < a.cmp b ↔ b.lt a := by
  rw [FVal.cmp_swap, ← FVal.cmp_neg_iff_lt (And.intro h.2 h.1)]
  omega

theorem FVal.ordered_iff {a b : FVal} : FVal.ordered a b ↔ (a.isNan || b.isNan) = false := by
  cases a <;> cases b <;> simp [FVal.ordered, FVal.isNan]

theorem FVal.not_lt_of_not_ordered {a b : FVal} (h : ¬ FVal.ordered a b) : ¬ a.lt b := by
  cases a <;> cases b <;> simp_all [FVal.ordered, FVal.lt]

/-- The eight conditions. -/
theorem cmpFloat_iff (cc : Nat) (a b : FVal) : cmpFloat cc a b = true ↔ FVal.holds cc a b := by
  unfold cmpFloat FVal.holds
  by_cases h : FVal.ordered a b
  · have hn := FVal.ordered_iff.mp h
    have hlt := FVal.cmp_neg_iff_lt h
    have hgt := FVal.cmp_pos_iff_lt h
    rw [hn]
    simp only [h, ← hlt, ← hgt]
    split
    all_goals simp
    all_goals omega
  · have hn := Bool.eq_true_of_not_eq_false (mt FVal.ordered_iff.mpr h)
    rw [hn]
    simp only [h]
    split
    all_goals simp

/-! Class and exponent (R201). -/

theorem fpClass_eq (a : Word) : fpClass a = Reference.classOf a := by
  have hf := frac_lt a
  have hmsb : a.msb = Reference.sign a := BitVec.msb_eq_decide a
  have h22 : tbit a 22 = decide (2 ^ 22 ≤ Reference.frac a) := by
    have h := Nat.testBit_eq_decide_div_mod_eq (x := a.toNat) (i := 22)
    rw [tbit, h, decide_eq_decide, Reference.frac]
    omega
  unfold fpClass Reference.classOf Reference.nat
  rw [hmsb, h22, f32_of_expo]
  by_cases he : Reference.expo a = 255
  · by_cases h0 : Reference.frac a = 0
    · simp [he, h0]
    · simp only [he, h0, if_true, if_false, decide_eq_true_iff, ← Nat.not_lt, ite_not]
  · by_cases h0 : Reference.expo a = 0
    · by_cases hz : Reference.frac a = 0
      · simp [h0, hz]
      · simp only [h0, hz, hf, if_true, if_false, show ¬ (0 = 255) by decide]
    · simp [he, h0]

theorem fpExp_eq (a : Word) : fpExp a = Reference.expOf a := by
  have hf := frac_lt a
  unfold fpExp Reference.expOf
  rw [f32_of_expo]
  by_cases he : Reference.expo a = 255
  · by_cases h0 : Reference.frac a = 0 <;> simp [he, h0, Reference.nat]
  · by_cases h0 : Reference.expo a = 0
    · by_cases hz : Reference.frac a = 0
      · simp [h0, hz, Reference.nat]
      · simp [h0, hz, Reference.int, Nat.log2_eq_log_two, sub_eq_add_neg]
    · have hlog : (2 ^ 23 + Reference.frac a).log2 = 23 := by
        rw [Nat.log2_eq_iff (by omega)]
        omega
      simp only [he, h0, if_false, hlog, Reference.int, show 2 ^ 23 + Reference.frac a ≠ 0 by omega]
      congr 1
      omega

/-! Rounding what FP32 holds (08 R138). -/

theorem not_pastFp32 {mode : Nat} {v : ℚ} (h : |v| ≤ 2 ^ 127) : ¬ PastFp32 mode v := fun hp => by
  have hle := hp.le
  rw [fp32_top.1, fp32_top.2, le_div_iff₀ (by positivity)] at hle
  norm_num at hle h
  linarith

/-- A magnitude that a format holds is its own rounding in every mode. -/
theorem Fmt.Sound.round_exact {x : Fmt} (hx : x.Sound) {mode : Nat} (hmode : mode < 4) (h : Word) (sat : Bool) {s : Bool} {m : Nat}
    {e : Int} (hm : m < 2 ^ (x.m + 1)) (he : 1 - x.bias - x.m ≤ e) (hmax : (m : ℚ) * 2 ^ e ≤ x.magValue x.maxCode) :
    ∃ c ≤ x.maxCode, x.round mode h sat (.num s m e) = x.sign s + c ∧ (x.numOf s c).value = (FVal.num s m e).value := by
  by_cases h0 : m = 0
  · refine ⟨0, Nat.zero_le _, by rw [Fmt.round, if_pos h0, Nat.add_zero], ?_⟩
    simp [Fmt.numOf_value, x.magValue_of_le (Nat.zero_le _), FVal.value_num, h0]
  · have hv0 : (FVal.num s m e).value ≠ 0 := mt FVal.value_num_eq_zero.mp h0
    have hneg : decide ((FVal.num s m e).value < 0) = s := by cases s <;> simp [FVal.value_num_neg, h0]
    obtain ⟨n, hn, hr⟩ := x.round_eq hmode h sat (v := .num s m e) trivial hv0
    have hcode := hx.codeOf_le hn hv0 (FVal.abs_value_num s m e ▸ hmax)
    have hplace : x.place (FVal.num s m e).value ≤ e := by
      have hlog : m.log2 < x.m + 1 := (Nat.log2_lt h0).mpr hm
      rw [Fmt.place, FVal.log_value h0]
      omega
    obtain ⟨d, hd⟩ := Int.eq_ofNat_of_zero_le (sub_nonneg.mpr hplace)
    have hgrid : |(FVal.num s m e).value| / 2 ^ x.place (FVal.num s m e).value = (m * 2 ^ d : Nat) := by
      rw [FVal.abs_value_num, mul_div_assoc, ← zpow_sub₀ two_ne_zero, hd]
      push_cast
      rfl
    have hmag := x.magValue_rounded hn hv0
    have hexact : n = m * 2 ^ d := by
      rw [hgrid] at hn
      exact le_antisymm (hn.le_of_le le_rfl) (hn.le_of_ge le_rfl)
    rw [hneg, if_neg (not_lt.mpr hcode)] at hr
    refine ⟨_, hcode, hr, ?_⟩
    rw [Fmt.numOf_value, hmag, hexact, ← hgrid, div_mul_cancel₀ _ (by positivity), FVal.abs_value_num, FVal.value_num, mul_assoc]

/-- A code of FP32, as a word. -/
theorem toNat_code (s : Bool) {c : Nat} (hc : c ≤ fp32.maxCode) : (BitVec.ofNat 32 (fp32.sign s + c)).toNat = fp32.sign s + c := by
  have hlt := hc.trans_lt (show fp32.maxCode < 2 ^ 31 by decide)
  rw [BitVec.toNat_ofNat, Nat.mod_eq_of_lt]
  cases s <;> simp only [Fmt.sign, fp32, if_true, Bool.false_eq_true, if_false] <;> omega

theorem fp32_magValue_maxCode : fp32.magValue fp32.maxCode = 16777215 * 2 ^ (104 : Int) := by
  rw [fp32_sound.magValue_maxCode, fp32_top.1, fp32_top.2]
  norm_num

/-- A magnitude of 24 bits on a place that FP32 has, below its largest, is its own rounding in every mode. -/
theorem toF32_exact {mode : Nat} (hmode : mode < 4) {s : Bool} {m : Nat} {e : Int} (hm : m < 2 ^ 24) (he : -149 ≤ e)
    (hmax : (m : ℚ) * 2 ^ e ≤ 2 ^ 127) :
    (f32 (toF32 mode (.num s m e))).finite ∧ (f32 (toF32 mode (.num s m e))).value = (FVal.num s m e).value ∧
      Reference.sign (toF32 mode (.num s m e)) = s := by
  obtain ⟨c, hc, hround, hval⟩ := fp32_sound.round_exact hmode 0 false (s := s) hm he (by
    rw [fp32_magValue_maxCode]
    norm_num at hmax ⊢
    linarith)
  have hword : (toF32 mode (.num s m e)).toNat = fp32.sign s + c := by rw [toF32, hround, toNat_code s hc]
  have hnum : f32 (toF32 mode (.num s m e)) = fp32.numOf s c := by rw [f32, hword, fp32_sound.decode_sign_add s hc]
  refine ⟨hnum ▸ fp32.numOf_finite s c, hnum ▸ hval, ?_⟩
  rw [← testBit_sign, hword]
  exact fp32.sign_add_testBit s (hc.trans_lt fp32_sound.fits)

/-! Integral rounding (R201). -/

theorem roundsInt_intCast (mode : Nat) (n : Int) : RoundsInt mode n n := by
  unfold RoundsInt
  split <;> simp

theorem fpRound_special (mode : Nat) (a : Word) :
    (f32 a = .nan → fpRound mode a = 0x7FC00000) ∧ ∀ s, f32 a = .inf s → fpRound mode a = a := by
  refine ⟨fun h => by rw [fpRound, h]; rfl, fun s h => ?_⟩
  obtain ⟨he, hf, rfl⟩ := ((f32_ieee a).2 s).mp h
  rw [fpRound, h]
  refine BitVec.eq_of_toNat_eq ?_
  have hlt := a.isLt
  simp only [Reference.expo, Reference.frac, Reference.sign] at he hf ⊢
  by_cases hs : 2 ^ 31 ≤ a.toNat
  · simp only [f32Inf, hs, decide_true, if_true]
    show 0xFF800000 = a.toNat
    omega
  · simp only [f32Inf, hs, decide_false, Bool.false_eq_true, if_false]
    show 0x7F800000 = a.toNat
    omega

theorem fpRound_spec {mode : Nat} {a : Word} (hmode : mode < 4) (hf : (f32 a).finite) :
    (f32 (fpRound mode a)).finite ∧ Reference.sign (fpRound mode a) = Reference.sign a ∧
      ∃ n : Int, (f32 (fpRound mode a)).value = n ∧ RoundsInt mode (f32 a).value n := by
  obtain ⟨s, m, e, hnum⟩ := FVal.finite_iff.mp hf
  obtain ⟨hs, hm, -, -, -⟩ := f32_num hnum
  by_cases he : 0 ≤ e
  · obtain ⟨d, rfl⟩ := Int.eq_ofNat_of_zero_le he
    have hself : fpRound mode a = a := by rw [fpRound, hnum]; exact if_pos he
    have hint : (f32 a).value = ((if s then -1 else 1) * (m * 2 ^ d : Nat) : Int) := by
      rw [hnum, FVal.value_num]
      push_cast
      rw [mul_assoc]
      rfl
    rw [hself]
    exact ⟨hf, rfl, _, hint, hint ▸ roundsInt_intCast mode _⟩
  · have hround : fpRound mode a = toF32 0 (.num s (roundInt mode s 0 m e false) 0) := by rw [fpRound, hnum]; exact if_neg he
    have hspec := roundInt_spec hmode s 0 m e
    have hpow : (2 : ℚ) ^ e ≤ 1 := zpow_le_one_of_nonpos₀ one_le_two (by omega)
    have hle : roundInt mode s 0 m e false ≤ m := hspec.le_of_le (mul_le_of_le_one_right (Nat.cast_nonneg _) hpow)
    generalize roundInt mode s 0 m e false = k at *
    have hk : (k : ℚ) * 2 ^ (0 : Int) ≤ 2 ^ 127 := by
      have : (k : ℚ) < 2 ^ 24 := by exact_mod_cast hle.trans_lt hm
      norm_num at this ⊢
      linarith
    obtain ⟨hfin, hval, hsign⟩ := toF32_exact four_pos (s := s) (hle.trans_lt hm) (by decide) hk
    rw [hround]
    refine ⟨hfin, hsign.trans hs, if s then -k else k, ?_, ?_⟩
    · rw [hval, FVal.value_num]
      cases s <;> simp
    · rw [hnum]
      rw [← FVal.abs_value_num s] at hspec
      exact hspec.roundsInt hmode (FVal.isNeg_sign (v := .num s m e) trivial)

/-! The shapes of FP32 and packed instructions (R198, R202). -/

/-- An FP32 instruction that takes its rounding mode from its word. -/
theorem vectorOf_fpOp {mk : Fields → Instr} {op : Nat} {mode : Fields → Nat} (g : Nat → FVal → FVal → FVal → FVal)
    (he : ∀ f s, exec (mk f) s = fpOp op f s (g (fpMode op f))) (hm : ∀ f, fpMode op f = mode f) :
    VectorOf mk op .f32 (fun _ => tagF32) (fun f a b c => toF32 (mode f) (g (mode f) (f32 a) (f32 b) (f32 c))) :=
  vectorOf_of (g := fun f a b c => toF32 (fpMode op f) (g (fpMode op f) (f32 a) (f32 b) (f32 c))) _ he (fun _ => rfl)
    fun _ f _ => by rw [hm]

theorem vectorOf_fpOpImm {mk : Fields → Instr} {op : Nat} (g : Nat → FVal → FVal → FVal)
    (he : ∀ f s, exec (mk f) s = fpOp op f s (fun a b _ => g (fpMode op f) a b)) (hx : (opInfo op).x = .imm)
    (hb : (opInfo op).imm = .b) : VectorOf mk op .f32 (fun _ => tagF32) (fun f a _ _ => toF32 0 (g 0 (f32 a) (f32 f.x))) :=
  vectorOf_of (g := fun f a b _ => toF32 (fpMode op f) (g (fpMode op f) (f32 a) (f32 b))) _ he (fun _ => rfl)
    fun _ f _ => by rw [fpMode_imm hx, operand_immB hb]

theorem packedOf_packOp {mk : Fields → Instr} {op : Nat} {fmt : Fmt} {k : OpKind} {tag : Tag} {mode : Fields → Nat}
    (g : Nat → FVal → FVal → FVal → FVal) (he : ∀ f s, exec (mk f) s = packOp op fmt f s (g (fpMode op f)))
    (hk : (if fmt = fp16 then OpKind.f16 else OpKind.b16) = k) (ht : (if fmt = fp16 then tagF16x2 else tagB16x2) = tag)
    (hm : ∀ f, fpMode op f = mode f) : PackedOf mk op fmt k tag mode (fun f => g (mode f)) := by
  have h := computes_vector (mk := mk) (op := op) (fun f c l =>
    let el (e : Nat) : Nat :=
      let a := elem16 (c.opn op f 0 k l) e
      fmt.round (fpMode op f) (c.rs (BitVec.ofNat 32 a) l e) false
        (g (fpMode op f) (fmt.decode a) (fmt.decode (elem16 (c.opn op f 1 k l) e)) (fmt.decode (elem16 (c.opn op f 2 k l) e)))
    pack16 (el 0) (el 1)) (fun _ _ _ => tag) (fun f s => by rw [he]; subst hk ht; rfl)
  simp only [hm] at h
  exact h

theorem packedTest_packCompare {mk : Fields → Instr} {op : Nat} {fmt : Fmt} {k : OpKind}
    (he : ∀ f s, exec (mk f) s = packCompare op fmt f s) (hk : (if fmt = fp16 then OpKind.f16 else OpKind.b16) = k) :
    PackedTest mk op fmt k := by
  refine computes_test (v := fun f c l =>
    let one (e : Nat) : Bool := cmpFloat (bits f.x 0 4) (fmt.decode (elem16 (c.opn op f 0 k l) e)) (fmt.decode (elem16 (c.opn op f 1 k l) e))
    match bits f.x 4 2 with
    | 0 => one 0
    | 1 => one 1
    | 2 => one 0 && one 1
    | _ => one 0 || one 1) (fun c f l => ?_) (fun f s => by rw [he]; subst hk; rfl)
  have hcc : bits f.x 0 4 = f.x.toNat % 16 := by simp [bits_eq]
  dsimp only
  rw [hcc, show bits f.x 4 2 = f.x.toNat / 2 ^ 4 % 4 from rfl]
  generalize f.x.toNat / 2 ^ 4 % 4 = n
  match n with
  | 0 => exact cmpFloat_iff ..
  | 1 => exact cmpFloat_iff ..
  | 2 => exact (Bool.and_eq_true_iff ..).trans (and_congr (cmpFloat_iff ..) (cmpFloat_iff ..))
  | n + 3 => exact (Bool.or_eq_true_iff ..).trans (or_congr (cmpFloat_iff ..) (cmpFloat_iff ..))

end Sys2Proof.Machine
end

section
/-! PROOFS. The obligations on FP32 and packed instructions (10 R198-R202). -/
open Sys2Proof Sys2Proof.Machine

/-- Settles O8: each instruction is `fpOp` of an exact operation, with the mode that its form of the word gives. -/
theorem floatArithmetic : Obligations.FloatArithmetic := by
  unfold Obligations.FloatArithmetic
  refine ⟨
    vectorOf_fpOp (fun m a b _ => a.add m b) (fun _ _ => rfl) (fpMode_mod fun _ => rfl),
    vectorOf_fpOp (fun m a b _ => a.add m b.neg) (fun _ _ => rfl) (fpMode_mod fun _ => rfl),
    vectorOf_fpOp (fun _ a b _ => a.mul b) (fun _ _ => rfl) (fpMode_mod fun _ => rfl),
    vectorOf_fpOp (fun m a b c => (a.mul b).add m c) (fun _ _ => rfl) (fpMode_mod fun _ => rfl),
    vectorOf_fpOpImm (fun m a b => a.add m b) (fun _ _ => rfl) rfl rfl,
    vectorOf_fpOpImm (fun m a b => a.add m b.neg) (fun _ _ => rfl) rfl rfl,
    vectorOf_fpOpImm (fun _ a b => a.mul b) (fun _ _ => rfl) rfl rfl,
    vectorOf_of (g := fun f a b c => toF32 (fpMode 0x183 f) (((f32 a).mul (f32 b)).add (fpMode 0x183 f) (f32 c))) _
      (fun _ _ => rfl) (fun _ => rfl) (fun _ f _ => by rw [fpMode_imm rfl, operand_immC rfl]), ?scale, ?scaleImm⟩
  case scale =>
    have h := computes_vector (mk := .vfscale) (op := 0x088)
      (fun f c l => fpScale (fpMode 0x088 f) (c.opn 0x088 f 0 .f32 l) (c.opn 0x088 f 1 .int l)) (fun _ _ _ => tagF32) fun _ _ => rfl
    simp only [fpMode_mod (op := 0x088) fun _ => rfl] at h
    exact h
  case scaleImm =>
    have h := computes_vector (mk := .vfscaleImm) (op := 0x188)
      (fun f c l => fpScale (fpMode 0x188 f) (c.opn 0x188 f 0 .f32 l) (c.opn 0x188 f 1 .int l)) (fun _ _ _ => tagF32) fun _ _ => rfl
    simp only [fpMode_imm (op := 0x188) rfl] at h
    exact h

/-- Settles O9: choice by the order of words (`select_eq`), comparison by the order of values (`cmpFloat_iff`), class and exponent
by the fields, and integral rounding as one rounding to a whole number that FP32 holds (`fpRound_spec`). -/
theorem floatInspection : Obligations.FloatInspection := by
  unfold Obligations.FloatInspection
  refine ⟨
    vectorOf_binary (select_eq false) fun _ _ => rfl,
    vectorOf_binary (select_eq true) fun _ _ => rfl,
    vectorOf_binaryImm (select_eq false) rfl fun _ _ => rfl,
    vectorOf_binaryImm (select_eq true) rfl fun _ _ => rfl,
    computes_test (v := fun f c l => cmpFloat (bits f.x 0 4) (f32 (c.opn 0x086 f 0 .f32 l)) (f32 (c.opn 0x086 f 1 .f32 l)))
      (fun c f l => ?_) fun _ _ => rfl,
    vectorOf_unary fpClass_eq fun _ _ => rfl,
    vectorOf_unary fpExp_eq fun _ _ => rfl,
    vectorOf_of (g := fun f a _ _ => fpRound (fpMode 0x08A f) a) _ (fun _ _ => rfl) (fun _ => rfl)
      (fun _ f _ => by rw [fpMode_mod fun _ => rfl]),
    fpRound_special, fun mode a hmode hf => fpRound_spec hmode hf⟩
  have hcc : bits f.x 0 4 = f.x.toNat % 16 := by simp [bits_eq]
  rw [cmpFloat_iff, hcc]
  rfl

/-- Settles O12: every packed instruction is one of three shapes (`packedOf_packOp`, choice, `packedTest_packCompare`), on the
format that its opcode names. -/
theorem packedFloat : Obligations.PackedFloat := by
  unfold Obligations.PackedFloat
  exact ⟨
    packedOf_packOp (fun m a b _ => a.add m b) (fun _ _ => rfl) rfl rfl (fpMode_mod fun _ => rfl),
    packedOf_packOp (fun m a b _ => a.add m b.neg) (fun _ _ => rfl) rfl rfl (fpMode_mod fun _ => rfl),
    packedOf_packOp (fun _ a b _ => a.mul b) (fun _ _ => rfl) rfl rfl (fpMode_mod fun _ => rfl),
    packedOf_packOp (fun m a b c => (a.mul b).add m c) (fun _ _ => rfl) rfl rfl (fpMode_mod fun _ => rfl),
    packedOf_packOp (fun m a b _ => a.add m b) (fun _ _ => rfl) rfl rfl (fpMode_imm rfl),
    packedOf_packOp (fun m a b _ => a.add m b.neg) (fun _ _ => rfl) rfl rfl (fpMode_imm rfl),
    packedOf_packOp (fun _ a b _ => a.mul b) (fun _ _ => rfl) rfl rfl (fpMode_imm rfl),
    packedOf_packOp (fun m a b c => (a.mul b).add m c) (fun _ _ => rfl) rfl rfl (fpMode_imm rfl),
    packedOf_packOp (fun m a b _ => a.add m b) (fun _ _ => rfl) rfl rfl (fpMode_mod fun _ => rfl),
    packedOf_packOp (fun m a b _ => a.add m b.neg) (fun _ _ => rfl) rfl rfl (fpMode_mod fun _ => rfl),
    packedOf_packOp (fun _ a b _ => a.mul b) (fun _ _ => rfl) rfl rfl (fpMode_mod fun _ => rfl),
    packedOf_packOp (fun m a b c => (a.mul b).add m c) (fun _ _ => rfl) rfl rfl (fpMode_mod fun _ => rfl),
    packedOf_packOp (fun m a b _ => a.add m b) (fun _ _ => rfl) rfl rfl (fpMode_imm rfl),
    packedOf_packOp (fun m a b _ => a.add m b.neg) (fun _ _ => rfl) rfl rfl (fpMode_imm rfl),
    packedOf_packOp (fun _ a b _ => a.mul b) (fun _ _ => rfl) rfl rfl (fpMode_imm rfl),
    packedOf_packOp (fun m a b c => (a.mul b).add m c) (fun _ _ => rfl) rfl rfl (fpMode_imm rfl),
    vectorOf_binary (fun _ _ => rfl) fun _ _ => rfl,
    vectorOf_binary (fun _ _ => rfl) fun _ _ => rfl,
    vectorOf_binary (fun _ _ => rfl) fun _ _ => rfl,
    vectorOf_binary (fun _ _ => rfl) fun _ _ => rfl,
    vectorOf_binary (fun _ _ => rfl) fun _ _ => rfl,
    vectorOf_binary (fun _ _ => rfl) fun _ _ => rfl,
    vectorOf_binary (fun _ _ => rfl) fun _ _ => rfl,
    vectorOf_binary (fun _ _ => rfl) fun _ _ => rfl,
    packedTest_packCompare (fun _ _ => rfl) rfl,
    packedTest_packCompare (fun _ _ => rfl) rfl⟩
end

section
/-! PROOFS. How the transcendental functions round: whole square roots, a magnitude with a sticky mark, and what it says of the
number that was cut (10 R203). -/
namespace Sys2Proof.Machine

/-! Whole square roots. -/

theorem sqrtBits_spec (k x r : Nat) (hlo : r * r ≤ x) (hhi : x < (r + 2 ^ k) * (r + 2 ^ k)) :
    sqrtBits k x r * sqrtBits k x r ≤ x ∧ x < (sqrtBits k x r + 1) * (sqrtBits k x r + 1) := by
  induction k generalizing r with
  | zero => exact ⟨hlo, hhi⟩
  | succ k ih =>
    have hstep : r + 2 ^ (k + 1) = r + 2 ^ k + 2 ^ k := by ring
    rw [hstep] at hhi
    rw [show sqrtBits (k + 1) x r = sqrtBits k x (if (r + 2 ^ k) * (r + 2 ^ k) ≤ x then r + 2 ^ k else r) from rfl]
    split
    next h => exact ih _ h hhi
    next h => exact ih _ hlo (not_le.mp h)

theorem natSqrt_eq (x : Nat) : natSqrt x = Nat.sqrt x := by
  have hlt : x < 2 ^ (x.log2 / 2 + 1) * 2 ^ (x.log2 / 2 + 1) := by
    rw [← pow_add]
    exact Nat.lt_log2_self.trans_le (Nat.pow_le_pow_right two_pos (by omega))
  exact Nat.eq_sqrt.mpr (sqrtBits_spec _ x 0 (Nat.zero_le _) (by rwa [Nat.zero_add]))

/-! Sticky rounding is the exact rounding of a number between the magnitude and the next (R138). -/

theorem roundMag_sticky (neg : Bool) (h : Word) (mag : Nat) {shift : Nat} (hs : 1 ≤ shift) :
    roundMag 0 neg h mag shift true = roundMag 0 neg h (2 * mag + 1) (shift + 1) false := by
  have hn : (2 * mag + 1) >>> (shift + 1) = mag >>> shift := by
    rw [Nat.shiftRight_succ_inside, show (2 * mag + 1) / 2 = mag by omega]
  have hrem : (2 * mag + 1) % 2 ^ (shift + 1) = 2 * (mag % 2 ^ shift) + 1 := by
    rw [pow_succ', Nat.mod_mul, show (2 * mag + 1) / 2 = mag by omega]
    omega
  have heven : 2 ∣ 2 ^ shift := dvd_pow_self 2 (by omega)
  unfold roundMag
  rw [hn, hrem, pow_succ]
  simp only [Bool.true_or, Bool.and_true, Bool.false_or]
  congr 1
  simp only [Bool.or_eq_true, Bool.and_eq_true, decide_eq_true_iff, eq_iff_iff]
  omega

/-- The number that is rounded for a magnitude and its mark: under the mark, one halfway to the next magnitude. -/
def cutVal (neg : Bool) (mag : Nat) (exp : Int) (sticky : Bool) : FVal :=
  if sticky then .num neg (2 * mag + 1) (exp - 1) else .num neg mag exp

/-- A magnitude of 25 bits or more has its mark below the places of FP32. -/
theorem sfuOut_eq (neg : Bool) {mag : Nat} (hmag : 2 ^ 24 ≤ mag) (exp : Int) (sticky : Bool) :
    sfuOut neg mag exp sticky = toF32 0 (cutVal neg mag exp sticky) := by
  cases sticky
  · rfl
  · have h0 : mag ≠ 0 := by omega
    have hlog : 24 ≤ mag.log2 := (Nat.le_log2 h0).mpr hmag
    have hlog' : (2 * mag + 1).log2 = mag.log2 + 1 := by
      rw [Nat.log2_def, if_pos (by omega), show (2 * mag + 1) / 2 = mag by omega]
    have htop : ((2 * mag + 1).log2 : Int) + (exp - 1) = mag.log2 + exp := by rw [hlog']; push_cast; ring
    unfold sfuOut toF32 cutVal Fmt.round
    simp only [if_true, h0, if_false, show 2 * mag + 1 ≠ 0 by omega, htop]
    have hq : exp < max ((mag.log2 : Int) + exp - fp32.m) (1 - fp32.bias - fp32.m) :=
      lt_max_of_lt_left (by simp only [fp32]; omega)
    generalize max ((mag.log2 : Int) + exp - fp32.m) (1 - fp32.bias - fp32.m) = q at *
    obtain ⟨d, hd⟩ := Int.eq_ofNat_of_zero_le (show 0 ≤ q - exp - 1 by omega)
    simp only [show ¬ q ≤ exp by omega, show ¬ q ≤ exp - 1 by omega, if_false, show (q - exp).toNat = d + 1 by omega,
      show (q - (exp - 1)).toNat = d + 1 + 1 by omega, roundMag_sticky neg 0 mag (show 1 ≤ d + 1 by omega)]

/-! What a cut number says of the number itself. -/

/-- A number is cut to a magnitude: it is the magnitude, or under the mark lies between it and the next. -/
def CutTo (mag : Nat) (sticky : Bool) (y : ℝ) : Prop := (mag : ℝ) ≤ y ∧ y < mag + 1 ∧ (sticky = false → y = mag)

theorem cutVal_finite (neg : Bool) (mag : Nat) (exp : Int) (sticky : Bool) : (cutVal neg mag exp sticky).finite := by
  unfold cutVal
  split <;> trivial

theorem cutVal_abs (neg : Bool) (mag : Nat) (exp : Int) (sticky : Bool) :
    |(cutVal neg mag exp sticky).value| = (mag + if sticky then 1 / 2 else 0) * 2 ^ exp := by
  unfold cutVal
  cases sticky
  · simp [FVal.abs_value_num]
  · simp only [if_true, FVal.abs_value_num, zpow_sub_one₀ (two_ne_zero (α := ℚ))]
    push_cast
    ring

theorem cutVal_sign (neg : Bool) (mag : Nat) (exp : Int) (sticky : Bool) :
    (cutVal neg mag exp sticky).value = (if neg then -1 else 1) * |(cutVal neg mag exp sticky).value| := by
  unfold cutVal
  split <;> rw [FVal.abs_value_num, FVal.value_num, mul_assoc]

theorem cutVal_ne_zero (neg : Bool) {mag : Nat} (h0 : mag ≠ 0) (exp : Int) (sticky : Bool) : (cutVal neg mag exp sticky).value ≠ 0 := by
  unfold cutVal
  split
  · exact mt FVal.value_num_eq_zero.mp (by omega)
  · exact mt FVal.value_num_eq_zero.mp h0

/-- Numbers with one magnitude have one last place. -/
theorem log_of_mag {mag : Nat} (h0 : mag ≠ 0) (exp : Int) {q : ℚ} (hlo : mag * 2 ^ exp ≤ q) (hhi : q < (mag + 1) * 2 ^ exp) :
    Int.log 2 q = mag.log2 + exp := by
  have he : (0 : ℚ) < 2 ^ exp := by positivity
  have hpos : 0 < q := (mul_pos (Nat.cast_pos.mpr (Nat.pos_of_ne_zero h0)) he).trans_le hlo
  have h1 : ((2 ^ mag.log2 : Nat) : ℚ) ≤ mag := by exact_mod_cast Nat.log2_self_le h0
  have h2 : (mag : ℚ) + 1 ≤ ((2 ^ (mag.log2 + 1) : Nat) : ℚ) := by exact_mod_cast Nat.lt_log2_self
  push_cast at h1 h2
  apply le_antisymm
  · rw [← Int.lt_add_one_iff, ← Int.lt_zpow_iff_log_lt one_lt_two hpos, add_right_comm, zpow_add₀ (by norm_num)]
    exact hhi.trans_le (mul_le_mul_of_nonneg_right (by exact_mod_cast h2) he.le)
  · rw [← Int.zpow_le_iff_le_log one_lt_two hpos, zpow_add₀ (by norm_num)]
    exact (mul_le_mul_of_nonneg_right (by exact_mod_cast h1) he.le).trans hlo

theorem cutVal_log (neg : Bool) {mag : Nat} (h0 : mag ≠ 0) (exp : Int) (sticky : Bool) :
    Int.log 2 |(cutVal neg mag exp sticky).value| = mag.log2 + exp := by
  have he : (0 : ℚ) < 2 ^ exp := by positivity
  rw [cutVal_abs]
  apply log_of_mag h0
  · exact mul_le_mul_of_nonneg_right (by split <;> norm_num) he.le
  · exact mul_lt_mul_of_pos_right (by split <;> norm_num) he

/-- A whole number that lies within half of 2^d of one between two neighbours does so of all between them. -/
theorem near_between {K : Int} {mag d : Nat} (hd : 1 ≤ d) (h : |(K : ℝ) * 2 ^ d - (mag + 1 / 2)| ≤ 2 ^ d / 2) {y : ℝ}
    (hlo : (mag : ℝ) ≤ y) (hhi : y ≤ mag + 1) : |(K : ℝ) * 2 ^ d - y| ≤ 2 ^ d / 2 := by
  obtain ⟨d, rfl⟩ := Nat.exists_eq_add_of_le' hd
  obtain ⟨h1, h2⟩ := abs_le.mp h
  have hhalf : (2 : ℝ) ^ (d + 1) / 2 = ((2 ^ d : Int) : ℝ) := by push_cast; ring
  have hgrid : (K : ℝ) * 2 ^ (d + 1) = ((K * 2 ^ (d + 1) : Int) : ℝ) := by push_cast; ring
  rw [hhalf, hgrid] at h1 h2 ⊢
  clear h hhalf hgrid
  generalize K * 2 ^ (d + 1) = a at *
  generalize (2 : Int) ^ d = b at *
  have hup : a < mag + b + 1 := by
    have : (a : ℝ) < ((mag + b + 1 : Int) : ℝ) := by push_cast; linarith
    exact_mod_cast this
  have hdown : mag - b < a := by
    have : ((mag - b : Int) : ℝ) < (a : ℝ) := by push_cast; linarith
    exact_mod_cast this
  have hup' : (a : ℝ) ≤ mag + b := by exact_mod_cast Int.lt_add_one_iff.mp hup
  have hdown' : (mag : ℝ) - b + 1 ≤ a := by exact_mod_cast Int.add_one_le_iff.mpr hdown
  exact abs_le.mpr ⟨by linarith, by linarith⟩

/-- What a cut number becomes: an infinity past the largest finite magnitude, else the nearest number. -/
theorem sfuOut_cases (neg : Bool) {mag : Nat} (hmag : 2 ^ 24 ≤ mag) (exp : Int) (sticky : Bool) :
    (sfuOut neg mag exp sticky = f32Inf neg ∧ (2 ^ 25 - 1 : ℚ) * 2 ^ (103 : Int) ≤ |(cutVal neg mag exp sticky).value|) ∨
    ((f32 (sfuOut neg mag exp sticky)).finite ∧
      roundsTo 23 (-149) 0 (cutVal neg mag exp sticky).value (f32 (sfuOut neg mag exp sticky)).value) := by
  have hf := cutVal_finite neg mag exp sticky
  have h0 := cutVal_ne_zero neg (show mag ≠ 0 by omega) exp sticky
  have hneg : (cutVal neg mag exp sticky).value < 0 ↔ neg = true := by
    have hpos := abs_pos.mpr h0
    rw [cutVal_sign]
    cases neg <;> simp [h0]
  rw [sfuOut_eq neg hmag]
  rcases toF32_finite four_pos hf h0 with ⟨hp, -⟩ | ⟨-, hfin, hround, -⟩
  · have hinf := And.intro hp (show goesInfinite 0 (decide ((cutVal neg mag exp sticky).value < 0)) = true from rfl)
    refine .inl ⟨?_, (pastFp32_infinite_iff four_pos _).mp hinf⟩
    rw [(toF32_large four_pos hf h0 (pastFp32_infinite_gt four_pos hinf).le).1 hinf]
    simp only [hneg, f32Inf]
  · exact .inr ⟨hfin, hround⟩

/-- A number rounds as the one that stands for it after the cut. -/
theorem near_of_cut {neg : Bool} {mag : Nat} (hmag : 2 ^ 24 ≤ mag) {exp : Int} {sticky : Bool} {y : ℝ} (hcut : CutTo mag sticky y)
    {r : ℚ} (hr : roundsTo 23 (-149) 0 (cutVal neg mag exp sticky).value r) :
    |(r : ℝ) - (if neg then -1 else 1) * (y * 2 ^ exp)| ≤ (ulpOf 23 (-149) (cutVal neg mag exp sticky).value : ℝ) / 2 := by
  obtain ⟨hlo, hhi, hexact⟩ := hcut
  obtain ⟨⟨k, hk⟩, hdist⟩ := hr
  have hE : (0 : ℝ) < 2 ^ exp := by positivity
  obtain ⟨d, hd, hulp⟩ : ∃ d : Nat, 1 ≤ d ∧ ulpOf 23 (-149) (cutVal neg mag exp sticky).value = 2 ^ d * 2 ^ exp := by
    have hlog : 24 ≤ mag.log2 := (Nat.le_log2 (by omega)).mpr hmag
    obtain ⟨d, hd⟩ := Int.eq_ofNat_of_zero_le (show 0 ≤ max ((mag.log2 : Int) + exp - (23 : Nat)) (-149) - exp by omega)
    refine ⟨d, by omega, ?_⟩
    rw [ulpOf, cutVal_log neg (by omega), ← zpow_natCast, ← zpow_add₀ two_ne_zero]
    congr 1
    omega
  have hv : ((cutVal neg mag exp sticky).value : ℝ) = (if neg then -1 else 1) * ((mag + if sticky then 1 / 2 else 0) * 2 ^ exp) := by
    rw [cutVal_sign, cutVal_abs]
    cases neg <;> cases sticky <;> norm_num
  have hreal : |(r : ℝ) - (if neg then -1 else 1) * ((mag + if sticky then 1 / 2 else 0) * 2 ^ exp)| ≤ 2 ^ d * 2 ^ exp / 2 := by
    have := (Rat.cast_le (K := ℝ)).mpr (hulp ▸ hdist)
    push_cast at this
    rwa [hv] at this
  have hgrid : (r : ℝ) = k * 2 ^ d * 2 ^ exp := by
    rw [hk, hulp]
    push_cast
    ring
  have hscale (t : ℝ) : |(r : ℝ) - (if neg then -1 else 1) * (t * 2 ^ exp)| =
      |((if neg then -k else k : Int) : ℝ) * 2 ^ d - t| * 2 ^ exp := by
    rw [hgrid, ← abs_of_pos hE, ← abs_mul, abs_of_pos hE]
    cases neg
    · simp only [Bool.false_eq_true, if_false]
      congr 1
      ring
    · simp only [if_true]
      rw [← abs_neg]
      congr 1
      push_cast
      ring
  rw [hulp]
  push_cast
  rw [hscale] at hreal ⊢
  rw [mul_div_right_comm] at hreal ⊢
  refine mul_le_mul_of_nonneg_right ?_ hE.le
  have hunit := le_of_mul_le_mul_right hreal hE
  cases sticky
  · rw [hexact rfl]
    simpa using hunit
  · exact near_between hd (by simpa using hunit) hlo hhi.le

/-- A rounded number has no lesser last place than the number. -/
theorem ulpOf_le_of_roundsTo {v r : ℚ} (hv : 0 < v) (hr : roundsTo 23 (-149) 0 v r) : ulpOf 23 (-149) v ≤ ulpOf 23 (-149) r := by
  obtain ⟨⟨k, hk⟩, hdist⟩ := hr
  unfold ulpOf at *
  refine zpow_le_zpow_right₀ one_le_two (max_le ?_ (le_max_right _ _))
  rcases le_total (Int.log 2 |v| - (23 : Nat)) (-149) with hlow | hhigh
  · exact hlow.trans (le_max_right _ _)
  · rw [max_eq_left hhigh] at hk hdist
    refine le_max_of_le_left (Int.sub_le_sub_right ?_ _)
    have hu : (0 : ℚ) < 2 ^ (Int.log 2 |v| - (23 : Nat)) := by positivity
    have hpow : (2 : ℚ) ^ Int.log 2 |v| = 2 ^ 23 * 2 ^ (Int.log 2 |v| - (23 : Nat)) := by
      rw [← zpow_natCast, ← zpow_add₀ two_ne_zero]
      congr 1
      omega
    have hlow : (2 : ℚ) ^ Int.log 2 |v| ≤ v := by
      have := Int.zpow_log_le_self (R := ℚ) one_lt_two (abs_pos.mpr hv.ne')
      rw [abs_of_pos hv] at this ⊢
      exact_mod_cast this
    rw [hpow] at hlow
    generalize (2 : ℚ) ^ (Int.log 2 |v| - (23 : Nat)) = u at *
    have hkge : 2 ^ 23 ≤ k := by
      have h1 := (abs_le.mp hdist).1
      have h2 : (8388607 : ℚ) * u < k * u := by rw [← hk]; linarith
      have h3 : (8388607 : ℚ) < k := lt_of_mul_lt_mul_right h2 hu.le
      have h4 : 8388607 < k := by exact_mod_cast h3
      omega
    have hrge : (2 : ℚ) ^ Int.log 2 |v| ≤ r := by
      rw [hpow, hk]
      exact mul_le_mul_of_nonneg_right (by exact_mod_cast hkge) hu.le
    have hrpos : 0 < r := lt_of_lt_of_le (by positivity) hrge
    rw [← Int.zpow_le_iff_le_log one_lt_two (abs_pos.mpr hrpos.ne'), abs_of_pos hrpos]
    exact_mod_cast hrge

/-! Quotients and roots, cut to whole numbers. -/

section
variable (n : Nat) {m : Nat} (hm : m ≠ 0)
include hm

theorem cutTo_div : CutTo (n / m) (n % m != 0) ((n : ℝ) / m) := by
  have hpos : (0 : ℝ) < m := Nat.cast_pos.mpr (Nat.pos_of_ne_zero hm)
  refine ⟨Nat.cast_div_le, ?_, fun h => ?_⟩
  · rw [div_lt_iff₀ hpos]
    exact_mod_cast (Nat.div_lt_iff_lt_mul (Nat.pos_of_ne_zero hm)).mp (Nat.lt_succ_self (n / m))
  · rw [Nat.cast_div (Nat.dvd_of_mod_eq_zero (by simpa using h)) hpos.ne']

theorem cutTo_div_rat : ((n / m : Nat) : ℚ) ≤ (n : ℚ) / m ∧ (n : ℚ) / m < (n / m : Nat) + 1 := by
  obtain ⟨hlo, hhi, -⟩ := cutTo_div n hm
  exact ⟨(Rat.cast_le (K := ℝ)).mp (by push_cast; exact_mod_cast hlo), (Rat.cast_lt (K := ℝ)).mp (by push_cast; exact_mod_cast hhi)⟩

theorem cutTo_sqrt_div : CutTo (Nat.sqrt (n / m)) (Nat.sqrt (n / m) * Nat.sqrt (n / m) != n / m || n % m != 0) √((n : ℝ) / m) := by
  obtain ⟨hlo, hhi, hexact⟩ := cutTo_div n hm
  have hroot : ((Nat.sqrt (n / m) : ℝ)) ^ 2 ≤ (n / m : Nat) := by exact_mod_cast Nat.sqrt_le' (n / m)
  have hnext : ((n / m : Nat) : ℝ) + 1 ≤ (Nat.sqrt (n / m) + 1) ^ 2 := by exact_mod_cast Nat.succ_le_succ_sqrt' (n / m)
  refine ⟨Real.le_sqrt_of_sq_le (hroot.trans hlo), ?_, fun h => ?_⟩
  · rw [Real.sqrt_lt' (by positivity)]
    exact hhi.trans_le hnext
  · simp only [Bool.or_eq_false_iff, bne_eq_false_iff_eq] at h
    rw [hexact (by simpa using h.2), ← h.1, Nat.cast_mul, Real.sqrt_mul_self (Nat.cast_nonneg _), h.1]

end

theorem cutTo_sqrt (n : Nat) : CutTo (Nat.sqrt n) (Nat.sqrt n * Nat.sqrt n != n) √n := by
  simpa [Nat.mod_one] using cutTo_sqrt_div n one_ne_zero

/-! Finite results. -/

theorem cutVal_le (neg : Bool) (mag : Nat) (exp : Int) (sticky : Bool) :
    |(cutVal neg mag exp sticky).value| ≤ mag * 2 ^ exp + 2 ^ exp / 2 := by
  have hE : (0 : ℚ) < 2 ^ exp := by positivity
  rw [cutVal_abs, add_mul]
  split <;> linarith

/-- Where the result is an infinity, the magnitude itself lies past FP32's largest. -/
theorem past_of_cut_past {neg : Bool} {mag : Nat} (hmag : 2 ^ 24 ≤ mag) {exp : Int} {sticky : Bool}
    (h : (2 ^ 25 - 1 : ℚ) * 2 ^ (103 : Int) ≤ |(cutVal neg mag exp sticky).value|) :
    (2 ^ 24 - 1 : ℚ) * 2 ^ (104 : Int) < mag * 2 ^ exp := by
  have hE : (0 : ℚ) < 2 ^ exp := by positivity
  have hcut := h.trans (cutVal_le neg mag exp sticky)
  have hfull : (2 ^ 24 : ℚ) * 2 ^ exp ≤ mag * 2 ^ exp := mul_le_mul_of_nonneg_right (by exact_mod_cast hmag) hE.le
  norm_num at hcut hfull ⊢
  linarith

/-- A positive root, cut to a magnitude, is rounded within half the last place of the result. -/
theorem sfuOut_root {mag : Nat} (hmag : 2 ^ 24 ≤ mag) {exp : Int} {sticky : Bool} {y : ℝ} (hcut : CutTo mag sticky y)
    (hle : y * 2 ^ exp ≤ 2 ^ 100) : (f32 (sfuOut false mag exp sticky)).finite ∧
      |((f32 (sfuOut false mag exp sticky)).value : ℝ) - y * 2 ^ exp| ≤
        (ulpOf 23 (-149) (f32 (sfuOut false mag exp sticky)).value : ℝ) / 2 := by
  have hbound : (mag : ℚ) * 2 ^ exp ≤ 2 ^ 100 := by
    have h := (mul_le_mul_of_nonneg_right hcut.1 (by positivity : (0 : ℝ) ≤ 2 ^ exp)).trans hle
    exact (Rat.cast_le (K := ℝ)).mp (by push_cast; exact h)
  rcases sfuOut_cases false hmag exp sticky with ⟨-, hpast⟩ | ⟨hfin, hround⟩
  · have := past_of_cut_past hmag hpast
    norm_num at this hbound
    linarith
  · have hpos : 0 < (cutVal false mag exp sticky).value := by
      have h := cutVal_sign false mag exp sticky
      rw [if_neg Bool.false_ne_true, one_mul] at h
      rw [h]
      exact abs_pos.mpr (cutVal_ne_zero false (by omega) exp sticky)
    have hnear := near_of_cut hmag hcut hround
    rw [if_neg Bool.false_ne_true, one_mul] at hnear
    have hulp : (ulpOf 23 (-149) (cutVal false mag exp sticky).value : ℝ) ≤
        (ulpOf 23 (-149) (f32 (sfuOut false mag exp sticky)).value : ℝ) := by
      exact_mod_cast ulpOf_le_of_roundsTo hpos hround
    exact ⟨hfin, hnear.trans (by linarith)⟩

/-! Reciprocal (R203). -/

theorem f32_nonzero {a : Word} (hf : (f32 a).finite) (h0 : (f32 a).value ≠ 0) :
    ∃ m e, f32 a = .num (Reference.sign a) m e ∧ m ≠ 0 ∧ m < 2 ^ 24 ∧ -149 ≤ e ∧ e ≤ 104 := by
  obtain ⟨s, m, e, h⟩ := FVal.finite_iff.mp hf
  obtain ⟨rfl, hm, hlo, hhi, -⟩ := f32_num h
  exact ⟨m, e, h, fun hz => h0 (h ▸ FVal.value_num_eq_zero.mpr hz), hm, hlo, hhi⟩

theorem f32_positive {a : Word} (hf : (f32 a).finite) (h0 : 0 < (f32 a).value) :
    ∃ m e, f32 a = .num false m e ∧ m ≠ 0 ∧ m < 2 ^ 24 ∧ -149 ≤ e ∧ e ≤ 104 := by
  obtain ⟨m, e, h, hm, hrest⟩ := f32_nonzero hf h0.ne'
  cases hs : Reference.sign a
  · exact ⟨m, e, hs ▸ h, hm, hrest⟩
  · rw [h, hs] at h0
    exact absurd (FVal.value_num_neg.mpr ⟨rfl, hm⟩) h0.not_gt

/-- A reciprocal is a quotient of more than 39 bits, cut to a whole number. -/
theorem sfuRcp_eq {a : Word} {s : Bool} {m : Nat} {e : Int} (h : f32 a = .num s m e) (hm : m ≠ 0) : ∃ k : Nat,
    sfuRcp a = sfuOut s (2 ^ k / m) (-e - k) (2 ^ k % m != 0) ∧ 2 ^ 24 ≤ 2 ^ k / m ∧
      (f32 a).value⁻¹ = (if s then -1 else 1) * (((2 ^ k : Nat) : ℚ) / m * 2 ^ (-e - k)) := by
  refine ⟨m.log2 + 40, by rw [sfuRcp, h]; exact if_neg hm, ?_, ?_⟩
  · rw [Nat.le_div_iff_mul_le (Nat.pos_of_ne_zero hm)]
    calc 2 ^ 24 * m ≤ 2 ^ 24 * 2 ^ (m.log2 + 1) := Nat.mul_le_mul_left _ Nat.lt_log2_self.le
      _ ≤ 2 ^ (m.log2 + 40) := by rw [← pow_add]; exact Nat.pow_le_pow_right two_pos (by omega)
  · have hm' : (m : ℚ) ≠ 0 := Nat.cast_ne_zero.mpr hm
    rw [h, FVal.value_num, zpow_sub₀ two_ne_zero, zpow_neg, zpow_natCast]
    cases s
    · simp only [Bool.false_eq_true, if_false]
      push_cast
      field_simp
    · simp only [if_true]
      push_cast
      field_simp

theorem abs_signed (s : Bool) {x : ℚ} (hx : 0 ≤ x) : |(if s then -1 else 1) * x| = x := by
  cases s <;> simp [abs_of_nonneg hx]

theorem f32_f32Inf : ∀ s, f32 (f32Inf s) = .inf s := by decide

theorem sfuRcp_finite {a : Word} (hf : (f32 a).finite) (h0 : (f32 a).value ≠ 0) (hfin : (f32 (sfuRcp a)).finite) :
    roundsTo 23 (-149) 0 ((f32 a).value)⁻¹ (f32 (sfuRcp a)).value := by
  obtain ⟨m, e, h, hm, -⟩ := f32_nonzero hf h0
  obtain ⟨k, hout, hmag, hinv⟩ := sfuRcp_eq h hm
  have hcut := cutTo_div (2 ^ k) hm
  rw [hout] at hfin ⊢
  rcases sfuOut_cases (Reference.sign a) hmag (-e - k) (2 ^ k % m != 0) with ⟨hinf, -⟩ | ⟨-, hround⟩
  · rw [hinf, f32_f32Inf] at hfin
    exact hfin.elim
  · have hE : (0 : ℚ) < 2 ^ (-e - k) := by positivity
    have hquot := cutTo_div_rat (2 ^ k) hm
    have habs : |(f32 a).value⁻¹| = ((2 ^ k : Nat) : ℚ) / m * 2 ^ (-e - k) := by rw [hinv, abs_signed _ (by positivity)]
    have hulp : ulpOf 23 (-149) (cutVal (Reference.sign a) (2 ^ k / m) (-e - k) (2 ^ k % m != 0)).value =
        ulpOf 23 (-149) (f32 a).value⁻¹ := by
      rw [ulpOf, ulpOf, cutVal_log _ (by omega), habs, log_of_mag (by omega) _ (mul_le_mul_of_nonneg_right hquot.1 hE.le)
        (mul_lt_mul_of_pos_right hquot.2 hE)]
    have hnear := near_of_cut hmag hcut hround
    obtain ⟨hgrid, -⟩ := hround
    rw [hulp] at hgrid hnear
    have hreal : (((f32 a).value⁻¹ : ℚ) : ℝ) = (if Reference.sign a then -1 else 1) * (((2 ^ k : Nat) : ℝ) / m * 2 ^ (-e - k)) := by
      rw [hinv]
      cases Reference.sign a <;> norm_num
    rw [← hreal] at hnear
    refine ⟨hgrid, (Rat.cast_le (K := ℝ)).mp ?_⟩
    rw [Rat.cast_abs, Rat.cast_sub, Rat.cast_div, Rat.cast_ofNat]
    exact hnear

theorem sfuRcp_infinite {a : Word} (hf : (f32 a).finite) (h0 : (f32 a).value ≠ 0) (hfin : ¬ (f32 (sfuRcp a)).finite) :
    sfuRcp a = (if Reference.sign a then 0xFF800000 else 0x7F800000) ∧
      (2 ^ 24 - 1 : ℚ) * 2 ^ (104 : Int) < |((f32 a).value)⁻¹| := by
  obtain ⟨m, e, h, hm, -⟩ := f32_nonzero hf h0
  obtain ⟨k, hout, hmag, hinv⟩ := sfuRcp_eq h hm
  rw [hout] at hfin ⊢
  rcases sfuOut_cases (Reference.sign a) hmag (-e - k) (2 ^ k % m != 0) with ⟨hinf, hpast⟩ | ⟨hyes, -⟩
  · refine ⟨hinf, (past_of_cut_past hmag hpast).trans_le ?_⟩
    rw [hinv, abs_signed _ (by positivity)]
    exact mul_le_mul_of_nonneg_right (cutTo_div_rat (2 ^ k) hm).1 (by positivity)
  · exact absurd hyes hfin

/-! Roots (R203). -/

/-- A square root of a positive number is that of a whole number of more than 80 bits with an even exponent. -/
theorem sfuSqrt_eq {a : Word} {m : Nat} {e : Int} (h : f32 a = .num false m e) (hm : m ≠ 0) : ∃ (x : Nat) (d : Int),
    sfuSqrt a = sfuOut false (Nat.sqrt x) d (Nat.sqrt x * Nat.sqrt x != x) ∧ 2 ^ 24 ≤ Nat.sqrt x ∧
      (((f32 a).value : ℚ) : ℝ) = x * (2 ^ d) ^ 2 := by
  have hodd : sfuSqrt a = sfuOut false (Nat.sqrt (evenForm m e).1) ((evenForm m e).2 / 2)
      (Nat.sqrt (evenForm m e).1 * Nat.sqrt (evenForm m e).1 != (evenForm m e).1) := by
    rw [sfuSqrt, h]
    simp only [hm, if_false, Bool.false_eq_true, natSqrt_eq]
  have hval : (evenForm m e).2 % 2 = 0 ∧ m * 4 ^ 40 ≤ (evenForm m e).1 ∧
      (m : ℝ) * 2 ^ e = (evenForm m e).1 * 2 ^ (evenForm m e).2 := by
    unfold evenForm
    split
    next he =>
      refine ⟨by dsimp only; omega, le_rfl, ?_⟩
      rw [zpow_sub₀ two_ne_zero]
      push_cast
      norm_num
      ring
    next he =>
      refine ⟨by dsimp only; omega, Nat.mul_le_mul_right _ (by omega), ?_⟩
      rw [zpow_sub₀ two_ne_zero]
      push_cast
      norm_num
      ring
  obtain ⟨heven, hbig, hval⟩ := hval
  refine ⟨_, _, hodd, ?_, ?_⟩
  · rw [Nat.le_sqrt]
    exact le_trans (by norm_num) ((Nat.mul_le_mul_right (4 ^ 40) (Nat.one_le_iff_ne_zero.mpr hm)).trans hbig)
  · rw [h, FVal.value_num, if_neg Bool.false_ne_true, one_mul]
    push_cast
    rw [hval, ← zpow_natCast, ← zpow_mul]
    congr 2
    push_cast
    omega

theorem sqrt_mul_pow {x : ℝ} (hx : 0 ≤ x) (d : Int) : √(x * (2 ^ d) ^ 2) = √x * 2 ^ d := by
  rw [Real.sqrt_mul hx, Real.sqrt_sq (by positivity)]

theorem sfuSqrt_near {a : Word} (hf : (f32 a).finite) (h0 : 0 < (f32 a).value) : (f32 (sfuSqrt a)).finite ∧
    |((f32 (sfuSqrt a)).value : ℝ) - √(f32 a).value| ≤ (ulpOf 23 (-149) (f32 (sfuSqrt a)).value : ℝ) / 2 := by
  obtain ⟨m, e, h, hm, hm24, hlo, hhi⟩ := f32_positive hf h0
  obtain ⟨x, d, hout, hmag, hval⟩ := sfuSqrt_eq h hm
  have hroot : √((f32 a).value : ℝ) = √x * 2 ^ d := by rw [hval, sqrt_mul_pow (Nat.cast_nonneg _)]
  rw [hout, hroot]
  refine sfuOut_root hmag (cutTo_sqrt x) ?_
  rw [← hroot, Real.sqrt_le_left (by positivity)]
  have hv : (f32 a).value ≤ (2 ^ 100) ^ 2 := by
    rw [h, FVal.value_num, if_neg Bool.false_ne_true, one_mul]
    calc (m : ℚ) * 2 ^ e ≤ 2 ^ 24 * 2 ^ (104 : Int) :=
          mul_le_mul (by exact_mod_cast hm24.le) (zpow_le_zpow_right₀ one_le_two hhi) (by positivity) (by positivity)
      _ ≤ (2 ^ 100) ^ 2 := by norm_num
  exact_mod_cast hv

/-- The reciprocal root of a positive number is the root of a quotient of more than 80 bits. -/
theorem sfuRsq_eq {a : Word} {m : Nat} {e : Int} (h : f32 a = .num false m e) (hm : m ≠ 0) : ∃ (n k : Nat) (d : Int), n ≠ 0 ∧
    sfuRsq a = sfuOut false (Nat.sqrt (4 ^ k / n)) d
      (Nat.sqrt (4 ^ k / n) * Nat.sqrt (4 ^ k / n) != 4 ^ k / n || 4 ^ k % n != 0) ∧ 2 ^ 24 ≤ Nat.sqrt (4 ^ k / n) ∧
      (((f32 a).value : ℚ) : ℝ)⁻¹ = ((4 ^ k : Nat) : ℝ) / n * (2 ^ d) ^ 2 := by
  obtain ⟨n, e', hn, he', hne, heven, hval⟩ : ∃ (n : Nat) (e' : Int), (if e % 2 = 0 then m else 2 * m) = n ∧
      (if e % 2 = 0 then e else e - 1) = e' ∧ n ≠ 0 ∧ e' % 2 = 0 ∧ (m : ℝ) * 2 ^ e = n * 2 ^ e' := by
    refine ⟨_, _, rfl, rfl, ?_⟩
    split
    next he => exact ⟨hm, he, rfl⟩
    next he =>
      refine ⟨by omega, by omega, ?_⟩
      rw [zpow_sub_one₀ two_ne_zero]
      push_cast
      ring
  refine ⟨n, n.log2 + 41, -(e' / 2) - (n.log2 + 41 : Nat), hne, ?_, ?_, ?_⟩
  · rw [sfuRsq, h]
    simp only [hm, if_false, Bool.false_eq_true, natSqrt_eq, hn, he']
  · rw [Nat.le_sqrt, Nat.le_div_iff_mul_le (Nat.pos_of_ne_zero hne)]
    calc 2 ^ 24 * 2 ^ 24 * n ≤ 2 ^ 24 * 2 ^ 24 * 2 ^ (n.log2 + 1) := Nat.mul_le_mul_left _ Nat.lt_log2_self.le
      _ ≤ 2 ^ (2 * (n.log2 + 41)) := by
        rw [← pow_add, ← pow_add]
        exact Nat.pow_le_pow_right two_pos (by omega)
      _ = 4 ^ (n.log2 + 41) := pow_mul 2 2 _
  · obtain ⟨j, rfl⟩ : ∃ j, e' = 2 * j := ⟨e' / 2, by omega⟩
    have hn0 : (n : ℝ) ≠ 0 := Nat.cast_ne_zero.mpr hne
    rw [h, FVal.value_num, if_neg Bool.false_ne_true, one_mul]
    push_cast
    have hfour : (4 : ℝ) ^ (n.log2 + 41) = (2 ^ (n.log2 + 41)) ^ 2 := by rw [← pow_mul, mul_comm, pow_mul]; norm_num
    have hsquare : (2 : ℝ) ^ (2 * j) = (2 ^ j) ^ 2 := by rw [mul_comm, zpow_mul, zpow_ofNat]
    have hscale : (2 : ℝ) ^ (-j - (n.log2 + 41 : Nat)) = (2 ^ j)⁻¹ / 2 ^ (n.log2 + 41) := by
      rw [zpow_sub₀ two_ne_zero, zpow_neg, zpow_natCast]
    push_cast at hscale
    rw [hval, Int.mul_ediv_cancel_left _ two_ne_zero, hfour, hsquare, hscale]
    field_simp

theorem sfuRsq_near {a : Word} (hf : (f32 a).finite) (h0 : 0 < (f32 a).value) : (f32 (sfuRsq a)).finite ∧
    |((f32 (sfuRsq a)).value : ℝ) - (√(f32 a).value)⁻¹| ≤ (ulpOf 23 (-149) (f32 (sfuRsq a)).value : ℝ) / 2 := by
  obtain ⟨m, e, h, hm, hm24, hlo, hhi⟩ := f32_positive hf h0
  obtain ⟨n, k, d, hn, hout, hmag, hval⟩ := sfuRsq_eq h hm
  have hroot : (√((f32 a).value : ℝ))⁻¹ = √(((4 ^ k : Nat) : ℝ) / n) * 2 ^ d := by
    rw [← Real.sqrt_inv, hval, sqrt_mul_pow (by positivity)]
  rw [hout, hroot]
  refine sfuOut_root hmag (cutTo_sqrt_div _ hn) ?_
  rw [← hroot, ← Real.sqrt_inv, Real.sqrt_le_left (by positivity)]
  have hv : (f32 a).value⁻¹ ≤ (2 ^ 100) ^ 2 := by
    refine inv_le_of_inv_le₀ (by positivity) ?_
    rw [h, FVal.value_num, if_neg Bool.false_ne_true, one_mul]
    calc ((2 ^ 100) ^ 2 : ℚ)⁻¹ ≤ 1 * 2 ^ (-149 : Int) := by norm_num
      _ ≤ (m : ℚ) * 2 ^ e := mul_le_mul (by exact_mod_cast Nat.one_le_iff_ne_zero.mpr hm) (zpow_le_zpow_right₀ one_le_two hlo)
          (by positivity) (by positivity)
  exact_mod_cast hv

end Sys2Proof.Machine
end

section
/-! PROOFS. The obligation on reciprocals and roots (10 R203). -/
open Sys2Proof Sys2Proof.Machine

/-- Settles O11: each function cuts its exact value to a magnitude with a mark below FP32's places (`CutTo`), whose rounding is
that of the exact value (`near_of_cut`). -/
theorem sfuNearest : Obligations.SfuNearest := by
  unfold Obligations.SfuNearest
  exact ⟨fun a => sfuRcp_finite, fun a => sfuRcp_infinite, fun a => sfuSqrt_near, fun a => sfuRsq_near⟩
end

section
/-! PROOFS. Sines and cosines at whole quarters of a turn, powers of two and logarithms at whole numbers, and powers beyond
FP32's range (10 R203). -/
namespace Sys2Proof.Machine

/-! Special operands. -/

theorem sfu_nan {a : Word} (h : Reference.isNan a = true) : sfuRcp a = 0x7FC00000 ∧ sfuRsq a = 0x7FC00000 ∧ sfuSqrt a = 0x7FC00000 ∧
    sfuExp2 a = 0x7FC00000 ∧ sfuLog2 a = 0x7FC00000 ∧ sfuSin a = 0x7FC00000 ∧ sfuCos a = 0x7FC00000 := by
  have hn := (f32_ieee a).1.mp h
  unfold sfuRcp sfuRsq sfuSqrt sfuExp2 sfuLog2 sfuSin sfuCos
  rw [hn]
  exact ⟨rfl, rfl, rfl, rfl, rfl, rfl, rfl⟩

/-- Below zero a root, a reciprocal root and a logarithm are NaN. -/
theorem sfu_negative {a : Word} (hn : Reference.isNan a = false) (hs : Reference.sign a = true) (h0 : a ≠ 0x80000000) :
    sfuRsq a = 0x7FC00000 ∧ sfuSqrt a = 0x7FC00000 ∧ sfuLog2 a = 0x7FC00000 := by
  unfold sfuRsq sfuSqrt sfuLog2
  cases h : f32 a with
  | nan => rw [(f32_ieee a).1.mpr h] at hn; cases hn
  | inf s =>
    obtain rfl := (((f32_ieee a).2 s).mp h).2.2
    rw [hs]
    exact ⟨rfl, rfl, rfl⟩
  | num s m e =>
    obtain ⟨rfl, -⟩ := f32_num h
    have hm : m ≠ 0 := by
      rintro rfl
      refine h0 (BitVec.eq_of_toNat_eq ?_)
      rw [f32_of_expo] at h
      have hlt := a.isLt
      simp only [Reference.sign, decide_eq_true_iff] at hs
      split_ifs at h with h1 h2 h3
      · obtain ⟨-, hfrac, -⟩ := FVal.num.inj h
        simp only [Reference.expo, Reference.frac] at h3 hfrac
        show a.toNat = 0x80000000
        omega
      · obtain ⟨-, hfrac, -⟩ := FVal.num.inj h
        omega
    simp only [hm, if_false, hs, if_true]
    exact ⟨rfl, rfl, rfl⟩

/-! Sine and cosine (R203). -/

/-- The quarters of a magnitude that is a whole number of them. -/
theorem quartersOf_whole {m n : Nat} {e : Int} (he : -149 ≤ e) (h : 4 * ((m : ℚ) * 2 ^ e) = n) : quartersOf m e = (n % 4, 0) := by
  unfold quartersOf
  split
  next hge =>
    obtain ⟨d, rfl⟩ := Int.eq_ofNat_of_zero_le hge
    have hn : n = 4 * (m * 2 ^ d) := by exact_mod_cast h.symm
    rw [hn, Nat.mul_mod_right]
    simp
  next hneg =>
    obtain ⟨d, hd⟩ := Int.eq_ofNat_of_zero_le (show 0 ≤ e + 386 by omega)
    have hwhole (p : Nat) (hp : (2 : ℚ) ^ e * (4 * p) = 2 ^ d) : m * 2 ^ d = n * p := by
      have hq : ((m * 2 ^ d : Nat) : ℚ) = (n * p : Nat) := by
        push_cast
        rw [← hp, ← h]
        ring
      exact_mod_cast hq
    have hpow : (2 : ℚ) ^ e * (4 * (2 ^ 384 : Nat)) = 2 ^ d := by
      rw [Nat.cast_pow, Nat.cast_ofNat, show (4 : ℚ) = 2 ^ 2 by norm_num, ← pow_add, ← zpow_natCast, ← zpow_natCast,
        ← zpow_add₀ two_ne_zero]
      congr 1
    have hx : m * 2 ^ (e + 386).toNat = n * 2 ^ 384 := by rw [hd, Int.toNat_natCast, hwhole _ hpow]
    dsimp only
    rw [hx, Nat.mul_div_cancel _ (by positivity), Nat.mul_mod_left]

/-- A word that is a whole number of quarter turns. -/
theorem quarters_of_value {a : Word} {j : Int} (hf : (f32 a).finite) (h : (f32 a).value = j / 4) : ∃ m e,
    f32 a = .num (Reference.sign a) m e ∧ quartersOf m e = (j.natAbs % 4, 0) ∧ (j ≠ 0 → Reference.sign a = decide (j < 0)) := by
  obtain ⟨s, m, e, hnum⟩ := FVal.finite_iff.mp hf
  obtain ⟨rfl, -, he, -⟩ := f32_num hnum
  refine ⟨m, e, hnum, quartersOf_whole he ?_, fun hj => ?_⟩
  · rw [← FVal.abs_value_num, ← hnum, h, Nat.cast_natAbs, abs_div, Int.cast_abs]
    norm_num
    ring
  · have hv : (f32 a).value < 0 ↔ j < 0 := by
      rw [h, div_lt_iff₀ (by norm_num), zero_mul]
      exact_mod_cast Iff.rfl
    have h0 : (f32 a).value ≠ 0 := by
      rw [h]
      exact div_ne_zero (by exact_mod_cast hj) (by norm_num)
    have hs := FVal.isNeg_iff hf h0
    rw [hv, hnum] at hs
    exact Bool.eq_iff_iff.mpr (hs.trans decide_eq_true_iff.symm)

theorem sfuSin_quarters {a : Word} {j : Int} (hf : (f32 a).finite) (h : (f32 a).value = j / 4) :
    sfuSin a = if j % 2 = 0 then f32Zero (Reference.sign a) else f32One (decide (j % 4 = 3)) := by
  obtain ⟨m, e, hnum, hq, hs⟩ := quarters_of_value hf h
  rw [sfuSin, hnum]
  dsimp only
  rw [hq, sinTurns, if_pos rfl]
  by_cases hj : j % 2 = 0
  · rw [if_pos hj, if_pos (by omega)]
  · rw [if_neg hj, if_neg (by omega), hs (by omega)]
    congr 1
    rw [Bool.eq_iff_iff, bne_iff_ne, ne_eq, decide_eq_decide, decide_eq_true_iff]
    omega

theorem sfuCos_quarters {a : Word} {j : Int} (hf : (f32 a).finite) (h : (f32 a).value = j / 4) :
    sfuCos a = if j % 2 = 0 then f32One (decide (j % 4 = 2)) else 0 := by
  obtain ⟨m, e, hnum, hq, -⟩ := quarters_of_value hf h
  rw [sfuCos, hnum]
  dsimp only
  rw [hq]
  by_cases hj : j % 2 = 0
  · have hodd : (j.natAbs % 4 + 1) % 4 % 2 ≠ 0 := by omega
    rw [if_pos hj, if_neg (by simpa only [decide_true, Bool.true_and, decide_eq_true_iff] using hodd), sinTurns, if_pos rfl, if_neg hodd, Bool.false_bne]
    congr 1
    rw [decide_eq_decide]
    omega
  · have heven : (j.natAbs % 4 + 1) % 4 % 2 = 0 := by omega
    rw [if_neg hj, if_pos (by simpa only [decide_true, Bool.true_and, decide_eq_true_iff] using heven)]

/-! Logarithms of powers of two (R203). -/

theorem sfuLog2_power {a : Word} {k : Int} (hf : (f32 a).finite) (h : (f32 a).value = 2 ^ k) :
    (f32 (sfuLog2 a)).finite ∧ (f32 (sfuLog2 a)).value = k := by
  obtain ⟨m, e, hnum, hm, hm24, hlo, hhi⟩ := f32_positive hf (by rw [h]; positivity)
  have hv : (m : ℚ) * 2 ^ e = 2 ^ k := by rw [← h, hnum, FVal.value_num, if_neg Bool.false_ne_true, one_mul]
  have htop : (m.log2 : Int) + e = k := by
    rw [← FVal.log_value (s := false) hm, ← hnum, h, abs_of_pos (by positivity)]
    exact_mod_cast Int.log_zpow (R := ℚ) one_lt_two k
  have hpow : m = 2 ^ m.log2 := by
    have hq : (m : ℚ) * 2 ^ e = 2 ^ (m.log2 : Int) * 2 ^ e := by rw [hv, ← zpow_add₀ two_ne_zero, htop]
    exact_mod_cast mul_right_cancel₀ (by positivity) hq
  have hlog : m.log2 < 24 := (Nat.log2_lt hm).mpr hm24
  have hout : sfuLog2 a = toF32 0 (ofInt k) := by
    rw [sfuLog2, hnum]
    simp only [hm, if_false, Bool.false_eq_true]
    rw [if_pos hpow, htop]
    rfl
  have hk : k.natAbs < 2 ^ 24 := by omega
  obtain ⟨hfin, hval, -⟩ := toF32_exact four_pos (s := decide (k < 0)) hk (e := 0) (by decide) (by
    have : (k.natAbs : ℚ) < 2 ^ 24 := by exact_mod_cast hk
    norm_num at this ⊢
    linarith)
  rw [hout]
  exact ⟨hfin, hval.trans (by rw [FVal.value_num_int, zpow_zero, mul_one])⟩

/-! Powers of two (R203). -/

theorem floor_fraction (x : Int) {b : Nat} (hb : b ≠ 0) : (x : ℚ) / b = (x / b : Int) + ((x % b).toNat : ℚ) / b ∧ (x % b).toNat < b := by
  have hpos : (0 : ℚ) < b := Nat.cast_pos.mpr (Nat.pos_of_ne_zero hb)
  have hmod := Int.emod_nonneg x (Int.natCast_ne_zero.mpr hb)
  have hlt := Int.emod_lt_of_pos x (Int.natCast_pos.mpr (Nat.pos_of_ne_zero hb))
  have hcast : (((x % b).toNat : Nat) : ℚ) = ((x % b : Int) : ℚ) := by exact_mod_cast Int.toNat_of_nonneg hmod
  have hsplit : (x : ℚ) = (x / b : Int) * b + (x % b : Int) := by exact_mod_cast (Int.ediv_mul_add_emod x b).symm
  refine ⟨?_, by omega⟩
  rw [hcast, div_eq_iff hpos.ne', add_mul, div_mul_cancel₀ _ hpos.ne']
  exact hsplit

/-- A value as its floor and a fraction of 256 bits. -/
theorem splitFix_spec (neg : Bool) (m : Nat) {e : Int} (he : -256 ≤ e) :
    (FVal.num neg m e).value = (splitFix neg m e).1 + (splitFix neg m e).2 / (2 ^ 256 : Nat) ∧ (splitFix neg m e).2 < 2 ^ 256 := by
  have hgrid : (FVal.num neg m e).value =
      (((if neg then -1 else 1) * (m * 2 ^ (e + 256).toNat : Nat) : Int) : ℚ) / (2 ^ 256 : Nat) := by
    have hshift := FVal.value_num_shift neg m (show -256 ≤ e from he)
    rw [sub_neg_eq_add] at hshift
    rw [← hshift, zpow_neg, div_eq_mul_inv]
    norm_num
  obtain ⟨hval, hlt⟩ := floor_fraction ((if neg then -1 else 1) * (m * 2 ^ (e + 256).toNat : Nat)) (show 2 ^ 256 ≠ 0 by decide)
  exact ⟨hgrid.trans hval, hlt⟩

theorem exp2Frac_ge (f : Nat) : 2 ^ 256 ≤ exp2Frac f := Nat.le_add_right ..

theorem expTerm_succ (c : ℝ) (n : Nat) :
    2 ^ 256 * (c ^ n / n.factorial) * (c / (n + 1)) = 2 ^ 256 * (c ^ (n + 1) / (n + 1).factorial) := by
  rw [Nat.factorial_succ, pow_succ]
  push_cast
  field_simp
  rw [pow_succ]

/-- The terms of the series stay below those of the exponential. -/
theorem expSeries_le (fuel n term x : Nat) (hterm : (term : ℝ) ≤ 2 ^ 256 * ((x / 2 ^ 256 : ℝ) ^ n / n.factorial)) :
    (expSeries fuel n term x : ℝ) ≤ 2 ^ 256 * ∑ i ∈ Finset.range fuel, (x / 2 ^ 256 : ℝ) ^ (n + i) / (n + i).factorial := by
  induction fuel generalizing n term with
  | zero => simp [expSeries]
  | succ fuel ih =>
    have hnext : ((term * x / 2 ^ 256 / (n + 1) : Nat) : ℝ) ≤ 2 ^ 256 * ((x / 2 ^ 256 : ℝ) ^ (n + 1) / (n + 1).factorial) := by
      calc ((term * x / 2 ^ 256 / (n + 1) : Nat) : ℝ) ≤ ((term * x / 2 ^ 256 : Nat) : ℝ) / (n + 1 : Nat) := Nat.cast_div_le
        _ ≤ ((term * x : Nat) : ℝ) / (2 ^ 256 : Nat) / (n + 1 : Nat) := div_le_div_of_nonneg_right Nat.cast_div_le (Nat.cast_nonneg _)
        _ = term * ((x / 2 ^ 256) / (n + 1)) := by push_cast; ring
        _ ≤ 2 ^ 256 * ((x / 2 ^ 256) ^ n / n.factorial) * ((x / 2 ^ 256) / (n + 1)) :=
          mul_le_mul_of_nonneg_right hterm (by positivity)
        _ = 2 ^ 256 * ((x / 2 ^ 256 : ℝ) ^ (n + 1) / (n + 1).factorial) := expTerm_succ _ n
    have hrest := ih (n + 1) _ hnext
    rw [show expSeries (fuel + 1) n term x = term + expSeries fuel (n + 1) (term * x / 2 ^ 256 / (n + 1)) x from rfl,
      Finset.sum_range_succ', mul_add, Nat.cast_add, add_comm]
    refine add_le_add ?_ hterm
    simpa only [Nat.add_right_comm n 1, Nat.add_assoc] using hrest

/-- A fraction that ends 16 bits after the point gives a power below 2. -/
theorem exp2Frac_lt {f : Nat} (hf : f ≤ 2 ^ 256 - 2 ^ 240) : exp2Frac f < 2 ^ 257 := by
  have hsum := expSeries_le 64 0 (2 ^ 256) (f * ln2Fix / 2 ^ 256) (by
    rw [pow_zero, Nat.factorial_zero, Nat.cast_one, div_one, mul_one, Nat.cast_pow, Nat.cast_ofNat])
  have hx : ((f * ln2Fix / 2 ^ 256 : Nat) : ℝ) / 2 ^ 256 < Real.log 2 := by
    have h1 : f * ln2Fix / 2 ^ 256 * 10 ^ 10 < 6931471803 * 2 ^ 256 := by
      have hle := Nat.mul_le_mul_right (10 ^ 10) (Nat.div_le_div_right (c := 2 ^ 256) (Nat.mul_le_mul_right ln2Fix hf))
      exact hle.trans_lt (by decide)
    have h2 : ((f * ln2Fix / 2 ^ 256 : Nat) : ℝ) * 10 ^ 10 < 6931471803 * 2 ^ 256 := by exact_mod_cast h1
    have h3 := Real.log_two_gt_d9
    rw [div_lt_iff₀ (by positivity)]
    linarith
  have hexp : Real.exp ((f * ln2Fix / 2 ^ 256 : Nat) / 2 ^ 256) < 2 := (Real.lt_log_iff_exp_lt two_pos).mp hx
  have hpart := Real.sum_le_exp_of_nonneg (show (0 : ℝ) ≤ (f * ln2Fix / 2 ^ 256 : Nat) / 2 ^ 256 by positivity) 64
  simp only [Nat.zero_add] at hsum
  have hreal : (exp2Frac f : ℝ) < 2 ^ 257 := by
    calc (exp2Frac f : ℝ) ≤ 2 ^ 256 * _ := hsum
      _ < 2 ^ 256 * 2 := mul_lt_mul_of_pos_left (hpart.trans_lt hexp) (by positivity)
      _ = 2 ^ 257 := (pow_succ 2 256).symm
  exact_mod_cast hreal

/-- Past the largest finite magnitude the nearest number is infinity. -/
theorem toF32_beyond {v : FVal} (hf : v.finite) (h : 2 ^ 128 ≤ v.value) : toF32 0 v = 0x7F800000 := by
  have hpos : 0 < v.value := lt_of_lt_of_le (by positivity) h
  have habs : |v.value| = v.value := abs_of_pos hpos
  have hbig : (2 ^ 24 - 1 : ℚ) * 2 ^ (104 : Int) ≤ |v.value| := by
    rw [habs]
    norm_num at h ⊢
    linarith
  have hpast : infinitePast 0 v.value := by
    show (2 ^ 25 - 1 : ℚ) * 2 ^ (103 : Int) ≤ |v.value|
    rw [habs]
    norm_num at h ⊢
    linarith
  rw [(toF32_large four_pos hf hpos.ne' hbig).1 ((pastFp32_infinite_iff four_pos _).mpr hpast), if_neg hpos.not_gt]

/-- Up to half the smallest magnitude the nearest number is zero. -/
theorem toF32_tiny {v : FVal} (hf : v.finite) (hpos : 0 < v.value) (h : v.value ≤ 2 ^ (-150 : Int)) : toF32 0 v = 0 := by
  obtain ⟨n, hn, -, hfits⟩ := toF32_eq four_pos hf hpos.ne'
  have habs : |v.value| = v.value := abs_of_pos hpos
  have hplace : fp32.place v.value = -149 := by
    refine max_eq_right ?_
    have hlog : Int.log 2 |v.value| < -149 := by
      rw [← Int.lt_zpow_iff_log_lt one_lt_two (abs_pos.mpr hpos.ne'), habs]
      refine h.trans_lt ?_
      exact_mod_cast zpow_lt_zpow_right₀ (one_lt_two (α := ℚ)) (show (-150 : Int) < -149 by decide)
    simp only [fp32]
    omega
  rw [hplace] at hn hfits
  rw [habs] at hn
  have hhalf : v.value / 2 ^ (-149 : Int) ≤ 1 / 2 := by
    rw [div_le_iff₀ (by positivity)]
    refine h.trans_eq ?_
    norm_num
  have hy : 0 ≤ v.value / 2 ^ (-149 : Int) := by positivity
  have hzero : n = 0 := by
    obtain ⟨hnear, htie⟩ := roundsMag_nearest_iff.mp hn
    have hle : n ≤ 1 := hn.le_of_le (by push_cast; linarith)
    interval_cases n
    · rfl
    · rw [abs_of_nonneg (by push_cast; linarith)] at hnear htie
      exact absurd (htie (by push_cast at hnear ⊢; linarith)) (by decide)
  obtain ⟨-, hcode⟩ := hfits (not_pastFp32 (by
    rw [habs]
    exact_mod_cast h.trans (zpow_le_zpow_right₀ one_le_two (by decide : (-150 : Int) ≤ 127))))
  refine BitVec.eq_of_toNat_eq (hcode.trans ?_)
  rw [hzero, decide_eq_false hpos.not_gt]
  rfl

/-- Below 2^8 a power of two is that of the operand's whole part times a factor of its fraction. -/
theorem sfuExp2_split {a : Word} {s : Bool} {m : Nat} {e : Int} (h : f32 a = .num s m e) (hm : m ≠ 0) (htop : (m.log2 : Int) + e < 8) :
    ∃ w : FVal, w.finite ∧ sfuExp2 a = toF32 0 w ∧ 2 ^ (splitFix s m e).1 ≤ w.value ∧
      ((splitFix s m e).2 = 0 → w = .num false 1 (splitFix s m e).1) ∧
      ((splitFix s m e).2 ≠ 0 → w.value = (exp2Frac (splitFix s m e).2 + 1 / 2) * 2 ^ ((splitFix s m e).1 - 256)) := by
  have hout : sfuExp2 a = if (splitFix s m e).2 = 0 then sfuOut false 1 (splitFix s m e).1 false
      else sfuOut false (exp2Frac (splitFix s m e).2) ((splitFix s m e).1 - 256) true := by
    rw [sfuExp2, h]
    simp only [hm, if_false, not_le.mpr htop]
  rw [hout]
  generalize splitFix s m e = x
  split
  next h0 =>
    refine ⟨.num false 1 x.1, trivial, rfl, ?_, fun _ => rfl, fun h => absurd h0 h⟩
    rw [FVal.value_num, if_neg Bool.false_ne_true, one_mul, Nat.cast_one, one_mul]
  next h0 =>
    have hge := exp2Frac_ge x.2
    have hval := cutVal_sign false (exp2Frac x.2) (x.1 - 256) true
    rw [if_neg Bool.false_ne_true, one_mul, cutVal_abs, if_pos rfl] at hval
    refine ⟨cutVal false (exp2Frac x.2) (x.1 - 256) true, cutVal_finite .., sfuOut_eq false (le_trans (by decide) hge) _ _, ?_,
      fun h => absurd h h0, fun _ => hval⟩
    have hge' : (2 : ℚ) ^ (256 : Int) ≤ exp2Frac x.2 + 1 / 2 := by
      have : ((2 ^ 256 : Nat) : ℚ) ≤ exp2Frac x.2 := Nat.cast_le.mpr hge
      rw [Nat.cast_pow, Nat.cast_ofNat, ← zpow_natCast] at this
      exact this.trans (by linarith)
    calc (2 : ℚ) ^ x.1 = 2 ^ (256 : Int) * 2 ^ (x.1 - 256) := by rw [← zpow_add₀ two_ne_zero, add_sub_cancel]
      _ ≤ _ := hval ▸ mul_le_mul_of_nonneg_right hge' (by positivity)

/-- The whole part of a value, between it and the next. -/
theorem splitFix_bounds (s : Bool) (m : Nat) {e : Int} (he : -149 ≤ e) :
    ((splitFix s m e).1 : ℚ) ≤ (FVal.num s m e).value ∧ (FVal.num s m e).value < (splitFix s m e).1 + 1 ∧
    ((splitFix s m e).2 = 0 ↔ (FVal.num s m e).value = (splitFix s m e).1) := by
  obtain ⟨hval, hlt⟩ := splitFix_spec s m (show -256 ≤ e by omega)
  have hpos : (0 : ℚ) < (2 ^ 256 : Nat) := Nat.cast_pos.mpr (Nat.two_pow_pos 256)
  have hlt' : (((splitFix s m e).2 : Nat) : ℚ) < (2 ^ 256 : Nat) := Nat.cast_lt.mpr hlt
  rw [hval]
  generalize ((2 ^ 256 : Nat) : ℚ) = b at *
  refine ⟨le_add_of_nonneg_right (by positivity), add_lt_add_right ((div_lt_one hpos).mpr hlt') _, ?_⟩
  rw [add_eq_left, div_eq_zero_iff, or_iff_left hpos.ne', Nat.cast_eq_zero]

theorem sfuExp2_past {a : Word} {s : Bool} {m : Nat} {e : Int} (h : f32 a = .num s m e) (hm : m ≠ 0) (htop : 8 ≤ (m.log2 : Int) + e) :
    sfuExp2 a = if s then 0 else 0x7F800000 := by
  rw [sfuExp2, h]
  simp only [hm, if_false, htop, if_true]
  rfl

theorem sfuExp2_overflow {a : Word} (hf : (f32 a).finite) (h : 128 ≤ (f32 a).value) : sfuExp2 a = 0x7F800000 := by
  obtain ⟨m, e, hnum, hm, -, he, -⟩ := f32_positive hf (by linarith)
  rcases le_or_gt 8 ((m.log2 : Int) + e) with htop | htop
  · exact sfuExp2_past hnum hm htop
  · obtain ⟨w, hw, hout, hge, -⟩ := sfuExp2_split hnum hm htop
    obtain ⟨-, hhi, -⟩ := splitFix_bounds false m he
    rw [hnum] at h
    have hfloor : 128 ≤ (splitFix false m e).1 := by
      have : ((127 : Int) : ℚ) < (splitFix false m e).1 := by push_cast; linarith
      exact_mod_cast this
    rw [hout, toF32_beyond hw (le_trans ?_ hge)]
    exact_mod_cast zpow_le_zpow_right₀ (one_le_two (α := ℚ)) hfloor

/-- A value whose last place is 16 bits after the point has such a fraction. -/
theorem splitFix_fraction_le (s : Bool) (m : Nat) {e : Int} (he : -16 ≤ e) : (splitFix s m e).2 ≤ 2 ^ 256 - 2 ^ 240 := by
  have hlt := (splitFix_spec s m (show -256 ≤ e by omega)).2
  have hdvd : 2 ^ 240 ∣ (splitFix s m e).2 := by
    obtain ⟨d, hd⟩ := Int.eq_ofNat_of_zero_le (show 0 ≤ e + 16 by omega)
    have hpow : (e + 256).toNat = 240 + d := by omega
    have hx : (2 ^ 240 : Int) ∣ (if s then -1 else 1) * (m * 2 ^ (e + 256).toNat : Nat) := by
      rw [hpow, pow_add]
      refine Dvd.dvd.mul_left ?_ _
      exact_mod_cast (Dvd.intro _ rfl : 2 ^ 240 ∣ 2 ^ 240 * 2 ^ d).mul_left m
    have hmod := (EuclideanDomain.dvd_mod_iff (pow_dvd_pow (2 : Int) (show 240 ≤ 256 by decide))).mpr hx
    have hcast : ((splitFix s m e).2 : Int) = (if s then -1 else 1) * (m * 2 ^ (e + 256).toNat : Nat) % 2 ^ 256 :=
      Int.toNat_of_nonneg (Int.emod_nonneg _ (by decide))
    exact_mod_cast hcast ▸ hmod
  obtain ⟨k, hk⟩ := hdvd
  rw [hk] at hlt ⊢
  omega

theorem sfuExp2_underflow {a : Word} (hf : (f32 a).finite) (h : (f32 a).value ≤ -150) : sfuExp2 a = 0 := by
  obtain ⟨m, e, hnum, hm, hm24, he, -⟩ := f32_nonzero hf (by linarith)
  have hs : Reference.sign a = true := by
    have hneg := (FVal.isNeg_iff hf (by linarith)).mpr (by linarith)
    rwa [hnum] at hneg
  rw [hs] at hnum
  rcases le_or_gt 8 ((m.log2 : Int) + e) with htop | htop
  · exact sfuExp2_past hnum hm htop
  rw [hnum] at h
  obtain ⟨w, hw, hout, hge, hwhole, hpart⟩ := sfuExp2_split hnum hm htop
  obtain ⟨hlo, hhi, hzero⟩ := splitFix_bounds true m he
  rw [hout, toF32_tiny hw (lt_of_lt_of_le (by positivity) hge)]
  by_cases hx : (splitFix true m e).2 = 0
  · rw [hwhole hx, FVal.value_num, if_neg Bool.false_ne_true, one_mul, Nat.cast_one, one_mul]
    refine zpow_le_zpow_right₀ one_le_two ?_
    have : ((splitFix true m e).1 : ℚ) ≤ (-150 : Int) := by push_cast; linarith
    exact_mod_cast this
  · have hfloor : (splitFix true m e).1 ≤ -151 := by
      have hne := mt hzero.mpr hx
      have : ((splitFix true m e).1 : ℚ) < (-150 : Int) := (lt_of_le_of_ne hlo (Ne.symm hne)).trans_le (by push_cast; linarith)
      have : (splitFix true m e).1 < -150 := by exact_mod_cast this
      omega
    have hlast : -16 ≤ e := by
      have hlog := FVal.log_value (s := true) (e := e) hm
      have hseven : 7 ≤ Int.log 2 |(FVal.num true m e).value| := by
        rw [← Int.zpow_le_iff_le_log one_lt_two (abs_pos.mpr (by linarith)), abs_of_neg (by linarith)]
        norm_num
        linarith
      have := (Nat.log2_lt hm).mpr hm24
      omega
    have hfrac : (exp2Frac (splitFix true m e).2 : ℚ) + 1 / 2 ≤ 2 ^ (257 : Int) := by
      have : ((exp2Frac (splitFix true m e).2 + 1 : Nat) : ℚ) ≤ (2 ^ 257 : Nat) :=
        Nat.cast_le.mpr (exp2Frac_lt (splitFix_fraction_le true m hlast))
      rw [Nat.cast_succ, Nat.cast_pow, Nat.cast_ofNat, ← zpow_natCast] at this
      exact le_trans (by linarith) this
    rw [hpart hx]
    calc _ ≤ (2 : ℚ) ^ (257 : Int) * 2 ^ (-407 : Int) :=
          mul_le_mul hfrac (zpow_le_zpow_right₀ one_le_two (by omega)) (by positivity) (by positivity)
      _ = 2 ^ (-150 : Int) := by rw [← zpow_add₀ two_ne_zero]; congr 1

theorem sfuExp2_whole {a : Word} {k : Int} (hf : (f32 a).finite) (h : (f32 a).value = k) (hlo : -149 ≤ k) (hhi : k ≤ 127) :
    (f32 (sfuExp2 a)).finite ∧ (f32 (sfuExp2 a)).value = 2 ^ k := by
  obtain ⟨s, m, e, hnum⟩ := FVal.finite_iff.mp hf
  obtain ⟨-, -, he, -⟩ := f32_num hnum
  rw [hnum] at h
  by_cases hm : m = 0
  · have hk : k = 0 := by exact_mod_cast h.symm.trans (FVal.value_num_eq_zero.mpr hm)
    have hone : f32 (sfuExp2 a) = .num false (2 ^ 23) (-23) := by
      rw [sfuExp2, hnum]
      simp only [hm, if_true]
      decide
    rw [hone, hk, FVal.value_num]
    exact ⟨trivial, by norm_num⟩
  · have htop : (m.log2 : Int) + e < 8 := by
      have habs : |(k : ℚ)| < 2 ^ (8 : Int) := by
        rw [← Int.cast_abs]
        exact_mod_cast show |k| < 256 by rw [abs_lt]; omega
      have h0 : (k : ℚ) ≠ 0 := h ▸ mt FVal.value_num_eq_zero.mp hm
      have hlog := FVal.log_value (s := s) (e := e) hm
      rw [h] at hlog
      rw [← hlog]
      exact (Int.lt_zpow_iff_log_lt one_lt_two (abs_pos.mpr h0)).mp (by exact_mod_cast habs)
    obtain ⟨w, -, hout, -, hwhole, -⟩ := sfuExp2_split hnum hm htop
    obtain ⟨hle, hlt, hzero⟩ := splitFix_bounds s m he
    rw [h] at hle hlt hzero
    have hfloor : (splitFix s m e).1 = k := by
      have h1 : (splitFix s m e).1 ≤ k := by exact_mod_cast hle
      have h2 : k < (splitFix s m e).1 + 1 := by exact_mod_cast hlt
      omega
    rw [hout, hwhole (hzero.mpr (by rw [hfloor])), hfloor]
    obtain ⟨hfin, hval, -⟩ := toF32_exact four_pos (s := false) (m := 1) (by decide) hlo (by
      rw [Nat.cast_one, one_mul]
      exact_mod_cast zpow_le_zpow_right₀ (one_le_two (α := ℚ)) hhi)
    exact ⟨hfin, hval.trans (by rw [FVal.value_num, if_neg Bool.false_ne_true, one_mul, Nat.cast_one, one_mul])⟩

/-! Turns as the table writes them (R203). -/

theorem sfuSin_half {a : Word} {k : Int} (hf : (f32 a).finite) (h : (f32 a).value = k / 2) :
    sfuSin a = if Reference.sign a then 0x80000000 else 0x00000000 := by
  rw [sfuSin_quarters hf (j := 2 * k) (by rw [h]; push_cast; ring), if_pos (by omega)]
  cases Reference.sign a <;> rfl

theorem sfu_quarter {a : Word} {k : Int} (hf : (f32 a).finite) (h : (f32 a).value = 1 / 4 + k / 2) :
    sfuSin a = (if k % 2 = 0 then 0x3F800000 else 0xBF800000) ∧ sfuCos a = 0x00000000 := by
  have hj : (f32 a).value = (1 + 2 * k : Int) / 4 := by rw [h]; push_cast; ring
  have hodd : (1 + 2 * k) % 2 ≠ 0 := by omega
  rw [sfuSin_quarters hf hj, sfuCos_quarters hf hj, if_neg hodd, if_neg hodd]
  refine ⟨?_, rfl⟩
  split
  next hk => rw [decide_eq_false (by omega)]; rfl
  next hk => rw [decide_eq_true (by omega)]; rfl

theorem sfuCos_whole {a : Word} {k : Int} (hf : (f32 a).finite) (h : (f32 a).value = k) : sfuCos a = 0x3F800000 := by
  rw [sfuCos_quarters hf (j := 4 * k) (by rw [h]; push_cast; ring), if_pos (by omega), decide_eq_false (by omega)]
  rfl

theorem sfuCos_half {a : Word} {k : Int} (hf : (f32 a).finite) (h : (f32 a).value = k + 1 / 2) : sfuCos a = 0xBF800000 := by
  rw [sfuCos_quarters hf (j := 4 * k + 2) (by rw [h]; push_cast; ring), if_pos (by omega), decide_eq_true (by omega)]
  rfl

end Sys2Proof.Machine
end

section
/-! PROOFS. The obligation on the transcendental functions (10 R203). -/
open Sys2Proof Sys2Proof.Machine

/-- Settles O10: whole quarters of a turn leave no fraction to the series (`sfuSin_quarters`, `sfuCos_quarters`), whole powers
of two and their logarithms are exact (`sfuExp2_whole`, `sfuLog2_power`), and the series for 2^f stays below 2
(`exp2Frac_lt`). -/
theorem sfuResults : Obligations.SfuResults := by
  unfold Obligations.SfuResults
  exact ⟨vectorOf_unary (fun _ => rfl) fun _ _ => rfl, vectorOf_unary (fun _ => rfl) fun _ _ => rfl,
    vectorOf_unary (fun _ => rfl) fun _ _ => rfl, vectorOf_unary (fun _ => rfl) fun _ _ => rfl,
    vectorOf_unary (fun _ => rfl) fun _ _ => rfl, vectorOf_unary (fun _ => rfl) fun _ _ => rfl,
    vectorOf_unary (fun _ => rfl) fun _ _ => rfl, fun a => sfu_nan, rfl, rfl, rfl, rfl, rfl, rfl, rfl, rfl, rfl, rfl, rfl,
    rfl, rfl, rfl, rfl, by decide, rfl, rfl, rfl, rfl, fun a => sfu_negative, fun a k => sfuSin_half, fun a k => sfu_quarter,
    fun a k => sfuCos_whole, fun a k => sfuCos_half, fun a => sfuExp2_overflow, fun a => sfuExp2_underflow,
    fun a k => sfuExp2_whole, fun a k => sfuLog2_power⟩
end

section
/-! PROOFS. What the write of a vector result leaves, in any lanes (10 R187, R188, R213). -/
namespace Sys2Proof.Machine

theorem putV_p (c : Cx) (op : Nat) (f : Fields) (vals : List (Nat × Word)) (tag : Nat → Tag) :
    (c.putV op f vals tag).p = { c.p with window := (c.putV op f vals tag).p.window } := by
  unfold Cx.putV
  split <;> exact writeLatch_p ..

theorem putV_w (c : Cx) (op : Nat) (f : Fields) (vals : List (Nat × Word)) (tag : Nat → Tag) :
    (c.putV op f vals tag).w = if f.dn then c.w else waveWriteV c.w f.d.toNat vals tag := by
  unfold Cx.putV Cx.writeV
  dsimp only
  split
  · exact writeLatch_w ..
  · rw [writeLatch_w]

section
variable {c e : Cx} {op : Nat} {f : Fields} {v : Nat → Word} {t : Nat → Tag}

/-- The lanes that a vector result names take their values, in the register D unless it is `_`. -/
theorem lanesPost_putV {ls : List Nat} (hl : ∀ l ∈ ls, l < 64)
    (hp : e.p = { ((c.issued op f).putV op f (ls.map fun l => (l, v l)) t).p with
      pc := ((c.issued op f).putV op f (ls.map fun l => (l, v l)) t).p.pc + 1, buffer := [] })
    (hw : e.w = { ((c.issued op f).putV op f (ls.map fun l => (l, v l)) t).w with parts := e.w.parts }) :
    LanesPost (fun _ f => destV f) (fun _ _ l => l ∈ ls) (fun _ _ _ l => v l) (fun _ _ _ q => t q) c f e := by
  have hregs : PartRegs c.p e.p := by
    rw [hp, putV_p]
    exact ⟨rfl, rfl, rfl, rfl, rfl⟩
  rw [putV_w] at hw
  by_cases hdn : f.dn
  · rw [if_pos hdn] at hw
    have hno (n : Nat) : n ∉ destV f := by simp [destV, hdn]
    refine ⟨fun n l _ => ⟨fun hx => absurd hx.1 (hno n), fun _ => ?_⟩, fun n q _ => ⟨fun hx => absurd hx.1 (hno n), fun _ => ?_⟩,
      hregs, ?_⟩
    · rw [Cx.readV, hw]; rfl
    · rw [Cx.readTag, hw]; rfl
    · rw [hw]; rfl
  · rw [if_neg hdn] at hw
    have hmem (n : Nat) : n ∈ destV f ↔ n = f.d.toNat := by simp [destV, hdn]
    refine ⟨fun n l hlt => ?_, fun n q hlt => ?_, hregs, ?_⟩
    · rw [Cx.readV, hw, hmem]
      exact waveWriteV_v c.w f.d.toNat ls v t hl n l hlt
    · rw [Cx.readTag, hw, hmem]
      exact waveWriteV_tags c.w f.d.toNat ls v t hl n q hlt
    · rw [hw, waveWriteV_rest]; rfl

theorem LanesPost.congr {regs : Cx → Fields → List Nat} {at_ at' : Cx → Fields → Nat → Prop} {h h' : Cx → Fields → Nat → Nat → Word}
    {tag tag' : Cx → Fields → Nat → Nat → Tag} (hpost : LanesPost regs at_ h tag c f e) (hat : ∀ l, at_ c f l ↔ at' c f l)
    (hval : ∀ n ∈ regs c f, ∀ l, at_ c f l → h c f n l = h' c f n l) (htag : ∀ n q, tag c f n q = tag' c f n q) :
    LanesPost regs at' h' tag' c f e := by
  obtain ⟨hv, ht, hrest⟩ := hpost
  simp only [LanesPost, ← hat, ← htag]
  exact ⟨fun n l hl => ⟨fun hx => (hval n hx.1 l hx.2).symm ▸ (hv n l hl).1 hx, (hv n l hl).2⟩, ht, hrest⟩

/-- Where no lane takes part, no register changes. -/
theorem lanesPost_none {regs : Cx → Fields → List Nat} {at_ : Cx → Fields → Nat → Prop} {h : Cx → Fields → Nat → Nat → Word}
    {tag : Cx → Fields → Nat → Nat → Tag} (hno : ∀ l, ¬ at_ c f l)
    (hp : e.p = { (c.issued op f).p with pc := (c.issued op f).p.pc + 1, buffer := [] })
    (hw : e.w = { (c.issued op f).w with parts := e.w.parts }) : LanesPost regs at_ h tag c f e := by
  refine ⟨fun n l _ => ⟨fun hx => absurd hx.2 (hno l), fun _ => ?_⟩, fun n q _ => ⟨fun ⟨_, l, hl, _⟩ => absurd hl (hno l), fun _ => ?_⟩,
    ?_, ?_⟩
  · rw [Cx.readV, hw]; rfl
  · rw [Cx.readTag, hw]; rfl
  · rw [hp]; exact ⟨rfl, rfl, rfl, rfl, rfl⟩
  · rw [hw]; rfl

end

end Sys2Proof.Machine
end

section
/-! PROOFS. Conversion between element formats (10 R204, R205; 04 R74; 08 R138-R141). -/
namespace Sys2Proof.Machine

/-! The instruction (R205). -/

/-- The bits of D that a conversion keeps; a latch has none, and a free value stands for them (log 2). -/
def Cx.keptWord (c : Cx) (f : Fields) (l : Nat) : Word := if f.dn then Config.freeWord c.s.freeCount l else c.readV f.d.toNat l

def Cx.convertedLane (c : Cx) (f : Fields) (l : Nat) : Word :=
  convertLane (modOf f) (fun x e => c.rs x l e) (c.convertSource f l) (c.keptWord f l)

theorem computes_vcvt : Computes .vcvt 0x05A (VectorPost
    (fun c f l => convertLane (f.x.toNat % 2 ^ 20) (fun x e => c.rs x l e) ((c.issued 0x05A f).convertSource f l)
      (c.readV f.d.toNat l))
    (fun _ f _ => BitVec.ofNat 5 f.x.toNat)) := by
  refine computes_of _ (fun f s => rfl) fun s c f hi => ?_
  set d := (c.issued 0x05A f).putV 0x05A f ((lanesOf (c.activeLanes f)).map fun l => (l, (c.issued 0x05A f).convertedLane f l))
    (fun _ => BitVec.ofNat 5 (modOf f)) with hd
  obtain ⟨d', hd', hp', hw', hwave⟩ : ∃ d', d' = (if f.dn then { d with s := { d.s with freeCount := d.s.freeCount + 1 } } else d) ∧
      d'.p = d.p ∧ d'.w = d.w ∧ WaveOnly d d' := by
    refine ⟨_, rfl, ?_⟩
    split <;> exact ⟨rfl, rfl, rfl, rfl, rfl, rfl, rfl, rfl, rfl, rfl, rfl⟩
  have hmod : modOf f = f.x.toNat % 2 ^ 20 := by rw [modOf, bits, pow_zero, Nat.div_one]
  refine ⟨d', congrArg _ hd'.symm, (WaveOnly.putV ..).trans hwave, ?_, ?_, ?_, ?_, ?_, ?_, ?_, fun e hp hw => ?_⟩
  any_goals rw [hp', hd, putV_p]; rfl
  rw [hp'] at hp
  rw [hw'] at hw
  refine (lanesPost_putV (fun l => mem_lanesOf) hp hw).congr (fun l => Iff.rfl) (fun n hn l _ => ?_) fun n q => ?_
  · have hdn : f.dn = false := by
      unfold destV at hn
      by_contra h
      simp [h] at hn
    rw [Cx.convertedLane, Cx.keptWord, hdn, hmod]
    rfl
  · refine BitVec.eq_of_toNat_eq ?_
    rw [BitVec.toNat_ofNat, BitVec.toNat_ofNat, hmod, Nat.mod_mod_of_dvd _ (pow_dvd_pow 2 (by decide))]

theorem convertSource_eq {c : Cx} {f : Fields} {l : Nat} (h : f.al = true ∨ f.a.toNat < 384) :
    c.convertSource f l = c.opn 0x05A f 0 .int l := by
  have hno : (!f.al && decide (384 ≤ f.a.toNat)) = false := by
    rcases h with h | h
    · rw [h]; rfl
    · rw [decide_eq_false (by omega), Bool.and_false]
  unfold Cx.convertSource
  rw [hno]
  split <;> rfl

/-! Inline constants (R74). -/

theorem constElems_fp32 {n : Nat} (hlo : 1536 ≤ n) (hhi : n ≤ 2047) :
    (f32 (constElems fp32 n)).finite ∧ (f32 (constElems fp32 n)).value = (n : ℚ) - 1792 := by
  have hsmall : ((n : Int) - 1792).natAbs ≤ 256 := by omega
  obtain ⟨c, hc, hround, hval⟩ := fp32_sound.round_exact four_pos 0 true (s := decide ((n : Int) - 1792 < 0))
    (m := ((n : Int) - 1792).natAbs) (e := 0) (hsmall.trans_lt (by decide)) (by decide) (by
      have : ((((n : Int) - 1792).natAbs : Nat) : ℚ) ≤ 256 := by exact_mod_cast hsmall
      rw [fp32_magValue_maxCode]
      norm_num at this ⊢
      linarith)
  have hword : (constElems fp32 n).toNat = fp32.sign (decide ((n : Int) - 1792 < 0)) + c := by
    rw [← toNat_code _ hc, ← hround, constElems, show List.replicate (32 / fp32.w) (fp32.round 0 0 true (ofInt ((n : Int) - 1792))) =
      [fp32.round 0 0 true (ofInt ((n : Int) - 1792))] from rfl, joinBits, joinBits, Nat.mul_zero, Nat.add_zero]
    exact (Nat.mod_mod _ _)
  have hnum : f32 (constElems fp32 n) = fp32.numOf (decide ((n : Int) - 1792 < 0)) c := by
    rw [f32, hword, fp32_sound.decode_sign_add _ hc]
  refine ⟨hnum ▸ fp32.numOf_finite _ _, hnum ▸ hval.trans ?_⟩
  rw [FVal.value_num_int, zpow_zero, mul_one]
  push_cast
  ring

/-! Elements (R205). -/

theorem putBits_word (d : Word) (v : Nat) : putBits d 0 32 v = BitVec.ofNat 32 v := by
  refine BitVec.eq_of_toNat_eq ?_
  rw [putBits_toNat _ _ (by decide), BitVec.toNat_ofNat, Nat.div_eq_of_lt d.isLt]
  omega

/-- One element that fills the word becomes another that does. -/
theorem convertLane_word {m : Nat} (h : Word → Nat → Word) (x d : Word) (hsrc : (elemOf (m / 32 % 32)).width = 32)
    (hdst : (elemOf (m % 32)).width = 32) (hplace : m / 16384 % 8 = 0) : convertLane m h x d =
      BitVec.ofNat 32 (convertElem (elemOf (m / 32 % 32)) (elemOf (m % 32)) (m / 1024 % 8) (m / 8192 % 2 = 1) (h x 0) x.toNat) := by
  have hx : bits x 0 32 = x.toNat := by rw [bits, pow_zero, Nat.div_one, Nat.mod_eq_of_lt x.isLt]
  have hw : BitVec.ofNat 32 x.toNat = x := BitVec.ofNat_toNat ..
  unfold convertLane
  simp only [hsrc, hdst, hplace]
  simp [hx, putBits_word, List.range_succ]

/-! Integers. -/

theorem signed_word (x : Word) : signed 32 x.toNat = x.toInt := by
  have hlt := x.isLt
  rw [BitVec.toInt_eq_toNat_cond, signed]
  simp only [Nat.mod_eq_of_lt hlt, show ¬ (32 = 0) by decide, if_false]
  split <;> split <;> omega

theorem satInt_word (sgn : Bool) (i : Int) : BitVec.ofNat 32 (satInt 32 sgn i) =
    Reference.int (if sgn then max (-2 ^ 31) (min (2 ^ 31 - 1) i) else max 0 (min (2 ^ 32 - 1) i)) := by
  unfold satInt Reference.int
  rw [BitVec.ofNat_toNat, BitVec.setWidth_eq]
  cases sgn <;> rfl

theorem convertLane_signed_unsigned (x : Word) :
    convertLane (0x07 * 32 + 0x08) (fun _ _ => 0) x 0 = Reference.nat (max 0 x.toInt).toNat := by
  have hlt := BitVec.toInt_lt (x := x)
  rw [convertLane_word _ x 0 rfl rfl rfl, show convertElem _ _ _ _ _ x.toNat = satInt 32 false (signed 32 x.toNat) from rfl,
    signed_word, satInt_word, if_neg Bool.false_ne_true, Reference.nat, ← BitVec.ofInt_natCast, Reference.int]
  congr 1
  omega

theorem convertLane_unsigned_signed (x : Word) :
    convertLane (0x08 * 32 + 0x07) (fun _ _ => 0) x 0 = Reference.nat (min x.toNat (2 ^ 31 - 1)) := by
  have hlt := x.isLt
  rw [convertLane_word _ x 0 rfl rfl rfl, show convertElem _ _ _ _ _ x.toNat = satInt 32 true (x.toNat % 2 ^ 32 : Nat) from rfl,
    satInt_word, if_pos rfl, Reference.nat, ← BitVec.ofInt_natCast, Reference.int, Nat.mod_eq_of_lt hlt]
  congr 1
  omega

theorem convertLane_place (x d : Word) : convertLane (2 * 16384 + 0x07 * 32 + 0x0C) (fun _ _ => 0) x d =
    Reference.nat (d.toNat % 2 ^ 16 + 2 ^ 16 * (min 255 (max 0 x.toInt)).toNat + 2 ^ 24 * (d.toNat / 2 ^ 24)) := by
  have hx : bits x 0 32 = x.toNat := by rw [bits, pow_zero, Nat.div_one, Nat.mod_eq_of_lt x.isLt]
  have hput : convertLane (2 * 16384 + 0x07 * 32 + 0x0C) (fun _ _ => 0) x d = putBits d 16 8 (satInt 8 false (signed 32 (bits x 0 32))) := rfl
  have hsat : satInt 8 false x.toInt % 2 ^ 8 = (min 255 (max 0 x.toInt)).toNat := by
    have hofInt : satInt 8 false x.toInt = (max 0 (min 255 x.toInt) % 256).toNat := by simp [satInt, BitVec.toNat_ofInt]
    rw [hofInt]
    omega
  have hfits : d.toNat % 2 ^ 16 + 2 ^ 16 * (min 255 (max 0 x.toInt)).toNat + 2 ^ 24 * (d.toNat / 2 ^ 24) < 2 ^ 32 := by
    have := d.isLt
    omega
  refine BitVec.eq_of_toNat_eq ?_
  rw [hput, putBits_toNat _ _ (by decide), hx, signed_word, hsat, Reference.nat, BitVec.toNat_ofNat, Nat.mod_eq_of_lt hfits]

/-! Floating point to integers (R141). -/

theorem convertLane_float_int (x : Word) {mode : Nat} (hmode : mode < 4) :
    convertLane (mode * 1024 + 0x01 * 32 + 0x07) (fun _ _ => 0) x 0 = BitVec.ofNat 32 (floatToInt mode 0 32 true (f32 x)) := by
  have hto : (mode * 1024 + 0x01 * 32 + 0x07) % 32 = 0x07 := by omega
  have hfrom : (mode * 1024 + 0x01 * 32 + 0x07) / 32 % 32 = 0x01 := by omega
  have hmode' : (mode * 1024 + 0x01 * 32 + 0x07) / 1024 % 8 = mode := by omega
  rw [convertLane_word _ x 0 (by rw [hfrom]; rfl) (by rw [hto]; rfl) (by omega), hto, hfrom, hmode']
  rfl

theorem roundsInt_abs_lt {mode : Nat} {y : ℚ} {n : Int} (h : RoundsInt mode y n) : |(n : ℚ)| < |y| + 1 := by
  have hnear {d : ℚ} (hd : |(n : ℚ) - y| < 1) : |(n : ℚ)| < |y| + 1 := by
    have := abs_sub_abs_le_abs_sub (n : ℚ) y
    linarith
  unfold RoundsInt at h
  split at h
  · exact hnear (d := 0) (by linarith [h.1])
  · linarith [h.1]
  · subst h
    exact hnear (d := 0) (abs_lt.mpr ⟨by linarith [Int.le_ceil y], by linarith [Int.ceil_lt_add_one y]⟩)
  · subst h
    exact hnear (d := 0) (abs_lt.mpr ⟨by linarith [Int.lt_floor_add_one y], by linarith [Int.floor_le y]⟩)

/-- A finite value below 2^64 is rounded to an integer, which is then saturated. -/
theorem floatToInt_finite {mode : Nat} (hmode : mode < 4) (h : Word) (w : Nat) (sgn : Bool) {v : FVal} (hf : v.finite)
    (hlt : |v.value| < 2 ^ 64) : ∃ k : Int, floatToInt mode h w sgn v = satInt w sgn k ∧ RoundsInt mode v.value k := by
  obtain ⟨s, m, e, rfl⟩ := FVal.finite_iff.mp hf
  refine ⟨_, rfl, ?_⟩
  rcases lt_or_ge e 64 with he | he
  · rw [if_neg (not_le.mpr he)]
    refine RoundsMag.roundsInt hmode ?_ (FVal.abs_value_num s m e ▸ roundInt_spec hmode s h m e)
    exact FVal.isNeg_sign (v := .num s m e) trivial
  · have hm : m = 0 := by
      by_contra hm
      rw [FVal.abs_value_num] at hlt
      have h1 : (1 : ℚ) ≤ m := by exact_mod_cast Nat.one_le_iff_ne_zero.mpr hm
      have h2 : (2 : ℚ) ^ 64 ≤ 2 ^ e := by exact_mod_cast zpow_le_zpow_right₀ (one_le_two (α := ℚ)) he
      nlinarith
    rw [if_pos he, if_pos hm, neg_zero, ite_self, FVal.value_num_eq_zero.mpr hm]
    exact_mod_cast roundsInt_intCast mode 0

theorem convertLane_float_int_rounds {mode : Nat} {x : Word} (hmode : mode < 4) (hf : (f32 x).finite) (hlt : |(f32 x).value| < 2 ^ 31 - 1) :
    RoundsInt mode (f32 x).value (convertLane (mode * 1024 + 0x01 * 32 + 0x07) (fun _ _ => 0) x 0).toInt := by
  obtain ⟨k, hk, hround⟩ := floatToInt_finite hmode 0 32 true hf (hlt.trans (by norm_num))
  have habs : |k| < 2 ^ 31 := by
    have h := (roundsInt_abs_lt hround).trans (show |(f32 x).value| + 1 < 2 ^ 31 by linarith)
    exact_mod_cast h
  obtain ⟨hlo, hhi⟩ := abs_lt.mp habs
  rw [convertLane_float_int x hmode, hk, satInt_word, if_pos rfl, min_eq_right (by omega), max_eq_right (by omega), Reference.int,
    BitVec.toInt_ofInt, Int.bmod_eq_of_le (by omega) (by omega)]
  exact hround

/-! To floating point. -/

theorem convertLane_int_float {mode : Nat} (x : Word) (hmode : mode < 4) :
    convertLane (mode * 1024 + 0x07 * 32 + 0x01) (fun _ _ => 0) x 0 = toF32 mode (ofInt x.toInt) := by
  have hto : (mode * 1024 + 0x07 * 32 + 0x01) % 32 = 0x01 := by omega
  have hfrom : (mode * 1024 + 0x07 * 32 + 0x01) / 32 % 32 = 0x07 := by omega
  have hmode' : (mode * 1024 + 0x07 * 32 + 0x01) / 1024 % 8 = mode := by omega
  have hsat : (mode * 1024 + 0x07 * 32 + 0x01) / 8192 % 2 = 0 := by omega
  rw [convertLane_word _ x 0 (by rw [hfrom]; rfl) (by rw [hto]; rfl) (by omega), hto, hfrom, hmode', hsat, ← signed_word]
  rfl

theorem convertLane_int_float_rounds {mode : Nat} {x : Word} (hmode : mode < 4) (h0 : x ≠ 0) :
    (f32 (convertLane (mode * 1024 + 0x07 * 32 + 0x01) (fun _ _ => 0) x 0)).finite ∧
      roundsTo 23 (-149) mode x.toInt (f32 (convertLane (mode * 1024 + 0x07 * 32 + 0x01) (fun _ _ => 0) x 0)).value := by
  have hv : (ofInt x.toInt).value = x.toInt := by rw [ofInt, FVal.value_num_int, zpow_zero, mul_one]
  have hne : (x.toInt : ℚ) ≠ 0 := by
    exact_mod_cast fun h : x.toInt = 0 => h0 (BitVec.eq_of_toInt_eq (h.trans BitVec.toInt_zero.symm))
  have hle : |(x.toInt : ℚ)| ≤ 2 ^ 127 := by
    have h1 : |x.toInt| ≤ 2 ^ 31 := abs_le.mpr ⟨BitVec.le_toInt x, BitVec.toInt_lt.le⟩
    have h2 : |(x.toInt : ℚ)| ≤ 2 ^ 31 := by exact_mod_cast h1
    exact h2.trans (by norm_num)
  rw [convertLane_int_float x hmode]
  rcases toF32_finite hmode (v := ofInt x.toInt) trivial (hv ▸ hne) with ⟨hpast, -⟩ | ⟨-, hfin, hround, -⟩
  · exact absurd (hv ▸ hpast) (not_pastFp32 hle)
  · exact ⟨hfin, hv ▸ hround⟩

/-- A magnitude up to the largest finite one rounds within its last place, saturating or not. -/
theorem Fmt.Sound.round_fits {x : Fmt} (hx : x.Sound) {mode : Nat} (hmode : mode < 4) (h : Word) (sat : Bool) {v : FVal} (hf : v.finite)
    (h0 : v.value ≠ 0) (hle : |v.value| ≤ x.magValue x.maxCode) : ∃ c ≤ x.maxCode,
      x.round mode h sat v = x.sign (decide (v.value < 0)) + c ∧ (x.decode (x.round mode h sat v)).finite ∧
      roundsTo x.m (1 - x.bias - x.m) mode v.value (x.decode (x.round mode h sat v)).value := by
  obtain ⟨n, hn, hr⟩ := x.round_eq hmode h sat hf h0
  have hcode := hx.codeOf_le hn h0 hle
  rw [if_neg (not_lt.mpr hcode)] at hr
  obtain ⟨hfin, hround, -⟩ := hx.rounded_spec hmode h0 hn hcode
  exact ⟨_, hcode, hr, hr ▸ hfin, hr ▸ hround⟩

theorem convertLane_narrow {mode : Nat} (x : Word) (hmode : mode < 4) :
    (convertLane (mode * 1024 + 0x01 * 32 + 0x02) (fun _ _ => 0) x 0).toNat % 2 ^ 16 = fp16.round mode 0 false (f32 x) % 2 ^ 16 := by
  have hto : (mode * 1024 + 0x01 * 32 + 0x02) % 32 = 0x02 := by omega
  have hfrom : (mode * 1024 + 0x01 * 32 + 0x02) / 32 % 32 = 0x01 := by omega
  have hmode' : (mode * 1024 + 0x01 * 32 + 0x02) / 1024 % 8 = mode := by omega
  have hsat : (mode * 1024 + 0x01 * 32 + 0x02) / 8192 % 2 = 0 := by omega
  have hplace : (mode * 1024 + 0x01 * 32 + 0x02) / 16384 % 8 = 0 := by omega
  have hx : bits x 0 32 = x.toNat := by rw [bits, pow_zero, Nat.div_one, Nat.mod_eq_of_lt x.isLt]
  have hput : convertLane (mode * 1024 + 0x01 * 32 + 0x02) (fun _ _ => 0) x 0 =
      putBits 0 0 16 (fp16.round mode 0 false (fp32.decode (bits x 0 32))) := by
    unfold convertLane
    rw [hto, hfrom, hmode', hsat, hplace]
    rfl
  rw [hput, putBits_toNat _ _ (by decide), hx]
  simp [f32]

theorem convertLane_narrow_rounds {mode : Nat} {x : Word} (hmode : mode < 4) (hf : (f32 x).finite) (h0 : (f32 x).value ≠ 0)
    (hle : |(f32 x).value| ≤ 65504) :
    (fp16.decode ((convertLane (mode * 1024 + 0x01 * 32 + 0x02) (fun _ _ => 0) x 0).toNat % 2 ^ 16)).finite ∧
      roundsTo 10 (-24) mode (f32 x).value
        (fp16.decode ((convertLane (mode * 1024 + 0x01 * 32 + 0x02) (fun _ _ => 0) x 0).toNat % 2 ^ 16)).value := by
  have hs : fp16.Sound := sound_of_mem (by decide)
  have hmax : fp16.magValue fp16.maxCode = 65504 := by
    rw [hs.magValue_maxCode]
    norm_num [Fmt.topMant, Fmt.topPlace, fp16]
  obtain ⟨c, hc, hr, hfin, hround⟩ := hs.round_fits hmode 0 false hf h0 (hmax ▸ hle)
  have hlt : fp16.round mode 0 false (f32 x) < 2 ^ 16 := by
    have := hc.trans_lt (show fp16.maxCode < 2 ^ 15 by decide)
    have hsign : fp16.sign (decide ((f32 x).value < 0)) ≤ 2 ^ 15 := by cases decide ((f32 x).value < 0) <;> decide
    omega
  rw [convertLane_narrow x hmode, Nat.mod_eq_of_lt hlt]
  exact ⟨hfin, hround⟩

end Sys2Proof.Machine
end

section
/-! PROOFS. The obligation on conversion (10 R204, R205). -/
open Sys2Proof Sys2Proof.Machine

/-- Settles O13: an integer saturates to the type's range (`satInt_word`), and a value that the destination holds is rounded
within its last place (`convertLane_float_int_rounds`, `Fmt.Sound.round_fits`). -/
theorem conversion : Obligations.Conversion := by
  unfold Obligations.Conversion
  refine ⟨computes_vcvt, fun c f l => convertSource_eq, fun n => constElems_fp32, by decide, by decide,
    convertLane_signed_unsigned, convertLane_unsigned_signed, convertLane_place, fun x hn => ?nan, fun mode x hmode hf hlt => ?int,
    fun mode x => convertLane_int_float_rounds, fun mode x => convertLane_narrow_rounds⟩
  case nan =>
    have h := convertLane_float_int x four_pos
    rw [(f32_ieee x).1.mp hn] at h
    exact h
  case int =>
    have h := convertLane_float_int_rounds hmode hf hlt
    interval_cases mode
    · exact h.1
    · exact h
    · exact h
    · exact h
end

section
/-! PROOFS. Lane exchange: shuffles, and lanes by number (10 R211-R213). -/
namespace Sys2Proof.Machine

/-! Segments. -/

theorem segBase_eq (n l : Nat) : segBase n l = l / n * n := by
  rw [segBase, Nat.sub_eq_iff_eq_add (Nat.mod_le l n), Nat.div_add_mod']

theorem segOf_segLen {op : Nat} (h : (opInfo op).width ≠ .wave) (c : Cx) (f : Fields) : segOf c op f = segLen f := by
  rw [segOf, if_neg h, segLen, bits, pow_zero, Nat.div_one, show 2 ^ 3 = 8 from rfl]

theorem segOf_width {op : Nat} (h : (opInfo op).width = .wave) (c : Cx) (f : Fields) : segOf c op f = c.w.width := if_pos h

/-! Shuffles (R212). -/

theorem exchangeOf_shuffle {mk : Fields → Instr} {op : Nat} {n : Cx → Fields → Nat} {pick : Nat → Nat → Nat → Nat}
    (hn : ∀ c f, segOf (c.issued op f) op f = n c f) (he : ∀ f s, exec (mk f) s = shuffle op f s pick) : ExchangeOf mk op n pick := by
  have h := computes_vector (mk := mk) (op := op)
    (fun f c l => c.opn op f 0 .int (segBase (segOf c op f) l + pick (segOf c op f) (l % segOf c op f) (c.opn op f 1 .int l).toNat))
    (fun f c => exchangeTag c op f (c.activeLanes f)
      (fun l => [segBase (segOf c op f) l + pick (segOf c op f) (l % segOf c op f) (c.opn op f 1 .int l).toNat])) he
  simp only [hn, segBase_eq] at h
  exact h

/-! Lanes by number (R213). -/

theorem computes_readLane {mk : Fields → Instr} {op : Nat} (he : ∀ f s, exec (mk f) s = readLane op f s) :
    Computes mk op (ScalarPost (fun c f => c.operand op f 0 .int ((c.operand op f 1 .int 0).toNat % c.w.width % 64))) :=
  computes_scalar (fun f c => c.opn op f 0 .int (c.laneOf (c.opn op f 1 .int 0))) he

theorem computes_writeLane {mk : Fields → Instr} {op : Nat} (he : ∀ f s, exec (mk f) s = writeLane op f s) :
    Computes mk op (LanesPost (fun _ f => destV f)
      (fun c f l => l = (c.operand op f 1 .int 0).toNat % c.w.width % 64 ∧ c.activeLanes f ≠ 0)
      (fun c f _ _ => c.operand op f 0 .int 0) (fun _ _ _ _ => tagAny)) := by
  refine computes_of (fun f c => single f c (.next (c.putV op f [(c.laneOf (c.opn op f 1 .int 0), c.opn op f 0 .int 0)] (fun _ => tagAny))))
    he fun s c f hi => ?_
  by_cases ha : c.activeLanes f = 0
  · refine ⟨c.issued op f, if_pos ha, ⟨rfl, rfl, rfl, rfl, rfl, rfl, rfl, rfl, rfl⟩, rfl, rfl, rfl, rfl, rfl, rfl, rfl, fun e hp hw => ?_⟩
    exact lanesPost_none (fun l hl => hl.2 ha) hp hw
  · have hone : [((c.issued op f).laneOf (c.operand op f 1 .int 0), c.operand op f 0 .int 0)] =
        [(c.issued op f).laneOf (c.operand op f 1 .int 0)].map (fun l => (l, c.operand op f 0 .int 0)) := rfl
    refine ⟨(c.issued op f).putV op f [((c.issued op f).laneOf (c.operand op f 1 .int 0), c.operand op f 0 .int 0)] (fun _ => tagAny),
      if_neg ha, WaveOnly.putV .., ?_, ?_, ?_, ?_, ?_, ?_, ?_, fun e hp hw => ?_⟩
    any_goals rw [putV_p]; rfl
    rw [hone] at hp hw
    have hlane : ∀ l ∈ [(c.issued op f).laneOf (c.operand op f 1 .int 0)], l < 64 := by
      intro l hl
      rw [List.mem_singleton.mp hl]
      exact Nat.mod_lt _ (by decide)
    refine (lanesPost_putV hlane hp hw).congr (fun l => ?_) (fun _ _ _ _ => rfl) fun _ _ => rfl
    rw [List.mem_singleton, and_iff_left ha]
    rfl

end Sys2Proof.Machine
end

section
/-! PROOFS. The obligation on lane exchange (10 R211-R213). -/
open Sys2Proof Sys2Proof.Machine

/-- Settles O15: a shuffle is one vector result whose source lane lies in the segment (`exchangeOf_shuffle`); a lane by number is
one scalar result (`computes_readLane`) or a write of that lane alone (`computes_writeLane`). -/
theorem laneExchange : Obligations.LaneExchange := by
  unfold Obligations.LaneExchange
  refine ⟨exchangeOf_shuffle (fun _ => segOf_segLen (by decide) _) fun _ _ => rfl,
    exchangeOf_shuffle (fun _ => segOf_width (by decide) _) fun _ _ => rfl,
    exchangeOf_shuffle (fun _ => segOf_segLen (by decide) _) fun _ _ => rfl,
    exchangeOf_shuffle (fun _ => segOf_segLen (by decide) _) fun _ _ => rfl,
    exchangeOf_shuffle (fun _ => segOf_segLen (by decide) _) fun _ _ => rfl,
    computes_readLane fun _ _ => rfl, ?_, computes_writeLane fun _ _ => rfl, ?_⟩
  · have h := computes_readLane (mk := .vreadlImm) (op := 0x164) fun _ _ => rfl
    simp only [operand_immB (op := 0x164) rfl] at h
    exact h
  · have h := computes_writeLane (mk := .vwritelImm) (op := 0x165) fun _ _ => rfl
    simp only [operand_immB (op := 0x165) rfl] at h
    exact h
end

section
/-! PROOFS. Votes, matches, reductions and scans over a segment (10 R214-R216; 08 R151). -/
namespace Sys2Proof.Machine

/-! The lanes of a segment that take part. -/

theorem segLen_pos (f : Fields) : 0 < segLen f := by
  unfold segLen
  positivity

theorem tbit_segPart {c : Cx} {f : Fields} {n l j : Nat} (hn : 0 < n) (hj : j < 64) :
    tbit (segPart (c.activeLanes f) n l) j = true ↔ c.peer f n l j := by
  have hmem : j ∈ (List.range n).map (segBase n l + ·) ↔ j / n = l / n := by
    rw [List.mem_map, segBase_eq]
    constructor
    · rintro ⟨i, hi, rfl⟩
      rw [Nat.add_comm, Nat.add_mul_div_right _ _ hn, Nat.div_eq_of_lt (List.mem_range.mp hi), Nat.zero_add]
    · intro h
      exact ⟨j % n, List.mem_range.mpr (Nat.mod_lt _ hn), by rw [← h, Nat.div_add_mod']⟩
  rw [segPart, tbit_and, Bool.and_eq_true, tbit_maskOf _ _ hj, decide_eq_true_iff, hmem, Cx.peer, takes_iff, and_comm,
    and_iff_right hj]

theorem Cx.peer.lt {c : Cx} {f : Fields} {n l j : Nat} (h : c.peer f n l j) : j < 64 := (takes_iff.mp h.2).1

/-! Votes (R214). -/

theorem bne_zero_iff_tbit {w : Nat} (x : BitVec w) : (x != 0) = true ↔ ∃ j < w, tbit x j = true := by
  rw [bne_iff_ne, ne_eq, ← not_iff_not, not_not]
  constructor
  · rintro rfl ⟨j, -, hj⟩
    simp [tbit] at hj
  · intro h
    refine BitVec.eq_of_getLsbD_eq fun j hj => ?_
    rw [show (0 : BitVec w) = 0#w from rfl, BitVec.getLsbD_zero]
    exact Bool.eq_false_of_not_eq_true fun hb => h ⟨j, hj, hb⟩

theorem and_eq_right_iff_tbit {w : Nat} (x y : BitVec w) : x &&& y = y ↔ ∀ j < w, tbit y j = true → tbit x j = true := by
  constructor
  · intro h j _ hy
    rw [← h, tbit_and, Bool.and_eq_true] at hy
    exact hy.1
  · intro h
    refine BitVec.eq_of_getLsbD_eq fun j hj => ?_
    rw [BitVec.getLsbD_and]
    cases hy : y.getLsbD j
    · exact Bool.and_false _
    · rw [Bool.and_true]
      exact h j hj hy

/-- A vote over the lanes of the segment that take part. -/
theorem computes_vote {mk : Fields → Instr} {op : Nat} {v : Lanes → Lanes → Bool} {h : Cx → Fields → Nat → Prop}
    (hop : (opInfo op).width ≠ .wave)
    (hv : ∀ c f l, v (c.readP (f.a.toNat - 392)) (segPart (c.activeLanes f) (segLen f) l) = true ↔ h c f l)
    (he : ∀ f s, exec (mk f) s = vote op f s v) : Computes mk op (PredPost h) := by
  refine computes_test (v := fun f c l => v (c.readP (f.a.toNat - 392)) (segPart (c.activeLanes f) (segOf c op f) l))
    (fun c f l => ?_) he
  rw [segOf_segLen hop]
  exact hv c f l

theorem voteAny_iff (c : Cx) (f : Fields) (l : Nat) (p : Lanes) :
    (p &&& segPart (c.activeLanes f) (segLen f) l != 0) = true ↔ ∃ j, c.peer f (segLen f) l j ∧ tbit p j = true := by
  rw [bne_zero_iff_tbit]
  constructor
  · rintro ⟨j, hj, hb⟩
    rw [tbit_and, Bool.and_eq_true, tbit_segPart (segLen_pos f) hj] at hb
    exact ⟨j, hb.2, hb.1⟩
  · rintro ⟨j, hpeer, hp⟩
    refine ⟨j, hpeer.lt, ?_⟩
    rw [tbit_and, Bool.and_eq_true, tbit_segPart (segLen_pos f) hpeer.lt]
    exact ⟨hp, hpeer⟩

theorem voteAll_iff (c : Cx) (f : Fields) (l : Nat) (p : Lanes) :
    decide (p &&& segPart (c.activeLanes f) (segLen f) l = segPart (c.activeLanes f) (segLen f) l) = true ↔
      ∀ j, c.peer f (segLen f) l j → tbit p j = true := by
  rw [decide_eq_true_iff, and_eq_right_iff_tbit]
  exact ⟨fun h j hpeer => h j hpeer.lt ((tbit_segPart (segLen_pos f) hpeer.lt).mpr hpeer),
    fun h j hj hb => h j ((tbit_segPart (segLen_pos f) hj).mp hb)⟩

/-! One vector result, of an instruction whose operation is known at the issue alone. -/

theorem vectorPost_of_exec {i : Instr} {s : State} {c : Cx} {op : Nat} {f : Fields} (hi : Issues s c op f) (h : Cx → Nat → Word)
    (tag : Cx → Nat → Tag) (he : exec i s = runPart op f s (fun c => .next (c.putV op f (perLane f c (h c)) (tag c)))) :
    ∃ t d, exec i s = .next t ∧ partAt t s.cur = some d ∧ OnlyCore s t c.core ∧ OnlyWave c.k d.k c.slot ∧ OtherParts c d f ∧
      NextInPart c.p d.p ∧ VectorPost (fun c _ => h (c.issued op f)) (fun c _ => tag (c.issued op f)) c f d := by
  obtain ⟨e, hpart, hcore, hwave, hothers, hp, hw⟩ := retire_spec (f := f) hi.1 ((WaveOnly.issued c op f).trans
    (WaveOnly.putV (c.issued op f) op f (perLane f (c.issued op f) (h (c.issued op f))) (tag (c.issued op f))))
  refine ⟨_, e, by rw [he]; exact runPart_next hi rfl, hpart, hcore, hwave, hothers, ?_, lanesPost_putV (fun l => mem_lanesOf) hp hw⟩
  rw [hp, putV_p]
  exact ⟨rfl, rfl, rfl, rfl, rfl, rfl, rfl, rfl⟩

/-! Matches (R216). -/

/-- The first lane of the segment that takes part and holds the lane's own value. -/
def Cx.firstMatch (c : Cx) (f : Fields) (l : Nat) : Nat :=
  ((lanesOf (segPart (c.activeLanes f) (segLen f) l)).find? fun k =>
    decide (c.operand 0x06C f 0 .int k = c.operand 0x06C f 0 .int l)).getD l

theorem firstMatch_spec {c : Cx} {f : Fields} {l : Nat} (hl : c.takes f l) : c.peer f (segLen f) l (c.firstMatch f l) ∧
    c.operand 0x06C f 0 .int (c.firstMatch f l) = c.operand 0x06C f 0 .int l ∧
    ∀ j, c.peer f (segLen f) l j → c.operand 0x06C f 0 .int j = c.operand 0x06C f 0 .int l → c.firstMatch f l ≤ j := by
  have hpeer {j : Nat} (hj : j < 64) := tbit_segPart (c := c) (f := f) (l := l) (segLen_pos f) hj
  rw [Cx.firstMatch, lanesOf, onesBelow, List.find?_filter]
  generalize hfind : List.find? _ (List.range 64) = r
  cases r with
  | none =>
    have h := List.find?_range_eq_none.mp hfind l (takes_iff.mp hl).1
    rw [(hpeer (takes_iff.mp hl).1).mpr ⟨rfl, hl⟩] at h
    simp at h
  | some k =>
    obtain ⟨hk, hlt, hfirst⟩ := List.find?_range_eq_some.mp hfind
    rw [decide_eq_true_iff, decide_eq_true_iff, hpeer (List.mem_range.mp hlt)] at hk
    refine ⟨hk.1, hk.2, fun j hj hval => not_lt.mp fun hjk => ?_⟩
    have h := hfirst j hjk
    rw [(hpeer hj.lt).mpr hj, hval] at h
    simp at h

/-! Reductions and scans (R215). -/

/-- An instruction that under a condition is one reduction. -/
theorem reduceWhen_of {mk : Fields → Instr} {op : Nat} {k : OpKind} {cond : Fields → Prop} {ident : Word}
    {g h : Fields → Nat → List Word → Word} (hop : (opInfo op).width ≠ .wave)
    (he : ∀ f s, cond f → exec (mk f) s = reduce op k f s ident (g f)) (hh : ∀ f i l, g f i l = h f i l) :
    ReduceWhen mk op k cond ident h := by
  obtain rfl : g = h := funext fun f => funext fun i => funext fun l => hh f i l
  intro s c f hi hc
  have hrun := vectorPost_of_exec hi
    (fun c l => g f (l % segOf c op f) (segVals c op k f (c.activeLanes f) (segOf c op f) l ident))
    (fun c => exchangeTag c op f (c.activeLanes f) (fun l => (List.range (segOf c op f)).map (segBase (segOf c op f) l + ·)))
    (he f s hc)
  obtain ⟨t, d, hexec, hpart, hcore, hwave, hothers, hnext, hpost⟩ := hrun
  refine ⟨t, d, hexec, hpart, hcore, hwave, hothers, hnext, hpost.congr (fun _ => Iff.rfl) (fun _ _ l _ => ?_) fun _ q => ?_⟩
  · dsimp only
    rw [segOf_segLen hop, segVals, segBase_eq]
    rfl
  · simp only [segOf_segLen hop, segBase_eq, issued_activeLanes]

theorem foldl_add_eq (l : List Word) : l.foldl (· + ·) 0 = Reference.nat (l.map BitVec.toNat).sum := by
  have hgen (a : Word) : l.foldl (· + ·) a = a + Reference.nat (l.map BitVec.toNat).sum := by
    induction l generalizing a with
    | nil => simp [Reference.nat]
    | cons b l ih =>
      rw [List.foldl_cons, ih, List.map_cons, List.sum_cons, Reference.nat, Reference.nat, BitVec.ofNat_add, BitVec.ofNat_toNat,
        BitVec.setWidth_eq, BitVec.add_assoc]
  rw [hgen, zero_add]

theorem toInt_maxS (a b : Word) : (maxS a b).toInt = max a.toInt b.toInt := by
  rw [maxS_eq, Reference.maxS, Reference.int]
  rcases max_choice a.toInt b.toInt with h | h <;> rw [h, BitVec.ofInt_toInt]

theorem toNat_maxU (a b : Word) : (maxU a b).toNat = max a.toNat b.toNat := by
  rw [maxU_eq, Reference.maxU, Reference.nat]
  rcases max_choice a.toNat b.toNat with h | h <;> rw [h, BitVec.ofNat_toNat, BitVec.setWidth_eq]

theorem foldl_maxS_eq (l : List Word) (a : Word) : l.foldl maxS a = Reference.int ((l.map BitVec.toInt).foldl max a.toInt) := by
  induction l generalizing a with
  | nil => exact int_of_toInt a rfl
  | cons b l ih => rw [List.foldl_cons, ih, toInt_maxS, List.map_cons, List.foldl_cons]

theorem foldl_maxU_eq (l : List Word) (a : Word) : l.foldl maxU a = Reference.nat ((l.map BitVec.toNat).foldl max a.toNat) := by
  induction l generalizing a with
  | nil => exact nat_of_toNat a rfl
  | cons b l ih => rw [List.foldl_cons, ih, toNat_maxU, List.map_cons, List.foldl_cons]

/-! The type of a reduction (R215). -/

theorem redType_eq (f : Fields) : redType f = f.x.toNat / 8 % 4 := rfl

theorem exec_vredadd_float {f : Fields} (h : f.x.toNat / 8 % 4 = 2) (s : State) :
    exec (.vredadd f) s = reduce 0x069 .f32 f s 0x80000000 (fun _ l => floatTree 7 l) := if_pos h

theorem exec_vredadd_int {f : Fields} (h : f.x.toNat / 8 % 4 ≠ 2) (s : State) :
    exec (.vredadd f) s = reduce 0x069 .int f s 0 (fun _ l => l.foldl (· + ·) 0) := if_neg h

section
variable {f : Fields} (s : State)

theorem exec_vredmax_signed (h : f.x.toNat / 8 % 4 = 0) :
    exec (.vredmax f) s = reduce 0x06A .int f s 0x80000000 (fun _ l => l.foldl maxS 0x80000000) := by
  show execVredmax f s = _
  simp only [execVredmax, redType_eq, h]

theorem exec_vredmax_unsigned (h : f.x.toNat / 8 % 4 = 1) :
    exec (.vredmax f) s = reduce 0x06A .int f s 0 (fun _ l => l.foldl maxU 0) := by
  show execVredmax f s = _
  simp only [execVredmax, redType_eq, h]

theorem exec_vredmax_float (h : f.x.toNat / 8 % 4 = 2) : exec (.vredmax f) s = reduce 0x06A .f32 f s 0xFF800000 (fun _ l =>
    (l.drop 1).foldl (fun a b => BitVec.ofNat 32 (fp32.select true a.toNat b.toNat)) (l.headD 0)) := by
  show execVredmax f s = _
  simp only [execVredmax, redType_eq, h]

end

theorem exec_vscan_float {f : Fields} (h : f.x.toNat / 8 % 4 = 2) (s : State) : exec (.vscan f) s = reduce 0x06B .f32 f s 0x80000000
    (fun i l => (l.take (if tbit f.x 5 then i else i + 1)).foldl f32Add 0x80000000) := if_pos h

theorem exec_vscan_int {f : Fields} (h : f.x.toNat / 8 % 4 ≠ 2) (s : State) : exec (.vscan f) s = reduce 0x06B .int f s 0
    (fun i l => (l.take (if tbit f.x 5 then i else i + 1)).foldl (· + ·) 0) := if_neg h

end Sys2Proof.Machine
end

section
/-! PROOFS. The obligation on votes and reductions (10 R214-R216; 08 R151). -/
open Sys2Proof Sys2Proof.Machine

/-- Settles O16: the lanes that take part in a segment are its peers (`tbit_segPart`), the first that matches is the lowest
(`firstMatch_spec`), and each type of reduction folds the segment's values (`reduceWhen_of`). -/
theorem votesAndReductions : Obligations.VotesAndReductions := by
  unfold Obligations.VotesAndReductions
  refine ⟨computes_vote (v := fun p seg => p &&& seg != 0) (by decide) (fun c f l => voteAny_iff c f l _) fun _ _ => rfl,
    computes_vote (v := fun p seg => p &&& seg = seg) (by decide) (fun c f l => voteAll_iff c f l _) fun _ _ => rfl,
    computes_mask (fun f c => c.activeLanes f &&& c.readP (f.a.toNat - 392)) fun _ _ => rfl, fun s c f hi => ?firsts,
    reduceWhen_of (by decide) (fun _ s h => exec_vredadd_int h s) fun _ _ l => foldl_add_eq l,
    reduceWhen_of (by decide) (fun _ s h => exec_vredadd_float h s) fun _ _ _ => rfl,
    reduceWhen_of (by decide) (fun _ s h => exec_vredmax_signed s h) fun _ _ l => foldl_maxS_eq l _,
    reduceWhen_of (by decide) (fun _ s h => exec_vredmax_unsigned s h) fun _ _ l => foldl_maxU_eq l _,
    reduceWhen_of (by decide) (fun _ s h => exec_vredmax_float s h) fun _ _ l => by simp only [List.drop_one, select_eq],
    reduceWhen_of (by decide) (fun _ s h => exec_vscan_int h s) fun _ _ l => foldl_add_eq _,
    reduceWhen_of (by decide) (fun _ s h => exec_vscan_float h s) fun _ _ _ => rfl⟩
  case firsts =>
    have hrun := vectorPost_of_exec (i := .vmatch f) hi (fun c l => BitVec.ofNat 32
      (((lanesOf (segPart (c.activeLanes f) (segOf c 0x06C f) l)).find? fun k =>
        decide (c.opn 0x06C f 0 .int k = c.opn 0x06C f 0 .int l)).getD l)) (fun _ _ => tagI32) rfl
    obtain ⟨t, d, hexec, hpart, hcore, hwave, hothers, hnext, hpost⟩ := hrun
    refine ⟨t, d, hexec, hpart, hcore, hwave, hothers, hnext, c.firstMatch f, ?_, fun l => firstMatch_spec⟩
    refine hpost.congr (fun _ => Iff.rfl) (fun _ _ l _ => ?_) fun _ _ => rfl
    dsimp only
    rw [segOf_segLen (by decide)]
    rfl
end
